-- ==== Sys2Proof/Word.lean ====
section
/-!
DEFINITION. The word types of the Talax: bytes, control tokens and addresses of 64 bits, instruction words of
32 bits, vector registers of 4,096 bits, masks of 1,024 bits (spec 01 R7, 03 R74, 11 R239).
-/
namespace Sys2Proof

/-- A byte of memory. -/
abbrev Byte := BitVec 8
/-- A control-plane value, a general register, an address (03 R74, 09 R196). -/
abbrev Word := BitVec 64
/-- An instruction word (04 R98). -/
abbrev IWord := BitVec 32
/-- A vector register or the bits of a data-plane token (11 R239). -/
abbrev VWord := BitVec 4096
/-- A mask register: one bit for each element position (11 R239). -/
abbrev MWord := BitVec 1024

end Sys2Proof
end

