-- ==== Sys2Proof/Syntax.lean ====
section
/-!
DEFINITION. The instruction set as syntax: the field types of 04 R95 to R107, the sites of the events of
95_what_each_step_holds.md, and the one inductive `Instr` with one constructor for each row of
spec/opcode_table.json.
-/
namespace Sys2Proof

/-- The plane of a slot (03 R74). -/
inductive Plane where
  | ctl | dat
  deriving DecidableEq, Repr

/-- The predicate field (04 R95). The code 01 is reserved and has no constructor. -/
inductive Pred where
  | always | onFalse | onTrue
  deriving DecidableEq, Repr

/-- The kind bits of a target: which operand of the consumer it names (03 R78). -/
inductive TKind where
  | none | left | right | pred
  deriving DecidableEq, Repr

/-- A target field (03 R78). -/
structure Tgt where
  kind : TKind
  slot : BitVec 7
  deriving DecidableEq, Repr

/-- The memory and queue identifier ls0 to ls31 (03 R84). -/
abbrev Ident := BitVec 5

/-- The six levels, which are also the scope codes 0 to 5 (02 R46, 04 R106). -/
inductive Scope where
  | ln | co | qd | di | pk | pd
  deriving DecidableEq, Repr

/-- The data-plane element types of 04 R104 (codes 0x3 and 0x7 are reserved). -/
inductive ElTy where
  | s8 | s16 | s32 | n8 | n16 | n32 | f32 | f16 | bf16 | e4m3 | e5m2 | e2m1 | mx8 | mx4
  deriving DecidableEq, Repr

/-- The rounding modes of 06 R134. -/
inductive RMode where
  | rne | rz | ru | rd | rs
  deriving DecidableEq, Repr

/-- A typed buffer (07 R168), as `tmov` names it (04 R107). -/
inductive Buf where
  | w | a | c
  deriving DecidableEq, Repr

/-- A page size (19 R403, 04 R107). -/
inductive PgSize where
  | k64 | m2 | g1
  deriving DecidableEq, Repr

/-- A link class (20 R425, 04 R107). -/
inductive LnkCls where
  | die | sept | ue
  deriving DecidableEq, Repr

/-- The operand types of `mma` (04 R107). -/
inductive MmaTy where
  | s8 | n8 | f16 | bf16 | e4m3 | e5m2 | e2m1 | mx8 | mx4
  deriving DecidableEq, Repr

/-- The router stage of `rtcfg` (14 R338, 04 R107). -/
inductive RtStage where
  | pass | reduceAdd | reduceMax | filter | multicast
  deriving DecidableEq, Repr

/-- The operands of a G form (04 R98). -/
structure FmtG where
  p : Pred
  t2 : Tgt
  t1 : Tgt
  deriving DecidableEq, Repr

/-- The operands of an I form (04 R98, R99). -/
structure FmtI where
  p : Pred
  imm : BitVec 14
  t1 : Tgt
  deriving DecidableEq, Repr

/-- The operands of a B form (04 R98). -/
structure FmtB where
  p : Pred
  exit : BitVec 3
  off : BitVec 20
  deriving DecidableEq, Repr

/-- The operands of an L form with a displacement (04 R98). -/
structure FmtL where
  p : Pred
  id : Ident
  disp : BitVec 9
  t1 : Tgt
  deriving DecidableEq, Repr

/-- The operands of the two-target load form L2 (04 R98). -/
structure FmtL2 where
  p : Pred
  id : Ident
  t2 : Tgt
  t1 : Tgt
  deriving DecidableEq, Repr

/-- The operands of a data-plane G form: modifier bit, element type, two targets (04 R104, R105). -/
structure FmtV where
  p : Pred
  md : Bool
  ty : ElTy
  t2 : Tgt
  t1 : Tgt
  deriving DecidableEq, Repr

/-- Who fetches and dispatches blocks for a context: its thread, its stream, or one of its handler
activations (02 R40, 12 R287). -/
inductive Fetcher where
  | thread
  | stream
  | act (n : Nat)
  deriving DecidableEq, Repr

/-- A dispatcher: the access grid (`acc` true) or the lattice of a core of a package (02 R60). -/
structure DispKey where
  pkg : Nat
  core : Nat
  acc : Bool
  deriving DecidableEq, Repr

/-- One of the four frames of a grid or lattice (02 R50). -/
structure FrameKey where
  disp : DispKey
  frame : Nat
  deriving DecidableEq, Repr

/-- A slot of the block in a frame (03 R75). -/
structure Cur where
  frame : FrameKey
  slot : Nat
  deriving DecidableEq, Repr

/-- A partition slot of a package (21 R442). -/
structure PartKey where
  pkg : Nat
  part : Nat
  deriving DecidableEq, Repr

/-- A numbered object of a partition: a queue, barrier, signal, group, receive context. -/
structure PKey where
  pk : PartKey
  n : Nat
  deriving DecidableEq, Repr

/-- A link of a package (20 R424, R425). -/
structure LinkKey where
  pkg : Nat
  cls : LnkCls
  n : Nat
  deriving DecidableEq, Repr

/-- A kernel: its partition, launch queue and sequence number there (16 R360). -/
structure KernKey where
  pk : PartKey
  lq : Nat
  seq : Nat
  deriving DecidableEq, Repr

/-- A buffer bank of a core (07 R172). -/
structure BankKey where
  pkg : Nat
  core : Nat
  buf : Buf
  bank : Nat
  deriving DecidableEq, Repr

/-- An Ultra Ethernet frame as the port's classification sees it (20 R433). What the port decides by
means the spec does not describe arrives as a Boolean: whether the tag authenticates, whether the header is well formed,
whether the transport sequence lies in the window and is no duplicate. -/
structure Frame where
  dst : BitVec 32
  secured : Bool
  cipherGcm : Bool
  tagOk : Bool
  headerOk : Bool
  seqOk : Bool
  source : BitVec 32
  payload : List (BitVec 8)
  deriving DecidableEq, Repr

/-- A part that can be lost (21 R453). -/
inductive LostPart where
  | link (k : LinkKey)
  | die (pkg die : Nat)
  | stack (pkg stack : Nat)
  | package (pkg : Nat)
  deriving DecidableEq, Repr

/-- A write by the host (23 R487): through PF BAR0 to a device register of eight bytes; through the window of a virtual function to bytes
of its partition's memory; or a host-link write by the physical function at a physical address (16 R367, 22 R465). -/
inductive HostWr where
  | pf (off : Nat) (v : BitVec 64)
  | vf (n : Nat) (off : Nat) (bytes : List (BitVec 8))
  | mem (pa : Nat) (bytes : List (BitVec 8))
  deriving DecidableEq, Repr

/-- Where an event happens, or which slot issues: what one act of the machine acts on. Each event of
95_what_each_step_holds.md takes its own shape; the state holds the site of the act in progress (log 2). -/
inductive Site where
  | none
  | slot (cu : Cur)
  | frame (f : FrameKey)
  | disp (d : DispKey)
  | ctx (c : Nat)
  | ctxU (c : Nat) (u : Fetcher)
  | ctxQ (c q : Nat)
  | ctxV (c : Nat) (v : BitVec 64)
  | ctxAt (c core pos : Nat)
  | num (n : Nat)
  | pkg (pkg : Nat)
  | dieN (pkg die n : Nat)
  | part (k : PartKey)
  | partLq (k : PartKey) (lq : Nat)
  | partV (k : PartKey) (v : BitVec 64)
  | partOk (k : PartKey) (ok : Bool)
  | obj (k : PKey)
  | objN (k : PKey) (n : Nat)
  | objOk (k : PKey) (ok : Bool)
  | objV (k : PKey) (v : BitVec 128)
  | kern (k : KernKey)
  | bank (k : BankKey)
  | link (k : LinkKey)
  | frameIn (pkg port : Nat) (fr : Frame)
  | lost (w : LostPart)
  | host (pkg : Nat) (w : HostWr)
  deriving DecidableEq, Repr

/-- The instructions: one constructor for each row of spec/opcode_table.json. First the rows with an encoding, which are
what a slot of a block holds; then the events of 95_what_each_step_holds.md, whose site stands in the state. -/
inductive Instr where
  /-- CONST (R194). Produces a sign-extended 16-bit constant. -/
  | const (imm : BitVec 16) (t1 : Tgt)
  /-- CONSTX (R195). Shifts the left operand by 16 and ors in a 16-bit immediate. -/
  | constx (imm : BitVec 16) (t1 : Tgt)
  /-- READ (R196). Takes a register's committed value or an inlet's next token. -/
  | read (reg : BitVec 7) (t2 : Tgt) (t1 : Tgt)
  /-- WRITE (R197). Completes a register of its block at commit. -/
  | write (p : Pred) (reg : BitVec 7)
  /-- MOV (R198). Passes the left token unchanged to its targets. -/
  | mov (g : FmtG)
  /-- NULL (R198). Produces a control-plane null token. -/
  | null (g : FmtG)
  /-- MOV_V (R198). Passes a data-plane token unchanged to its targets. -/
  | movV (g : FmtG)
  /-- NULL_V (R198). Produces a data-plane null token. -/
  | nullV (g : FmtG)
  /-- ADD (R200). 64-bit wrapping addition. -/
  | add (g : FmtG)
  /-- SUB (R200). 64-bit wrapping subtraction. -/
  | sub (g : FmtG)
  /-- MUL (R200). Low 64 bits of the product. -/
  | mul (g : FmtG)
  /-- MULH_S64 (R200). High 64 bits of the signed product. -/
  | mulhS64 (g : FmtG)
  /-- MULH_N64 (R200). High 64 bits of the unsigned product. -/
  | mulhN64 (g : FmtG)
  /-- DIV_S64 (R201). Signed division truncating towards zero with defined zero-divisor result. -/
  | divS64 (g : FmtG)
  /-- DIV_N64 (R201). Unsigned division with defined zero-divisor result. -/
  | divN64 (g : FmtG)
  /-- REM_S64 (R201). Signed remainder with the sign of the dividend. -/
  | remS64 (g : FmtG)
  /-- REM_N64 (R201). Unsigned remainder. -/
  | remN64 (g : FmtG)
  /-- NEG (R200). Wrapping negation. -/
  | neg (g : FmtG)
  /-- ABS (R200). Absolute value taken as s64. -/
  | abs (g : FmtG)
  /-- MIN_S64 (R200). Signed minimum. -/
  | minS64 (g : FmtG)
  /-- MAX_S64 (R200). Signed maximum. -/
  | maxS64 (g : FmtG)
  /-- MIN_N64 (R200). Unsigned minimum. -/
  | minN64 (g : FmtG)
  /-- MAX_N64 (R200). Unsigned maximum. -/
  | maxN64 (g : FmtG)
  /-- AND (R202). Bitwise and. -/
  | and (g : FmtG)
  /-- OR (R202). Bitwise or. -/
  | or (g : FmtG)
  /-- XOR (R202). Bitwise exclusive or. -/
  | xor (g : FmtG)
  /-- ANDN (R202). Left and not right. -/
  | andn (g : FmtG)
  /-- NOT (R202). Bitwise complement. -/
  | not (g : FmtG)
  /-- SHL (R203). Left shift by a 64-bit amount. -/
  | shl (g : FmtG)
  /-- SHR (R203). Logical right shift. -/
  | shr (g : FmtG)
  /-- SAR (R203). Arithmetic right shift. -/
  | sar (g : FmtG)
  /-- ROL (R203). Rotate left. -/
  | rol (g : FmtG)
  /-- ROR (R203). Rotate right. -/
  | ror (g : FmtG)
  /-- POPC (R202). Population count. -/
  | popc (g : FmtG)
  /-- CLZ (R202). Count leading zeros. -/
  | clz (g : FmtG)
  /-- CTZ (R202). Count trailing zeros. -/
  | ctz (g : FmtG)
  /-- BSWAP (R202). Byte reversal. -/
  | bswap (g : FmtG)
  /-- SEXT_S8 (R202). Sign-extends the low byte. -/
  | sextS8 (g : FmtG)
  /-- SEXT_S16 (R202). Sign-extends the low half. -/
  | sextS16 (g : FmtG)
  /-- SEXT_S32 (R202). Sign-extends the low word. -/
  | sextS32 (g : FmtG)
  /-- ZEXT_N8 (R202). Zero-extends the low byte. -/
  | zextN8 (g : FmtG)
  /-- ZEXT_N16 (R202). Zero-extends the low half. -/
  | zextN16 (g : FmtG)
  /-- ZEXT_N32 (R202). Zero-extends the low word. -/
  | zextN32 (g : FmtG)
  /-- TEQ (R204). Tests equality. -/
  | teq (g : FmtG)
  /-- TNE (R204). Tests inequality. -/
  | tne (g : FmtG)
  /-- TLT_S64 (R204). Signed less-than test. -/
  | tltS64 (g : FmtG)
  /-- TLE_S64 (R204). Signed less-or-equal test. -/
  | tleS64 (g : FmtG)
  /-- TGT_S64 (R204). Signed greater-than test. -/
  | tgtS64 (g : FmtG)
  /-- TGE_S64 (R204). Signed greater-or-equal test. -/
  | tgeS64 (g : FmtG)
  /-- TLT_N64 (R204). Unsigned less-than test. -/
  | tltN64 (g : FmtG)
  /-- TLE_N64 (R204). Unsigned less-or-equal test. -/
  | tleN64 (g : FmtG)
  /-- TGT_N64 (R204). Unsigned greater-than test. -/
  | tgtN64 (g : FmtG)
  /-- TGE_N64 (R204). Unsigned greater-or-equal test. -/
  | tgeN64 (g : FmtG)
  /-- TBIT (R204). Tests bit r of l. -/
  | tbit (g : FmtG)
  /-- TZ (R204). Tests for zero. -/
  | tz (g : FmtG)
  /-- TNZ (R204). Tests for non-zero. -/
  | tnz (g : FmtG)
  /-- WSPLIT_B8 (R209). Sets a store data token's event width to 1 byte. -/
  | wsplitB8 (g : FmtG)
  /-- WSPLIT_B16 (R209). Sets a store data token's event width to 2 bytes. -/
  | wsplitB16 (g : FmtG)
  /-- WSPLIT_B32 (R209). Sets a store data token's event width to 4 bytes. -/
  | wsplitB32 (g : FmtG)
  /-- WJOIN_B8 (R210). Sets a load address token's event width to 1 byte. -/
  | wjoinB8 (g : FmtG)
  /-- WJOIN_B16 (R210). Sets a load address token's event width to 2 bytes. -/
  | wjoinB16 (g : FmtG)
  /-- WJOIN_B32 (R210). Sets a load address token's event width to 4 bytes. -/
  | wjoinB32 (g : FmtG)
  /-- LEA_X1 (R207). Address l + r. -/
  | leaX1 (g : FmtG)
  /-- LEA_X2 (R207). Address l + 2r. -/
  | leaX2 (g : FmtG)
  /-- LEA_X4 (R207). Address l + 4r. -/
  | leaX4 (g : FmtG)
  /-- LEA_X8 (R207). Address l + 8r. -/
  | leaX8 (g : FmtG)
  /-- ADDI (R206). Adds a signed immediate. -/
  | addi (f : FmtI)
  /-- ANDI (R206). Ands an unsigned immediate. -/
  | andi (f : FmtI)
  /-- ORI (R206). Ors an unsigned immediate. -/
  | ori (f : FmtI)
  /-- XORI (R206). Xors an unsigned immediate. -/
  | xori (f : FmtI)
  /-- TEQI (R206). Tests equality with a signed immediate. -/
  | teqi (f : FmtI)
  /-- SHLI (R206). Left shift by an immediate. -/
  | shli (f : FmtI)
  /-- SHRI (R206). Logical right shift by an immediate. -/
  | shri (f : FmtI)
  /-- SARI (R206). Arithmetic right shift by an immediate. -/
  | sari (f : FmtI)
  /-- TNEI (R206). Tests inequality with a signed immediate. -/
  | tnei (f : FmtI)
  /-- TLTI (R206). Signed less-than test against an immediate. -/
  | tlti (f : FmtI)
  /-- TGEI (R206). Signed greater-or-equal test against an immediate. -/
  | tgei (f : FmtI)
  /-- TLTUI (R206). Unsigned less-than test against an immediate. -/
  | tltui (f : FmtI)
  /-- TGEUI (R206). Unsigned greater-or-equal test against an immediate. -/
  | tgeui (f : FmtI)
  /-- BR (R213). Names a successor at a relative offset. -/
  | br (b : FmtB)
  /-- CALL (R216). Pushes the return address and branches to a relative successor. -/
  | call (b : FmtB)
  /-- BRR (R213). Branches to the address in its left operand. -/
  | brr (p : Pred) (exit : BitVec 3)
  /-- CALLR (R216). Pushes the return address and branches to a register address. -/
  | callr (p : Pred) (exit : BitVec 3)
  /-- RET (R217). Pops the return stack and continues k steps after the entry. -/
  | ret (p : Pred) (exit : BitVec 3)
  /-- BAR_WAIT (R398). Waits for a barrier phase, continuing at its block or its poison successor. -/
  | barWait (b : FmtB)
  /-- SIG_WAIT (R400). Waits until a signal reaches its threshold. -/
  | sigWait (b : FmtB)
  /-- YIELD (R313). Waits for one dispatch decision of its grid or lattice. -/
  | yield (b : FmtB)
  /-- IDLE (R313). Waits for a pending event, a bq token, or an inlet token. -/
  | idle (b : FmtB)
  /-- LD_N8 (R227). Loads 1 byte zero-extended. -/
  | ldN8 (l : FmtL)
  /-- LD_S8 (R227). Loads 1 byte sign-extended. -/
  | ldS8 (l : FmtL)
  /-- LD_N16 (R227). Loads 2 bytes zero-extended. -/
  | ldN16 (l : FmtL)
  /-- LD_S16 (R227). Loads 2 bytes sign-extended. -/
  | ldS16 (l : FmtL)
  /-- LD_N32 (R227). Loads 4 bytes zero-extended. -/
  | ldN32 (l : FmtL)
  /-- LD_S32 (R227). Loads 4 bytes sign-extended. -/
  | ldS32 (l : FmtL)
  /-- LD_B64 (R227). Loads 8 bytes. -/
  | ldB64 (l : FmtL)
  /-- LD_N8_2T (R227). Two-target form of ld.n8. -/
  | ldN82t (l : FmtL2)
  /-- LD_S8_2T (R227). Two-target form of ld.s8. -/
  | ldS82t (l : FmtL2)
  /-- LD_N16_2T (R227). Two-target form of ld.n16. -/
  | ldN162t (l : FmtL2)
  /-- LD_S16_2T (R227). Two-target form of ld.s16. -/
  | ldS162t (l : FmtL2)
  /-- LD_N32_2T (R227). Two-target form of ld.n32. -/
  | ldN322t (l : FmtL2)
  /-- LD_S32_2T (R227). Two-target form of ld.s32. -/
  | ldS322t (l : FmtL2)
  /-- LD_B64_2T (R227). Two-target form of ld.b64. -/
  | ldB642t (l : FmtL2)
  /-- XLATE (R224). Translates an address and loads a handle, producing a handle or fault token. -/
  | xlate (p : Pred) (id : Ident) (wr : Bool) (th : BitVec 4) (t1 : Tgt)
  /-- XPROBE (R226). Reports on a translation as a status token without faulting. -/
  | xprobe (p : Pred) (id : Ident) (wr : Bool) (th : BitVec 4) (t1 : Tgt)
  /-- PREF (R231). Requests a line into the access cache, never faulting. -/
  | pref (l : FmtL)
  /-- ST_B8 (R229). Stores 1 byte. -/
  | stB8 (p : Pred) (id : Ident) (disp : BitVec 18)
  /-- ST_B16 (R229). Stores 2 bytes. -/
  | stB16 (p : Pred) (id : Ident) (disp : BitVec 18)
  /-- ST_B32 (R229). Stores 4 bytes. -/
  | stB32 (p : Pred) (id : Ident) (disp : BitVec 18)
  /-- ST_B64 (R229). Stores 8 bytes. -/
  | stB64 (p : Pred) (id : Ident) (disp : BitVec 18)
  /-- AMO_ADD (R232). Atomic integer add at the home. -/
  | amoAdd (p : Pred) (id : Ident) (sc : Scope) (wide : Bool) (ord : Bool)
  /-- AMO_ADD_F32 (R232). Atomic f32 add rounded rne. -/
  | amoAddF32 (p : Pred) (id : Ident) (sc : Scope) (ord : Bool)
  /-- AMO_MIN_S (R232). Atomic signed minimum. -/
  | amoMinS (p : Pred) (id : Ident) (sc : Scope) (wide : Bool) (ord : Bool)
  /-- AMO_MAX_S (R232). Atomic signed maximum. -/
  | amoMaxS (p : Pred) (id : Ident) (sc : Scope) (wide : Bool) (ord : Bool)
  /-- AMO_MIN_N (R232). Atomic unsigned minimum. -/
  | amoMinN (p : Pred) (id : Ident) (sc : Scope) (wide : Bool) (ord : Bool)
  /-- AMO_MAX_N (R232). Atomic unsigned maximum. -/
  | amoMaxN (p : Pred) (id : Ident) (sc : Scope) (wide : Bool) (ord : Bool)
  /-- AMO_AND (R232). Atomic and. -/
  | amoAnd (p : Pred) (id : Ident) (sc : Scope) (wide : Bool) (ord : Bool)
  /-- AMO_OR (R232). Atomic or. -/
  | amoOr (p : Pred) (id : Ident) (sc : Scope) (wide : Bool) (ord : Bool)
  /-- AMO_XOR (R232). Atomic exclusive or. -/
  | amoXor (p : Pred) (id : Ident) (sc : Scope) (wide : Bool) (ord : Bool)
  /-- LEASE (R235). Requests exclusive hold of a 128-byte line for a number of cycles. -/
  | lease (p : Pred) (id : Ident) (cyc : BitVec 12)
  /-- UNLEASE (R235). Ends the thread's lease of a line. -/
  | unlease (p : Pred) (id : Ident)
  /-- FENCE_ACQ (R237). Acquire fence of a scope. -/
  | fenceAcq (p : Pred) (id : Ident) (sc : Scope)
  /-- FENCE_REL (R237). Release fence of a scope. -/
  | fenceRel (p : Pred) (id : Ident) (sc : Scope)
  /-- FENCE_AR (R237). Acquire-release fence of a scope. -/
  | fenceAr (p : Pred) (id : Ident) (sc : Scope)
  /-- QFENCE (R187). Orders later events after the operations of the named engine queues. -/
  | qfence (p : Pred) (id : Ident) (set : BitVec 16)
  /-- QPOP (R333). Takes a control-plane token from a partition queue named by its operand. -/
  | qpop (p : Pred) (id : Ident) (t1 : Tgt)
  /-- QPOP_BQ (R333). Takes a token from the pair's branch queue. -/
  | qpopBq (p : Pred) (id : Ident) (t1 : Tgt)
  /-- QPUSH (R332). Appends a control-plane token to a partition queue. -/
  | qpush (p : Pred) (id : Ident) (q : BitVec 12)
  /-- QPUSH_CMDQ (R327). Places a binding command in cmdq. -/
  | qpushCmdq (p : Pred) (id : Ident)
  /-- POP (R334). Takes a control-plane token from an inlet. -/
  | pop (p : Pred) (id : Ident) (inl : BitVec 5) (t1 : Tgt)
  /-- POP_V (R334). Takes a data-plane element from an inlet. -/
  | popV (p : Pred) (id : Ident) (inl : BitVec 5) (t1 : Tgt)
  /-- PEEK (R334). Reports the tag word of the next inlet element without consuming it. -/
  | peek (p : Pred) (id : Ident) (inl : BitVec 5) (t1 : Tgt)
  /-- PEEK_V (R334). Delivers the next data element without consuming it. -/
  | peekV (p : Pred) (id : Ident) (inl : BitVec 5) (t1 : Tgt)
  /-- PUSH (R335). Appends a control-plane token through an outlet. -/
  | push (p : Pred) (id : Ident) (outl : BitVec 5)
  /-- PUSH_BQ (R326). Appends a token to the branch queue. -/
  | pushBq (p : Pred) (id : Ident)
  /-- PUSH_V (R335). Appends a data-plane token through an outlet. -/
  | pushV (p : Pred) (id : Ident) (outl : BitVec 5)
  /-- PUSHM (R329). Appends a round marker and advances the producer round. -/
  | pushm (p : Pred) (id : Ident) (outl : BitVec 5)
  /-- STRM_STAGE (R342). Writes the stride and count of one stage of a stream descriptor. -/
  | strmStage (p : Pred) (id : Ident) (stg : BitVec 3)
  /-- STRM_ROWS (R352). Writes the ragged row description of a descriptor. -/
  | strmRows (p : Pred) (id : Ident)
  /-- STRM_TAG (R342). Writes the task tag of a descriptor. -/
  | strmTag (p : Pred) (id : Ident)
  /-- STRM_GO (R343). Issues a stream operation into its engine queue with a start notice. -/
  | strmGo (p : Pred) (id : Ident)
  /-- STRM_HALT (R344). Ends the head operation of an engine queue at an item boundary. -/
  | strmHalt (p : Pred) (id : Ident)
  /-- SPH_AND (R359). Issues a sparse loop header over the and of two masks. -/
  | sphAnd (p : Pred) (id : Ident) (tree : Bool) (q : BitVec 12)
  /-- SPH_OR (R359). Issues a sparse loop header over the or of two masks. -/
  | sphOr (p : Pred) (id : Ident) (tree : Bool) (q : BitVec 12)
  /-- STEER (R336). Splits a vector's lanes between two outlets by a mask. -/
  | steer (p : Pred) (id : Ident) (m : BitVec 3) (of : BitVec 5) (ot : BitVec 5)
  /-- COLLECT (R337). Merges two inlets back into lane order under m0. -/
  | collect (p : Pred) (id : Ident) (inl : BitVec 5) (t1 : Tgt)
  /-- RTCFG (R338). Sets the router stage of a queue. -/
  | rtcfg (p : Pred) (id : Ident) (stg : RtStage) (q : BitVec 12)
  /-- BAR_INIT (R394). Initialises a barrier's level, phase and expected count. -/
  | barInit (p : Pred) (id : Ident) (sc : Scope)
  /-- BAR_ARRIVE (R391). Makes an arrival of n for a round at the barrier's home. -/
  | barArrive (p : Pred) (id : Ident) (sc : Scope)
  /-- BAR_BIND (R396). Binds the next operation of an engine queue to arrive at the barrier on completion. -/
  | barBind (p : Pred) (id : Ident) (sc : Scope)
  /-- BAR_DROP (R391). Reduces the barrier's expected count. -/
  | barDrop (p : Pred) (id : Ident) (sc : Scope)
  /-- SIG_INC (R400). Adds to a signal at its home. -/
  | sigInc (p : Pred) (id : Ident) (sc : Scope)
  /-- SHAPE_V (R271). Requests a vector shape and places a shape marker. -/
  | shapeV (p : Pred) (id : Ident) (sh : BitVec 3)
  /-- SHAPE_T (R271). Requests a tile shape and places a shape marker. -/
  | shapeT (p : Pred) (id : Ident) (sh : BitVec 3)
  /-- SHSTEP (R272). Reports the current step as a control token and advances the remainder. -/
  | shstep (p : Pred) (id : Ident) (sh : BitVec 3) (t1 : Tgt)
  /-- SHSTEP_V (R272). Reports the current step as a mask and advances the remainder. -/
  | shstepV (p : Pred) (id : Ident) (sh : BitVec 3) (t1 : Tgt)
  /-- MMA (R280). Issues a matrix multiply-accumulate of tile descriptors into an accumulator. -/
  | mma (p : Pred) (id : Ident) (ty : MmaTy) (sat : Bool) (acc : BitVec 4)
  /-- MMA_G (R282). Issues a gathered matrix multiply-accumulate with indexed A rows. -/
  | mmaG (p : Pred) (id : Ident) (ty : MmaTy) (sat : Bool) (acc : BitVec 4)
  /-- TMOV (R286). Issues a tile copy between typed buffers. -/
  | tmov (p : Pred) (id : Ident) (src : Buf) (dst : Buf)
  /-- TMOV_T (R286). Issues a transposing tile copy between typed buffers. -/
  | tmovT (p : Pred) (id : Ident) (src : Buf) (dst : Buf)
  /-- ACCLR (R278). Issues a clear of an accumulator tile. -/
  | acclr (p : Pred) (id : Ident) (acc : BitVec 4)
  /-- ACCST (R278). Issues a store of accumulator rows to an outlet. -/
  | accst (p : Pred) (id : Ident) (acc : BitVec 4)
  /-- ACCRD (R279). Reads one accumulator row into a vector token. -/
  | accrd (p : Pred) (id : Ident) (acc : BitVec 4) (t1 : Tgt)
  /-- TRAP (R308). Commits its block and takes a trap with cause 0x20. -/
  | trap (p : Pred) (code : BitVec 9)
  /-- SVC (R308). Commits its block and takes a system-call trap with cause 0x21. -/
  | svc (p : Pred) (code : BitVec 9)
  /-- BRK (R308). Discards its block and takes a breakpoint trap with cause 0x22. -/
  | brk (p : Pred) (code : BitVec 9)
  /-- RFE (R310). Returns from a handler, restoring privilege and clearing hm. -/
  | rfe (p : Pred)
  /-- CRRD (R311). Reads a control register. -/
  | crrd (p : Pred) (id : Ident) (num : BitVec 9) (t1 : Tgt)
  /-- CRWR (R311). Writes a control register that has no behaviour of its own. -/
  | crwr (p : Pred) (id : Ident) (num : BitVec 9)
  /-- LAUNCH (R363). Accepts a kernel into a launch queue. -/
  | launch (p : Pred) (id : Ident) (lq : BitVec 2)
  /-- GRP_MAKE (R382). Creates and places a new group of the issuer's kernel. -/
  | grpMake (p : Pred) (id : Ident)
  /-- GRP_SPLIT (R383). Collects a split of the issuer's group by colour and key. -/
  | grpSplit (p : Pred) (id : Ident)
  /-- GRP_JOIN (R385). Collects a join of two groups. -/
  | grpJoin (p : Pred) (id : Ident)
  /-- GRP_FREE (R386). Puts a group into freeing, ending its members. -/
  | grpFree (p : Pred) (id : Ident)
  /-- XSHOOT (R413). Performs a shoot-down of a page. -/
  | xshoot (p : Pred) (id : Ident) (sz : PgSize)
  /-- PG_MAP (R421). Writes a resident page entry. -/
  | pgMap (p : Pred) (id : Ident) (sz : PgSize)
  /-- PG_UNMAP (R421). Deletes a page entry. -/
  | pgUnmap (p : Pred) (id : Ident) (sz : PgSize)
  /-- PG_PIN (R421). Pins a resident page. -/
  | pgPin (p : Pred) (id : Ident) (sz : PgSize)
  /-- PG_UNPIN (R421). Unpins a pinned page. -/
  | pgUnpin (p : Pred) (id : Ident) (sz : PgSize)
  /-- PG_POISON (R421). Poisons a resident page. -/
  | pgPoison (p : Pred) (id : Ident) (sz : PgSize)
  /-- PG_PROMOTE (R421). Replaces tiling small pages with one larger entry. -/
  | pgPromote (p : Pred) (id : Ident) (sz : PgSize)
  /-- LNK_UP (R441). Starts training a down link. -/
  | lnkUp (p : Pred) (id : Ident) (cls : LnkCls)
  /-- LNK_DOWN (R441). Takes a link down and reroutes its traffic. -/
  | lnkDown (p : Pred) (id : Ident) (cls : LnkCls)
  /-- LNK_RETRAIN (R441). Starts retraining an up link. -/
  | lnkRetrain (p : Pred) (id : Ident) (cls : LnkCls)
  /-- LNK_CHAIN (R441). Chains a queue to a remote queue or receive context. -/
  | lnkChain (p : Pred) (id : Ident) (cls : LnkCls)
  /-- LNK_UNCHAIN (R441). Stops a chain and returns its queue to open. -/
  | lnkUnchain (p : Pred) (id : Ident) (cls : LnkCls)
  /-- VD_QUIESCE (R464). Brings a virtual device to its transit point. -/
  | vdQuiesce (p : Pred) (id : Ident)
  /-- VD_SEND (R455). Transfers a quiesced virtual device to a target slot. -/
  | vdSend (p : Pred) (id : Ident)
  /-- VD_RESUME (R464). Returns a quiesced virtual device to resident. -/
  | vdResume (p : Pred) (id : Ident)
  /-- VD_RELEASE (R458). Frees the source slot of a settled migration. -/
  | vdRelease (p : Pred) (id : Ident)
  /-- VD_REPLAY (R464). Resets and replays a partition, or rebuilds a lost partner from its twins. -/
  | vdReplay (p : Pred) (id : Ident)
  /-- VADD (R244). Element-wise vector addition. -/
  | vadd (v : FmtV)
  /-- VSUB (R244). Element-wise vector subtraction. -/
  | vsub (v : FmtV)
  /-- VMUL (R244). Element-wise vector multiplication. -/
  | vmul (v : FmtV)
  /-- VMULH (R244). High half of element products. -/
  | vmulh (v : FmtV)
  /-- VMIN (R244). Element-wise minimum. -/
  | vmin (v : FmtV)
  /-- VMAX (R244). Element-wise maximum. -/
  | vmax (v : FmtV)
  /-- VABS (R244). Element-wise absolute value. -/
  | vabs (v : FmtV)
  /-- VNEG (R244). Element-wise negation. -/
  | vneg (v : FmtV)
  /-- VAND (R244). Element-wise and. -/
  | vand (v : FmtV)
  /-- VOR (R244). Element-wise or. -/
  | vor (v : FmtV)
  /-- VXOR (R244). Element-wise exclusive or. -/
  | vxor (v : FmtV)
  /-- VNOT (R244). Element-wise complement. -/
  | vnot (v : FmtV)
  /-- VSHL (R245). Element-wise left shift. -/
  | vshl (v : FmtV)
  /-- VSHR (R245). Element-wise logical right shift. -/
  | vshr (v : FmtV)
  /-- VSAR (R245). Element-wise arithmetic right shift. -/
  | vsar (v : FmtV)
  /-- VCLZ (R244). Element-wise leading-zero count. -/
  | vclz (v : FmtV)
  /-- VPOPC (R244). Element-wise population count. -/
  | vpopc (v : FmtV)
  /-- CMP (R247). Compares elements and produces a mask. -/
  | cmp (p : Pred) (ftz : Bool) (ty : ElTy) (cond : BitVec 3) (t1 : Tgt)
  /-- MSEL (R248). Selects elements of two vectors under a mask register. -/
  | msel (p : Pred) (ty : ElTy) (m : BitVec 3) (t1 : Tgt)
  /-- WADD (R249). Widening addition into low and high halves. -/
  | wadd (v : FmtV)
  /-- WMUL (R249). Widening multiplication into low and high halves. -/
  | wmul (v : FmtV)
  /-- NARROW (R250). Packs two wide vectors into one narrow vector. -/
  | narrow (p : Pred) (sat : Bool) (ty : ElTy) (mode : RMode) (t1 : Tgt)
  /-- CVT (R251). Converts elements between type codes. -/
  | cvt (p : Pred) (sat : Bool) (dst : ElTy) (mode : RMode) (src : ElTy) (t1 : Tgt)
  /-- VRCP (R253). Correctly rounded f32 reciprocal. -/
  | vrcp (p : Pred) (ftz : Bool) (t2 : Tgt) (t1 : Tgt)
  /-- VRSQ (R253). Correctly rounded f32 reciprocal square root. -/
  | vrsq (p : Pred) (ftz : Bool) (t2 : Tgt) (t1 : Tgt)
  /-- VSQRT (R253). Correctly rounded f32 square root. -/
  | vsqrt (p : Pred) (ftz : Bool) (t2 : Tgt) (t1 : Tgt)
  /-- VEXP2 (R253). Correctly rounded f32 power of two. -/
  | vexp2 (p : Pred) (ftz : Bool) (t2 : Tgt) (t1 : Tgt)
  /-- VLOG2 (R253). Correctly rounded f32 base-2 logarithm. -/
  | vlog2 (p : Pred) (ftz : Bool) (t2 : Tgt) (t1 : Tgt)
  /-- RED (R254). Reduces the granted elements by a fixed tree. -/
  | red (p : Pred) (md : Bool) (ty : ElTy) (op : BitVec 3) (t1 : Tgt)
  /-- SCAN (R255). Computes an inclusive or exclusive scan. -/
  | scan (p : Pred) (md : Bool) (ty : ElTy) (excl : Bool) (op : BitVec 3) (t1 : Tgt)
  /-- PERM (R256). Gathers elements by index. -/
  | perm (v : FmtV)
  /-- SLIDE_UP (R257). Moves elements up by a count, filling from a second vector. -/
  | slideUp (p : Pred) (ty : ElTy) (k : BitVec 7) (t1 : Tgt)
  /-- SLIDE_DN (R257). Moves elements down by a count, filling from a second vector. -/
  | slideDn (p : Pred) (ty : ElTy) (k : BitVec 7) (t1 : Tgt)
  /-- BCAST (R258). Copies one element to every position. -/
  | bcast (p : Pred) (ty : ElTy) (k : BitVec 7) (t1 : Tgt)
  /-- MAND (R259). And of two masks. -/
  | mand (g : FmtG)
  /-- MOR (R259). Or of two masks. -/
  | mor (g : FmtG)
  /-- MXOR (R259). Exclusive or of two masks. -/
  | mxor (g : FmtG)
  /-- MNOT (R259). Complement of a mask. -/
  | mnot (g : FmtG)
  /-- MCNT (R259). Counts the ones of a mask into each granted lane. -/
  | mcnt (g : FmtG)
  /-- IOTA (R260). Produces element numbers. -/
  | iota (v : FmtV)
  /-- BLOCK_FETCH (R90). The sequencer fetches a block for a thread, stream or activation and checks its header and configuration words. -/
  | blockFetch
  /-- DISPATCH_DECISION (R60). Each lattice and access grid with a free frame makes one dispatch decision per cycle, choosing a ready candidate by priority and round robin. -/
  | dispatchDecision
  /-- HELD_SLOT_RESUME (R56). An access slot held for want of a queue entry or token resumes when one arrives. -/
  | heldSlotResume
  /-- BLOCK_COMMIT (R87). A block that meets the commit rule commits in one cycle, making its register writes, pops, pushes, commands and stores take effect. -/
  | blockCommit
  /-- INCOMPLETE_BLOCK_FAULT (R89). The oldest block in flight that can no longer progress raises an incomplete-block fault. -/
  | incompleteBlockFault
  /-- TRAP_ENTRY (R295). A trap entry at a block boundary records the cause, sets handler mode and privilege, discards the thread's blocks and jumps to the trap vector. -/
  | trapEntry
  /-- STREAM_FAULT (R296). A synchronous fault of an execute or handler block stops the stream and its activations, fills the stream record and raises a stream-stop event. -/
  | streamFault
  /-- WAIT_END (R58). A waiting thread, stream or activation becomes ready with its successor when its wait condition holds. -/
  | waitEnd
  /-- LOAD_PERFORM (R228). A load performs once its address, earlier stores, fences and older blocks allow, returning each byte from its block, its store path or a candidate. -/
  | loadPerform
  /-- STORE_PATH_PERFORM (R230). The store path performs a committed store-class event as a read-check-merge-recompute on its granule. -/
  | storePathPerform
  /-- AMO_HOME_UPDATE (R233). The home sparse-update unit performs an atomic update, possibly merged, in the location's update order. -/
  | amoHomeUpdate
  /-- LEASE_HOLD (R235). A waiting lease request takes hold when its line falls free and it is first. -/
  | leaseHold
  /-- LEASE_EXPIRY (R236). A held lease whose count reaches zero ends, sets expd and raises a lease-expiry event. -/
  | leaseExpiry
  /-- CMDQ_ADOPT (R188). The stream adopts the entry at the head of cmdq, a shape marker, control-register marker, binding command or start notice, between blocks. -/
  | cmdqAdopt
  /-- CASK_MOVE (R323). The device moves the oldest cask element into the queue window as room appears. -/
  | caskMove
  /-- STREAM_START (R348). The head operation of an engine queue starts once its notice is adopted, its queue role is free and the queue is not frozen. -/
  | streamStart
  /-- STREAM_ITEM (R353). An engine operation generates an item and delivers it, appending elements, writing memory or buffers, or applying updates. -/
  | streamItem
  /-- MMA_K_GROUP (R281). The matrix island performs one K-group of an mma or mma.g, adding its exact group sums into the accumulator. -/
  | mmaKGroup
  /-- TMOV_PERFORM (R286). A queued tile move copies or transposes a tile between typed buffers. -/
  | tmovPerform
  /-- ACCLR_PERFORM (R278). A queued acclr zeroes an accumulator tile. -/
  | acclrPerform
  /-- ACCST_ROW_APPEND (R278). A queued accst converts and appends an accumulator row to its outlet when the window has room. -/
  | accstRowAppend
  /-- ACCRD_DELIVER (R279). An accrd delivers its row once earlier queue-14 commands and earlier activations are done. -/
  | accrdDeliver
  /-- PREEMPT_BEGIN (R304). Pre-emption of a context begins on a request and its sparge starts. -/
  | preemptBegin
  /-- DRAIN_COMPLETE (R304). A sparge whose drain completes writes the sparge image and the context becomes saved. -/
  | drainComplete
  /-- KILN_START (R305). When the drain budget is spent the context's engine clock stops and its state is scanned out. -/
  | kilnStart
  /-- KILN_SCAN_COMPLETE (R305). The kiln scan ends, the kiln image is written and the context becomes saved. -/
  | kilnScanComplete
  /-- CONTEXT_RESTORE (R294). A saved image is checked and reloaded into a free pair position, or refused. -/
  | contextRestore
  /-- LAUNCH_ACCEPT (R361). A host launch entry whose sequence equals tail is accepted into the launch journal when there is room. -/
  | launchAccept
  /-- KERNEL_PLACEMENT (R366). The kernel at the head of a launch queue is checked, its groups placed, queues opened, code pinned and contexts created. -/
  | kernelPlacement
  /-- KERNEL_QUIET (R370). In the first cycle in which every context of a kernel is quiet, the kernel enters completing and requests a fence. -/
  | kernelQuiet
  /-- PARTITION_FENCE (R372). A fence holds journalled queues, writes the fence record, resumes them, and promotes completed kernels' shadows and completion words. -/
  | partitionFence
  /-- KCTL_DONE (R370). A cr.kctl write of command done marks the context done. -/
  | kctlDone
  /-- KCTL_FENCE (R372). A cr.kctl write of command 2 requests a partition fence. -/
  | kctlFence
  /-- KCTL_FAULT (R366). A cr.kctl write of command 3 faults the kernel with the given code. -/
  | kctlFault
  /-- QCTL_OPEN (R320). A cr.qctl open command opens an unallocated queue with a valid record and descriptor. -/
  | qctlOpen
  /-- QCTL_SEAL (R320). A cr.qctl seal command seals the queue against further appends. -/
  | qctlSeal
  /-- QCTL_CLOSE (R320). A cr.qctl close command frees an empty, unbound queue. -/
  | qctlClose
  /-- QWIN_DESCRIPTOR_WRITE (R319). A write of cr.qwinl writes the whole window descriptor with the staged upper half, after the R163 checks. -/
  | qwinDescriptorWrite
  /-- SSTAT_RESUME (R356). Writing act 01 to cr.sstat resumes a parked operation from its cursor. -/
  | sstatResume
  /-- SSTAT_ABANDON (R356). Writing act 10 to cr.sstat ends a parked operation at its cursor. -/
  | sstatAbandon
  /-- XCAUSE_RESUME (R296). Writing act 01 to cr.xcause resumes the stopped stream at cr.xepc. -/
  | xcauseResume
  /-- MXPROG_RESUME (R284). Writing act 01 to cr.mxprog resumes a stopped gather from its next group. -/
  | mxprogResume
  /-- MXPROG_ABANDON (R284). Writing act 10 to cr.mxprog abandons a stopped gather. -/
  | mxprogAbandon
  /-- WST_CANCEL (R402). Writing act 01 to cr.wst cancels the thread's suspended wait. -/
  | wstCancel
  /-- ASN_WRITE (R312). A write of cr.asn changes the address-space number and clears every handle's valid bit. -/
  | asnWrite
  /-- PTCFG_WRITE (R406). A write of cr.ptcfg that changes mode or sizes performs a shoot-down of every page of the partition. -/
  | ptcfgWrite
  /-- RXSEL_SNAPSHOT (R437). A write of cr.rxsel selects a receive context and snapshots its six counters. -/
  | rxselSnapshot
  /-- RXCFG_WRITE (R437). A write of cr.rxcfg configures a receive context, or is refused with a link fault subcode 4. -/
  | rxcfgWrite
  /-- SGVAL_WRITE (R401). A write of cr.sgval is performed at the signal's home in its update order. -/
  | sgvalWrite
  /-- GROUP_PREEMPT (R378). The group scheduler pre-empts lower-priority resident groups until a placing kernel's group fits. -/
  | groupPreempt
  /-- GROUP_RESTORE (R378). The group scheduler restores eligible saved groups onto dies with room. -/
  | groupRestore
  /-- GROUP_MEMBER_END (R386). A member of a freeing group ends once it is done and quiet. -/
  | groupMemberEnd
  /-- SHOOT_DOWN_COMPLETE (R414). A shoot-down completes once every core has acknowledged that old translations are no longer in use. -/
  | shootDownComplete
  /-- BANK_DRAIN_DONE (R172). A draining typed-buffer bank whose last queued access is performed starts scrubbing. -/
  | bankDrainDone
  /-- BANK_SCRUB_DONE (R172). A scrubbing bank whose last granule is written becomes owned by its new partition. -/
  | bankScrubDone
  /-- LINK_TRAINING_COMPLETE (R425). A training or retraining link completes training and goes up, resending unacknowledged granules. -/
  | linkTrainingComplete
  /-- LINK_BUDGET_EXPIRY (R425). A training or retraining budget of 2^20 cycles expires and the link goes down, rerouting traffic. -/
  | linkBudgetExpiry
  /-- FLIT_REPLAY (R425). A flit whose CRC fails is replayed from the retry buffer, and eight failures start retraining. -/
  | flitReplay
  /-- FAR_END_LOSS (R425). The far end reports loss and the link goes down with why 4. -/
  | farEndLoss
  /-- GRANULE_RECEIVE (R427). A receiver delivers, discards as duplicate, or holds a granule by its flow sequence number. -/
  | granuleReceive
  /-- GRANULE_ACK (R427). An acknowledgement frees a granule from the sender's retry buffer. -/
  | granuleAck
  /-- CHAIN_ELEMENT_SEND (R430). The link engine sends an element of a chained queue against a remote reservation. -/
  | chainElementSend
  /-- CHAIN_CONFIRM (R441). The remote end confirms or refuses a chain. -/
  | chainConfirm
  /-- FRAME_RECEIVE (R433). An Ultra Ethernet frame is classified at the port and counted, dropped or delivered into its landing queue. -/
  | frameReceive
  /-- QUIESCE_COMPLETE (R446). When every context is saved and every engine queue stopped the device reaches quiesced at its transit point. -/
  | quiesceComplete
  /-- TRANSFER_COMPLETE (R455). The transfer of vd.send completes and the target starts pulling. -/
  | transferComplete
  /-- SWEEP_SEND (R457). The source sweeps remaining pages to the target in ascending virtual address. -/
  | sweepSend
  /-- PAGE_ARRIVAL (R457). A page arrives at the target, which takes its ownership and source state with a shoot-down. -/
  | pageArrival
  /-- REDIRECT (R458). On a redirect the requester's hub repoints its pod-map pairing, clears its translations and retries at the target. -/
  | redirect
  /-- HANG_DETECT (R449). A partition with no commit and no engine event for the hang interval resets. -/
  | hangDetect
  /-- DETECTED_ERROR (R36). A check-value, residue or parity mismatch resets the affected partition and starts replay. -/
  | detectedError
  /-- PART_LOSS (R453). The loss of a link, die, stack or package starts recovery or sends partitions to failed. -/
  | partLoss
  /-- DEVICE_RESET (R478). A device reset runs the seven bring-up steps from controller ROM to host-link training. -/
  | deviceReset
  /-- HOST_WRITE (R487). A host-link write through a VF window or the PF BAR is performed, or discarded and reported. -/
  | hostWrite
  /-- MB_ASSIGN (R483). The assign command makes a vacant slot resident with its listed resources. -/
  | mbAssign
  /-- MB_CLEAR (R482). The clear command makes a failed or idle slot vacant and scrubs its resources. -/
  | mbClear
  /-- MB_PREEMPT (R482). The preempt command holds a group saved or releases the hold. -/
  | mbPreempt
  /-- MB_PODMAP (R484). The podmap command writes the slot's pod-map pairings or the package's pod number. -/
  | mbPodmap
  /-- MB_PORTMAP (R484). The portmap command writes a port-map entry. -/
  | mbPortmap
  /-- MB_PEER (R484). The peer command writes a peer-table entry. -/
  | mbPeer
  /-- MB_LINKADM (R484). The linkadm command grants or withdraws the link-administration right. -/
  | mbLinkadm
  /-- MB_KEYSET (R486). The keyset command writes an invalid key entry and zeroes the material. -/
  | mbKeyset
  /-- MB_KEYINV (R486). The keyinv command shoots down the owner's pages and invalidates the key. -/
  | mbKeyinv
  /-- MB_ATTEST (R488). The attest command writes a signed 256-byte report. -/
  | mbAttest
  /-- CURRENT_LIMIT_TRIP (R489). A core-rail estimate above amps for 1 us raises idle insertion to four cycles in eight. -/
  | currentLimitTrip
  /-- CURRENT_LIMIT_RELEASE (R489). An estimate below amps for 1 ms ends the raised idle insertion. -/
  | currentLimitRelease
  /-- POWER_IDLE_ADJUST (R27). The management controller adjusts idle insertion in steps of one cycle in eight to keep sustained power within the limit. -/
  | powerIdleAdjust
  /-- REPLAY_COMPLETE (R450). Replay ends once its last step has reopened the journalled queues, unfrozen them and resumed placement, and the slot leaves replaying for resident or pulling. -/
  | replayComplete
  deriving DecidableEq, Repr

end Sys2Proof
end

