-- ==== Sys2Proof/Config.lean ====
section
/-!
DEFINITION. What the spec fixes of the parts and forms of the family, and the free values (logs 1, 5, 6, 12).
-/
namespace Sys2Proof

/-- The parts: Talax-4F and Talax-4N (00 R1). -/
inductive Chip where
  | f | n
  deriving DecidableEq, Repr

/-- The forms in which a part is ordered (00, R2): the bare field die, the five-die package, the module. -/
inductive Form where
  | bare | fiveDie | onModule
  deriving DecidableEq, Repr

namespace Config

/-- Field dies of a package (01 R17). -/
def dies : Nat := 4
/-- Quads of a field die (01 R19). -/
def quadsPerDie : Chip → Nat
  | .f => 16 | .n => 24
/-- Cores of a quad (01 R19). -/
def coresPerQuad : Nat := 4
/-- Cores of a field die (01 R19). -/
def coresPerDie : Chip → Nat
  | .f => 64 | .n => 96
/-- The most cores that a package of either part has (01 R19). -/
def maxCores : Nat := 384
/-- The lanes of a data-plane token (11 R239). -/
def lanes : Nat := 128
/-- The largest native extents M, N and K of the island (12 R266). -/
def island : Chip → Nat
  | .f => 128 | .n => 64
/-- Banks of a typed buffer (07 R168). -/
def banks : Chip → Buf → Nat
  | .f, .w => 24 | .f, .a => 16 | .f, .c => 8 | .n, .w => 16 | .n, .a => 12 | .n, .c => 8

/-- Free Booleans: choices the spec leaves to the device, by the state's counter of free values (log 6). -/
opaque freeBool : Nat → Bool
/-- Free numbers: choices and outcomes the spec leaves open, by the counter (log 6). -/
opaque freeNat : Nat → Nat
/-- Free cycles: how many cycles of a die pass before an event, by the counter, the package and the die (logs 5 and 6). -/
opaque freeCycles : Nat → Nat → Nat → Nat
/-- Free bits: values the spec leaves open, by the counter (log 6). -/
opaque freeBits : Nat → VWord
/-- SM3 digests of byte strings, as 32 bytes (log 12). -/
opaque sm3 : List Byte → BitVec 256
/-- SM2 signatures with the device identity key, and the signature blocks of the capability table (log 12). -/
opaque sm2 : BitVec 256 → BitVec 512
/-- Signature blocks of the capability table, r then s, by the digest that they sign (22 R467, log 12). -/
opaque vendorSig : BitVec 256 → BitVec 512
/-- The identifiers of the keys that sign the capability table (22 R467, log 12). -/
opaque capKeys : BitVec 32
/-- The certificate that follows an attestation report (23 R488, log 12). -/
opaque certificate : Nat → Byte
/-- The digest of the management controller's firmware (23 R488, log 12). -/
opaque firmware : BitVec 256
/-- The serial number and the silicon revision of the part (22 R469, log 1). -/
opaque serial : Nat → BitVec 64
/-- The silicon revision, the kiln generation and the largest klen (22 R469, log 1). -/
opaque revision : BitVec 8
/-- The journal entries that a journal area has room for, by its length in 64 KiB units (21 R444, log 123). -/
opaque journalCap : Nat → Nat
/-- The number of a type of relocation in an object file: `BOFF20`, `IMM16_0` to `IMM16_3`, `ABS32`, `ABS64` and `QID12` by 0 to 7 (05 R125, log 130). -/
opaque relocType : Nat → BitVec 32
/-- The bytes of `.kern`, `.qgraph`, `.rates` and `.shapes` by 0 to 3: rows of fields, each a list of numbers (05 R126, log 130). -/
opaque objTable : Nat → List (List (List Nat)) → List Byte
/-- The kiln generation of the device of each package (13 R294, 22 R469, log 1). -/
opaque kilnGen : Nat → BitVec 16
/-- The sparse-update unit of a die that a granule selects (10 R234, log 136). -/
opaque homeUnit : Nat → Nat

end Config
end Sys2Proof
end

