-- ==== Sys2Proof/WellFormed.lean ====
section
/-!
DEFINITION. Which instructions an encoding of 04 R95 to R107 can give: the legality of field values that the types
of the fields do not already fix. `Instr.wf` is what the decoder accepts; rules on the block an instruction stands in
(targets R78, identifiers R79, kinds R102) are checks of dispatch and not of the word.
-/
namespace Sys2Proof

/-- A target of kind 00 has bits [6:0] equal to zero (03 R78 point 1). -/
def tgtOk (t : Tgt) : Bool := t.kind != .none || t.slot == 0#7

/-- The class I of 04 R104. -/
def ElTy.isI : ElTy → Bool
  | .s8 | .s16 | .s32 | .n8 | .n16 | .n32 => true
  | .f32 | .f16 | .bf16 | .e4m3 | .e5m2 | .e2m1 | .mx8 | .mx4 => false

/-- The class F of 04 R104. -/
def ElTy.isF : ElTy → Bool
  | .f32 | .f16 | .bf16 => true
  | .s8 | .s16 | .s32 | .n8 | .n16 | .n32 | .e4m3 | .e5m2 | .e2m1 | .mx8 | .mx4 => false

/-- The unsigned or raw-bits codes 0x4 to 0x6 of 04 R104. -/
def ElTy.isN : ElTy → Bool
  | .n8 | .n16 | .n32 => true
  | .s8 | .s16 | .s32 | .f32 | .f16 | .bf16 | .e4m3 | .e5m2 | .e2m1 | .mx8 | .mx4 => false

/-- The signed codes 0x0 to 0x2 of 04 R104. -/
def ElTy.isS : ElTy → Bool
  | .s8 | .s16 | .s32 => true
  | .n8 | .n16 | .n32 | .f32 | .f16 | .bf16 | .e4m3 | .e5m2 | .e2m1 | .mx8 | .mx4 => false

/-- The source types of the widening forms and the destination types of `narrow` (04 R105). -/
def ElTy.isNarrow : ElTy → Bool
  | .s8 | .s16 | .n8 | .n16 | .f16 | .bf16 => true
  | .s32 | .n32 | .f32 | .e4m3 | .e5m2 | .e2m1 | .mx8 | .mx4 => false

/-- The numbers that name a control register (13 R311, R312, 14 R319, 15 R357, 16 R362, R371, 17 R379, 18 R401,
19 R422, 20 R437, 21 R460, 22 R466). -/
def crKnown (n : Nat) : Bool :=
  n ≤ 0x12 || (0x20 ≤ n && n ≤ 0x24) || n == 0x28 || n == 0x29 || (0x30 ≤ n && n ≤ 0x34) || n == 0x38 || n == 0x39
  || (0x40 ≤ n && n ≤ 0x51) || (0x60 ≤ n && n ≤ 0x9F)
  || (0x100 ≤ n && n ≤ 0x107)
  || (0x110 ≤ n && n ≤ 0x13F && n != 0x11E && n != 0x12E)
  || (0x140 ≤ n && n ≤ 0x153) || (0x160 ≤ n && n ≤ 0x165) || (0x170 ≤ n && n ≤ 0x175)
  || (0x180 ≤ n && n ≤ 0x18B) || (0x190 ≤ n && n ≤ 0x194) || n == 0x1A0

/-- Well-formedness of an instruction as a word: every field value is one that 04 gives a meaning (R97). An event has
no word and no field to check. -/
def Instr.wf : Instr → Bool
  | .const _ t1 => tgtOk t1
  | .constx _ t1 => tgtOk t1
  | .read reg t2 t1 => tgtOk t2 && tgtOk t1 && reg.toNat ≤ 95
  | .write _ reg => reg.toNat ≤ 71
  | .mov g => tgtOk g.t2 && tgtOk g.t1
  | .null g => tgtOk g.t2 && tgtOk g.t1
  | .movV g => tgtOk g.t2 && tgtOk g.t1
  | .nullV g => tgtOk g.t2 && tgtOk g.t1
  | .add g => tgtOk g.t2 && tgtOk g.t1
  | .sub g => tgtOk g.t2 && tgtOk g.t1
  | .mul g => tgtOk g.t2 && tgtOk g.t1
  | .mulhS64 g => tgtOk g.t2 && tgtOk g.t1
  | .mulhN64 g => tgtOk g.t2 && tgtOk g.t1
  | .divS64 g => tgtOk g.t2 && tgtOk g.t1
  | .divN64 g => tgtOk g.t2 && tgtOk g.t1
  | .remS64 g => tgtOk g.t2 && tgtOk g.t1
  | .remN64 g => tgtOk g.t2 && tgtOk g.t1
  | .neg g => tgtOk g.t2 && tgtOk g.t1
  | .abs g => tgtOk g.t2 && tgtOk g.t1
  | .minS64 g => tgtOk g.t2 && tgtOk g.t1
  | .maxS64 g => tgtOk g.t2 && tgtOk g.t1
  | .minN64 g => tgtOk g.t2 && tgtOk g.t1
  | .maxN64 g => tgtOk g.t2 && tgtOk g.t1
  | .and g => tgtOk g.t2 && tgtOk g.t1
  | .or g => tgtOk g.t2 && tgtOk g.t1
  | .xor g => tgtOk g.t2 && tgtOk g.t1
  | .andn g => tgtOk g.t2 && tgtOk g.t1
  | .not g => tgtOk g.t2 && tgtOk g.t1
  | .shl g => tgtOk g.t2 && tgtOk g.t1
  | .shr g => tgtOk g.t2 && tgtOk g.t1
  | .sar g => tgtOk g.t2 && tgtOk g.t1
  | .rol g => tgtOk g.t2 && tgtOk g.t1
  | .ror g => tgtOk g.t2 && tgtOk g.t1
  | .popc g => tgtOk g.t2 && tgtOk g.t1
  | .clz g => tgtOk g.t2 && tgtOk g.t1
  | .ctz g => tgtOk g.t2 && tgtOk g.t1
  | .bswap g => tgtOk g.t2 && tgtOk g.t1
  | .sextS8 g => tgtOk g.t2 && tgtOk g.t1
  | .sextS16 g => tgtOk g.t2 && tgtOk g.t1
  | .sextS32 g => tgtOk g.t2 && tgtOk g.t1
  | .zextN8 g => tgtOk g.t2 && tgtOk g.t1
  | .zextN16 g => tgtOk g.t2 && tgtOk g.t1
  | .zextN32 g => tgtOk g.t2 && tgtOk g.t1
  | .teq g => tgtOk g.t2 && tgtOk g.t1
  | .tne g => tgtOk g.t2 && tgtOk g.t1
  | .tltS64 g => tgtOk g.t2 && tgtOk g.t1
  | .tleS64 g => tgtOk g.t2 && tgtOk g.t1
  | .tgtS64 g => tgtOk g.t2 && tgtOk g.t1
  | .tgeS64 g => tgtOk g.t2 && tgtOk g.t1
  | .tltN64 g => tgtOk g.t2 && tgtOk g.t1
  | .tleN64 g => tgtOk g.t2 && tgtOk g.t1
  | .tgtN64 g => tgtOk g.t2 && tgtOk g.t1
  | .tgeN64 g => tgtOk g.t2 && tgtOk g.t1
  | .tbit g => tgtOk g.t2 && tgtOk g.t1
  | .tz g => tgtOk g.t2 && tgtOk g.t1
  | .tnz g => tgtOk g.t2 && tgtOk g.t1
  | .wsplitB8 g => tgtOk g.t2 && tgtOk g.t1
  | .wsplitB16 g => tgtOk g.t2 && tgtOk g.t1
  | .wsplitB32 g => tgtOk g.t2 && tgtOk g.t1
  | .wjoinB8 g => tgtOk g.t2 && tgtOk g.t1
  | .wjoinB16 g => tgtOk g.t2 && tgtOk g.t1
  | .wjoinB32 g => tgtOk g.t2 && tgtOk g.t1
  | .leaX1 g => tgtOk g.t2 && tgtOk g.t1
  | .leaX2 g => tgtOk g.t2 && tgtOk g.t1
  | .leaX4 g => tgtOk g.t2 && tgtOk g.t1
  | .leaX8 g => tgtOk g.t2 && tgtOk g.t1
  | .addi f => tgtOk f.t1
  | .andi f => tgtOk f.t1
  | .ori f => tgtOk f.t1
  | .xori f => tgtOk f.t1
  | .teqi f => tgtOk f.t1
  | .shli f => tgtOk f.t1 && f.imm.toNat ≤ 63
  | .shri f => tgtOk f.t1 && f.imm.toNat ≤ 63
  | .sari f => tgtOk f.t1 && f.imm.toNat ≤ 63
  | .tnei f => tgtOk f.t1
  | .tlti f => tgtOk f.t1
  | .tgei f => tgtOk f.t1
  | .tltui f => tgtOk f.t1
  | .tgeui f => tgtOk f.t1
  | .br _ => true
  | .call _ => true
  | .brr _ _ => true
  | .callr _ _ => true
  | .ret _ _ => true
  | .barWait _ => true
  | .sigWait _ => true
  | .yield _ => true
  | .idle _ => true
  | .ldN8 l => tgtOk l.t1
  | .ldS8 l => tgtOk l.t1
  | .ldN16 l => tgtOk l.t1
  | .ldS16 l => tgtOk l.t1
  | .ldN32 l => tgtOk l.t1
  | .ldS32 l => tgtOk l.t1
  | .ldB64 l => tgtOk l.t1
  | .ldN82t l => tgtOk l.t2 && tgtOk l.t1
  | .ldS82t l => tgtOk l.t2 && tgtOk l.t1
  | .ldN162t l => tgtOk l.t2 && tgtOk l.t1
  | .ldS162t l => tgtOk l.t2 && tgtOk l.t1
  | .ldN322t l => tgtOk l.t2 && tgtOk l.t1
  | .ldS322t l => tgtOk l.t2 && tgtOk l.t1
  | .ldB642t l => tgtOk l.t2 && tgtOk l.t1
  | .xlate _ _ _ _ t1 => tgtOk t1
  | .xprobe _ _ _ _ t1 => tgtOk t1
  | .pref l => tgtOk l.t1
  | .stB8 _ _ _ => true
  | .stB16 _ _ _ => true
  | .stB32 _ _ _ => true
  | .stB64 _ _ _ => true
  | .amoAdd _ _ sc _ _ => sc != .ln
  | .amoAddF32 _ _ sc _ => sc != .ln
  | .amoMinS _ _ sc _ _ => sc != .ln
  | .amoMaxS _ _ sc _ _ => sc != .ln
  | .amoMinN _ _ sc _ _ => sc != .ln
  | .amoMaxN _ _ sc _ _ => sc != .ln
  | .amoAnd _ _ sc _ _ => sc != .ln
  | .amoOr _ _ sc _ _ => sc != .ln
  | .amoXor _ _ sc _ _ => sc != .ln
  | .lease _ _ _ => true
  | .unlease _ _ => true
  | .fenceAcq _ _ sc => sc != .ln
  | .fenceRel _ _ sc => sc != .ln
  | .fenceAr _ _ sc => sc != .ln
  | .qfence _ _ set => set != 0#16
  | .qpop _ _ t1 => tgtOk t1
  | .qpopBq _ _ t1 => tgtOk t1
  | .qpush _ _ _ => true
  | .qpushCmdq _ _ => true
  | .pop _ _ _ t1 => tgtOk t1
  | .popV _ _ _ t1 => tgtOk t1
  | .peek _ _ _ t1 => tgtOk t1
  | .peekV _ _ _ t1 => tgtOk t1
  | .push _ _ _ => true
  | .pushBq _ _ => true
  | .pushV _ _ _ => true
  | .pushm _ _ _ => true
  | .strmStage _ _ _ => true
  | .strmRows _ _ => true
  | .strmTag _ _ => true
  | .strmGo _ _ => true
  | .strmHalt _ _ => true
  | .sphAnd _ _ _ _ => true
  | .sphOr _ _ _ _ => true
  | .steer _ _ _ of ot => of != ot
  | .collect _ _ inl t1 => tgtOk t1 && inl.toNat % 2 == 0
  | .rtcfg _ _ _ _ => true
  | .barInit _ _ _ => true
  | .barArrive _ _ _ => true
  | .barBind _ _ _ => true
  | .barDrop _ _ _ => true
  | .sigInc _ _ sc => sc != .ln
  | .shapeV _ _ _ => true
  | .shapeT _ _ _ => true
  | .shstep _ _ _ t1 => tgtOk t1
  | .shstepV _ _ _ t1 => tgtOk t1
  | .mma _ _ ty sat _ => (!sat || ty == .s8 || ty == .n8)
  | .mmaG _ _ ty sat _ => (!sat || ty == .s8 || ty == .n8)
  | .tmov _ _ _ _ => true
  | .tmovT _ _ _ _ => true
  | .acclr _ _ _ => true
  | .accst _ _ _ => true
  | .accrd _ _ _ t1 => tgtOk t1
  | .trap _ _ => true
  | .svc _ _ => true
  | .brk _ _ => true
  | .rfe _ => true
  | .crrd _ _ num t1 => tgtOk t1 && crKnown num.toNat
  | .crwr _ _ num => crKnown num.toNat
  | .launch _ _ _ => true
  | .grpMake _ _ => true
  | .grpSplit _ _ => true
  | .grpJoin _ _ => true
  | .grpFree _ _ => true
  | .xshoot _ _ _ => true
  | .pgMap _ _ _ => true
  | .pgUnmap _ _ _ => true
  | .pgPin _ _ _ => true
  | .pgUnpin _ _ _ => true
  | .pgPoison _ _ _ => true
  | .pgPromote _ _ _ => true
  | .lnkUp _ _ _ => true
  | .lnkDown _ _ _ => true
  | .lnkRetrain _ _ _ => true
  | .lnkChain _ _ _ => true
  | .lnkUnchain _ _ _ => true
  | .vdQuiesce _ _ => true
  | .vdSend _ _ => true
  | .vdResume _ _ => true
  | .vdRelease _ _ => true
  | .vdReplay _ _ => true
  | .vadd v => tgtOk v.t2 && tgtOk v.t1 && (v.ty.isI || v.ty.isF)
  | .vsub v => tgtOk v.t2 && tgtOk v.t1 && (v.ty.isI || v.ty.isF)
  | .vmul v => tgtOk v.t2 && tgtOk v.t1 && (v.ty.isI || v.ty.isF)
  | .vmulh v => tgtOk v.t2 && tgtOk v.t1 && (v.ty.isI && !v.md)
  | .vmin v => tgtOk v.t2 && tgtOk v.t1 && ((v.ty.isI && !v.md) || v.ty.isF)
  | .vmax v => tgtOk v.t2 && tgtOk v.t1 && ((v.ty.isI && !v.md) || v.ty.isF)
  | .vabs v => tgtOk v.t2 && tgtOk v.t1 && (v.ty.isI || v.ty.isF)
  | .vneg v => tgtOk v.t2 && tgtOk v.t1 && (v.ty.isI || v.ty.isF)
  | .vand v => tgtOk v.t2 && tgtOk v.t1 && (v.ty.isN && !v.md)
  | .vor v => tgtOk v.t2 && tgtOk v.t1 && (v.ty.isN && !v.md)
  | .vxor v => tgtOk v.t2 && tgtOk v.t1 && (v.ty.isN && !v.md)
  | .vnot v => tgtOk v.t2 && tgtOk v.t1 && (v.ty.isN && !v.md)
  | .vshl v => tgtOk v.t2 && tgtOk v.t1 && (v.ty.isN && !v.md)
  | .vshr v => tgtOk v.t2 && tgtOk v.t1 && (v.ty.isN && !v.md)
  | .vsar v => tgtOk v.t2 && tgtOk v.t1 && (v.ty.isS && !v.md)
  | .vclz v => tgtOk v.t2 && tgtOk v.t1 && (v.ty.isN && !v.md)
  | .vpopc v => tgtOk v.t2 && tgtOk v.t1 && (v.ty.isN && !v.md)
  | .cmp _ ftz ty cond t1 => tgtOk t1 && ((ty.isI && !ftz && cond.toNat ≤ 5) || ty.isF)
  | .msel _ ty _ t1 => tgtOk t1 && (ty.isI || ty.isF)
  | .wadd v => tgtOk v.t2 && tgtOk v.t1 && (v.ty.isNarrow && !v.md)
  | .wmul v => tgtOk v.t2 && tgtOk v.t1 && (v.ty.isNarrow && !v.md)
  | .narrow _ sat ty mode t1 => tgtOk t1 && (ty.isNarrow && (ty.isF || mode == .rne) && !(sat && ty.isF))
  | .cvt _ sat dst mode src t1 => tgtOk t1 && (src != dst && !(sat && dst.isF) && !(src.isI && dst.isI && mode != .rne))
  | .vrcp _ _ t2 t1 => tgtOk t2 && tgtOk t1
  | .vrsq _ _ t2 t1 => tgtOk t2 && tgtOk t1
  | .vsqrt _ _ t2 t1 => tgtOk t2 && tgtOk t1
  | .vexp2 _ _ t2 t1 => tgtOk t2 && tgtOk t1
  | .vlog2 _ _ t2 t1 => tgtOk t2 && tgtOk t1
  | .red _ md ty op t1 => tgtOk t1 && ((ty.isI && op.toNat ≤ 5 && (!md || op == 0#3)) || (ty.isF && op.toNat ≤ 2))
  | .scan _ md ty _ op t1 => tgtOk t1 && ((ty.isI && op.toNat ≤ 2 && (!md || op == 0#3)) || (ty.isF && op.toNat ≤ 2))
  | .perm v => tgtOk v.t2 && tgtOk v.t1 && ((v.ty.isI || v.ty.isF) && !v.md)
  | .slideUp _ ty _ t1 => tgtOk t1 && (ty.isI || ty.isF)
  | .slideDn _ ty _ t1 => tgtOk t1 && (ty.isI || ty.isF)
  | .bcast _ ty _ t1 => tgtOk t1 && (ty.isI || ty.isF)
  | .mand g => tgtOk g.t2 && tgtOk g.t1
  | .mor g => tgtOk g.t2 && tgtOk g.t1
  | .mxor g => tgtOk g.t2 && tgtOk g.t1
  | .mnot g => tgtOk g.t2 && tgtOk g.t1
  | .mcnt g => tgtOk g.t2 && tgtOk g.t1
  | .iota v => tgtOk v.t2 && tgtOk v.t1 && (v.ty.isI && !v.md)
  | .blockFetch => true
  | .dispatchDecision => true
  | .heldSlotResume => true
  | .blockCommit => true
  | .incompleteBlockFault => true
  | .trapEntry => true
  | .streamFault => true
  | .waitEnd => true
  | .loadPerform => true
  | .storePathPerform => true
  | .amoHomeUpdate => true
  | .leaseHold => true
  | .leaseExpiry => true
  | .cmdqAdopt => true
  | .caskMove => true
  | .streamStart => true
  | .streamItem => true
  | .mmaKGroup => true
  | .tmovPerform => true
  | .acclrPerform => true
  | .accstRowAppend => true
  | .accrdDeliver => true
  | .preemptBegin => true
  | .drainComplete => true
  | .kilnStart => true
  | .kilnScanComplete => true
  | .contextRestore => true
  | .launchAccept => true
  | .kernelPlacement => true
  | .kernelQuiet => true
  | .partitionFence => true
  | .kctlDone => true
  | .kctlFence => true
  | .kctlFault => true
  | .qctlOpen => true
  | .qctlSeal => true
  | .qctlClose => true
  | .qwinDescriptorWrite => true
  | .sstatResume => true
  | .sstatAbandon => true
  | .xcauseResume => true
  | .mxprogResume => true
  | .mxprogAbandon => true
  | .wstCancel => true
  | .asnWrite => true
  | .ptcfgWrite => true
  | .rxselSnapshot => true
  | .rxcfgWrite => true
  | .sgvalWrite => true
  | .groupPreempt => true
  | .groupRestore => true
  | .groupMemberEnd => true
  | .shootDownComplete => true
  | .bankDrainDone => true
  | .bankScrubDone => true
  | .linkTrainingComplete => true
  | .linkBudgetExpiry => true
  | .flitReplay => true
  | .farEndLoss => true
  | .granuleReceive => true
  | .granuleAck => true
  | .chainElementSend => true
  | .chainConfirm => true
  | .frameReceive => true
  | .quiesceComplete => true
  | .transferComplete => true
  | .sweepSend => true
  | .pageArrival => true
  | .redirect => true
  | .hangDetect => true
  | .detectedError => true
  | .partLoss => true
  | .deviceReset => true
  | .hostWrite => true
  | .mbAssign => true
  | .mbClear => true
  | .mbPreempt => true
  | .mbPodmap => true
  | .mbPortmap => true
  | .mbPeer => true
  | .mbLinkadm => true
  | .mbKeyset => true
  | .mbKeyinv => true
  | .mbAttest => true
  | .currentLimitTrip => true
  | .currentLimitRelease => true
  | .powerIdleAdjust => true
  | .replayComplete => true

end Sys2Proof
end

