-- ==== Sys2Proof/Decode.lean ====
section
/-!
DEFINITION. Decoding of an instruction word in a plane (04 R95 to R107), total and rejecting by name, and the encoder
written from the same tables.
-/
namespace Sys2Proof

/-- Why a word is no instruction. All of them raise the illegal-instruction fault at dispatch (04 R95 to R97, R102). -/
inductive Reject where
  /-- The major opcode or sub-opcode has no meaning in the plane (R96, R102, R103). -/
  | noMeaning
  /-- The predicate field is 01 (R95). -/
  | predReserved
  /-- A field holds a value that is reserved, must be zero, or is not listed (R97). -/
  | illegalField
  deriving DecidableEq, Repr

/-! ### Fields of a word (R98) -/

/-- major[31:25] -/
def fMaj (w : IWord) : BitVec 7 := w.extractLsb' 25 7
/-- pred[24:23] -/
def fPr (w : IWord) : BitVec 2 := w.extractLsb' 23 2
/-- sub or id [22:18] -/
def fSub (w : IWord) : BitVec 5 := w.extractLsb' 18 5
/-- t2, aux or disp [17:9] -/
def fU (w : IWord) : BitVec 9 := w.extractLsb' 9 9
/-- t1[8:0] -/
def fT (w : IWord) : BitVec 9 := w.extractLsb' 0 9
/-- imm[22:9] of the I form -/
def fI (w : IWord) : BitVec 14 := w.extractLsb' 9 14
/-- field[17:0] of the S form -/
def fS (w : IWord) : BitVec 18 := w.extractLsb' 0 18
/-- exit[22:20] of the B form -/
def fX (w : IWord) : BitVec 3 := w.extractLsb' 20 3
/-- off[19:0] of the B form -/
def fO (w : IWord) : BitVec 20 := w.extractLsb' 0 20
/-- imm[24:9] of the K form -/
def fK (w : IWord) : BitVec 16 := w.extractLsb' 9 16
/-- reg[24:18] of the Rd form -/
def fRd (w : IWord) : BitVec 7 := w.extractLsb' 18 7
/-- reg[22:16] of the Wr form -/
def fWr (w : IWord) : BitVec 7 := w.extractLsb' 16 7
/-- zero[15:0] of the Wr form -/
def fZ (w : IWord) : BitVec 16 := w.extractLsb' 0 16

/-! ### Codes of the field types -/

/-- The code of a predicate (R95). -/
def Pred.code : Pred → BitVec 2
  | .always => 0 | .onFalse => 2 | .onTrue => 3
/-- The predicate of a code; 01 is reserved. -/
def Pred.ofCode (c : BitVec 2) : Option Pred :=
  match c.toNat with | 0 => some .always | 2 => some .onFalse | 3 => some .onTrue | _ => none

/-- Bits [8:7] of a target (R78). -/
def TKind.code : TKind → BitVec 2
  | .none => 0 | .left => 1 | .right => 2 | .pred => 3
/-- The kind of a code. -/
def TKind.ofCode (c : BitVec 2) : TKind :=
  match c.toNat with | 0 => .none | 1 => .left | 2 => .right | _ => .pred
/-- A target as its nine bits. -/
def Tgt.bits (t : Tgt) : BitVec 9 := t.kind.code ++ t.slot
/-- The target that nine bits name. -/
def Tgt.ofBits (b : BitVec 9) : Tgt := ⟨TKind.ofCode (b.extractLsb' 7 2), b.extractLsb' 0 7⟩

/-- The code of a `Scope` (R106). -/
def Scope.code : Scope → BitVec 3
  | .ln => 0 | .co => 1 | .qd => 2 | .di => 3 | .pk => 4 | .pd => 5
/-- The `Scope` of a code, if it names one. -/
def Scope.ofCode (c : BitVec 3) : Option Scope :=
  match c.toNat with | 0 => some .ln | 1 => some .co | 2 => some .qd | 3 => some .di | 4 => some .pk | 5 => some .pd | _ => none

/-- The code of a `RMode` (R106). -/
def RMode.code : RMode → BitVec 3
  | .rne => 0 | .rz => 1 | .ru => 2 | .rd => 3 | .rs => 4
/-- The `RMode` of a code, if it names one. -/
def RMode.ofCode (c : BitVec 3) : Option RMode :=
  match c.toNat with | 0 => some .rne | 1 => some .rz | 2 => some .ru | 3 => some .rd | 4 => some .rs | _ => none

/-- The code of a `ElTy` (R104). -/
def ElTy.code : ElTy → BitVec 4
  | .s8 => 0 | .s16 => 1 | .s32 => 2 | .n8 => 4 | .n16 => 5 | .n32 => 6 | .f32 => 8 | .f16 => 9 | .bf16 => 10 | .e4m3 => 11 | .e5m2 => 12 | .e2m1 => 13 | .mx8 => 14 | .mx4 => 15
/-- The `ElTy` of a code, if it names one. -/
def ElTy.ofCode (c : BitVec 4) : Option ElTy :=
  match c.toNat with | 0 => some .s8 | 1 => some .s16 | 2 => some .s32 | 4 => some .n8 | 5 => some .n16 | 6 => some .n32 | 8 => some .f32 | 9 => some .f16 | 10 => some .bf16 | 11 => some .e4m3 | 12 => some .e5m2 | 13 => some .e2m1 | 14 => some .mx8 | 15 => some .mx4 | _ => none

/-- The code of a `MmaTy` (12 R280). -/
def MmaTy.code : MmaTy → BitVec 4
  | .s8 => 0 | .n8 => 1 | .f16 => 2 | .bf16 => 3 | .e4m3 => 4 | .e5m2 => 5 | .e2m1 => 6 | .mx8 => 7 | .mx4 => 8
/-- The `MmaTy` of a code, if it names one. -/
def MmaTy.ofCode (c : BitVec 4) : Option MmaTy :=
  match c.toNat with | 0 => some .s8 | 1 => some .n8 | 2 => some .f16 | 3 => some .bf16 | 4 => some .e4m3 | 5 => some .e5m2 | 6 => some .e2m1 | 7 => some .mx8 | 8 => some .mx4 | _ => none

/-- The code of a `Buf` (R107). -/
def Buf.code : Buf → BitVec 2
  | .w => 0 | .a => 1 | .c => 2
/-- The `Buf` of a code, if it names one. -/
def Buf.ofCode (c : BitVec 2) : Option Buf :=
  match c.toNat with | 0 => some .w | 1 => some .a | 2 => some .c | _ => none

/-- The code of a `PgSize` (R107). -/
def PgSize.code : PgSize → BitVec 2
  | .k64 => 0 | .m2 => 1 | .g1 => 2
/-- The `PgSize` of a code, if it names one. -/
def PgSize.ofCode (c : BitVec 2) : Option PgSize :=
  match c.toNat with | 0 => some .k64 | 1 => some .m2 | 2 => some .g1 | _ => none

/-- The code of a `LnkCls` (R107). -/
def LnkCls.code : LnkCls → BitVec 2
  | .die => 0 | .sept => 1 | .ue => 2
/-- The `LnkCls` of a code, if it names one. -/
def LnkCls.ofCode (c : BitVec 2) : Option LnkCls :=
  match c.toNat with | 0 => some .die | 1 => some .sept | 2 => some .ue | _ => none

/-- The code of a `RtStage` (R107). -/
def RtStage.code : RtStage → BitVec 3
  | .pass => 0 | .reduceAdd => 1 | .reduceMax => 2 | .filter => 3 | .multicast => 4
/-- The `RtStage` of a code, if it names one. -/
def RtStage.ofCode (c : BitVec 3) : Option RtStage :=
  match c.toNat with | 0 => some .pass | 1 => some .reduceAdd | 2 => some .reduceMax | 3 => some .filter | 4 => some .multicast | _ => none

/-! ### Forms -/

/-- A form with the fields of G, G1, L and L2: five fields (R98). -/
def mkG (maj : BitVec 7) (p : BitVec 2) (sub : BitVec 5) (u t : BitVec 9) : IWord := maj ++ p ++ sub ++ u ++ t
/-- The I form. -/
def mkI (maj : BitVec 7) (p : BitVec 2) (imm : BitVec 14) (t : BitVec 9) : IWord := maj ++ p ++ imm ++ t
/-- The S form. -/
def mkS (maj : BitVec 7) (p : BitVec 2) (id : BitVec 5) (f : BitVec 18) : IWord := maj ++ p ++ id ++ f
/-- The B form. -/
def mkB (maj : BitVec 7) (p : BitVec 2) (x : BitVec 3) (off : BitVec 20) : IWord := maj ++ p ++ x ++ off
/-- The K form. -/
def mkK (maj : BitVec 7) (imm : BitVec 16) (t : BitVec 9) : IWord := maj ++ imm ++ t
/-- The Rd form. -/
def mkRd (maj reg : BitVec 7) (u t : BitVec 9) : IWord := maj ++ reg ++ u ++ t
/-- The Wr form. -/
def mkWr (maj : BitVec 7) (p : BitVec 2) (reg : BitVec 7) : IWord := maj ++ p ++ reg ++ 0#16

/-- Read the predicate, then the rest. -/
def withPred (w : IWord) (k : Pred → Except Reject Instr) : Except Reject Instr :=
  match Pred.ofCode (fPr w) with | none => .error .predReserved | some p => k p
/-- A code that must name a value of its type. -/
def withCode {α : Type} (c : Option α) (k : α → Except Reject Instr) : Except Reject Instr :=
  match c with | none => .error .illegalField | some a => k a
/-- Bits that must hold a value. -/
def need (b : Bool) (i : Instr) : Except Reject Instr := if b then .ok i else .error .illegalField

/-- A G form. -/
def gForm (w : IWord) (f : FmtG → Instr) : Except Reject Instr :=
  withPred w fun p => .ok (f ⟨p, Tgt.ofBits (fU w), Tgt.ofBits (fT w)⟩)
/-- An I form. -/
def iForm (w : IWord) (f : FmtI → Instr) : Except Reject Instr :=
  withPred w fun p => .ok (f ⟨p, fI w, Tgt.ofBits (fT w)⟩)
/-- A B form. -/
def bForm (w : IWord) (f : FmtB → Instr) : Except Reject Instr :=
  withPred w fun p => .ok (f ⟨p, fX w, fO w⟩)
/-- An L form with a displacement. -/
def lForm (w : IWord) (f : FmtL → Instr) : Except Reject Instr :=
  withPred w fun p => .ok (f ⟨p, fSub w, fU w, Tgt.ofBits (fT w)⟩)
/-- An L2 form. -/
def l2Form (w : IWord) (f : FmtL2 → Instr) : Except Reject Instr :=
  withPred w fun p => .ok (f ⟨p, fSub w, Tgt.ofBits (fU w), Tgt.ofBits (fT w)⟩)
/-- An L form whose [17:9] hold a field of their own. -/
def lxForm (w : IWord) (f : Pred → Ident → BitVec 9 → Tgt → Except Reject Instr) : Except Reject Instr :=
  withPred w fun p => f p (fSub w) (fU w) (Tgt.ofBits (fT w))
/-- An S form. -/
def sForm (w : IWord) (f : Pred → Ident → BitVec 18 → Except Reject Instr) : Except Reject Instr :=
  withPred w fun p => f p (fSub w) (fS w)
/-- A G1 form whose t1 must be zero. -/
def g1zForm (w : IWord) (f : Pred → BitVec 9 → Except Reject Instr) : Except Reject Instr :=
  withPred w fun p => if fT w = 0#9 then f p (fU w) else .error .illegalField
/-- A data-plane form: modifier, type code, two targets. -/
def vForm (w : IWord) (f : FmtV → Instr) : Except Reject Instr :=
  withPred w fun p => withCode (ElTy.ofCode ((fSub w).extractLsb' 0 4)) fun ty =>
    .ok (f ⟨p, (fSub w).getLsbD 4, ty, Tgt.ofBits (fU w), Tgt.ofBits (fT w)⟩)
/-- A data-plane G1 form: modifier, type code, aux, one target. -/
def v1Form (w : IWord) (f : Pred → Bool → ElTy → BitVec 9 → Tgt → Except Reject Instr) : Except Reject Instr :=
  withPred w fun p => withCode (ElTy.ofCode ((fSub w).extractLsb' 0 4)) fun ty =>
    f p ((fSub w).getLsbD 4) ty (fU w) (Tgt.ofBits (fT w))
/-- A transcendental: the modifier is sub[22]. -/
def tForm (w : IWord) (f : Pred → Bool → Tgt → Tgt → Instr) : Except Reject Instr :=
  withPred w fun p => .ok (f p ((fSub w).getLsbD 4) (Tgt.ofBits (fU w)) (Tgt.ofBits (fT w)))

/-- The sub-opcodes of major 0x05 in the control plane (R103). -/
def decMove (w : IWord) : Except Reject Instr :=
  match (fSub w).toNat with
  | 0 => gForm w .mov
  | 1 => gForm w .null
  | _ => .error .noMeaning

/-- The sub-opcodes of major 0x06 in the control plane (R103). -/
def decArith (w : IWord) : Except Reject Instr :=
  match (fSub w).toNat with
  | 0 => gForm w .add
  | 1 => gForm w .sub
  | 2 => gForm w .mul
  | 3 => gForm w .mulhS64
  | 4 => gForm w .mulhN64
  | 5 => gForm w .divS64
  | 6 => gForm w .divN64
  | 7 => gForm w .remS64
  | 8 => gForm w .remN64
  | 9 => gForm w .neg
  | 10 => gForm w .abs
  | 11 => gForm w .minS64
  | 12 => gForm w .maxS64
  | 13 => gForm w .minN64
  | 14 => gForm w .maxN64
  | _ => .error .noMeaning

/-- The sub-opcodes of major 0x07 in the control plane (R103). -/
def decLogic (w : IWord) : Except Reject Instr :=
  match (fSub w).toNat with
  | 0 => gForm w .and
  | 1 => gForm w .or
  | 2 => gForm w .xor
  | 3 => gForm w .andn
  | 4 => gForm w .not
  | 5 => gForm w .shl
  | 6 => gForm w .shr
  | 7 => gForm w .sar
  | 8 => gForm w .rol
  | 9 => gForm w .ror
  | 10 => gForm w .popc
  | 11 => gForm w .clz
  | 12 => gForm w .ctz
  | 13 => gForm w .bswap
  | 14 => gForm w .sextS8
  | 15 => gForm w .sextS16
  | 16 => gForm w .sextS32
  | 17 => gForm w .zextN8
  | 18 => gForm w .zextN16
  | 19 => gForm w .zextN32
  | _ => .error .noMeaning

/-- The sub-opcodes of major 0x08 in the control plane (R103). -/
def decTest (w : IWord) : Except Reject Instr :=
  match (fSub w).toNat with
  | 0 => gForm w .teq
  | 1 => gForm w .tne
  | 2 => gForm w .tltS64
  | 3 => gForm w .tleS64
  | 4 => gForm w .tgtS64
  | 5 => gForm w .tgeS64
  | 6 => gForm w .tltN64
  | 7 => gForm w .tleN64
  | 8 => gForm w .tgtN64
  | 9 => gForm w .tgeN64
  | 10 => gForm w .tbit
  | 11 => gForm w .tz
  | 12 => gForm w .tnz
  | _ => .error .noMeaning

/-- The sub-opcodes of major 0x09 in the control plane (R103). -/
def decWidth (w : IWord) : Except Reject Instr :=
  match (fSub w).toNat with
  | 0 => gForm w .wsplitB8
  | 1 => gForm w .wsplitB16
  | 2 => gForm w .wsplitB32
  | 4 => gForm w .wjoinB8
  | 5 => gForm w .wjoinB16
  | 6 => gForm w .wjoinB32
  | _ => .error .noMeaning

/-- The sub-opcodes of major 0x0A in the control plane (R103). -/
def decLea (w : IWord) : Except Reject Instr :=
  match (fSub w).toNat with
  | 0 => gForm w .leaX1
  | 1 => gForm w .leaX2
  | 2 => gForm w .leaX4
  | 3 => gForm w .leaX8
  | _ => .error .noMeaning

/-- The sub-opcodes of major 0x1A (R103): aux[11:9] holds the exit, the rest of aux is zero. -/
def decBranchReg (w : IWord) : Except Reject Instr :=
  g1zForm w fun p u =>
    if u.extractLsb' 3 6 = 0#6 then
      match (fSub w).toNat with
      | 0 => .ok (.brr p (u.extractLsb' 0 3))
      | 1 => .ok (.callr p (u.extractLsb' 0 3))
      | 2 => .ok (.ret p (u.extractLsb' 0 3))
      | _ => .error .noMeaning
    else .error .illegalField

/-- The `amo` family, major 0x35 (R107): operation [17:14], scope [13:11], width [10], `.ord` [9], [8:0] zero. -/
def decAmo (w : IWord) : Except Reject Instr :=
  sForm w fun p id f =>
    if f.extractLsb' 0 9 = 0#9 then
      withCode (Scope.ofCode (f.extractLsb' 11 3)) fun sc =>
        match (f.extractLsb' 14 4).toNat with
        | 0 => .ok (.amoAdd p id sc (f.getLsbD 10) (f.getLsbD 9))
        | 1 => need (!f.getLsbD 10) (.amoAddF32 p id sc (f.getLsbD 9))
        | 2 => .ok (.amoMinS p id sc (f.getLsbD 10) (f.getLsbD 9))
        | 3 => .ok (.amoMaxS p id sc (f.getLsbD 10) (f.getLsbD 9))
        | 4 => .ok (.amoMinN p id sc (f.getLsbD 10) (f.getLsbD 9))
        | 5 => .ok (.amoMaxN p id sc (f.getLsbD 10) (f.getLsbD 9))
        | 6 => .ok (.amoAnd p id sc (f.getLsbD 10) (f.getLsbD 9))
        | 7 => .ok (.amoOr p id sc (f.getLsbD 10) (f.getLsbD 9))
        | 8 => .ok (.amoXor p id sc (f.getLsbD 10) (f.getLsbD 9))
        | _ => .error .illegalField
    else .error .illegalField

/-- `lease` and `unlease`, major 0x36 (R107). -/
def decLease (w : IWord) : Except Reject Instr :=
  sForm w fun p id f =>
    if f.getLsbD 17 then need (f.extractLsb' 0 17 == 0#17) (.unlease p id)
    else need (f.extractLsb' 12 5 == 0#5) (.lease p id (f.extractLsb' 0 12))

/-- `fence`, major 0x37: kind [17:16], scope [15:13], the rest zero (R107). -/
def decFence (w : IWord) : Except Reject Instr :=
  sForm w fun p id f =>
    if f.extractLsb' 0 13 = 0#13 then
      withCode (Scope.ofCode (f.extractLsb' 13 3)) fun sc =>
        match (f.extractLsb' 16 2).toNat with
        | 1 => .ok (.fenceAcq p id sc)
        | 2 => .ok (.fenceRel p id sc)
        | 3 => .ok (.fenceAr p id sc)
        | _ => .error .illegalField
    else .error .illegalField

/-- `qfence`, major 0x38: the set [15:0] (R107). -/
def decQfence (w : IWord) : Except Reject Instr :=
  sForm w fun p id f =>
    need (f.extractLsb' 16 2 == 0#2) (.qfence p id (f.extractLsb' 0 16))

/-- `qpush`, major 0x3A: partition queue or `cmdq` (R107). -/
def decQpush (w : IWord) : Except Reject Instr :=
  sForm w fun p id f =>
    match (f.extractLsb' 16 2).toNat with
    | 0 => need (f.extractLsb' 12 4 == 0#4) (.qpush p id (f.extractLsb' 0 12))
    | 2 => need (f.extractLsb' 0 16 == 0#16) (.qpushCmdq p id)
    | _ => .error .illegalField

/-- Control-plane `push`, major 0x3D: outlet 0 to 31, or 32 for `bq` (R107). -/
def decPush (w : IWord) : Except Reject Instr :=
  sForm w fun p id f =>
    if f.extractLsb' 6 12 = 0#12 then
      if f.getLsbD 5 then need (f.extractLsb' 0 5 == 0#5) (.pushBq p id) else .ok (.push p id (f.extractLsb' 0 5))
    else .error .illegalField

/-- `strm` commands, major 0x3F: command [17:13], stage [12:10] (R107). -/
def decStrm (w : IWord) : Except Reject Instr :=
  sForm w fun p id f =>
    if f.extractLsb' 0 10 = 0#10 then
      match (f.extractLsb' 13 5).toNat with
      | 0 => .ok (.strmStage p id (f.extractLsb' 10 3))
      | 1 => need (f.extractLsb' 10 3 == 0#3) (.strmRows p id)
      | 2 => need (f.extractLsb' 10 3 == 0#3) (.strmTag p id)
      | 3 => need (f.extractLsb' 10 3 == 0#3) (.strmGo p id)
      | 4 => need (f.extractLsb' 10 3 == 0#3) (.strmHalt p id)
      | _ => .error .illegalField
    else .error .illegalField

/-- `sph`, major 0x40: form [17], mask kind [16], queue [11:0] (R107). -/
def decSph (w : IWord) : Except Reject Instr :=
  sForm w fun p id f =>
    if f.extractLsb' 12 4 = 0#4 then
      if f.getLsbD 17 then .ok (.sphOr p id (f.getLsbD 16) (f.extractLsb' 0 12))
      else .ok (.sphAnd p id (f.getLsbD 16) (f.extractLsb' 0 12))
    else .error .illegalField

/-- `rtcfg`, major 0x43: stage [17:15], queue [11:0] (R107). -/
def decRtcfg (w : IWord) : Except Reject Instr :=
  sForm w fun p id f =>
    withCode (RtStage.ofCode (f.extractLsb' 15 3)) fun stg =>
      need (f.extractLsb' 12 3 == 0#3) (.rtcfg p id stg (f.extractLsb' 0 12))

/-- `bar` commands, major 0x44: command [17:15], scope [14:12] (R107). -/
def decBar (w : IWord) : Except Reject Instr :=
  sForm w fun p id f =>
    if f.extractLsb' 0 12 = 0#12 then
      withCode (Scope.ofCode (f.extractLsb' 12 3)) fun sc =>
        match (f.extractLsb' 15 3).toNat with
        | 0 => .ok (.barInit p id sc)
        | 1 => .ok (.barArrive p id sc)
        | 2 => .ok (.barBind p id sc)
        | 3 => .ok (.barDrop p id sc)
        | _ => .error .illegalField
    else .error .illegalField

/-- `sig.inc`, major 0x45: scope [14:12] (R107). -/
def decSig (w : IWord) : Except Reject Instr :=
  sForm w fun p id f =>
    if f.extractLsb' 0 12 = 0#12 ∧ f.extractLsb' 15 3 = 0#3 then
      withCode (Scope.ofCode (f.extractLsb' 12 3)) fun sc => .ok (.sigInc p id sc)
    else .error .illegalField

/-- `shape`, major 0x46: form [17], register [16:14] (R107). -/
def decShape (w : IWord) : Except Reject Instr :=
  sForm w fun p id f =>
    if f.extractLsb' 0 14 = 0#14 then
      if f.getLsbD 17 then .ok (.shapeT p id (f.extractLsb' 14 3)) else .ok (.shapeV p id (f.extractLsb' 14 3))
    else .error .illegalField

/-- `mma`, major 0x48: type [17:14], `.sat` [13], accumulator [12:9] (R107). -/
def decMma (w : IWord) : Except Reject Instr :=
  sForm w fun p id f =>
    if f.extractLsb' 0 9 = 0#9 then
      withCode (MmaTy.ofCode (f.extractLsb' 14 4)) fun ty => .ok (.mma p id ty (f.getLsbD 13) (f.extractLsb' 9 4))
    else .error .illegalField

/-- `mma.g`, major 0x48: type [17:14], `.sat` [13], accumulator [12:9] (R107). -/
def decMmaG (w : IWord) : Except Reject Instr :=
  sForm w fun p id f =>
    if f.extractLsb' 0 9 = 0#9 then
      withCode (MmaTy.ofCode (f.extractLsb' 14 4)) fun ty => .ok (.mmaG p id ty (f.getLsbD 13) (f.extractLsb' 9 4))
    else .error .illegalField

/-- `tmov`, major 0x49: `.t` [17], source [16:15], destination [14:13] (R107). -/
def decTmov (w : IWord) : Except Reject Instr :=
  sForm w fun p id f =>
    if f.extractLsb' 0 13 = 0#13 then
      withCode (Buf.ofCode (f.extractLsb' 15 2)) fun src => withCode (Buf.ofCode (f.extractLsb' 13 2)) fun dst =>
        if f.getLsbD 17 then .ok (.tmovT p id src dst) else .ok (.tmov p id src dst)
    else .error .illegalField

/-- `acclr` and `accst`, major 0x4A: [17:16], accumulator [12:9] (R107). -/
def decAcc (w : IWord) : Except Reject Instr :=
  sForm w fun p id f =>
    if f.extractLsb' 0 9 = 0#9 ∧ f.extractLsb' 13 3 = 0#3 then
      match (f.extractLsb' 16 2).toNat with
      | 0 => .ok (.acclr p id (f.extractLsb' 9 4))
      | 1 => .ok (.accst p id (f.extractLsb' 9 4))
      | _ => .error .illegalField
    else .error .illegalField

/-- `trap`, `svc`, `brk` and `rfe`, major 0x4C (R103). -/
def decTrap (w : IWord) : Except Reject Instr :=
  g1zForm w fun p u =>
    match (fSub w).toNat with
    | 0 => .ok (.trap p u)
    | 1 => .ok (.svc p u)
    | 2 => .ok (.brk p u)
    | 3 => need (u == 0#9) (.rfe p)
    | _ => .error .noMeaning

/-- `grp` commands, major 0x50: command [17:14] (R107). -/
def decGrp (w : IWord) : Except Reject Instr :=
  sForm w fun p id f =>
    if f.extractLsb' 0 14 = 0#14 then
      match (f.extractLsb' 14 4).toNat with
      | 0 => .ok (.grpMake p id)
      | 1 => .ok (.grpSplit p id)
      | 2 => .ok (.grpJoin p id)
      | 3 => .ok (.grpFree p id)
      | _ => .error .illegalField
    else .error .illegalField

/-- `pg` commands, major 0x52: command [17:14], page size [13:12] (R107). -/
def decPg (w : IWord) : Except Reject Instr :=
  sForm w fun p id f =>
    if f.extractLsb' 0 12 = 0#12 then withCode (PgSize.ofCode (f.extractLsb' 12 2)) fun x =>
      match (f.extractLsb' 14 4).toNat with
      | 0 => .ok (.pgMap p id x)
      | 1 => .ok (.pgUnmap p id x)
      | 2 => .ok (.pgPin p id x)
      | 3 => .ok (.pgUnpin p id x)
      | 4 => .ok (.pgPoison p id x)
      | 5 => .ok (.pgPromote p id x)
      | _ => .error .illegalField
    else .error .illegalField

/-- `lnk` commands, major 0x53: command [17:14], class [13:12] (R107). -/
def decLnk (w : IWord) : Except Reject Instr :=
  sForm w fun p id f =>
    if f.extractLsb' 0 12 = 0#12 then withCode (LnkCls.ofCode (f.extractLsb' 12 2)) fun x =>
      match (f.extractLsb' 14 4).toNat with
      | 0 => .ok (.lnkUp p id x)
      | 1 => .ok (.lnkDown p id x)
      | 2 => .ok (.lnkRetrain p id x)
      | 3 => .ok (.lnkChain p id x)
      | 4 => .ok (.lnkUnchain p id x)
      | _ => .error .illegalField
    else .error .illegalField

/-- `vd` commands, major 0x54: command [17:14] (R107). -/
def decVd (w : IWord) : Except Reject Instr :=
  sForm w fun p id f =>
    if f.extractLsb' 0 14 = 0#14 then
      match (f.extractLsb' 14 4).toNat with
      | 0 => .ok (.vdQuiesce p id)
      | 1 => .ok (.vdSend p id)
      | 2 => .ok (.vdResume p id)
      | 3 => .ok (.vdRelease p id)
      | 4 => .ok (.vdReplay p id)
      | _ => .error .illegalField
    else .error .illegalField

/-- The move group in the data plane, major 0x05 (R103). -/
def decMoveV (w : IWord) : Except Reject Instr :=
  match (fSub w).toNat with
  | 0 => gForm w .movV
  | 1 => gForm w .nullV
  | _ => .error .noMeaning

/-- The transcendentals, major 0x6F: sub[21:18] names the operation (R105). -/
def decTrans (w : IWord) : Except Reject Instr :=
  match ((fSub w).extractLsb' 0 4).toNat with
  | 0 => tForm w .vrcp
  | 1 => tForm w .vrsq
  | 2 => tForm w .vsqrt
  | 3 => tForm w .vexp2
  | 4 => tForm w .vlog2
  | _ => .error .noMeaning

/-- The mask forms, major 0x75: sub[21:18] names the operation, sub[22] is zero (R105). -/
def decMask (w : IWord) : Except Reject Instr :=
  match (fSub w).toNat with
  | 0 => gForm w .mand
  | 1 => gForm w .mor
  | 2 => gForm w .mxor
  | 3 => gForm w .mnot
  | 4 => gForm w .mcnt
  | _ => .error .noMeaning

/-- The control-plane column of the major opcode map (R102), before the checks of `Instr.wf`. -/
def rawCtl (w : IWord) : Except Reject Instr :=
  match (fMaj w).toNat with
  | 0x01 => .ok (.const (fK w) (Tgt.ofBits (fT w)))
  | 0x02 => .ok (.constx (fK w) (Tgt.ofBits (fT w)))
  | 0x03 => .ok (.read (fRd w) (Tgt.ofBits (fU w)) (Tgt.ofBits (fT w)))
  | 0x04 => withPred w fun p => need (fZ w == 0#16) (.write p (fWr w))
  | 0x05 => decMove w
  | 0x06 => decArith w
  | 0x07 => decLogic w
  | 0x08 => decTest w
  | 0x09 => decWidth w
  | 0x0A => decLea w
  | 0x0B => iForm w .addi
  | 0x0C => iForm w .andi
  | 0x0D => iForm w .ori
  | 0x0E => iForm w .xori
  | 0x0F => iForm w .teqi
  | 0x10 => iForm w .shli
  | 0x11 => iForm w .shri
  | 0x12 => iForm w .sari
  | 0x13 => iForm w .tnei
  | 0x14 => iForm w .tlti
  | 0x15 => iForm w .tgei
  | 0x16 => iForm w .tltui
  | 0x17 => iForm w .tgeui
  | 0x18 => bForm w .br
  | 0x19 => bForm w .call
  | 0x1A => decBranchReg w
  | 0x1B => bForm w .barWait
  | 0x1C => bForm w .sigWait
  | 0x1D => bForm w .yield
  | 0x1E => bForm w .idle
  | 0x20 => lForm w .ldN8
  | 0x21 => lForm w .ldS8
  | 0x22 => lForm w .ldN16
  | 0x23 => lForm w .ldS16
  | 0x24 => lForm w .ldN32
  | 0x25 => lForm w .ldS32
  | 0x26 => lForm w .ldB64
  | 0x27 => lxForm w fun p id u t => need (u.extractLsb' 5 4 == 0#4) (.xlate p id (u.getLsbD 4) (u.extractLsb' 0 4) t)
  | 0x28 => l2Form w .ldN82t
  | 0x29 => l2Form w .ldS82t
  | 0x2A => l2Form w .ldN162t
  | 0x2B => l2Form w .ldS162t
  | 0x2C => l2Form w .ldN322t
  | 0x2D => l2Form w .ldS322t
  | 0x2E => l2Form w .ldB642t
  | 0x2F => lxForm w fun p id u t => need (u.extractLsb' 5 4 == 0#4) (.xprobe p id (u.getLsbD 4) (u.extractLsb' 0 4) t)
  | 0x30 => lForm w .pref
  | 0x31 => sForm w fun p id f => .ok (.stB8 p id f)
  | 0x32 => sForm w fun p id f => .ok (.stB16 p id f)
  | 0x33 => sForm w fun p id f => .ok (.stB32 p id f)
  | 0x34 => sForm w fun p id f => .ok (.stB64 p id f)
  | 0x35 => decAmo w
  | 0x36 => decLease w
  | 0x37 => decFence w
  | 0x38 => decQfence w
  | 0x39 => lxForm w fun p id u t => if u = 0#9 then .ok (.qpop p id t) else need (u == 0x100#9) (.qpopBq p id t)
  | 0x3A => decQpush w
  | 0x3B => lxForm w fun p id u t => need (u.extractLsb' 5 4 == 0#4) (.pop p id (u.extractLsb' 0 5) t)
  | 0x3C => lxForm w fun p id u t => need (u.extractLsb' 5 4 == 0#4) (.peek p id (u.extractLsb' 0 5) t)
  | 0x3D => decPush w
  | 0x3E => sForm w fun p id f => need (f.extractLsb' 5 13 == 0#13) (.pushm p id (f.extractLsb' 0 5))
  | 0x3F => decStrm w
  | 0x40 => decSph w
  | 0x43 => decRtcfg w
  | 0x44 => decBar w
  | 0x45 => decSig w
  | 0x46 => decShape w
  | 0x47 => lxForm w fun p id u t => need (u.extractLsb' 3 6 == 0#6) (.shstep p id (u.extractLsb' 0 3) t)
  | 0x48 => decMma w
  | 0x49 => decTmov w
  | 0x4A => decAcc w
  | 0x4C => decTrap w
  | 0x4D => lxForm w fun p id u t => .ok (.crrd p id u t)
  | 0x4E => sForm w fun p id f => need (f.extractLsb' 0 9 == 0#9) (.crwr p id (f.extractLsb' 9 9))
  | 0x4F => sForm w fun p id f => need (f.extractLsb' 0 16 == 0#16) (.launch p id (f.extractLsb' 16 2))
  | 0x50 => decGrp w
  | 0x51 => sForm w fun p id f => withCode (PgSize.ofCode (f.extractLsb' 16 2)) fun sz => need (f.extractLsb' 0 16 == 0#16) (.xshoot p id sz)
  | 0x52 => decPg w
  | 0x53 => decLnk w
  | 0x54 => decVd w
  | _ => .error .noMeaning

/-- The data-plane column of the major opcode map (R102), before the checks of `Instr.wf`. -/
def rawDat (w : IWord) : Except Reject Instr :=
  match (fMaj w).toNat with
  | 0x03 => .ok (.read (fRd w) (Tgt.ofBits (fU w)) (Tgt.ofBits (fT w)))
  | 0x04 => withPred w fun p => need (fZ w == 0#16) (.write p (fWr w))
  | 0x05 => decMoveV w
  | 0x3B => lxForm w fun p id u t => need (u.extractLsb' 5 4 == 0#4) (.popV p id (u.extractLsb' 0 5) t)
  | 0x3C => lxForm w fun p id u t => need (u.extractLsb' 5 4 == 0#4) (.peekV p id (u.extractLsb' 0 5) t)
  | 0x3D => sForm w fun p id f => need (f.extractLsb' 5 13 == 0#13) (.pushV p id (f.extractLsb' 0 5))
  | 0x41 => sForm w fun p id f => need (f.extractLsb' 13 5 == 0#5) (.steer p id (f.extractLsb' 10 3) (f.extractLsb' 5 5) (f.extractLsb' 0 5))
  | 0x42 => lxForm w fun p id u t => need (u.extractLsb' 5 4 == 0#4) (.collect p id (u.extractLsb' 0 5) t)
  | 0x47 => lxForm w fun p id u t => need (u.extractLsb' 3 6 == 0#6) (.shstepV p id (u.extractLsb' 0 3) t)
  | 0x48 => decMmaG w
  | 0x4B => lxForm w fun p id u t => need (u.extractLsb' 4 5 == 0#5) (.accrd p id (u.extractLsb' 0 4) t)
  | 0x58 => vForm w .vadd
  | 0x59 => vForm w .vsub
  | 0x5A => vForm w .vmul
  | 0x5B => vForm w .vmulh
  | 0x5C => vForm w .vmin
  | 0x5D => vForm w .vmax
  | 0x5E => vForm w .vabs
  | 0x5F => vForm w .vneg
  | 0x60 => vForm w .vand
  | 0x61 => vForm w .vor
  | 0x62 => vForm w .vxor
  | 0x63 => vForm w .vnot
  | 0x64 => vForm w .vshl
  | 0x65 => vForm w .vshr
  | 0x66 => vForm w .vsar
  | 0x67 => vForm w .vclz
  | 0x68 => vForm w .vpopc
  | 0x69 => v1Form w fun p md ty u t => need (u.extractLsb' 3 6 == 0#6) (.cmp p md ty (u.extractLsb' 0 3) t)
  | 0x6A => v1Form w fun p md ty u t => need (!md && u.extractLsb' 3 6 == 0#6) (.msel p ty (u.extractLsb' 0 3) t)
  | 0x6B => vForm w .wadd
  | 0x6C => vForm w .wmul
  | 0x6D => v1Form w fun p md ty u t => withCode (RMode.ofCode (u.extractLsb' 4 3)) fun mode =>
      need (u.extractLsb' 7 2 == 0#2 && u.extractLsb' 0 4 == 0#4) (.narrow p md ty mode t)
  | 0x6E => v1Form w fun p md ty u t => withCode (RMode.ofCode (u.extractLsb' 4 3)) fun mode =>
      withCode (ElTy.ofCode (u.extractLsb' 0 4)) fun src => need (u.extractLsb' 7 2 == 0#2) (.cvt p md ty mode src t)
  | 0x6F => decTrans w
  | 0x70 => v1Form w fun p md ty u t => need (u.extractLsb' 3 6 == 0#6) (.red p md ty (u.extractLsb' 0 3) t)
  | 0x71 => v1Form w fun p md ty u t => need (u.extractLsb' 4 5 == 0#5) (.scan p md ty (u.getLsbD 3) (u.extractLsb' 0 3) t)
  | 0x72 => vForm w .perm
  | 0x73 => v1Form w fun p md ty u t => if !md && u.getLsbD 8 == false then
      (if u.getLsbD 7 then .ok (.slideDn p ty (u.extractLsb' 0 7) t) else .ok (.slideUp p ty (u.extractLsb' 0 7) t)) else .error .illegalField
  | 0x74 => v1Form w fun p md ty u t => need (!md && u.extractLsb' 7 2 == 0#2) (.bcast p ty (u.extractLsb' 0 7) t)
  | 0x75 => decMask w
  | 0x76 => vForm w .iota
  | _ => .error .noMeaning

/-- Decode a word in the plane of its slot (R96, R97): the map's meaning, then the legality of its fields. -/
def decode (pl : Plane) (w : IWord) : Except Reject Instr :=
  match (match pl with | .ctl => rawCtl w | .dat => rawDat w) with
  | .error r => .error r
  | .ok i => if i.wf then .ok i else .error .illegalField

/-- The word of an instruction, from the same tables; an event of 95_what_each_step_holds.md has none. -/
def encode : Instr → Option IWord
  | .const imm t1 => some (mkK 0x01#7 imm t1.bits)
  | .constx imm t1 => some (mkK 0x02#7 imm t1.bits)
  | .read reg t2 t1 => some (mkRd 0x03#7 reg t2.bits t1.bits)
  | .write p reg => some (mkWr 0x04#7 p.code reg)
  | .mov g => some (mkG 0x05#7 g.p.code 0#5 g.t2.bits g.t1.bits)
  | .null g => some (mkG 0x05#7 g.p.code 1#5 g.t2.bits g.t1.bits)
  | .movV g => some (mkG 0x05#7 g.p.code 0#5 g.t2.bits g.t1.bits)
  | .nullV g => some (mkG 0x05#7 g.p.code 1#5 g.t2.bits g.t1.bits)
  | .add g => some (mkG 0x06#7 g.p.code 0#5 g.t2.bits g.t1.bits)
  | .sub g => some (mkG 0x06#7 g.p.code 1#5 g.t2.bits g.t1.bits)
  | .mul g => some (mkG 0x06#7 g.p.code 2#5 g.t2.bits g.t1.bits)
  | .mulhS64 g => some (mkG 0x06#7 g.p.code 3#5 g.t2.bits g.t1.bits)
  | .mulhN64 g => some (mkG 0x06#7 g.p.code 4#5 g.t2.bits g.t1.bits)
  | .divS64 g => some (mkG 0x06#7 g.p.code 5#5 g.t2.bits g.t1.bits)
  | .divN64 g => some (mkG 0x06#7 g.p.code 6#5 g.t2.bits g.t1.bits)
  | .remS64 g => some (mkG 0x06#7 g.p.code 7#5 g.t2.bits g.t1.bits)
  | .remN64 g => some (mkG 0x06#7 g.p.code 8#5 g.t2.bits g.t1.bits)
  | .neg g => some (mkG 0x06#7 g.p.code 9#5 g.t2.bits g.t1.bits)
  | .abs g => some (mkG 0x06#7 g.p.code 10#5 g.t2.bits g.t1.bits)
  | .minS64 g => some (mkG 0x06#7 g.p.code 11#5 g.t2.bits g.t1.bits)
  | .maxS64 g => some (mkG 0x06#7 g.p.code 12#5 g.t2.bits g.t1.bits)
  | .minN64 g => some (mkG 0x06#7 g.p.code 13#5 g.t2.bits g.t1.bits)
  | .maxN64 g => some (mkG 0x06#7 g.p.code 14#5 g.t2.bits g.t1.bits)
  | .and g => some (mkG 0x07#7 g.p.code 0#5 g.t2.bits g.t1.bits)
  | .or g => some (mkG 0x07#7 g.p.code 1#5 g.t2.bits g.t1.bits)
  | .xor g => some (mkG 0x07#7 g.p.code 2#5 g.t2.bits g.t1.bits)
  | .andn g => some (mkG 0x07#7 g.p.code 3#5 g.t2.bits g.t1.bits)
  | .not g => some (mkG 0x07#7 g.p.code 4#5 g.t2.bits g.t1.bits)
  | .shl g => some (mkG 0x07#7 g.p.code 5#5 g.t2.bits g.t1.bits)
  | .shr g => some (mkG 0x07#7 g.p.code 6#5 g.t2.bits g.t1.bits)
  | .sar g => some (mkG 0x07#7 g.p.code 7#5 g.t2.bits g.t1.bits)
  | .rol g => some (mkG 0x07#7 g.p.code 8#5 g.t2.bits g.t1.bits)
  | .ror g => some (mkG 0x07#7 g.p.code 9#5 g.t2.bits g.t1.bits)
  | .popc g => some (mkG 0x07#7 g.p.code 10#5 g.t2.bits g.t1.bits)
  | .clz g => some (mkG 0x07#7 g.p.code 11#5 g.t2.bits g.t1.bits)
  | .ctz g => some (mkG 0x07#7 g.p.code 12#5 g.t2.bits g.t1.bits)
  | .bswap g => some (mkG 0x07#7 g.p.code 13#5 g.t2.bits g.t1.bits)
  | .sextS8 g => some (mkG 0x07#7 g.p.code 14#5 g.t2.bits g.t1.bits)
  | .sextS16 g => some (mkG 0x07#7 g.p.code 15#5 g.t2.bits g.t1.bits)
  | .sextS32 g => some (mkG 0x07#7 g.p.code 16#5 g.t2.bits g.t1.bits)
  | .zextN8 g => some (mkG 0x07#7 g.p.code 17#5 g.t2.bits g.t1.bits)
  | .zextN16 g => some (mkG 0x07#7 g.p.code 18#5 g.t2.bits g.t1.bits)
  | .zextN32 g => some (mkG 0x07#7 g.p.code 19#5 g.t2.bits g.t1.bits)
  | .teq g => some (mkG 0x08#7 g.p.code 0#5 g.t2.bits g.t1.bits)
  | .tne g => some (mkG 0x08#7 g.p.code 1#5 g.t2.bits g.t1.bits)
  | .tltS64 g => some (mkG 0x08#7 g.p.code 2#5 g.t2.bits g.t1.bits)
  | .tleS64 g => some (mkG 0x08#7 g.p.code 3#5 g.t2.bits g.t1.bits)
  | .tgtS64 g => some (mkG 0x08#7 g.p.code 4#5 g.t2.bits g.t1.bits)
  | .tgeS64 g => some (mkG 0x08#7 g.p.code 5#5 g.t2.bits g.t1.bits)
  | .tltN64 g => some (mkG 0x08#7 g.p.code 6#5 g.t2.bits g.t1.bits)
  | .tleN64 g => some (mkG 0x08#7 g.p.code 7#5 g.t2.bits g.t1.bits)
  | .tgtN64 g => some (mkG 0x08#7 g.p.code 8#5 g.t2.bits g.t1.bits)
  | .tgeN64 g => some (mkG 0x08#7 g.p.code 9#5 g.t2.bits g.t1.bits)
  | .tbit g => some (mkG 0x08#7 g.p.code 10#5 g.t2.bits g.t1.bits)
  | .tz g => some (mkG 0x08#7 g.p.code 11#5 g.t2.bits g.t1.bits)
  | .tnz g => some (mkG 0x08#7 g.p.code 12#5 g.t2.bits g.t1.bits)
  | .wsplitB8 g => some (mkG 0x09#7 g.p.code 0#5 g.t2.bits g.t1.bits)
  | .wsplitB16 g => some (mkG 0x09#7 g.p.code 1#5 g.t2.bits g.t1.bits)
  | .wsplitB32 g => some (mkG 0x09#7 g.p.code 2#5 g.t2.bits g.t1.bits)
  | .wjoinB8 g => some (mkG 0x09#7 g.p.code 4#5 g.t2.bits g.t1.bits)
  | .wjoinB16 g => some (mkG 0x09#7 g.p.code 5#5 g.t2.bits g.t1.bits)
  | .wjoinB32 g => some (mkG 0x09#7 g.p.code 6#5 g.t2.bits g.t1.bits)
  | .leaX1 g => some (mkG 0x0A#7 g.p.code 0#5 g.t2.bits g.t1.bits)
  | .leaX2 g => some (mkG 0x0A#7 g.p.code 1#5 g.t2.bits g.t1.bits)
  | .leaX4 g => some (mkG 0x0A#7 g.p.code 2#5 g.t2.bits g.t1.bits)
  | .leaX8 g => some (mkG 0x0A#7 g.p.code 3#5 g.t2.bits g.t1.bits)
  | .addi f => some (mkI 0x0B#7 f.p.code f.imm f.t1.bits)
  | .andi f => some (mkI 0x0C#7 f.p.code f.imm f.t1.bits)
  | .ori f => some (mkI 0x0D#7 f.p.code f.imm f.t1.bits)
  | .xori f => some (mkI 0x0E#7 f.p.code f.imm f.t1.bits)
  | .teqi f => some (mkI 0x0F#7 f.p.code f.imm f.t1.bits)
  | .shli f => some (mkI 0x10#7 f.p.code f.imm f.t1.bits)
  | .shri f => some (mkI 0x11#7 f.p.code f.imm f.t1.bits)
  | .sari f => some (mkI 0x12#7 f.p.code f.imm f.t1.bits)
  | .tnei f => some (mkI 0x13#7 f.p.code f.imm f.t1.bits)
  | .tlti f => some (mkI 0x14#7 f.p.code f.imm f.t1.bits)
  | .tgei f => some (mkI 0x15#7 f.p.code f.imm f.t1.bits)
  | .tltui f => some (mkI 0x16#7 f.p.code f.imm f.t1.bits)
  | .tgeui f => some (mkI 0x17#7 f.p.code f.imm f.t1.bits)
  | .br b => some (mkB 0x18#7 b.p.code b.exit b.off)
  | .call b => some (mkB 0x19#7 b.p.code b.exit b.off)
  | .brr p exit => some (mkG 0x1A#7 p.code 0#5 (0#6 ++ exit) 0#9)
  | .callr p exit => some (mkG 0x1A#7 p.code 1#5 (0#6 ++ exit) 0#9)
  | .ret p exit => some (mkG 0x1A#7 p.code 2#5 (0#6 ++ exit) 0#9)
  | .barWait b => some (mkB 0x1B#7 b.p.code b.exit b.off)
  | .sigWait b => some (mkB 0x1C#7 b.p.code b.exit b.off)
  | .yield b => some (mkB 0x1D#7 b.p.code b.exit b.off)
  | .idle b => some (mkB 0x1E#7 b.p.code b.exit b.off)
  | .ldN8 l => some (mkG 0x20#7 l.p.code l.id l.disp l.t1.bits)
  | .ldS8 l => some (mkG 0x21#7 l.p.code l.id l.disp l.t1.bits)
  | .ldN16 l => some (mkG 0x22#7 l.p.code l.id l.disp l.t1.bits)
  | .ldS16 l => some (mkG 0x23#7 l.p.code l.id l.disp l.t1.bits)
  | .ldN32 l => some (mkG 0x24#7 l.p.code l.id l.disp l.t1.bits)
  | .ldS32 l => some (mkG 0x25#7 l.p.code l.id l.disp l.t1.bits)
  | .ldB64 l => some (mkG 0x26#7 l.p.code l.id l.disp l.t1.bits)
  | .ldN82t l => some (mkG 0x28#7 l.p.code l.id l.t2.bits l.t1.bits)
  | .ldS82t l => some (mkG 0x29#7 l.p.code l.id l.t2.bits l.t1.bits)
  | .ldN162t l => some (mkG 0x2A#7 l.p.code l.id l.t2.bits l.t1.bits)
  | .ldS162t l => some (mkG 0x2B#7 l.p.code l.id l.t2.bits l.t1.bits)
  | .ldN322t l => some (mkG 0x2C#7 l.p.code l.id l.t2.bits l.t1.bits)
  | .ldS322t l => some (mkG 0x2D#7 l.p.code l.id l.t2.bits l.t1.bits)
  | .ldB642t l => some (mkG 0x2E#7 l.p.code l.id l.t2.bits l.t1.bits)
  | .xlate p id wr th t1 => some (mkG 0x27#7 p.code id (0#4 ++ BitVec.ofBool wr ++ th) t1.bits)
  | .xprobe p id wr th t1 => some (mkG 0x2F#7 p.code id (0#4 ++ BitVec.ofBool wr ++ th) t1.bits)
  | .pref l => some (mkG 0x30#7 l.p.code l.id l.disp l.t1.bits)
  | .stB8 p id disp => some (mkS 0x31#7 p.code id disp)
  | .stB16 p id disp => some (mkS 0x32#7 p.code id disp)
  | .stB32 p id disp => some (mkS 0x33#7 p.code id disp)
  | .stB64 p id disp => some (mkS 0x34#7 p.code id disp)
  | .amoAdd p id sc wide ord => some (mkS 0x35#7 p.code id (0#4 ++ sc.code ++ BitVec.ofBool wide ++ BitVec.ofBool ord ++ 0#9))
  | .amoAddF32 p id sc ord => some (mkS 0x35#7 p.code id (1#4 ++ sc.code ++ 0#1 ++ BitVec.ofBool ord ++ 0#9))
  | .amoMinS p id sc wide ord => some (mkS 0x35#7 p.code id (2#4 ++ sc.code ++ BitVec.ofBool wide ++ BitVec.ofBool ord ++ 0#9))
  | .amoMaxS p id sc wide ord => some (mkS 0x35#7 p.code id (3#4 ++ sc.code ++ BitVec.ofBool wide ++ BitVec.ofBool ord ++ 0#9))
  | .amoMinN p id sc wide ord => some (mkS 0x35#7 p.code id (4#4 ++ sc.code ++ BitVec.ofBool wide ++ BitVec.ofBool ord ++ 0#9))
  | .amoMaxN p id sc wide ord => some (mkS 0x35#7 p.code id (5#4 ++ sc.code ++ BitVec.ofBool wide ++ BitVec.ofBool ord ++ 0#9))
  | .amoAnd p id sc wide ord => some (mkS 0x35#7 p.code id (6#4 ++ sc.code ++ BitVec.ofBool wide ++ BitVec.ofBool ord ++ 0#9))
  | .amoOr p id sc wide ord => some (mkS 0x35#7 p.code id (7#4 ++ sc.code ++ BitVec.ofBool wide ++ BitVec.ofBool ord ++ 0#9))
  | .amoXor p id sc wide ord => some (mkS 0x35#7 p.code id (8#4 ++ sc.code ++ BitVec.ofBool wide ++ BitVec.ofBool ord ++ 0#9))
  | .lease p id cyc => some (mkS 0x36#7 p.code id (0#6 ++ cyc))
  | .unlease p id => some (mkS 0x36#7 p.code id (1#1 ++ 0#17))
  | .fenceAcq p id sc => some (mkS 0x37#7 p.code id (1#2 ++ sc.code ++ 0#13))
  | .fenceRel p id sc => some (mkS 0x37#7 p.code id (2#2 ++ sc.code ++ 0#13))
  | .fenceAr p id sc => some (mkS 0x37#7 p.code id (3#2 ++ sc.code ++ 0#13))
  | .qfence p id set => some (mkS 0x38#7 p.code id (0#2 ++ set))
  | .qpop p id t1 => some (mkG 0x39#7 p.code id 0#9 t1.bits)
  | .qpopBq p id t1 => some (mkG 0x39#7 p.code id 0x100#9 t1.bits)
  | .qpush p id q => some (mkS 0x3A#7 p.code id (0#6 ++ q))
  | .qpushCmdq p id => some (mkS 0x3A#7 p.code id (2#2 ++ 0#16))
  | .pop p id inl t1 => some (mkG 0x3B#7 p.code id (0#4 ++ inl) t1.bits)
  | .popV p id inl t1 => some (mkG 0x3B#7 p.code id (0#4 ++ inl) t1.bits)
  | .peek p id inl t1 => some (mkG 0x3C#7 p.code id (0#4 ++ inl) t1.bits)
  | .peekV p id inl t1 => some (mkG 0x3C#7 p.code id (0#4 ++ inl) t1.bits)
  | .push p id outl => some (mkS 0x3D#7 p.code id (0#13 ++ outl))
  | .pushBq p id => some (mkS 0x3D#7 p.code id 0x20#18)
  | .pushV p id outl => some (mkS 0x3D#7 p.code id (0#13 ++ outl))
  | .pushm p id outl => some (mkS 0x3E#7 p.code id (0#13 ++ outl))
  | .strmStage p id stg => some (mkS 0x3F#7 p.code id (0#5 ++ stg ++ 0#10))
  | .strmRows p id => some (mkS 0x3F#7 p.code id (1#5 ++ 0#13))
  | .strmTag p id => some (mkS 0x3F#7 p.code id (2#5 ++ 0#13))
  | .strmGo p id => some (mkS 0x3F#7 p.code id (3#5 ++ 0#13))
  | .strmHalt p id => some (mkS 0x3F#7 p.code id (4#5 ++ 0#13))
  | .sphAnd p id tree q => some (mkS 0x40#7 p.code id (0#1 ++ BitVec.ofBool tree ++ 0#4 ++ q))
  | .sphOr p id tree q => some (mkS 0x40#7 p.code id (1#1 ++ BitVec.ofBool tree ++ 0#4 ++ q))
  | .steer p id m of ot => some (mkS 0x41#7 p.code id (0#5 ++ m ++ of ++ ot))
  | .collect p id inl t1 => some (mkG 0x42#7 p.code id (0#4 ++ inl) t1.bits)
  | .rtcfg p id stg q => some (mkS 0x43#7 p.code id (stg.code ++ 0#3 ++ q))
  | .barInit p id sc => some (mkS 0x44#7 p.code id (0#3 ++ sc.code ++ 0#12))
  | .barArrive p id sc => some (mkS 0x44#7 p.code id (1#3 ++ sc.code ++ 0#12))
  | .barBind p id sc => some (mkS 0x44#7 p.code id (2#3 ++ sc.code ++ 0#12))
  | .barDrop p id sc => some (mkS 0x44#7 p.code id (3#3 ++ sc.code ++ 0#12))
  | .sigInc p id sc => some (mkS 0x45#7 p.code id (0#3 ++ sc.code ++ 0#12))
  | .shapeV p id sh => some (mkS 0x46#7 p.code id (0#1 ++ sh ++ 0#14))
  | .shapeT p id sh => some (mkS 0x46#7 p.code id (1#1 ++ sh ++ 0#14))
  | .shstep p id sh t1 => some (mkG 0x47#7 p.code id (0#6 ++ sh) t1.bits)
  | .shstepV p id sh t1 => some (mkG 0x47#7 p.code id (0#6 ++ sh) t1.bits)
  | .mma p id ty sat acc => some (mkS 0x48#7 p.code id (ty.code ++ BitVec.ofBool sat ++ acc ++ 0#9))
  | .mmaG p id ty sat acc => some (mkS 0x48#7 p.code id (ty.code ++ BitVec.ofBool sat ++ acc ++ 0#9))
  | .tmov p id src dst => some (mkS 0x49#7 p.code id (0#1 ++ src.code ++ dst.code ++ 0#13))
  | .tmovT p id src dst => some (mkS 0x49#7 p.code id (1#1 ++ src.code ++ dst.code ++ 0#13))
  | .acclr p id acc => some (mkS 0x4A#7 p.code id (0#2 ++ 0#3 ++ acc ++ 0#9))
  | .accst p id acc => some (mkS 0x4A#7 p.code id (1#2 ++ 0#3 ++ acc ++ 0#9))
  | .accrd p id acc t1 => some (mkG 0x4B#7 p.code id (0#5 ++ acc) t1.bits)
  | .trap p code => some (mkG 0x4C#7 p.code 0#5 code 0#9)
  | .svc p code => some (mkG 0x4C#7 p.code 1#5 code 0#9)
  | .brk p code => some (mkG 0x4C#7 p.code 2#5 code 0#9)
  | .rfe p => some (mkG 0x4C#7 p.code 3#5 0#9 0#9)
  | .crrd p id num t1 => some (mkG 0x4D#7 p.code id num t1.bits)
  | .crwr p id num => some (mkS 0x4E#7 p.code id (num ++ 0#9))
  | .launch p id lq => some (mkS 0x4F#7 p.code id (lq ++ 0#16))
  | .grpMake p id => some (mkS 0x50#7 p.code id (0#4 ++ 0#14))
  | .grpSplit p id => some (mkS 0x50#7 p.code id (1#4 ++ 0#14))
  | .grpJoin p id => some (mkS 0x50#7 p.code id (2#4 ++ 0#14))
  | .grpFree p id => some (mkS 0x50#7 p.code id (3#4 ++ 0#14))
  | .xshoot p id sz => some (mkS 0x51#7 p.code id (sz.code ++ 0#16))
  | .pgMap p id sz => some (mkS 0x52#7 p.code id (0#4 ++ sz.code ++ 0#12))
  | .pgUnmap p id sz => some (mkS 0x52#7 p.code id (1#4 ++ sz.code ++ 0#12))
  | .pgPin p id sz => some (mkS 0x52#7 p.code id (2#4 ++ sz.code ++ 0#12))
  | .pgUnpin p id sz => some (mkS 0x52#7 p.code id (3#4 ++ sz.code ++ 0#12))
  | .pgPoison p id sz => some (mkS 0x52#7 p.code id (4#4 ++ sz.code ++ 0#12))
  | .pgPromote p id sz => some (mkS 0x52#7 p.code id (5#4 ++ sz.code ++ 0#12))
  | .lnkUp p id cls => some (mkS 0x53#7 p.code id (0#4 ++ cls.code ++ 0#12))
  | .lnkDown p id cls => some (mkS 0x53#7 p.code id (1#4 ++ cls.code ++ 0#12))
  | .lnkRetrain p id cls => some (mkS 0x53#7 p.code id (2#4 ++ cls.code ++ 0#12))
  | .lnkChain p id cls => some (mkS 0x53#7 p.code id (3#4 ++ cls.code ++ 0#12))
  | .lnkUnchain p id cls => some (mkS 0x53#7 p.code id (4#4 ++ cls.code ++ 0#12))
  | .vdQuiesce p id => some (mkS 0x54#7 p.code id (0#4 ++ 0#14))
  | .vdSend p id => some (mkS 0x54#7 p.code id (1#4 ++ 0#14))
  | .vdResume p id => some (mkS 0x54#7 p.code id (2#4 ++ 0#14))
  | .vdRelease p id => some (mkS 0x54#7 p.code id (3#4 ++ 0#14))
  | .vdReplay p id => some (mkS 0x54#7 p.code id (4#4 ++ 0#14))
  | .vadd v => some (mkG 0x58#7 v.p.code (BitVec.ofBool v.md ++ v.ty.code) v.t2.bits v.t1.bits)
  | .vsub v => some (mkG 0x59#7 v.p.code (BitVec.ofBool v.md ++ v.ty.code) v.t2.bits v.t1.bits)
  | .vmul v => some (mkG 0x5A#7 v.p.code (BitVec.ofBool v.md ++ v.ty.code) v.t2.bits v.t1.bits)
  | .vmulh v => some (mkG 0x5B#7 v.p.code (BitVec.ofBool v.md ++ v.ty.code) v.t2.bits v.t1.bits)
  | .vmin v => some (mkG 0x5C#7 v.p.code (BitVec.ofBool v.md ++ v.ty.code) v.t2.bits v.t1.bits)
  | .vmax v => some (mkG 0x5D#7 v.p.code (BitVec.ofBool v.md ++ v.ty.code) v.t2.bits v.t1.bits)
  | .vabs v => some (mkG 0x5E#7 v.p.code (BitVec.ofBool v.md ++ v.ty.code) v.t2.bits v.t1.bits)
  | .vneg v => some (mkG 0x5F#7 v.p.code (BitVec.ofBool v.md ++ v.ty.code) v.t2.bits v.t1.bits)
  | .vand v => some (mkG 0x60#7 v.p.code (BitVec.ofBool v.md ++ v.ty.code) v.t2.bits v.t1.bits)
  | .vor v => some (mkG 0x61#7 v.p.code (BitVec.ofBool v.md ++ v.ty.code) v.t2.bits v.t1.bits)
  | .vxor v => some (mkG 0x62#7 v.p.code (BitVec.ofBool v.md ++ v.ty.code) v.t2.bits v.t1.bits)
  | .vnot v => some (mkG 0x63#7 v.p.code (BitVec.ofBool v.md ++ v.ty.code) v.t2.bits v.t1.bits)
  | .vshl v => some (mkG 0x64#7 v.p.code (BitVec.ofBool v.md ++ v.ty.code) v.t2.bits v.t1.bits)
  | .vshr v => some (mkG 0x65#7 v.p.code (BitVec.ofBool v.md ++ v.ty.code) v.t2.bits v.t1.bits)
  | .vsar v => some (mkG 0x66#7 v.p.code (BitVec.ofBool v.md ++ v.ty.code) v.t2.bits v.t1.bits)
  | .vclz v => some (mkG 0x67#7 v.p.code (BitVec.ofBool v.md ++ v.ty.code) v.t2.bits v.t1.bits)
  | .vpopc v => some (mkG 0x68#7 v.p.code (BitVec.ofBool v.md ++ v.ty.code) v.t2.bits v.t1.bits)
  | .cmp p ftz ty cond t1 => some (mkG 0x69#7 p.code (BitVec.ofBool ftz ++ ty.code) (0#6 ++ cond) t1.bits)
  | .msel p ty m t1 => some (mkG 0x6A#7 p.code (0#1 ++ ty.code) (0#6 ++ m) t1.bits)
  | .wadd v => some (mkG 0x6B#7 v.p.code (BitVec.ofBool v.md ++ v.ty.code) v.t2.bits v.t1.bits)
  | .wmul v => some (mkG 0x6C#7 v.p.code (BitVec.ofBool v.md ++ v.ty.code) v.t2.bits v.t1.bits)
  | .narrow p sat ty mode t1 => some (mkG 0x6D#7 p.code (BitVec.ofBool sat ++ ty.code) (0#2 ++ mode.code ++ 0#4) t1.bits)
  | .cvt p sat dst mode src t1 => some (mkG 0x6E#7 p.code (BitVec.ofBool sat ++ dst.code) (0#2 ++ mode.code ++ src.code) t1.bits)
  | .vrcp p ftz t2 t1 => some (mkG 0x6F#7 p.code (BitVec.ofBool ftz ++ 0#4) t2.bits t1.bits)
  | .vrsq p ftz t2 t1 => some (mkG 0x6F#7 p.code (BitVec.ofBool ftz ++ 1#4) t2.bits t1.bits)
  | .vsqrt p ftz t2 t1 => some (mkG 0x6F#7 p.code (BitVec.ofBool ftz ++ 2#4) t2.bits t1.bits)
  | .vexp2 p ftz t2 t1 => some (mkG 0x6F#7 p.code (BitVec.ofBool ftz ++ 3#4) t2.bits t1.bits)
  | .vlog2 p ftz t2 t1 => some (mkG 0x6F#7 p.code (BitVec.ofBool ftz ++ 4#4) t2.bits t1.bits)
  | .red p md ty op t1 => some (mkG 0x70#7 p.code (BitVec.ofBool md ++ ty.code) (0#6 ++ op) t1.bits)
  | .scan p md ty excl op t1 => some (mkG 0x71#7 p.code (BitVec.ofBool md ++ ty.code) (0#5 ++ BitVec.ofBool excl ++ op) t1.bits)
  | .perm v => some (mkG 0x72#7 v.p.code (BitVec.ofBool v.md ++ v.ty.code) v.t2.bits v.t1.bits)
  | .slideUp p ty k t1 => some (mkG 0x73#7 p.code (0#1 ++ ty.code) (0#2 ++ k) t1.bits)
  | .slideDn p ty k t1 => some (mkG 0x73#7 p.code (0#1 ++ ty.code) (1#2 ++ k) t1.bits)
  | .bcast p ty k t1 => some (mkG 0x74#7 p.code (0#1 ++ ty.code) (0#2 ++ k) t1.bits)
  | .mand g => some (mkG 0x75#7 g.p.code 0#5 g.t2.bits g.t1.bits)
  | .mor g => some (mkG 0x75#7 g.p.code 1#5 g.t2.bits g.t1.bits)
  | .mxor g => some (mkG 0x75#7 g.p.code 2#5 g.t2.bits g.t1.bits)
  | .mnot g => some (mkG 0x75#7 g.p.code 3#5 g.t2.bits g.t1.bits)
  | .mcnt g => some (mkG 0x75#7 g.p.code 4#5 g.t2.bits g.t1.bits)
  | .iota v => some (mkG 0x76#7 v.p.code (BitVec.ofBool v.md ++ v.ty.code) v.t2.bits v.t1.bits)
  | .blockFetch => none
  | .dispatchDecision => none
  | .heldSlotResume => none
  | .blockCommit => none
  | .incompleteBlockFault => none
  | .trapEntry => none
  | .streamFault => none
  | .waitEnd => none
  | .loadPerform => none
  | .storePathPerform => none
  | .amoHomeUpdate => none
  | .leaseHold => none
  | .leaseExpiry => none
  | .cmdqAdopt => none
  | .caskMove => none
  | .streamStart => none
  | .streamItem => none
  | .mmaKGroup => none
  | .tmovPerform => none
  | .acclrPerform => none
  | .accstRowAppend => none
  | .accrdDeliver => none
  | .preemptBegin => none
  | .drainComplete => none
  | .kilnStart => none
  | .kilnScanComplete => none
  | .contextRestore => none
  | .launchAccept => none
  | .kernelPlacement => none
  | .kernelQuiet => none
  | .partitionFence => none
  | .kctlDone => none
  | .kctlFence => none
  | .kctlFault => none
  | .qctlOpen => none
  | .qctlSeal => none
  | .qctlClose => none
  | .qwinDescriptorWrite => none
  | .sstatResume => none
  | .sstatAbandon => none
  | .xcauseResume => none
  | .mxprogResume => none
  | .mxprogAbandon => none
  | .wstCancel => none
  | .asnWrite => none
  | .ptcfgWrite => none
  | .rxselSnapshot => none
  | .rxcfgWrite => none
  | .sgvalWrite => none
  | .groupPreempt => none
  | .groupRestore => none
  | .groupMemberEnd => none
  | .shootDownComplete => none
  | .bankDrainDone => none
  | .bankScrubDone => none
  | .linkTrainingComplete => none
  | .linkBudgetExpiry => none
  | .flitReplay => none
  | .farEndLoss => none
  | .granuleReceive => none
  | .granuleAck => none
  | .chainElementSend => none
  | .chainConfirm => none
  | .frameReceive => none
  | .quiesceComplete => none
  | .transferComplete => none
  | .sweepSend => none
  | .pageArrival => none
  | .redirect => none
  | .hangDetect => none
  | .detectedError => none
  | .partLoss => none
  | .deviceReset => none
  | .hostWrite => none
  | .mbAssign => none
  | .mbClear => none
  | .mbPreempt => none
  | .mbPodmap => none
  | .mbPortmap => none
  | .mbPeer => none
  | .mbLinkadm => none
  | .mbKeyset => none
  | .mbKeyinv => none
  | .mbAttest => none
  | .currentLimitTrip => none
  | .currentLimitRelease => none
  | .powerIdleAdjust => none
  | .replayComplete => none

/-- The planes in which a word has the meaning of the instruction (R102). -/
def Instr.inPlane : Instr → Plane → Bool
  | .const _ _, p => p == .ctl
  | .constx _ _, p => p == .ctl
  | .read _ _ _, _ => true
  | .write _ _, _ => true
  | .mov _, p => p == .ctl
  | .null _, p => p == .ctl
  | .movV _, p => p == .dat
  | .nullV _, p => p == .dat
  | .add _, p => p == .ctl
  | .sub _, p => p == .ctl
  | .mul _, p => p == .ctl
  | .mulhS64 _, p => p == .ctl
  | .mulhN64 _, p => p == .ctl
  | .divS64 _, p => p == .ctl
  | .divN64 _, p => p == .ctl
  | .remS64 _, p => p == .ctl
  | .remN64 _, p => p == .ctl
  | .neg _, p => p == .ctl
  | .abs _, p => p == .ctl
  | .minS64 _, p => p == .ctl
  | .maxS64 _, p => p == .ctl
  | .minN64 _, p => p == .ctl
  | .maxN64 _, p => p == .ctl
  | .and _, p => p == .ctl
  | .or _, p => p == .ctl
  | .xor _, p => p == .ctl
  | .andn _, p => p == .ctl
  | .not _, p => p == .ctl
  | .shl _, p => p == .ctl
  | .shr _, p => p == .ctl
  | .sar _, p => p == .ctl
  | .rol _, p => p == .ctl
  | .ror _, p => p == .ctl
  | .popc _, p => p == .ctl
  | .clz _, p => p == .ctl
  | .ctz _, p => p == .ctl
  | .bswap _, p => p == .ctl
  | .sextS8 _, p => p == .ctl
  | .sextS16 _, p => p == .ctl
  | .sextS32 _, p => p == .ctl
  | .zextN8 _, p => p == .ctl
  | .zextN16 _, p => p == .ctl
  | .zextN32 _, p => p == .ctl
  | .teq _, p => p == .ctl
  | .tne _, p => p == .ctl
  | .tltS64 _, p => p == .ctl
  | .tleS64 _, p => p == .ctl
  | .tgtS64 _, p => p == .ctl
  | .tgeS64 _, p => p == .ctl
  | .tltN64 _, p => p == .ctl
  | .tleN64 _, p => p == .ctl
  | .tgtN64 _, p => p == .ctl
  | .tgeN64 _, p => p == .ctl
  | .tbit _, p => p == .ctl
  | .tz _, p => p == .ctl
  | .tnz _, p => p == .ctl
  | .wsplitB8 _, p => p == .ctl
  | .wsplitB16 _, p => p == .ctl
  | .wsplitB32 _, p => p == .ctl
  | .wjoinB8 _, p => p == .ctl
  | .wjoinB16 _, p => p == .ctl
  | .wjoinB32 _, p => p == .ctl
  | .leaX1 _, p => p == .ctl
  | .leaX2 _, p => p == .ctl
  | .leaX4 _, p => p == .ctl
  | .leaX8 _, p => p == .ctl
  | .addi _, p => p == .ctl
  | .andi _, p => p == .ctl
  | .ori _, p => p == .ctl
  | .xori _, p => p == .ctl
  | .teqi _, p => p == .ctl
  | .shli _, p => p == .ctl
  | .shri _, p => p == .ctl
  | .sari _, p => p == .ctl
  | .tnei _, p => p == .ctl
  | .tlti _, p => p == .ctl
  | .tgei _, p => p == .ctl
  | .tltui _, p => p == .ctl
  | .tgeui _, p => p == .ctl
  | .br _, p => p == .ctl
  | .call _, p => p == .ctl
  | .brr _ _, p => p == .ctl
  | .callr _ _, p => p == .ctl
  | .ret _ _, p => p == .ctl
  | .barWait _, p => p == .ctl
  | .sigWait _, p => p == .ctl
  | .yield _, p => p == .ctl
  | .idle _, p => p == .ctl
  | .ldN8 _, p => p == .ctl
  | .ldS8 _, p => p == .ctl
  | .ldN16 _, p => p == .ctl
  | .ldS16 _, p => p == .ctl
  | .ldN32 _, p => p == .ctl
  | .ldS32 _, p => p == .ctl
  | .ldB64 _, p => p == .ctl
  | .ldN82t _, p => p == .ctl
  | .ldS82t _, p => p == .ctl
  | .ldN162t _, p => p == .ctl
  | .ldS162t _, p => p == .ctl
  | .ldN322t _, p => p == .ctl
  | .ldS322t _, p => p == .ctl
  | .ldB642t _, p => p == .ctl
  | .xlate _ _ _ _ _, p => p == .ctl
  | .xprobe _ _ _ _ _, p => p == .ctl
  | .pref _, p => p == .ctl
  | .stB8 _ _ _, p => p == .ctl
  | .stB16 _ _ _, p => p == .ctl
  | .stB32 _ _ _, p => p == .ctl
  | .stB64 _ _ _, p => p == .ctl
  | .amoAdd _ _ _ _ _, p => p == .ctl
  | .amoAddF32 _ _ _ _, p => p == .ctl
  | .amoMinS _ _ _ _ _, p => p == .ctl
  | .amoMaxS _ _ _ _ _, p => p == .ctl
  | .amoMinN _ _ _ _ _, p => p == .ctl
  | .amoMaxN _ _ _ _ _, p => p == .ctl
  | .amoAnd _ _ _ _ _, p => p == .ctl
  | .amoOr _ _ _ _ _, p => p == .ctl
  | .amoXor _ _ _ _ _, p => p == .ctl
  | .lease _ _ _, p => p == .ctl
  | .unlease _ _, p => p == .ctl
  | .fenceAcq _ _ _, p => p == .ctl
  | .fenceRel _ _ _, p => p == .ctl
  | .fenceAr _ _ _, p => p == .ctl
  | .qfence _ _ _, p => p == .ctl
  | .qpop _ _ _, p => p == .ctl
  | .qpopBq _ _ _, p => p == .ctl
  | .qpush _ _ _, p => p == .ctl
  | .qpushCmdq _ _, p => p == .ctl
  | .pop _ _ _ _, p => p == .ctl
  | .popV _ _ _ _, p => p == .dat
  | .peek _ _ _ _, p => p == .ctl
  | .peekV _ _ _ _, p => p == .dat
  | .push _ _ _, p => p == .ctl
  | .pushBq _ _, p => p == .ctl
  | .pushV _ _ _, p => p == .dat
  | .pushm _ _ _, p => p == .ctl
  | .strmStage _ _ _, p => p == .ctl
  | .strmRows _ _, p => p == .ctl
  | .strmTag _ _, p => p == .ctl
  | .strmGo _ _, p => p == .ctl
  | .strmHalt _ _, p => p == .ctl
  | .sphAnd _ _ _ _, p => p == .ctl
  | .sphOr _ _ _ _, p => p == .ctl
  | .steer _ _ _ _ _, p => p == .dat
  | .collect _ _ _ _, p => p == .dat
  | .rtcfg _ _ _ _, p => p == .ctl
  | .barInit _ _ _, p => p == .ctl
  | .barArrive _ _ _, p => p == .ctl
  | .barBind _ _ _, p => p == .ctl
  | .barDrop _ _ _, p => p == .ctl
  | .sigInc _ _ _, p => p == .ctl
  | .shapeV _ _ _, p => p == .ctl
  | .shapeT _ _ _, p => p == .ctl
  | .shstep _ _ _ _, p => p == .ctl
  | .shstepV _ _ _ _, p => p == .dat
  | .mma _ _ _ _ _, p => p == .ctl
  | .mmaG _ _ _ _ _, p => p == .dat
  | .tmov _ _ _ _, p => p == .ctl
  | .tmovT _ _ _ _, p => p == .ctl
  | .acclr _ _ _, p => p == .ctl
  | .accst _ _ _, p => p == .ctl
  | .accrd _ _ _ _, p => p == .dat
  | .trap _ _, p => p == .ctl
  | .svc _ _, p => p == .ctl
  | .brk _ _, p => p == .ctl
  | .rfe _, p => p == .ctl
  | .crrd _ _ _ _, p => p == .ctl
  | .crwr _ _ _, p => p == .ctl
  | .launch _ _ _, p => p == .ctl
  | .grpMake _ _, p => p == .ctl
  | .grpSplit _ _, p => p == .ctl
  | .grpJoin _ _, p => p == .ctl
  | .grpFree _ _, p => p == .ctl
  | .xshoot _ _ _, p => p == .ctl
  | .pgMap _ _ _, p => p == .ctl
  | .pgUnmap _ _ _, p => p == .ctl
  | .pgPin _ _ _, p => p == .ctl
  | .pgUnpin _ _ _, p => p == .ctl
  | .pgPoison _ _ _, p => p == .ctl
  | .pgPromote _ _ _, p => p == .ctl
  | .lnkUp _ _ _, p => p == .ctl
  | .lnkDown _ _ _, p => p == .ctl
  | .lnkRetrain _ _ _, p => p == .ctl
  | .lnkChain _ _ _, p => p == .ctl
  | .lnkUnchain _ _ _, p => p == .ctl
  | .vdQuiesce _ _, p => p == .ctl
  | .vdSend _ _, p => p == .ctl
  | .vdResume _ _, p => p == .ctl
  | .vdRelease _ _, p => p == .ctl
  | .vdReplay _ _, p => p == .ctl
  | .vadd _, p => p == .dat
  | .vsub _, p => p == .dat
  | .vmul _, p => p == .dat
  | .vmulh _, p => p == .dat
  | .vmin _, p => p == .dat
  | .vmax _, p => p == .dat
  | .vabs _, p => p == .dat
  | .vneg _, p => p == .dat
  | .vand _, p => p == .dat
  | .vor _, p => p == .dat
  | .vxor _, p => p == .dat
  | .vnot _, p => p == .dat
  | .vshl _, p => p == .dat
  | .vshr _, p => p == .dat
  | .vsar _, p => p == .dat
  | .vclz _, p => p == .dat
  | .vpopc _, p => p == .dat
  | .cmp _ _ _ _ _, p => p == .dat
  | .msel _ _ _ _, p => p == .dat
  | .wadd _, p => p == .dat
  | .wmul _, p => p == .dat
  | .narrow _ _ _ _ _, p => p == .dat
  | .cvt _ _ _ _ _ _, p => p == .dat
  | .vrcp _ _ _ _, p => p == .dat
  | .vrsq _ _ _ _, p => p == .dat
  | .vsqrt _ _ _ _, p => p == .dat
  | .vexp2 _ _ _ _, p => p == .dat
  | .vlog2 _ _ _ _, p => p == .dat
  | .red _ _ _ _ _, p => p == .dat
  | .scan _ _ _ _ _ _, p => p == .dat
  | .perm _, p => p == .dat
  | .slideUp _ _ _ _, p => p == .dat
  | .slideDn _ _ _ _, p => p == .dat
  | .bcast _ _ _ _, p => p == .dat
  | .mand _, p => p == .dat
  | .mor _, p => p == .dat
  | .mxor _, p => p == .dat
  | .mnot _, p => p == .dat
  | .mcnt _, p => p == .dat
  | .iota _, p => p == .dat
  | .blockFetch, _ => false
  | .dispatchDecision, _ => false
  | .heldSlotResume, _ => false
  | .blockCommit, _ => false
  | .incompleteBlockFault, _ => false
  | .trapEntry, _ => false
  | .streamFault, _ => false
  | .waitEnd, _ => false
  | .loadPerform, _ => false
  | .storePathPerform, _ => false
  | .amoHomeUpdate, _ => false
  | .leaseHold, _ => false
  | .leaseExpiry, _ => false
  | .cmdqAdopt, _ => false
  | .caskMove, _ => false
  | .streamStart, _ => false
  | .streamItem, _ => false
  | .mmaKGroup, _ => false
  | .tmovPerform, _ => false
  | .acclrPerform, _ => false
  | .accstRowAppend, _ => false
  | .accrdDeliver, _ => false
  | .preemptBegin, _ => false
  | .drainComplete, _ => false
  | .kilnStart, _ => false
  | .kilnScanComplete, _ => false
  | .contextRestore, _ => false
  | .launchAccept, _ => false
  | .kernelPlacement, _ => false
  | .kernelQuiet, _ => false
  | .partitionFence, _ => false
  | .kctlDone, _ => false
  | .kctlFence, _ => false
  | .kctlFault, _ => false
  | .qctlOpen, _ => false
  | .qctlSeal, _ => false
  | .qctlClose, _ => false
  | .qwinDescriptorWrite, _ => false
  | .sstatResume, _ => false
  | .sstatAbandon, _ => false
  | .xcauseResume, _ => false
  | .mxprogResume, _ => false
  | .mxprogAbandon, _ => false
  | .wstCancel, _ => false
  | .asnWrite, _ => false
  | .ptcfgWrite, _ => false
  | .rxselSnapshot, _ => false
  | .rxcfgWrite, _ => false
  | .sgvalWrite, _ => false
  | .groupPreempt, _ => false
  | .groupRestore, _ => false
  | .groupMemberEnd, _ => false
  | .shootDownComplete, _ => false
  | .bankDrainDone, _ => false
  | .bankScrubDone, _ => false
  | .linkTrainingComplete, _ => false
  | .linkBudgetExpiry, _ => false
  | .flitReplay, _ => false
  | .farEndLoss, _ => false
  | .granuleReceive, _ => false
  | .granuleAck, _ => false
  | .chainElementSend, _ => false
  | .chainConfirm, _ => false
  | .frameReceive, _ => false
  | .quiesceComplete, _ => false
  | .transferComplete, _ => false
  | .sweepSend, _ => false
  | .pageArrival, _ => false
  | .redirect, _ => false
  | .hangDetect, _ => false
  | .detectedError, _ => false
  | .partLoss, _ => false
  | .deviceReset, _ => false
  | .hostWrite, _ => false
  | .mbAssign, _ => false
  | .mbClear, _ => false
  | .mbPreempt, _ => false
  | .mbPodmap, _ => false
  | .mbPortmap, _ => false
  | .mbPeer, _ => false
  | .mbLinkadm, _ => false
  | .mbKeyset, _ => false
  | .mbKeyinv, _ => false
  | .mbAttest, _ => false
  | .currentLimitTrip, _ => false
  | .currentLimitRelease, _ => false
  | .powerIdleAdjust, _ => false
  | .replayComplete, _ => false

/-- The instruction the decoder reads from the word of a row of spec/opcode_table.json (the host's question): the low 32
bits, in the control plane and, where it has no meaning there, in the data plane (log 13). A row without encoding has no
bits and no word. -/
def decodeTableWord (nbits w : Nat) : Option Instr :=
  if nbits = 0 then none
  else
    match decode .ctl (BitVec.ofNat 32 w) with
    | .ok i => some i
    | .error _ =>
      match decode .dat (BitVec.ofNat 32 w) with
      | .ok i => some i
      | .error _ => none

end Sys2Proof
end

