-- ==== Sys2Proof/Machine/Info.lean ====
section
/-!
DEFINITION. What the encoding tables say of each instruction beyond its word: its class (03 R79, 04 R102), the operands it
uses (04 R103 to R107), its identifier and targets, the block kinds it may stand in, its privilege (04 R108), and the width at
which it reads a splat (03 R74).
-/
namespace Sys2Proof.Machine

/-- The class of an instruction (03 R79, 04 R102). `shstep` is store-class with a result. -/
inductive Cls where
  | tok | ld | st | stRes | br | reg | event
  deriving DecidableEq, Repr

/-- How an operand reads a splat (03 R74): at an element width, or as the whole 64 bits in each 64-bit unit. -/
inductive SplatW where
  | elem (w : Nat)
  | whole
  deriving DecidableEq, Repr

/-- The facts of one instruction. -/
structure Info where
  cls : Cls
  p : Pred := .always
  id : Option Ident := none
  usesL : Bool := false
  usesR : Bool := false
  t2 : Tgt := ⟨.none, 0⟩
  t1 : Tgt := ⟨.none, 0⟩
  acc : Bool := true
  exe : Bool := true
  priv : Bool := false
  lw : SplatW := .whole
  rw : SplatW := .whole
  deriving DecidableEq, Repr

/-- The width of an element of a type (06 R127, R129). -/
def elW : ElTy → Nat
  | .s8 | .n8 | .e4m3 | .e5m2 | .mx8 => 8
  | .s16 | .n16 | .f16 | .bf16 => 16
  | .s32 | .n32 | .f32 => 32
  | .e2m1 | .mx4 => 4

/-- A token-producing form of the control plane. -/
def infoG (g : FmtG) (l r : Bool) : Info := { cls := .tok, p := g.p, usesL := l, usesR := r, t2 := g.t2, t1 := g.t1 }
/-- An immediate form. -/
def infoI (f : FmtI) : Info := { cls := .tok, p := f.p, usesL := true, t1 := f.t1 }
/-- A branch form B. -/
def infoB (b : FmtB) : Info := { cls := .br, p := b.p }
/-- A load with a displacement. -/
def infoL (l : FmtL) : Info := { cls := .ld, p := l.p, id := some l.id, usesL := true, t1 := l.t1, exe := false }
/-- A two-target load. -/
def infoL2 (l : FmtL2) : Info :=
  { cls := .ld, p := l.p, id := some l.id, usesL := true, t2 := l.t2, t1 := l.t1, exe := false }
/-- A store-class form of an access block. -/
def infoSA (p : Pred) (id : Ident) (l r : Bool) : Info :=
  { cls := .st, p := p, id := some id, usesL := l, usesR := r, exe := false }
/-- A store-class form of an execute or handler block. -/
def infoSE (p : Pred) (id : Ident) (l r : Bool) : Info :=
  { cls := .st, p := p, id := some id, usesL := l, usesR := r, acc := false }
/-- A store-class form of any block. -/
def infoSX (p : Pred) (id : Ident) (l r : Bool) : Info := { cls := .st, p := p, id := some id, usesL := l, usesR := r }
/-- A privileged store-class form. -/
def infoSP (p : Pred) (id : Ident) (l r : Bool) : Info := { infoSA p id l r with priv := true }
/-- A vector form, both operands at the width of its type. -/
def infoV (v : FmtV) (l r : Bool) : Info :=
  { cls := .tok, p := v.p, usesL := l, usesR := r, t2 := v.t2, t1 := v.t1, acc := false, lw := .elem (elW v.ty),
    rw := .elem (elW v.ty) }
/-- A vector form with one target. -/
def infoV1 (p : Pred) (ty : ElTy) (l r : Bool) (t1 : Tgt) : Info :=
  { cls := .tok, p := p, usesL := l, usesR := r, t1 := t1, acc := false, lw := .elem (elW ty), rw := .elem (elW ty) }
/-- A transcendental. -/
def infoT (p : Pred) (t2 t1 : Tgt) : Info :=
  { cls := .tok, p := p, usesL := true, t2 := t2, t1 := t1, acc := false, lw := .elem 32 }

/-- The facts of each instruction. -/
def info : Instr → Info
  | .const _ t1 => { cls := .tok, t1 := t1 }
  | .constx _ t1 => { cls := .tok, usesL := true, t1 := t1 }
  | .read _ t2 t1 => { cls := .tok, t2 := t2, t1 := t1 }
  | .write p _ => { cls := .reg, p := p, usesL := true }
  | .mov g => infoG g true false
  | .null g => infoG g false false
  | .movV g => { infoG g true false with acc := false }
  | .nullV g => { infoG g false false with acc := false }
  | .add g => infoG g true true
  | .sub g => infoG g true true
  | .mul g => infoG g true true
  | .mulhS64 g => infoG g true true
  | .mulhN64 g => infoG g true true
  | .divS64 g => infoG g true true
  | .divN64 g => infoG g true true
  | .remS64 g => infoG g true true
  | .remN64 g => infoG g true true
  | .neg g => infoG g true false
  | .abs g => infoG g true false
  | .minS64 g => infoG g true true
  | .maxS64 g => infoG g true true
  | .minN64 g => infoG g true true
  | .maxN64 g => infoG g true true
  | .and g => infoG g true true
  | .or g => infoG g true true
  | .xor g => infoG g true true
  | .andn g => infoG g true true
  | .not g => infoG g true false
  | .shl g => infoG g true true
  | .shr g => infoG g true true
  | .sar g => infoG g true true
  | .rol g => infoG g true true
  | .ror g => infoG g true true
  | .popc g => infoG g true false
  | .clz g => infoG g true false
  | .ctz g => infoG g true false
  | .bswap g => infoG g true false
  | .sextS8 g => infoG g true false
  | .sextS16 g => infoG g true false
  | .sextS32 g => infoG g true false
  | .zextN8 g => infoG g true false
  | .zextN16 g => infoG g true false
  | .zextN32 g => infoG g true false
  | .teq g => infoG g true true
  | .tne g => infoG g true true
  | .tltS64 g => infoG g true true
  | .tleS64 g => infoG g true true
  | .tgtS64 g => infoG g true true
  | .tgeS64 g => infoG g true true
  | .tltN64 g => infoG g true true
  | .tleN64 g => infoG g true true
  | .tgtN64 g => infoG g true true
  | .tgeN64 g => infoG g true true
  | .tbit g => infoG g true true
  | .tz g => infoG g true false
  | .tnz g => infoG g true false
  | .wsplitB8 g => infoG g true false
  | .wsplitB16 g => infoG g true false
  | .wsplitB32 g => infoG g true false
  | .wjoinB8 g => infoG g true false
  | .wjoinB16 g => infoG g true false
  | .wjoinB32 g => infoG g true false
  | .leaX1 g => infoG g true true
  | .leaX2 g => infoG g true true
  | .leaX4 g => infoG g true true
  | .leaX8 g => infoG g true true
  | .addi f => infoI f
  | .andi f => infoI f
  | .ori f => infoI f
  | .xori f => infoI f
  | .teqi f => infoI f
  | .shli f => infoI f
  | .shri f => infoI f
  | .sari f => infoI f
  | .tnei f => infoI f
  | .tlti f => infoI f
  | .tgei f => infoI f
  | .tltui f => infoI f
  | .tgeui f => infoI f
  | .br b => infoB b
  | .call b => infoB b
  | .brr p _ => { cls := .br, p := p, usesL := true }
  | .callr p _ => { cls := .br, p := p, usesL := true }
  | .ret p _ => { cls := .br, p := p, usesL := true }
  | .barWait b => { infoB b with usesL := true, usesR := true }
  | .sigWait b => { infoB b with usesL := true, usesR := true }
  | .yield b => infoB b
  | .idle b => infoB b
  | .ldN8 l => infoL l
  | .ldS8 l => infoL l
  | .ldN16 l => infoL l
  | .ldS16 l => infoL l
  | .ldN32 l => infoL l
  | .ldS32 l => infoL l
  | .ldB64 l => infoL l
  | .ldN82t l => infoL2 l
  | .ldS82t l => infoL2 l
  | .ldN162t l => infoL2 l
  | .ldS162t l => infoL2 l
  | .ldN322t l => infoL2 l
  | .ldS322t l => infoL2 l
  | .ldB642t l => infoL2 l
  | .xlate p id _ _ t1 => { cls := .ld, p := p, id := some id, usesL := true, t1 := t1, exe := false }
  | .xprobe p id _ _ t1 => { cls := .ld, p := p, id := some id, usesL := true, t1 := t1, exe := false }
  | .pref l => infoL l
  | .stB8 p id _ => infoSA p id true true
  | .stB16 p id _ => infoSA p id true true
  | .stB32 p id _ => infoSA p id true true
  | .stB64 p id _ => infoSA p id true true
  | .amoAdd p id _ _ _ => infoSA p id true true
  | .amoAddF32 p id _ _ => infoSA p id true true
  | .amoMinS p id _ _ _ => infoSA p id true true
  | .amoMaxS p id _ _ _ => infoSA p id true true
  | .amoMinN p id _ _ _ => infoSA p id true true
  | .amoMaxN p id _ _ _ => infoSA p id true true
  | .amoAnd p id _ _ _ => infoSA p id true true
  | .amoOr p id _ _ _ => infoSA p id true true
  | .amoXor p id _ _ _ => infoSA p id true true
  | .lease p id _ => infoSA p id true false
  | .unlease p id => infoSA p id true false
  | .fenceAcq p id _ => infoSA p id false false
  | .fenceRel p id _ => infoSA p id false false
  | .fenceAr p id _ => infoSA p id false false
  | .qfence p id _ => infoSA p id false false
  | .qpop p id t1 => { cls := .ld, p := p, id := some id, usesL := true, t1 := t1, exe := false }
  | .qpopBq p id t1 => { cls := .ld, p := p, id := some id, t1 := t1, exe := false }
  | .qpush p id _ => infoSA p id true false
  | .qpushCmdq p id => infoSA p id true false
  | .pop p id _ t1 => { cls := .ld, p := p, id := some id, t1 := t1, acc := false }
  | .popV p id _ t1 => { cls := .ld, p := p, id := some id, t1 := t1, acc := false }
  | .peek p id _ t1 => { cls := .ld, p := p, id := some id, t1 := t1, acc := false }
  | .peekV p id _ t1 => { cls := .ld, p := p, id := some id, t1 := t1, acc := false }
  | .push p id _ => infoSE p id true false
  | .pushBq p id => infoSE p id true false
  | .pushV p id _ => infoSE p id true false
  | .pushm p id _ => infoSE p id false false
  | .strmStage p id _ => infoSA p id true true
  | .strmRows p id => infoSA p id true true
  | .strmTag p id => infoSA p id true true
  | .strmGo p id => infoSA p id true true
  | .strmHalt p id => infoSA p id true true
  | .sphAnd p id _ _ => infoSA p id true true
  | .sphOr p id _ _ => infoSA p id true true
  | .steer p id _ _ _ => infoSE p id true false
  | .collect p id _ t1 => { cls := .ld, p := p, id := some id, t1 := t1, acc := false }
  | .rtcfg p id _ _ => infoSP p id true false
  | .barInit p id _ => infoSX p id true true
  | .barArrive p id _ => infoSX p id true true
  | .barBind p id _ => infoSX p id true true
  | .barDrop p id _ => infoSX p id true true
  | .sigInc p id _ => infoSX p id true true
  | .shapeV p id _ => infoSA p id true false
  | .shapeT p id _ => infoSA p id true false
  | .shstep p id _ t1 => { cls := .stRes, p := p, id := some id, t1 := t1 }
  | .shstepV p id _ t1 => { cls := .stRes, p := p, id := some id, t1 := t1, acc := false }
  | .mma p id _ _ _ => infoSE p id true true
  | .mmaG p id _ _ _ => { infoSE p id true true with lw := .elem 32 }
  | .tmov p id _ _ => infoSE p id true true
  | .tmovT p id _ _ => infoSE p id true true
  | .acclr p id _ => infoSE p id false false
  | .accst p id _ => infoSE p id true false
  | .accrd p id _ t1 => { cls := .ld, p := p, id := some id, usesL := true, t1 := t1, acc := false, lw := .elem 32 }
  | .trap p _ => { cls := .br, p := p }
  | .svc p _ => { cls := .br, p := p, exe := false }
  | .brk p _ => { cls := .br, p := p }
  | .rfe p => { cls := .br, p := p, exe := false, priv := true }
  | .crrd p id _ t1 => { cls := .ld, p := p, id := some id, t1 := t1, exe := false }
  | .crwr p id _ => infoSA p id true false
  | .launch p id _ => infoSA p id true false
  | .grpMake p id => infoSA p id true true
  | .grpSplit p id => infoSA p id true true
  | .grpJoin p id => infoSA p id true true
  | .grpFree p id => infoSA p id true true
  | .xshoot p id _ => infoSP p id true true
  | .pgMap p id _ => infoSP p id true true
  | .pgUnmap p id _ => infoSP p id true true
  | .pgPin p id _ => infoSP p id true true
  | .pgUnpin p id _ => infoSP p id true true
  | .pgPoison p id _ => infoSP p id true true
  | .pgPromote p id _ => infoSP p id true true
  | .lnkUp p id _ => infoSP p id true false
  | .lnkDown p id _ => infoSP p id true false
  | .lnkRetrain p id _ => infoSP p id true false
  | .lnkChain p id _ => infoSP p id true false
  | .lnkUnchain p id _ => infoSP p id true false
  | .vdQuiesce p id => infoSP p id true false
  | .vdSend p id => infoSP p id true false
  | .vdResume p id => infoSP p id true false
  | .vdRelease p id => infoSP p id true false
  | .vdReplay p id => infoSP p id true false
  | .vadd v => infoV v true true
  | .vsub v => infoV v true true
  | .vmul v => infoV v true true
  | .vmulh v => infoV v true true
  | .vmin v => infoV v true true
  | .vmax v => infoV v true true
  | .vabs v => infoV v true false
  | .vneg v => infoV v true false
  | .vand v => infoV v true true
  | .vor v => infoV v true true
  | .vxor v => infoV v true true
  | .vnot v => infoV v true false
  | .vshl v => infoV v true true
  | .vshr v => infoV v true true
  | .vsar v => infoV v true true
  | .vclz v => infoV v true false
  | .vpopc v => infoV v true false
  | .cmp p _ ty _ t1 => infoV1 p ty true true t1
  | .msel p ty _ t1 => infoV1 p ty true true t1
  | .wadd v => infoV v true true
  | .wmul v => infoV v true true
  | .narrow p _ ty _ t1 => { infoV1 p ty true true t1 with lw := .elem (2 * elW ty), rw := .elem (2 * elW ty) }
  | .cvt p _ _ _ src t1 => infoV1 p src true false t1
  | .vrcp p _ t2 t1 => infoT p t2 t1
  | .vrsq p _ t2 t1 => infoT p t2 t1
  | .vsqrt p _ t2 t1 => infoT p t2 t1
  | .vexp2 p _ t2 t1 => infoT p t2 t1
  | .vlog2 p _ t2 t1 => infoT p t2 t1
  | .red p _ ty _ t1 => infoV1 p ty true false t1
  | .scan p _ ty _ _ t1 => infoV1 p ty true false t1
  | .perm v => infoV v true true
  | .slideUp p ty _ t1 => infoV1 p ty true true t1
  | .slideDn p ty _ t1 => infoV1 p ty true true t1
  | .bcast p ty _ t1 => infoV1 p ty true false t1
  | .mand g => { infoG g true true with acc := false }
  | .mor g => { infoG g true true with acc := false }
  | .mxor g => { infoG g true true with acc := false }
  | .mnot g => { infoG g true false with acc := false }
  | .mcnt g => { infoG g true false with acc := false }
  | .iota v => infoV v false false
  | .blockFetch => { cls := .event }
  | .dispatchDecision => { cls := .event }
  | .heldSlotResume => { cls := .event }
  | .blockCommit => { cls := .event }
  | .incompleteBlockFault => { cls := .event }
  | .trapEntry => { cls := .event }
  | .streamFault => { cls := .event }
  | .waitEnd => { cls := .event }
  | .loadPerform => { cls := .event }
  | .storePathPerform => { cls := .event }
  | .amoHomeUpdate => { cls := .event }
  | .leaseHold => { cls := .event }
  | .leaseExpiry => { cls := .event }
  | .cmdqAdopt => { cls := .event }
  | .caskMove => { cls := .event }
  | .streamStart => { cls := .event }
  | .streamItem => { cls := .event }
  | .mmaKGroup => { cls := .event }
  | .tmovPerform => { cls := .event }
  | .acclrPerform => { cls := .event }
  | .accstRowAppend => { cls := .event }
  | .accrdDeliver => { cls := .event }
  | .preemptBegin => { cls := .event }
  | .drainComplete => { cls := .event }
  | .kilnStart => { cls := .event }
  | .kilnScanComplete => { cls := .event }
  | .contextRestore => { cls := .event }
  | .launchAccept => { cls := .event }
  | .kernelPlacement => { cls := .event }
  | .kernelQuiet => { cls := .event }
  | .partitionFence => { cls := .event }
  | .kctlDone => { cls := .event }
  | .kctlFence => { cls := .event }
  | .kctlFault => { cls := .event }
  | .qctlOpen => { cls := .event }
  | .qctlSeal => { cls := .event }
  | .qctlClose => { cls := .event }
  | .qwinDescriptorWrite => { cls := .event }
  | .sstatResume => { cls := .event }
  | .sstatAbandon => { cls := .event }
  | .xcauseResume => { cls := .event }
  | .mxprogResume => { cls := .event }
  | .mxprogAbandon => { cls := .event }
  | .wstCancel => { cls := .event }
  | .asnWrite => { cls := .event }
  | .ptcfgWrite => { cls := .event }
  | .rxselSnapshot => { cls := .event }
  | .rxcfgWrite => { cls := .event }
  | .sgvalWrite => { cls := .event }
  | .groupPreempt => { cls := .event }
  | .groupRestore => { cls := .event }
  | .groupMemberEnd => { cls := .event }
  | .shootDownComplete => { cls := .event }
  | .bankDrainDone => { cls := .event }
  | .bankScrubDone => { cls := .event }
  | .linkTrainingComplete => { cls := .event }
  | .linkBudgetExpiry => { cls := .event }
  | .flitReplay => { cls := .event }
  | .farEndLoss => { cls := .event }
  | .granuleReceive => { cls := .event }
  | .granuleAck => { cls := .event }
  | .chainElementSend => { cls := .event }
  | .chainConfirm => { cls := .event }
  | .frameReceive => { cls := .event }
  | .quiesceComplete => { cls := .event }
  | .transferComplete => { cls := .event }
  | .sweepSend => { cls := .event }
  | .pageArrival => { cls := .event }
  | .redirect => { cls := .event }
  | .hangDetect => { cls := .event }
  | .detectedError => { cls := .event }
  | .partLoss => { cls := .event }
  | .deviceReset => { cls := .event }
  | .hostWrite => { cls := .event }
  | .mbAssign => { cls := .event }
  | .mbClear => { cls := .event }
  | .mbPreempt => { cls := .event }
  | .mbPodmap => { cls := .event }
  | .mbPortmap => { cls := .event }
  | .mbPeer => { cls := .event }
  | .mbLinkadm => { cls := .event }
  | .mbKeyset => { cls := .event }
  | .mbKeyinv => { cls := .event }
  | .mbAttest => { cls := .event }
  | .currentLimitTrip => { cls := .event }
  | .currentLimitRelease => { cls := .event }
  | .powerIdleAdjust => { cls := .event }
  | .replayComplete => { cls := .event }

end Sys2Proof.Machine
end

