-- ==== Sys2Proof/Machine/Store.lean ====
section
/-!
DEFINITION. The containers of the state: tables by key, and byte memory in one canonical form.
-/
namespace Sys2Proof.Machine

/-- A table: entries by key, each key at most once. -/
abbrev Tab (κ α : Type) := List (κ × α)

/-- The entry of a key. -/
def Tab.get? {κ α : Type} [DecidableEq κ] (t : Tab κ α) (k : κ) : Option α :=
  match t with
  | [] => none
  | (k', v) :: r => if k' = k then some v else Tab.get? r k

/-- The entry of a key, or a default where the table has none. -/
def Tab.getD {κ α : Type} [DecidableEq κ] (t : Tab κ α) (k : κ) (d : α) : α := (t.get? k).getD d

/-- Write the entry of a key. -/
def Tab.put {κ α : Type} [DecidableEq κ] (t : Tab κ α) (k : κ) (v : α) : Tab κ α :=
  match t with
  | [] => [(k, v)]
  | (k', v') :: r => if k' = k then (k, v) :: r else (k', v') :: Tab.put r k v

/-- Remove the entry of a key. -/
def Tab.del {κ α : Type} [DecidableEq κ] (t : Tab κ α) (k : κ) : Tab κ α := t.filter fun p => p.1 ≠ k

/-- Change the entry of a key, where the table has one. -/
def Tab.upd {κ α : Type} [DecidableEq κ] (t : Tab κ α) (k : κ) (f : α → α) : Tab κ α :=
  match t with
  | [] => []
  | (k', v) :: r => if k' = k then (k', f v) :: r else (k', v) :: Tab.upd r k f

/-- The keys of a table. -/
def Tab.keys {κ α : Type} (t : Tab κ α) : List κ := t.map Prod.fst

/-- Byte memory: cells at rising addresses, none holding what an unlisted address reads as, which is zero (log 3). -/
abbrev Memory := List Host.Cell

/-- The byte that an address holds. -/
def Memory.read (m : Memory) (a : Nat) : Byte :=
  match m with
  | [] => 0#8
  | (b, v) :: r => if b = a then v else if a < b then 0#8 else Memory.read r a

/-- Write one byte; writing zero removes the cell. -/
def Memory.write (m : Memory) (a : Nat) (v : Byte) : Memory :=
  match m with
  | [] => if v = 0#8 then [] else [(a, v)]
  | (b, w) :: r =>
    if a < b then (if v = 0#8 then (b, w) :: r else (a, v) :: (b, w) :: r)
    else if a = b then (if v = 0#8 then r else (a, v) :: r)
    else (b, w) :: Memory.write r a v

/-- Every cell lies above `lo` and none holds zero. -/
def Memory.wfFrom (lo : Nat) : Memory → Bool
  | [] => true
  | (a, v) :: r => decide (lo ≤ a) && v != 0#8 && Memory.wfFrom (a + 1) r

/-- The canonical form: addresses strictly rising, no cell equal to what an unlisted address reads as. -/
def Memory.wf (m : Memory) : Bool := Memory.wfFrom 0 m

/-- Write consecutive bytes from an address. -/
def Memory.writeBytes (m : Memory) (a : Nat) : List Byte → Memory
  | [] => m
  | b :: r => Memory.writeBytes (m.write a b) (a + 1) r

/-- Read `n` consecutive bytes from an address. -/
def Memory.readBytes (m : Memory) (a : Nat) : Nat → List Byte
  | 0 => []
  | n + 1 => m.read a :: Memory.readBytes m (a + 1) n

/-- The cells of addresses `lo` to `hi - 1` read as zero afterwards. -/
def Memory.clear (m : Memory) (lo hi : Nat) : Memory := m.filter fun c => c.1 < lo || hi ≤ c.1

/-- Little-endian: the value of bytes, the first the least significant (00 R7). -/
def leNat : List Byte → Nat
  | [] => 0
  | b :: r => b.toNat + 256 * leNat r

/-- The `n` bytes of a value, the least significant first (00 R7). -/
def leBytes : Nat → Nat → List Byte
  | 0, _ => []
  | n + 1, v => BitVec.ofNat 8 v :: leBytes n (v / 256)

end Sys2Proof.Machine
end

