-- ==== Sys2Proof/Machine/Float.lean ====
section
/-!
DEFINITION. Number formats, exact values, rounding and flags (06 R127 to R150). A floating value is exact: a sign, a
magnitude in Nat and a power of two in Int; every rounded result goes through `roundTo`.
-/
namespace Sys2Proof.Machine

/-- The sticky flags of `cr.fpst` [5:0] (R143). -/
structure Flags where
  nv : Bool := false
  dz : Bool := false
  of : Bool := false
  uf : Bool := false
  nx : Bool := false
  sat : Bool := false
  deriving DecidableEq, Repr

/-- The union of two sets of flags (R144). -/
def Flags.or (a b : Flags) : Flags :=
  ⟨a.nv || b.nv, a.dz || b.dz, a.of || b.of, a.uf || b.uf, a.nx || b.nx, a.sat || b.sat⟩

/-- The flags as bits [5:0] of `cr.fpst` (R143). -/
def Flags.bits (f : Flags) : BitVec 6 :=
  BitVec.ofBool f.sat ++ BitVec.ofBool f.nx ++ BitVec.ofBool f.uf ++ BitVec.ofBool f.of ++ BitVec.ofBool f.dz
    ++ BitVec.ofBool f.nv

/-- How a format spends its all-ones exponent (R129): infinity and NaN, one NaN only, or neither. -/
inductive FSpecial where
  | ieee | nanOnly | none
  deriving DecidableEq, Repr

/-- A floating format (R129). -/
structure FFmt where
  ebits : Nat
  mbits : Nat
  bias : Nat
  special : FSpecial
  /-- The bits of the largest finite value. -/
  maxFin : Nat
  /-- The bits of the canonical NaN (R130). -/
  canonNan : Nat
  deriving DecidableEq, Repr

/-- The floating format of a type code (R129, R130); integers and the microscaled formats have none. -/
def ElTy.ffmt : ElTy → Option FFmt
  | .f32 => some ⟨8, 23, 127, .ieee, 0x7F7FFFFF, 0x7FC00000⟩
  | .f16 => some ⟨5, 10, 15, .ieee, 0x7BFF, 0x7E00⟩
  | .bf16 => some ⟨8, 7, 127, .ieee, 0x7F7F, 0x7FC0⟩
  | .e4m3 => some ⟨4, 3, 7, .nanOnly, 0x7E, 0x7F⟩
  | .e5m2 => some ⟨5, 2, 15, .ieee, 0x7B, 0x7E⟩
  | .e2m1 => some ⟨2, 1, 1, .none, 0x7, 0⟩
  | .s8 | .s16 | .s32 | .n8 | .n16 | .n32 | .mx8 | .mx4 => none

/-- The format `f32`. -/
def f32Fmt : FFmt := ⟨8, 23, 127, .ieee, 0x7F7FFFFF, 0x7FC00000⟩

/-- The width in bits of an element (R127, R129, R238). -/
def ElTy.width : ElTy → Nat
  | .s8 | .n8 | .e4m3 | .e5m2 | .mx8 => 8
  | .s16 | .n16 | .f16 | .bf16 => 16
  | .s32 | .n32 | .f32 => 32
  | .e2m1 | .mx4 => 4

/-- Whether a type is a signed integer (R127). -/
def ElTy.signed : ElTy → Bool
  | .s8 | .s16 | .s32 => true
  | .n8 | .n16 | .n32 | .f32 | .f16 | .bf16 | .e4m3 | .e5m2 | .e2m1 | .mx8 | .mx4 => false

/-- Whether a type is an integer type (R127). -/
def ElTy.isInt : ElTy → Bool
  | .s8 | .s16 | .s32 | .n8 | .n16 | .n32 => true
  | .f32 | .f16 | .bf16 | .e4m3 | .e5m2 | .e2m1 | .mx8 | .mx4 => false

/-- An exact value: a NaN, an infinity, or (-1)^neg * m * 2^e. -/
inductive Xv where
  | nan
  | inf (neg : Bool)
  | fin (neg : Bool) (m : Nat) (e : Int)
  deriving DecidableEq, Repr

/-- The value of the bits of a floating element (R129). -/
def FFmt.decode (f : FFmt) (b : Nat) : Xv :=
  let neg := b / 2 ^ (f.ebits + f.mbits) % 2 == 1
  let ex := b / 2 ^ f.mbits % 2 ^ f.ebits
  let m := b % 2 ^ f.mbits
  let top := 2 ^ f.ebits - 1
  if ex = top ∧ f.special = .ieee then (if m = 0 then .inf neg else .nan)
  else if ex = top ∧ f.special = .nanOnly ∧ m = 2 ^ f.mbits - 1 then .nan
  else if ex = 0 then .fin neg m (1 - (f.bias : Int) - f.mbits)
  else .fin neg (2 ^ f.mbits + m) ((ex : Int) - f.bias - f.mbits)

/-- The integer of `w` bits read as two's complement or unsigned (R127). -/
def intOfBits (signed : Bool) (w b : Nat) : Int :=
  if signed && 2 ^ (w - 1) ≤ b then (b : Int) - 2 ^ w else b

/-- The low `w` bits of an integer (R128). -/
def bitsOfInt (w : Nat) (v : Int) : Nat := (v % (2 ^ w : Int)).toNat

/-- The least and the greatest value of an integer type (R127). -/
def intMin (signed : Bool) (w : Nat) : Int := if signed then -(2 ^ (w - 1) : Int) else 0
/-- The greatest value of an integer type (R127). -/
def intMax (signed : Bool) (w : Nat) : Int := if signed then (2 ^ (w - 1) : Int) - 1 else (2 ^ w : Int) - 1

/-- An integer as an exact value. -/
def Xv.ofInt (v : Int) : Xv := .fin (decide (v < 0)) v.natAbs 0

/-- The result of an integer operation: modulo 2^w, or clamped under `.sat` with the flag (R128). -/
def intResult (ty : ElTy) (sat : Bool) (v : Int) : Nat × Flags :=
  let w := ElTy.width ty
  let lo := intMin (ElTy.signed ty) w
  let hi := intMax (ElTy.signed ty) w
  if sat && (v < lo || hi < v) then (bitsOfInt w (if v < lo then lo else hi), { sat := true })
  else (bitsOfInt w v, {})

/-- The length in bits of a magnitude. -/
def bitLen (m : Nat) : Nat := if m = 0 then 0 else Nat.log2 m + 1

/-- Whether step one of R134 rounds a magnitude up: `rem` of `2^sh` units lie below the kept part `n`; `st` says that a
further part below is not zero; `q` is the draw of R136. -/
def roundsUp (mode : RMode) (neg : Bool) (n rem sh : Nat) (st : Bool) (q : Nat) : Bool :=
  match mode with
  | .rne => decide (2 ^ sh < 2 * rem) || (decide (2 * rem = 2 ^ sh) && (st || n % 2 == 1))
  | .rz => false
  | .ru => !neg && (rem != 0 || st)
  | .rd => neg && (rem != 0 || st)
  | .rs => decide (65536 ≤ rem * 65536 / 2 ^ sh + q)

/-- Step one of R134 at a spacing of 2^q0: the kept multiple and whether the result is inexact. -/
def roundStep (mode : RMode) (neg : Bool) (m : Nat) (e q0 : Int) (st : Bool) (q : Nat) : Nat × Bool :=
  if q0 ≤ e then (m * 2 ^ (e - q0).toNat, st)
  else
    let sh := (q0 - e).toNat
    let n := m / 2 ^ sh
    let rem := m % 2 ^ sh
    (n + (if roundsUp mode neg n rem sh st q then 1 else 0), rem != 0 || st)

/-- The options of a rounding: mode, saturation, flushing, and the draw of a stochastic rounding (R134 to R138). -/
structure ROpts where
  mode : RMode := .rne
  sat : Bool := false
  ftz : Bool := false
  q : Nat := 0
  deriving DecidableEq, Repr

/-- The overflow result of R134 and R135. Into `e4m3` without `.sat`, an overflow that the mode does not carry to infinity gives the largest finite value of
R134, where R135 says NaN and names no mode (DESIGN CHOICE, log 131). -/
def overflowResult (f : FFmt) (o : ROpts) (neg : Bool) : Nat × Flags :=
  let sbit := if neg then 2 ^ (f.ebits + f.mbits) else 0
  if o.sat then (f.maxFin + sbit, { sat := true })
  else
    let toInf := match o.mode with | .rne => true | .rs => true | .rz => false | .ru => !neg | .rd => neg
    let fl : Flags := { of := true, nx := true }
    if !toInf then (f.maxFin + sbit, fl)
    else match f.special with
      | .ieee => (f.maxFin + 1 + sbit, fl)
      | .nanOnly => (f.canonNan, fl)
      | .none => (f.maxFin + sbit, fl)

/-- A finite exact result rounded to a format (R134, R135, R138). `st` says that the exact magnitude is a little above
m * 2^e (a transcendental's tail). -/
def roundFin (f : FFmt) (o : ROpts) (neg : Bool) (m : Nat) (e : Int) (st : Bool) : Nat × Flags :=
  let sbit := if neg then 2 ^ (f.ebits + f.mbits) else 0
  if m = 0 then (sbit, {})
  else
    let emin : Int := 1 - f.bias
    let lead : Int := (bitLen m : Int) - 1 + e
    let q0 : Int := max lead emin - f.mbits
    let (n0, inexact) := roundStep o.mode neg m e q0 st o.q
    let carry := decide (2 ^ (f.mbits + 1) ≤ n0)
    let n := if carry then n0 / 2 else n0
    let q1 := if carry then q0 + 1 else q0
    let tiny := decide (n < 2 ^ f.mbits)
    let fl : Flags := { nx := inexact, uf := tiny && inexact }
    let bitsPos : Int := if tiny then n else (q1 + f.mbits + f.bias) * 2 ^ f.mbits + (n - 2 ^ f.mbits : Nat)
    if (f.maxFin : Int) < bitsPos then overflowResult f o neg
    else if o.ftz && tiny && n != 0 then (sbit, { nx := true, uf := true })
    else (bitsPos.toNat + sbit, fl)

/-- An exact value rounded to a format, NaN and infinite sources included (R130, R134, R135). -/
def roundTo (f : FFmt) (o : ROpts) (x : Xv) (st : Bool := false) : Nat × Flags :=
  match x with
  | .nan =>
    match f.special with
    | .none => (0, { nv := true })
    | _ => (f.canonNan, {})
  | .inf neg =>
    let sbit := if neg then 2 ^ (f.ebits + f.mbits) else 0
    if o.sat then (f.maxFin + sbit, { sat := true })
    else match f.special with
      | .ieee => (f.maxFin + 1 + sbit, {})
      | .nanOnly => (f.canonNan, { nv := true })
      | .none => (f.maxFin + sbit, { of := true })
  | .fin neg m e => roundFin f o neg m e st

/-- An exact value rounded to an integer type (R139): NaN gives 0; out of range gives the clamped value. -/
def roundToInt (ty : ElTy) (o : ROpts) (x : Xv) : Nat × Flags :=
  let w := ElTy.width ty
  let lo := intMin (ElTy.signed ty) w
  let hi := intMax (ElTy.signed ty) w
  let clampFl : Flags := if o.sat then { sat := true } else { nv := true }
  match x with
  | .nan => (0, { nv := true })
  | .inf neg => (bitsOfInt w (if neg then lo else hi), clampFl)
  | .fin neg m e =>
    let (n, inexact) := roundStep o.mode neg m e 0 false o.q
    let v : Int := if neg then -(n : Int) else n
    if v < lo then (bitsOfInt w lo, clampFl)
    else if hi < v then (bitsOfInt w hi, clampFl)
    else (bitsOfInt w v, { nx := inexact })

/-! ### The generator of stochastic rounding (R136, R137) -/

/-- One step of the generator. -/
def lfsrStep (s : BitVec 32) : BitVec 32 :=
  let t := s >>> 1
  if s.getLsbD 0 then t ^^^ 0x80200003#32 else t

/-- The generator after `n` steps. -/
def lfsrSteps : Nat → BitVec 32 → BitVec 32
  | 0, s => s
  | n + 1, s => lfsrSteps n (lfsrStep s)

/-- One draw: 16 steps, then the low 16 bits. -/
def lfsrDraw (s : BitVec 32) : Nat × BitVec 32 :=
  let t := lfsrSteps 16 s
  ((t.extractLsb' 0 16).toNat, t)

/-! ### Exact arithmetic (R134, R140) -/

/-- The negative of an exact value. -/
def Xv.neg : Xv → Xv
  | .nan => .nan
  | .inf s => .inf (!s)
  | .fin s m e => .fin (!s) m e

/-- The signed multiple of 2^q of a finite magnitude whose exponent is at least `q`. -/
def scaled (neg : Bool) (m : Nat) (e q : Int) : Int :=
  let v : Int := (m * 2 ^ (e - q).toNat : Nat)
  if neg then -v else v

/-- The exact sum of two values: a NaN from opposite infinities sets `invalid`; an exact zero is +0 unless both addends are
-0 (R134, R140). -/
def Xv.add : Xv → Xv → Xv × Flags
  | .nan, _ => (.nan, {})
  | _, .nan => (.nan, {})
  | .inf a, .inf b => if a = b then (.inf a, {}) else (.nan, { nv := true })
  | .inf a, .fin _ _ _ => (.inf a, {})
  | .fin _ _ _, .inf b => (.inf b, {})
  | .fin s m e, .fin s' m' e' =>
    if m = 0 ∧ m' = 0 then (.fin (s && s') 0 0, {})
    else
      let q := min e e'
      let v := scaled s m e q + scaled s' m' e' q
      (.fin (decide (v < 0)) v.natAbs q, {})

/-- The exact product; zero times infinity sets `invalid` (R140). The sign is that of the operands' signs. -/
def Xv.mul : Xv → Xv → Xv × Flags
  | .nan, _ => (.nan, {})
  | _, .nan => (.nan, {})
  | .inf a, .inf b => (.inf (a != b), {})
  | .inf a, .fin s m _ => if m = 0 then (.nan, { nv := true }) else (.inf (a != s), {})
  | .fin s m _, .inf b => if m = 0 then (.nan, { nv := true }) else (.inf (s != b), {})
  | .fin s m e, .fin s' m' e' => (.fin (s != s') (m * m') (e + e'), {})

/-- The order of two values as R141 compares them: -0 equals +0, and a NaN is unordered. -/
def Xv.cmp : Xv → Xv → Option Ordering
  | .nan, _ => none
  | _, .nan => none
  | .inf a, .inf b => some (if a = b then .eq else if a then .lt else .gt)
  | .inf a, .fin _ _ _ => some (if a then .lt else .gt)
  | .fin _ _ _, .inf b => some (if b then .gt else .lt)
  | .fin s m e, .fin s' m' e' =>
    let q := min e e'
    let a := scaled s m e q
    let b := scaled s' m' e' q
    some (if a < b then .lt else if b < a then .gt else .eq)

/-- Whether a value's sign is negative. -/
def Xv.isNeg : Xv → Bool
  | .nan => false
  | .inf s => s
  | .fin s _ _ => s

/-- A subnormal operand flushed to zero of its own sign (R138). -/
def ftzBits (f : FFmt) (b : Nat) : Nat :=
  if b / 2 ^ f.mbits % 2 ^ f.ebits = 0 then b / 2 ^ (f.ebits + f.mbits) % 2 * 2 ^ (f.ebits + f.mbits) else b

/-! ### Roots, exponentials and logarithms (R142) -/

/-- The integer square root, bit by bit. -/
def isqrtGo (n : Nat) : Nat → Nat → Nat
  | 0, r => r
  | i + 1, r => isqrtGo n i (if (r + 2 ^ i) * (r + 2 ^ i) ≤ n then r + 2 ^ i else r)

/-- The greatest `r` with `r * r ≤ n`. -/
def isqrt (n : Nat) : Nat := isqrtGo n (bitLen n / 2 + 1) 0

/-- A magnitude with a tail: `m * 2^e`, and whether the exact value lies a little above it. -/
structure Tail where
  m : Nat
  e : Int
  st : Bool
  deriving DecidableEq, Repr

/-- The reciprocal of m * 2^e, m not zero. -/
def recipTail (m : Nat) (e : Int) : Tail :=
  let k := bitLen m + 64
  ⟨2 ^ k / m, -e - k, 2 ^ k % m != 0⟩

/-- The square root of m * 2^e. -/
def sqrtTail (m : Nat) (e : Int) : Tail :=
  let odd := e % 2 == 1
  let m' := if odd then 2 * m else m
  let e' := if odd then e - 1 else e
  let y := m' * 2 ^ 128
  let r := isqrt y
  ⟨r, e' / 2 - 64, r * r != y⟩

/-- The reciprocal square root of m * 2^e, m not zero. -/
def rsqrtTail (m : Nat) (e : Int) : Tail :=
  let odd := e % 2 == 1
  let m' := if odd then 2 * m else m
  let e' := if odd then e - 1 else e
  let r := isqrt (2 ^ 256 / m')
  ⟨r, -(e' / 2) - 128, r * r * m' != 2 ^ 256⟩

/-- The working precision of 2^x in bits. -/
def exp2Prec : Nat := 320

/-- The product of the roots 2^(2^-i) for the set bits of a fraction, from its bit `k - 1` down: `root` is the current
root and `acc` the product, both with `exp2Prec` bits below the point. -/
def exp2Go (fr : Nat) : Nat → Nat → Nat → Nat
  | 0, _, acc => acc
  | k + 1, root, acc =>
    let r := isqrt (root * 2 ^ exp2Prec)
    exp2Go fr k r (if fr / 2 ^ k % 2 = 1 then acc * r / 2 ^ exp2Prec else acc)

/-- 2 to the power (-1)^neg * m * 2^e, for a value that is no integer or is small enough to shift: its integer part goes to the
exponent, and its fraction of `k` bits through `exp2Go`. The result is truncated to `exp2Prec` bits; the exact value of a
fraction that is not zero is irrational, so it lies above. -/
def exp2Tail (neg : Bool) (m : Nat) (e : Int) : Tail :=
  let k := (-e).toNat
  let v : Int := if neg then -(m * 2 ^ e.toNat : Nat) else (m * 2 ^ e.toNat : Nat)
  let ip : Int := v / (2 ^ k : Int)
  let fr : Nat := (v % (2 ^ k : Int)).toNat
  ⟨exp2Go fr k (2 * 2 ^ exp2Prec) (2 ^ exp2Prec), ip - exp2Prec, fr != 0⟩

/-- The bits of a binary logarithm by repeated squaring: `f` is in [1, 2) with `prec` bits below the point. -/
def log2Go (prec : Nat) : Nat → Nat → Nat → Nat
  | 0, _, acc => acc
  | n + 1, f, acc =>
    let g := f * f / 2 ^ prec
    if 2 * 2 ^ prec ≤ g then log2Go prec n (g / 2) (2 * acc + 1) else log2Go prec n g (2 * acc)

/-- The binary logarithm of m * 2^e, m not zero, as a sign and a magnitude with a tail. -/
def log2Tail (m : Nat) (e : Int) : Bool × Tail :=
  let l := bitLen m - 1
  let ip : Int := e + l
  if m = 2 ^ l then (decide (ip < 0), ⟨ip.natAbs, 0, false⟩)
  else
    let fr := log2Go 640 256 (m * 2 ^ (640 - l)) 0
    let v : Int := ip * 2 ^ 256 + fr
    if v < 0 then (true, ⟨v.natAbs - 1, -256, true⟩) else (false, ⟨v.natAbs, -256, true⟩)

end Sys2Proof.Machine
end

