-- ==== Sys2Proof/Machine/Vec.lean ====
section
/-!
DEFINITION. What the vector operations compute (11 R240 to R260, 06 R133, R148 to R150): functions of the operand bits, the
granted length, the active lanes and the governing mask, which give the result bits, the flags with the element that raised them, and the
generator's state.
-/
namespace Sys2Proof.Machine

/-- The shape a block's data-plane instructions act under: granted length and active lanes (R240), and the governing mask m0 (R241). -/
structure VCtx where
  g : Nat := 128
  a : Nat := 128
  m0 : MWord
  deriving DecidableEq, Repr

/-- The result of a vector operation: bits for t1 and t2, the flags by element, the generator's state after its draws. -/
structure VRes where
  lo : VWord
  hi : VWord
  fl : List (Nat × Flags) := []
  lfsr : BitVec 32
  deriving DecidableEq, Repr

/-- Element `e` of width `w` (R238). -/
def elem (w e : Nat) (v : VWord) : Nat := v.toNat / 2 ^ (w * e) % 2 ^ w

/-- Elements from the lowest up as a number. -/
def packNat (w : Nat) : List Nat → Nat
  | [] => 0
  | x :: r => x % 2 ^ w + 2 ^ w * packNat w r

/-- Elements as a token; every element above the list is zero (R240). -/
def pack (w : Nat) (l : List Nat) : VWord := BitVec.ofNat 4096 (packNat w l)

/-- The number of granted elements of width `w` (R240). -/
def VCtx.n (c : VCtx) (w : Nat) : Nat := 32 * c.g / w

/-- Whether element `e` of width `w` is in the tail (R240). -/
def VCtx.tail (c : VCtx) (w e : Nat) : Bool := decide (e * w / 32 < c.a)

/-- Whether element `e` of width `w` of a governed form is active (R241). -/
def VCtx.active (c : VCtx) (w e : Nat) : Bool := c.tail w e && c.m0.getLsbD e

/-- The number of beats of the granted length (R149, R252). -/
def VCtx.beats (c : VCtx) : Nat := (c.g + 31) / 32

/-- The flags that are not empty, with their elements. -/
def flagList (l : List (Nat × Flags)) : List (Nat × Flags) := l.filter fun p => p.2 != {}

/-- An element-wise form: active elements take `f`, the others `d` (R241). -/
def elementwise (n w : Nat) (act : Nat → Bool) (f : Nat → Nat × Flags) (d : Nat → Nat) : VWord × List (Nat × Flags) :=
  let rs := (List.range n).map fun e => if act e then (e, f e) else (e, (d e, {}))
  (pack w (rs.map fun p => p.2.1), flagList (rs.map fun p => (p.1, p.2.2)))

/-- The value of the bits of an element of a type with no microscaling (R127, R129). -/
def elemVal (ty : ElTy) (b : Nat) : Xv :=
  match ElTy.ffmt ty with
  | some f => f.decode b
  | none => Xv.ofInt (intOfBits (ElTy.signed ty) (ElTy.width ty) b)

/-! ### Element operations -/

/-- The binary element operations that integer and floating types share. -/
inductive BinOp where
  | add | sub | mul | min | max | and | or | xor
  deriving DecidableEq, Repr

/-- An integer element operation, exact before R128 narrows it. -/
def intBin (op : BinOp) (x y : Int) (w : Nat) : Int :=
  match op with
  | .add => x + y
  | .sub => x - y
  | .mul => x * y
  | .min => if x ≤ y then x else y
  | .max => if x ≤ y then y else x
  | .and => (bitsOfInt w x &&& bitsOfInt w y : Nat)
  | .or => (bitsOfInt w x ||| bitsOfInt w y : Nat)
  | .xor => (bitsOfInt w x ^^^ bitsOfInt w y : Nat)

/-- `min` and `max` of floating values: NaN if either is, and -0 below +0 (R140). -/
def fltMin (isMin : Bool) (f : FFmt) (x y : Nat) : Nat :=
  let a := f.decode x
  let b := f.decode y
  match a.cmp b with
  | none => f.canonNan
  | some .lt => if isMin then x else y
  | some .gt => if isMin then y else x
  | some .eq => if isMin then (if a.isNeg then x else y) else (if a.isNeg then y else x)

/-- A floating element operation, rounded once with `rne` (R138, R140). -/
def fltBin (op : BinOp) (f : FFmt) (ftz : Bool) (x0 y0 : Nat) : Nat × Flags :=
  let x := if ftz then ftzBits f x0 else x0
  let y := if ftz then ftzBits f y0 else y0
  let arith (r : Xv × Flags) : Nat × Flags :=
    let (b, fl) := roundTo f { ftz := ftz } r.1
    (b, r.2.or fl)
  match op with
  | .add => arith ((f.decode x).add (f.decode y))
  | .sub => arith ((f.decode x).add (f.decode y).neg)
  | .mul => arith ((f.decode x).mul (f.decode y))
  | .min => (fltMin true f x y, {})
  | .max => (fltMin false f x y, {})
  | .and => (x &&& y, {})
  | .or => (x ||| y, {})
  | .xor => (x ^^^ y, {})

/-- A binary operation on two elements of a type; `md` is `.sat` on an integer type and `.ftz` on a floating one. -/
def elemBin (op : BinOp) (ty : ElTy) (md : Bool) (x y : Nat) : Nat × Flags :=
  match ElTy.ffmt ty with
  | some f => fltBin op f md x y
  | none =>
    let w := ElTy.width ty
    intResult ty md (intBin op (intOfBits (ElTy.signed ty) w x) (intOfBits (ElTy.signed ty) w y) w)

/-- Bits [2w-1:w] of the exact product (R244). -/
def elemMulh (ty : ElTy) (x y : Nat) : Nat × Flags :=
  let w := ElTy.width ty
  (bitsOfInt w (intOfBits (ElTy.signed ty) w x * intOfBits (ElTy.signed ty) w y / (2 ^ w : Int)), {})

/-- A floating element whose sign bit a form has changed, canonicalised if it is a NaN; flushed first under `.ftz` (R138,
R141). -/
def fltSign (f : FFmt) (ftz : Bool) (g : Bool → Bool) (x0 : Nat) : Nat × Flags :=
  let x := if ftz then ftzBits f x0 else x0
  match f.decode x with
  | .nan => (f.canonNan, {})
  | _ =>
    let sb := 2 ^ (f.ebits + f.mbits)
    (x % sb + (if g (x / sb % 2 == 1) then sb else 0), {})

/-- `abs` of an element (R128, R141, R244). -/
def elemAbs (ty : ElTy) (md : Bool) (x : Nat) : Nat × Flags :=
  match ElTy.ffmt ty with
  | some f => fltSign f md (fun _ => false) x
  | none => intResult ty md (intOfBits (ElTy.signed ty) (ElTy.width ty) x).natAbs

/-- `neg` of an element (R128, R141, R244). -/
def elemNeg (ty : ElTy) (md : Bool) (x : Nat) : Nat × Flags :=
  match ElTy.ffmt ty with
  | some f => fltSign f md not x
  | none => intResult ty md (-(intOfBits (ElTy.signed ty) (ElTy.width ty) x))

/-- The shifts of R245; `arith` fills with the sign. -/
def elemShl (w l s : Nat) : Nat := if w ≤ s then 0 else l * 2 ^ s % 2 ^ w
/-- A shift right with zero fill (R245). -/
def elemShr (w l s : Nat) : Nat := if w ≤ s then 0 else l / 2 ^ s
/-- A shift right with sign fill (R245). -/
def elemSar (w l s : Nat) : Nat :=
  let v := intOfBits true w l
  if w ≤ s then (if v < 0 then 2 ^ w - 1 else 0) else bitsOfInt w (v / (2 ^ s : Int))

/-- The number of ones of a value of `w` bits. -/
def popcount : Nat → Nat → Nat
  | 0, _ => 0
  | w + 1, x => x % 2 + popcount w (x / 2)

/-- The zeros above the highest one of a value of `w` bits. -/
def countLead (w x : Nat) : Nat := w - bitLen x

/-- The conditions of `cmp` (04 R106), on the order of the operands; no order means one is a NaN (R141). -/
def condHolds (c : BitVec 3) (o : Option Ordering) : Bool :=
  match c.toNat, o with
  | 0, some .eq => true
  | 1, some .eq => false
  | 1, _ => true
  | 2, some .lt => true
  | 3, some .lt => true
  | 3, some .eq => true
  | 4, some .gt => true
  | 5, some .gt => true
  | 5, some .eq => true
  | 6, none => true
  | 7, some _ => true
  | _, _ => false

/-! ### Conversion of one element (R139) -/

/-- The value of one element converted to a type with no microscaling. -/
def convVal (srcInt : Bool) (dst : ElTy) (o : ROpts) (x : Xv) : Nat × Flags :=
  match ElTy.ffmt dst with
  | some f => roundTo f o x
  | none =>
    if srcInt then
      match x with
      | .fin neg m e => intResult dst o.sat (scaled neg m e 0)
      | _ => roundToInt dst o x
    else roundToInt dst o x

/-! ### The operations on tokens -/

/-- A binary element-wise form (R244, R246). -/
def vBin (op : BinOp) (ty : ElTy) (md : Bool) (c : VCtx) (l r : VWord) (lf : BitVec 32) : VRes :=
  let w := ElTy.width ty
  let (v, fl) := elementwise (c.n w) w (c.active w) (fun e => elemBin op ty md (elem w e l) (elem w e r)) (fun e => elem w e l)
  ⟨v, v, fl, lf⟩

/-- An element-wise form given by a function of the two elements. -/
def vMap2 (ty : ElTy) (f : Nat → Nat → Nat × Flags) (c : VCtx) (l r : VWord) (lf : BitVec 32) : VRes :=
  let w := ElTy.width ty
  let (v, fl) := elementwise (c.n w) w (c.active w) (fun e => f (elem w e l) (elem w e r)) (fun e => elem w e l)
  ⟨v, v, fl, lf⟩

/-- An element-wise form given by a function of the left element. -/
def vMap1 (ty : ElTy) (f : Nat → Nat × Flags) (c : VCtx) (l : VWord) (lf : BitVec 32) : VRes :=
  vMap2 ty (fun x _ => f x) c l 0 lf

/-- `cmp` (R247). -/
def vCmp (ty : ElTy) (ftz : Bool) (cond : BitVec 3) (c : VCtx) (l r : VWord) (lf : BitVec 32) : VRes :=
  let w := ElTy.width ty
  let fl (b : Nat) : Nat := match ElTy.ffmt ty with | some f => if ftz then ftzBits f b else b | none => b
  let bit (e : Nat) : Nat :=
    if c.active w e && condHolds cond ((elemVal ty (fl (elem w e l))).cmp (elemVal ty (fl (elem w e r)))) then 1 else 0
  let v := pack 1 ((List.range (c.n w)).map bit)
  ⟨v, v, [], lf⟩

/-- `msel` (R248). -/
def vMsel (ty : ElTy) (m : MWord) (c : VCtx) (l r : VWord) (lf : BitVec 32) : VRes :=
  let w := ElTy.width ty
  let v := pack w ((List.range (c.n w)).map fun e => if m.getLsbD e then elem w e l else elem w e r)
  ⟨v, v, [], lf⟩

/-- The wide type of a narrow one (R249, R250). -/
def wideTy : ElTy → ElTy
  | .s8 => .s16
  | .s16 => .s32
  | .n8 => .n16
  | .n16 => .n32
  | .f16 => .f32
  | .bf16 => .f32
  | .s32 => .s32
  | .n32 => .n32
  | .f32 => .f32
  | .e4m3 => .f32
  | .e5m2 => .f32
  | .e2m1 => .f32
  | .mx8 => .f32
  | .mx4 => .f32

/-- One element of `wadd` or `wmul`: exact on integers, rounded once into `f32` on floating sources (R140, R249). -/
def wideElem (mul : Bool) (ty : ElTy) (x y : Nat) : Nat × Flags :=
  let w := ElTy.width ty
  match ElTy.ffmt ty with
  | some f =>
    let r := if mul then (f.decode x).mul (f.decode y) else (f.decode x).add (f.decode y)
    let (b, fl) := roundTo f32Fmt {} r.1
    (b, r.2.or fl)
  | none =>
    let a := intOfBits (ElTy.signed ty) w x
    let b := intOfBits (ElTy.signed ty) w y
    (bitsOfInt (2 * w) (if mul then a * b else a + b), {})

/-- `wadd` and `wmul` (R249). -/
def vWiden (mul : Bool) (ty : ElTy) (c : VCtx) (l r : VWord) (lf : BitVec 32) : VRes :=
  let w := ElTy.width ty
  let n := c.n w
  let half (off : Nat) : VWord × List (Nat × Flags) :=
    let rs := (List.range (n / 2)).map fun j =>
      let e := off + j
      (e, if c.active w e then wideElem mul ty (elem w e l) (elem w e r) else (0, {}))
    (pack (2 * w) (rs.map fun p => p.2.1), flagList (rs.map fun p => (p.1, p.2.2)))
  let a := half 0
  let b := half (n / 2)
  ⟨a.1, b.1, a.2 ++ b.2, lf⟩

/-- Elements converted in ascending order with one draw for each active element under `rs` (R136): the element's value
where active, and zero elsewhere. -/
def drawElems (o : ROpts) (act : Nat → Bool) (f : ROpts → Nat → Nat × Flags) :
    List Nat → BitVec 32 → List Nat × List (Nat × Flags) × BitVec 32
  | [], lf => ([], [], lf)
  | e :: es, lf =>
    if act e then
      let (q, lf') := if o.mode = .rs then lfsrDraw lf else (0, lf)
      let (b, fl) := f { o with q := q } e
      let (vs, fs, lf'') := drawElems o act f es lf'
      (b :: vs, (e, fl) :: fs, lf'')
    else
      let (vs, fs, lf'') := drawElems o act f es lf
      (0 :: vs, fs, lf'')

/-- `narrow` (R250): destination element `e` comes from the left token below n/2 and from the right above. -/
def vNarrow (ty : ElTy) (sat : Bool) (mode : RMode) (c : VCtx) (l r : VWord) (lf : BitVec 32) : VRes :=
  let w := ElTy.width ty
  let n := c.n w
  let src := wideTy ty
  let f (o : ROpts) (e : Nat) : Nat × Flags :=
    let b := if e < n / 2 then elem (2 * w) e l else elem (2 * w) (e - n / 2) r
    convVal (ElTy.isInt src) ty o (elemVal src b)
  let (vs, fs, lf') := drawElems { mode := mode, sat := sat } (c.active w) f (List.range n) lf
  let v := pack w vs
  ⟨v, v, flagList fs, lf'⟩

/-! ### Microscaled formats (06 R131 to R133, 11 R252) -/

/-- Elements in a beat: 96 of `mx8`, 224 of `mx4` (R252). -/
def mxPerBeat (mx4 : Bool) : Nat := if mx4 then 224 else 96
/-- Blocks in a beat (R132). -/
def mxBlocks (mx4 : Bool) : Nat := if mx4 then 7 else 3
/-- The element type of a microscaled type (R131). -/
def mxElTy (mx4 : Bool) : ElTy := if mx4 then .e2m1 else .e4m3
/-- The first scale byte of a beat (R132). -/
def mxScaleAt (mx4 : Bool) : Nat := if mx4 then 112 else 96

/-- An exact value times 2^k. -/
def Xv.scale (x : Xv) (k : Int) : Xv :=
  match x with
  | .nan => .nan
  | .inf s => .inf s
  | .fin s m e => .fin s m (e + k)

/-- The value of element `e` of microscaled bits, given as a number (R131, R132). -/
def mxElem (mx4 : Bool) (bits e : Nat) : Xv :=
  let b := e / mxPerBeat mx4
  let i := e % mxPerBeat mx4
  let w := if mx4 then 4 else 8
  let beat := bits / 2 ^ (1024 * b)
  let x := beat / 2 ^ (w * i) % 2 ^ w
  let sc := beat / 2 ^ (8 * (mxScaleAt mx4 + i / 32)) % 256
  if sc = 255 then .nan else (elemVal (mxElTy mx4) x).scale ((sc : Int) - 127)

/-- The exponent of the highest bit of a finite value that is not zero. -/
def leadExp (x : Xv) : Option Int :=
  match x with
  | .fin _ m e => if m = 0 then none else some ((bitLen m : Int) - 1 + e)
  | _ => none

/-- One block of 32 values converted into MX: the scale byte, the element bits and the flags by position (R133). `acts` says
which positions are active and draw. -/
def mxBlock (mx4 : Bool) (mode : RMode) (xs : List (Nat × Bool × Xv)) (lf : BitVec 32) :
    Nat × List Nat × List (Nat × Flags) × BitVec 32 :=
  let bad := xs.filter fun p => match p.2.2 with | .fin _ _ _ => false | _ => true
  let leads := xs.filterMap fun p => leadExp p.2.2
  let emax : Int := if mx4 then 2 else 8
  let e : Int := match leads with | [] => 0 | x :: r => max (-127) (min 127 (r.foldl max x - emax))
  let f (o : ROpts) (k : Nat) : Nat × Flags :=
    match xs[k]? with
    | none => (0, {})
    | some p =>
      match ElTy.ffmt (mxElTy mx4) with
      | none => (0, {})
      | some fm =>
        let (b, fl) := roundTo fm { o with sat := true } (p.2.2.scale (-e))
        (b, { nx := fl.nx, uf := fl.uf })
  let act (k : Nat) : Bool := match xs[k]? with | some p => p.2.1 | none => false
  let (vs, fs, lf') := drawElems { mode := mode } act f (List.range xs.length) lf
  match bad with
  | p :: _ => (255, List.replicate 32 0, [(p.1, { nv := true })], lf')
  | [] =>
    if leads.isEmpty then (127, List.replicate 32 0, [], lf')
    else
      let fs' := fs.filterMap fun q => (xs[q.1]?).map fun p => (p.1, q.2)
      ((e + 127).toNat, vs ++ List.replicate (32 - vs.length) 0, flagList fs', lf')

/-- Blocks in ascending order, the generator threaded through them. -/
def mxBlocksOf (mx4 : Bool) (mode : RMode) :
    List (List (Nat × Bool × Xv)) → BitVec 32 → List (Nat × List Nat) × List (Nat × Flags) × BitVec 32
  | [], lf => ([], [], lf)
  | b :: bs, lf =>
    let (sc, vs, fl, lf') := mxBlock mx4 mode b lf
    let (rs, fls, lf'') := mxBlocksOf mx4 mode bs lf'
    ((sc, vs) :: rs, fl ++ fls, lf'')

/-- A list cut into pieces of `k`; `fuel` bounds their number. -/
def chunks {α : Type} (k : Nat) : Nat → List α → List (List α)
  | 0, _ => []
  | _ + 1, [] => []
  | n + 1, l => l.take k :: chunks k n (l.drop k)

/-- The bits of one beat from its blocks (R132). -/
def mxBeat (mx4 : Bool) (bs : List (Nat × List Nat)) : Nat :=
  let w := if mx4 then 4 else 8
  packNat w (bs.flatMap fun b => b.2) + 2 ^ (8 * mxScaleAt mx4) * packNat 8 (bs.map fun b => b.1)

/-- The blocks of one register as bits: blocks beyond the last filled one hold +0 with scale 0x7F (R252). -/
def mxRegister (mx4 : Bool) (beats : Nat) (bs : List (Nat × List Nat)) : VWord :=
  let nb := mxBlocks mx4
  let all := bs ++ List.replicate (beats * nb - bs.length) (127, List.replicate 32 0)
  pack 1024 ((chunks nb beats all).map (mxBeat mx4))

/-- Whether a type is microscaled, and which. -/
def mxOf : ElTy → Option Bool
  | .mx8 => some false
  | .mx4 => some true
  | .s8 | .s16 | .s32 | .n8 | .n16 | .n32 | .f32 | .f16 | .bf16 | .e4m3 | .e5m2 | .e2m1 => none

/-- The number of elements a register of a type holds under a granted length (R240, R252). -/
def capacity (c : VCtx) (ty : ElTy) : Nat :=
  match mxOf ty with
  | some m => mxPerBeat m * c.beats
  | none => c.n (ElTy.width ty)

/-- `cvt` (R251, R252). -/
def vCvt (dst src : ElTy) (sat : Bool) (mode : RMode) (c : VCtx) (l : VWord) (lf : BitVec 32) : VRes :=
  let ws := ElTy.width src
  let wd := ElTy.width dst
  let n := min (capacity c src) (capacity c dst)
  let val (e : Nat) : Xv :=
    match mxOf src with
    | some m => mxElem m l.toNat e
    | none => elemVal src (elem ws e l)
  let act (e : Nat) : Bool :=
    c.m0.getLsbD e &&
    match mxOf src with
    | some m => decide (e / mxPerBeat m < (c.a + 31) / 32)
    | none => match mxOf dst with
      | some _ => c.tail ws e
      | none => c.tail (max ws wd) e
  match mxOf dst with
  | none =>
    let f (o : ROpts) (e : Nat) : Nat × Flags := convVal (ElTy.isInt src) dst o (val e)
    let (vs, fs, lf') := drawElems { mode := mode, sat := sat } act f (List.range n) lf
    let v := pack wd vs
    ⟨v, v, flagList fs, lf'⟩
  | some m =>
    let xs := (List.range n).map fun e => (e, act e, if act e then val e else .fin false 0 0)
    let (bs, fs, lf') := mxBlocksOf m mode (chunks 32 (n / 32 + 1) xs) lf
    let v := mxRegister m c.beats bs
    ⟨v, v, fs, lf'⟩

/-! ### Transcendentals (R142, R253) -/

/-- The five functions of major 0x6F. -/
inductive TFun where
  | rcp | rsq | sqrt | exp2 | log2
  deriving DecidableEq, Repr

/-- A positive or negative magnitude with a tail, rounded to `f32`. -/
def roundTail (ftz neg : Bool) (t : Tail) : Nat × Flags := roundFin f32Fmt { ftz := ftz } neg t.m t.e t.st

/-- One element of a transcendental (R253). A magnitude of 2^9 or more is beyond the `f32` range of 2^x on either side, so 512 stands
for it. -/
def transElem (f : TFun) (ftz : Bool) (b0 : Nat) : Nat × Flags :=
  let b := if ftz then ftzBits f32Fmt b0 else b0
  let inf (neg : Bool) : Nat := 0x7F800000 + (if neg then 2 ^ 31 else 0)
  let zero (neg : Bool) : Nat := if neg then 2 ^ 31 else 0
  let nan : Nat := f32Fmt.canonNan
  match f32Fmt.decode b with
  | .nan => (nan, {})
  | .inf neg =>
    match f with
    | .rcp => (zero neg, {})
    | .rsq => if neg then (nan, { nv := true }) else (0, {})
    | .sqrt => if neg then (nan, { nv := true }) else (inf false, {})
    | .exp2 => if neg then (0, {}) else (inf false, {})
    | .log2 => if neg then (nan, { nv := true }) else (inf false, {})
  | .fin neg m e =>
    if m = 0 then
      match f with
      | .rcp => (inf neg, { dz := true })
      | .rsq => (inf neg, { dz := true })
      | .sqrt => (zero neg, {})
      | .exp2 => (0x3F800000, {})
      | .log2 => (inf true, { dz := true })
    else
      match f with
      | .rcp => roundTail ftz neg (recipTail m e)
      | .rsq => if neg then (nan, { nv := true }) else roundTail ftz false (rsqrtTail m e)
      | .sqrt => if neg then (nan, { nv := true }) else roundTail ftz false (sqrtTail m e)
      | .exp2 =>
        if 9 ≤ (bitLen m : Int) - 1 + e then roundTail ftz false (exp2Tail neg 512 0)
        else roundTail ftz false (exp2Tail neg m e)
      | .log2 =>
        if neg then (nan, { nv := true })
        else
          let (s, t) := log2Tail m e
          roundTail ftz (s && t.m != 0) t

/-- A transcendental on a token. -/
def vTrans (f : TFun) (ftz : Bool) (c : VCtx) (l : VWord) (lf : BitVec 32) : VRes :=
  vMap1 .f32 (transElem f ftz) c l lf

/-! ### Reductions and scans (R148 to R150, R254, R255) -/

/-- The operation of a code of `red` or `scan` (04 R106). -/
def redOp (c : BitVec 3) : BinOp :=
  match c.toNat with
  | 0 => .add
  | 1 => .min
  | 2 => .max
  | 3 => .and
  | 4 => .or
  | _ => .xor

/-- The identity of an operation (R148). -/
def redId (op : BinOp) (ty : ElTy) : Nat :=
  let w := ElTy.width ty
  match ElTy.ffmt ty with
  | some f =>
    let sb := 2 ^ (f.ebits + f.mbits)
    match op with
    | .min => f.maxFin + 1
    | .max => f.maxFin + 1 + sb
    | .add | .sub | .mul | .and | .or | .xor => sb
  | none =>
    match op with
    | .min => bitsOfInt w (intMax (ElTy.signed ty) w)
    | .max => bitsOfInt w (intMin (ElTy.signed ty) w)
    | .and => 2 ^ w - 1
    | .add | .sub | .mul | .or | .xor => 0

/-- One level of the pairwise tree (R149): pairs of positions and values, the lower position kept. -/
def treeLevel (f : Nat → Nat → Nat × Flags) : List (Nat × Nat) → List (Nat × Nat) × List (Nat × Flags)
  | (p, x) :: (_, y) :: r =>
    let (v, fl) := f x y
    let (rs, fs) := treeLevel f r
    ((p, v) :: rs, (p, fl) :: fs)
  | l => (l, [])

/-- `k` levels of the tree. -/
def treeLevels (f : Nat → Nat → Nat × Flags) : Nat → List (Nat × Nat) → List (Nat × Nat) × List (Nat × Flags)
  | 0, l => (l, [])
  | k + 1, l =>
    let (l', fs) := treeLevel f l
    let (r, fs') := treeLevels f k l'
    (r, fs ++ fs')

/-- The elements that enter a reduction: identity where inactive or beyond the granted length (R148, R254). -/
def redElems (op : BinOp) (ty : ElTy) (c : VCtx) (l : VWord) (b : Nat) : List Nat :=
  let w := ElTy.width ty
  let nb := 1024 / w
  (List.range nb).map fun i =>
    let e := b * nb + i
    if decide (e < c.n w) && c.active w e then elem w e l else redId op ty

/-- `red` (R149, R254). -/
def vRed (op : BinOp) (ty : ElTy) (md : Bool) (c : VCtx) (l : VWord) (lf : BitVec 32) : VRes :=
  let w := ElTy.width ty
  let nb := 1024 / w
  let f := elemBin op ty md
  let beat (b : Nat) : Nat × List (Nat × Flags) :=
    let xs := (redElems op ty c l b).zipIdx.map fun p => (b * nb + p.2, p.1)
    let (r, fs) := treeLevels f (Nat.log2 nb) xs
    ((match r with | (_, v) :: _ => v | [] => redId op ty), fs)
  let bs := (List.range c.beats).map beat
  let step (acc : Nat × List (Nat × Flags)) (b : Nat × List (Nat × Flags)) : Nat × List (Nat × Flags) :=
    let (v, fl) := f acc.1 b.1
    (v, acc.2 ++ b.2 ++ [(0, fl)])
  let res := match bs with | [] => (redId op ty, []) | b :: r => r.foldl step b
  let v := pack w (List.replicate (c.n w) res.1)
  ⟨v, v, flagList res.2, lf⟩

/-- One step of distance `d` of the scan in a beat whose first element is `base` (R150). -/
def scanStep (f : Nat → Nat → Nat × Flags) (base d : Nat) (ys : List Nat) : List Nat × List (Nat × Flags) :=
  let rs := ys.zipIdx.map fun p =>
    if p.2 < d then (p.1, (0, ({} : Flags)))
    else
      let (v, fl) := f (ys.getD (p.2 - d) 0) p.1
      (v, (base + (p.2 + 1 - 2 * d), fl))
  (rs.map Prod.fst, rs.map Prod.snd)

/-- The steps d = 2^(k0), 2^(k0+1), ... of the scan in a beat. -/
def scanSteps (f : Nat → Nat → Nat × Flags) (base : Nat) : Nat → Nat → List Nat → List Nat × List (Nat × Flags)
  | 0, _, ys => (ys, [])
  | k + 1, d, ys =>
    let (ys', fs) := scanStep f base d ys
    let (r, fs') := scanSteps f base k (2 * d) ys'
    (r, fs ++ fs')

/-- The carry across the beats in ascending order (R150). -/
def scanCarry (f : Nat → Nat → Nat × Flags) (c : Nat) : List (List Nat) → List Nat × List (Nat × Flags)
  | [] => ([], [])
  | ys :: r =>
    let rs := ys.map fun y => f c y
    let vs := rs.map Prod.fst
    let (t, fs) := scanCarry f (vs.getLastD c) r
    (vs ++ t, rs.map (fun p => (0, p.2)) ++ fs)

/-- `scan` (R150, R255). -/
def vScan (op : BinOp) (ty : ElTy) (md excl : Bool) (c : VCtx) (l : VWord) (lf : BitVec 32) : VRes :=
  let w := ElTy.width ty
  let nb := 1024 / w
  let f := elemBin op ty md
  let bs := (List.range c.beats).map fun b => scanSteps f (b * nb) (Nat.log2 nb) 1 (redElems op ty c l b)
  let (vs, fs) := scanCarry f (redId op ty) (bs.map Prod.fst)
  let out := if excl then redId op ty :: vs else vs
  let v := pack w (out.take (c.n w))
  ⟨v, v, flagList ((bs.flatMap Prod.snd) ++ fs), lf⟩

/-! ### Permutes, slides, broadcasts, masks, iota (R256 to R260) -/

/-- `perm` (R256). -/
def vPerm (ty : ElTy) (c : VCtx) (l r : VWord) (lf : BitVec 32) : VRes :=
  let w := ElTy.width ty
  let n := c.n w
  let v := pack w ((List.range n).map fun e => let k := elem w e r; if k < n then elem w k l else 0)
  ⟨v, v, [], lf⟩

/-- `slide.up` and `slide.dn` (R257); an index outside the granted elements gives 0. -/
def vSlide (up : Bool) (k : Nat) (ty : ElTy) (c : VCtx) (l r : VWord) (lf : BitVec 32) : VRes :=
  let w := ElTy.width ty
  let n := c.n w
  let at' (v : VWord) (i : Int) : Nat := if 0 ≤ i ∧ i < n then elem w i.toNat v else 0
  let res (e : Nat) : Nat :=
    if up then (if k ≤ e then at' l ((e : Int) - k) else at' r ((n : Int) - k + e))
    else (if e + k < n then at' l ((e : Int) + k) else at' r ((e : Int) + k - n))
  let v := pack w ((List.range n).map res)
  ⟨v, v, [], lf⟩

/-- `bcast` (R258). -/
def vBcast (k : Nat) (ty : ElTy) (c : VCtx) (l : VWord) (lf : BitVec 32) : VRes :=
  let w := ElTy.width ty
  let n := c.n w
  let v := pack w (List.replicate n (if k < n then elem w k l else 0))
  ⟨v, v, [], lf⟩

/-- The mask of a token: bits [1,023:0] (R239). -/
def maskOf (v : VWord) : MWord := v.extractLsb' 0 1024

/-- A mask as a token: the bits above are zero (R239). -/
def ofMask (m : MWord) : VWord := m.setWidth 4096

/-- `mcnt` (R259). -/
def vMcnt (c : VCtx) (l : VWord) : VWord := pack 32 (List.replicate c.g (popcount 1024 (maskOf l).toNat))

/-- `iota` (R260). -/
def vIota (ty : ElTy) (c : VCtx) : VWord := pack (ElTy.width ty) (List.range (c.n (ElTy.width ty)))

end Sys2Proof.Machine
end

