-- ==== Sys2Proof/Machine/Block.lean ====
section
/-!
DEFINITION. Tokens, fault records, pending effects and blocks in flight (02 R50, 03 R70 to R94, 09 R191).
-/
namespace Sys2Proof.Machine

/-- A token (03 R82, 09 R191, 11 R238): null, a control-plane value with its handle and event width in bytes, a
fault token with the virtual address that faulted, its cause code, the failed step of R221 and its subcode, or 4,096 bits. -/
inductive Tok where
  | null
  | ctl (v : Word) (h : Option (BitVec 4)) (ew : Nat)
  | fault (v : Word) (code step sub : Nat)
  | vec (v : VWord)
  deriving DecidableEq, Repr

/-- A control-plane token with no handle and event width 8 (R191). -/
def Tok.ofWord (v : Word) : Tok := .ctl v none 8

/-- The 64-bit value of a token. -/
def Tok.val : Tok → Word
  | .null => 0
  | .ctl v _ _ => v
  | .fault v _ _ _ => v
  | .vec v => v.extractLsb' 0 64

/-- The 4,096 bits of a token. -/
def Tok.bits : Tok → VWord
  | .null => 0
  | .ctl v _ _ => v.setWidth 4096
  | .fault v _ _ _ => v.setWidth 4096
  | .vec v => v

/-- The handle a token carries (R208). -/
def Tok.handle : Tok → Option (BitVec 4)
  | .ctl _ h _ => h
  | .null | .fault _ _ _ _ | .vec _ => none

/-- The event width of a token in bytes (R191). -/
def Tok.ew : Tok → Nat
  | .ctl _ _ e => e
  | .null | .fault _ _ _ _ | .vec _ => 8

/-- Whether a token is null. -/
def Tok.isNull : Tok → Bool
  | .null => true
  | .ctl _ _ _ | .fault _ _ _ _ | .vec _ => false

/-- Whether a token is a fault token. -/
def Tok.isFault : Tok → Bool
  | .fault _ _ _ _ => true
  | .null | .ctl _ _ _ | .vec _ => false

/-- The record of a fault as `cr.cause`, `cr.faddr` and `cr.finfo` hold it (13 R300, R301); the resume address is found when
it is taken. -/
structure FaultRec where
  code : Nat
  faddr : Word := 0
  evset : BitVec 8 := 0
  sub : BitVec 8 := 0
  elem : BitVec 10 := 0
  exit : BitVec 3 := 0
  succ : Bool := false
  step : BitVec 3 := 0
  tcode : BitVec 9 := 0
  blk : Bool := false
  slot : BitVec 7 := 0
  deriving DecidableEq, Repr

/-- `cr.finfo` of a record (R301). -/
def FaultRec.finfo (f : FaultRec) : Word :=
  f.evset ++ f.sub ++ 0#6 ++ f.elem ++ f.exit ++ BitVec.ofBool f.succ ++ f.step ++ f.tcode ++ 0#8 ++ BitVec.ofBool f.blk
    ++ f.slot

/-- A translation: a page of an address space, its frame and its permissions (10 R225, 19 R408). -/
structure Trans where
  size : PgSize
  vbase : Nat
  asn : BitVec 16
  frame : Nat
  key : Nat
  rd : Bool
  wr : Bool
  /-- The page was fenced: a write walks, and takes its shadow (19 R417). -/
  fenced : Bool := false
  deriving DecidableEq, Repr

/-- The operation of an `amo` (10 R232). -/
inductive AmoOp where
  | add | addF32 | minS | maxS | minN | maxN | and | or | xor
  deriving DecidableEq, Repr

/-- The page of the translation that an access used (19 R414): its address space, va[56:0] of its base and its length; none where it used none. -/
structure PgUse where
  asn : BitVec 16 := 0
  va : Nat := 0
  len : Nat := 0
  deriving DecidableEq, Repr

/-- One event of a store: the physical address, the key of its page (23 R486) and the bytes written there (09 R209, 10 R229). -/
structure StEvent where
  pa : Nat
  key : Nat
  vp : PgUse
  bytes : List Byte
  /-- It is the second part of an event that crosses a 64-byte boundary (07 R160). -/
  cut : Bool := false
  deriving DecidableEq, Repr

/-- The commands of `strm` (15 R341). -/
inductive StrmCmd where
  | stage (n : Nat) | rows | tag | go | halt
  deriving DecidableEq, Repr

/-- The commands of `bar` (18 R393). -/
inductive BarCmd where
  | init | arrive | bind | drop
  deriving DecidableEq, Repr

/-- The commands of `grp` (17 R381). -/
inductive GrpCmd where
  | make | split | join | free
  deriving DecidableEq, Repr

/-- The commands of `pg` (19 R420). -/
inductive PgCmd where
  | map | unmap | pin | unpin | poison | promote
  deriving DecidableEq, Repr

/-- The commands of `lnk` (20 R438). -/
inductive LnkCmd where
  | up | down | retrain | chain | unchain
  deriving DecidableEq, Repr

/-- The commands of `vd` (21 R462). -/
inductive VdCmd where
  | quiesce | send | resume | release | replay
  deriving DecidableEq, Repr

/-- The matrix commands (12 R276). -/
inductive MxKind where
  | mma (ty : MmaTy) (sat : Bool) (acc : Nat) (a w : Word)
  | mmaG (ty : MmaTy) (sat : Bool) (acc : Nat) (idx : VWord) (w : Word)
  | tmov (tr : Bool) (src dst : Buf) (s d : Word)
  | acclr (acc : Nat)
  | accst (acc : Nat) (st : Word)
  deriving DecidableEq, Repr

/-- A store-class effect of a block, held until its commit (03 R87). -/
inductive Eff where
  | store (evs : List StEvent)
  | amo (op : AmoOp) (pa key : Nat) (vp : PgUse) (wide : Bool) (v : Word) (sc : Scope) (ord : Bool)
  | lease (pa : Nat) (tr : Trans) (va : Word) (cycles : Nat)
  | unlease (pa : Nat)
  | fence (acq rel : Bool) (sc : Scope)
  | qfence (set : BitVec 16)
  | qpush (q : Nat) (v : Word)
  | cmdq (v : Word)
  | bq (v : Word)
  | out (o : Nat) (t : Tok)
  | outMark (o : Nat)
  | strm (c : StrmCmd) (l r : Word)
  | sph (isOr tree : Bool) (q : Nat) (l r : Word)
  | rtcfg (stg : RtStage) (q : Nat) (v : Word)
  /-- A `bar` command: its scope as it acts (02 R48) and the unit of that level that holds its issuer. -/
  | bar (c : BarCmd) (sc : Scope) (unit : Nat) (l r : Word)
  | sig (sc : Scope) (l r : Word)
  | shape (tile : Bool) (k : Nat) (v : Word)
  | shstep (k : Nat) (rem : Nat)
  | mx (m : MxKind)
  | crwr (n : Nat) (v : Word)
  /-- A `launch`: the virtual and the physical address of its descriptor. -/
  | launch (lq : Nat) (va : Word) (pa : Nat)
  | grp (c : GrpCmd) (l r : Word)
  | xshoot (sz : PgSize) (l r : Word)
  | pg (c : PgCmd) (sz : PgSize) (l r : Word)
  | lnk (c : LnkCmd) (cls : LnkCls) (v : Word)
  | vd (c : VdCmd) (v : Word)
  deriving DecidableEq, Repr

/-- The wait-class branches and their operands (02 R58). -/
inductive WaitKind where
  | bar (tok poison : Word)
  | sig (tok thr : Word)
  | yield
  | idle
  deriving DecidableEq, Repr

/-- What a real branch does at commit (09 R213, 13 R308, R313). -/
inductive BrKind where
  | jump (a : Word)
  | call (a : Word)
  | ret (k : Word)
  | wait (w : WaitKind) (a : Word)
  | trap (code : BitVec 9)
  | svc (code : BitVec 9)
  | rfe
  deriving DecidableEq, Repr

/-- A real branch: its exit and what it does. -/
structure Branch where
  exit : BitVec 3
  kind : BrKind
  deriving DecidableEq, Repr

/-- Where an instruction of a slot stands: not issued; held for a queue entry or token (02 R56); issued as
load-class with its token outstanding; done; quenched (03 R81). -/
inductive SlotSt where
  | waiting | held | out | done | quenched
  deriving DecidableEq, Repr

/-- A queue as a block's tentative takes name it: a partition queue, or the context's `bq`. -/
inductive QRef where
  | part (k : PKey)
  | bq
  deriving DecidableEq, Repr

/-- What a held slot waits for (02 R56): a token of a queue, a free entry of a partition queue, of `cmdq`, of an engine
queue of the context, or of a launch queue. -/
inductive HoldWhy where
  | token (q : QRef)
  | entry (k : PKey)
  | cmdq
  | engine (q : Nat)
  | launch (lq t : Nat)
  deriving DecidableEq, Repr

/-- Whether a slot waits for a launch queue (16 R363). -/
def HoldWhy.isLaunch : HoldWhy → Bool
  | .launch _ _ => true
  | .token _ | .entry _ | .cmdq | .engine _ => false

/-- A slot of a block in flight: its word and configuration bits, and the operands of its reservation entry. -/
structure Slot where
  word : IWord
  plane : Plane
  rep : Bool
  l : Option Tok := none
  r : Option Tok := none
  p : Option Tok := none
  st : SlotSt := .waiting
  why : Option HoldWhy := none
  /-- The bytes that the events of a load have returned so far (08 R175). -/
  got : List (List Byte) := []
  deriving DecidableEq, Repr

/-- The header of a block (03 R72). -/
structure Header where
  kind : Nat
  count : Nat
  cwords : Nat
  rpt : Nat
  pwmask : BitVec 8
  zero : BitVec 3
  smask : BitVec 32
  rwmask : Word
  deriving DecidableEq, Repr

/-- The header of 128 bits (R72). -/
def Header.ofBits (b : BitVec 128) : Header :=
  { kind := (b.extractLsb' 124 4).toNat, count := (b.extractLsb' 117 7).toNat, cwords := (b.extractLsb' 115 2).toNat,
    rpt := (b.extractLsb' 107 8).toNat, pwmask := b.extractLsb' 99 8, zero := b.extractLsb' 96 3,
    smask := b.extractLsb' 64 32, rwmask := b.extractLsb' 0 64 }

/-- A fetched block image: its address, header and slots as words with their plane and replicate bits (03 R70, R73). -/
structure Image where
  addr : Word
  hdr : Header
  slots : List Slot
  /-- It is the first block that its lane has fetched since the repeat record awaits one (R94). -/
  first : Bool := false
  deriving DecidableEq, Repr

/-- The length of a block in bytes (R70). -/
def Header.len (h : Header) : Nat := 16 * (h.cwords + 1) + 4 * (h.count + 1)

/-- A block in flight. -/
structure Blk where
  ctx : Nat
  u : Fetcher
  addr : Word
  hdr : Header
  /-- The number of this firing of a repeated block (R93). -/
  firing : Nat := 0
  /-- Its image is the first that its lane has fetched since the repeat record awaits one (R94). -/
  first : Bool := false
  /-- The age stamp of its dispatch (R51). -/
  seq : Nat := 0
  slots : List Slot
  /-- Store-class identifiers completed, real or null (R86). -/
  idDone : BitVec 32 := 0
  /-- Registers completed by `write`: number, and the token, or none where null (R197). -/
  regs : List (Nat × Option Tok) := []
  branch : Option Branch := none
  /-- The slot of that branch. -/
  brSlot : Nat := 0
  /-- Faults raised and held, the earliest first (R92). -/
  faults : List FaultRec := []
  /-- The pages of the translations that its accesses have used (19 R414). -/
  vas : List PgUse := []
  /-- Store-class effects by identifier (R84, R87). -/
  effs : List (Nat × Eff) := []
  /-- Tentative takes by identifier: the queue and how many elements (R88); a `peek` reserves and takes nothing. -/
  takes : List (Nat × QRef) := []
  /-- Inlet elements reserved at dispatch, and outlet entries reserved (02 R54), by port. -/
  inRes : List (Nat × Nat) := []
  outRes : List (Nat × Nat) := []
  bqRes : Nat := 0
  /-- Entries of `cmdq` and of queue 14 reserved (13 R311, 12 R276). -/
  cmdqRes : Nat := 0
  mxRes : Nat := 0
  /-- The stamps at which the operands of its `accrd` instructions arrived, by slot (12 R279). -/
  rds : List (Nat × Nat) := []
  /-- Handles that `xlate` and `xprobe` load at commit (10 R224). -/
  handles : List (Nat × Option Trans) := []
  /-- Flags raised by its data-plane instructions, without an enabled one (06 R144). -/
  fl : Flags := {}
  /-- The generator's state after its draws (06 R137). -/
  lfsr : Option (BitVec 32) := none
  /-- The privilege the block was dispatched with (13 R303). -/
  pm : Bool := false
  deriving DecidableEq, Repr

end Sys2Proof.Machine
end

