-- ==== Sys2Proof/Machine/QTypes.lean ====
section
/-!
DEFINITION. Queues, windows and port bindings (07 R162 to R166, 14 R314 to R338), chains and receive contexts (20 R429 to
R437).
-/
namespace Sys2Proof.Machine

/-- A window descriptor (07 R163); `die` is the field die whose window memory it lies in. -/
structure Win where
  part : Nat := 0
  kind : Nat := 0
  lsize : Nat := 0
  base : Nat := 0
  head : BitVec 32 := 0
  tail : BitVec 32 := 0
  pins : Nat := 0
  die : Nat := 0
  deriving DecidableEq, Repr

/-- A descriptor as its 128 bits (R163). -/
def Win.bits (w : Win) : BitVec 128 :=
  BitVec.ofNat 5 w.part ++ BitVec.ofNat 3 w.kind ++ BitVec.ofNat 5 w.lsize ++ BitVec.ofNat 19 w.base ++ w.head ++ w.tail
    ++ BitVec.ofNat 8 w.pins ++ 0#24

/-- The fields a descriptor write sets (R163). -/
def Win.ofBits (die : Nat) (b : BitVec 128) : Win :=
  { part := (b.extractLsb' 123 5).toNat, kind := (b.extractLsb' 120 3).toNat, lsize := (b.extractLsb' 115 5).toNat,
    base := (b.extractLsb' 96 19).toNat, die := die }

/-- An element of a queue: its bits, and its tag, a marker bit and a round (14 R315, R316). -/
structure QElem where
  bits : VWord := 0
  marker : Bool := false
  round : BitVec 16 := 0
  deriving DecidableEq, Repr

/-- The states of a queue (R317, R320). -/
inductive QState where
  | unallocated | open | spilling | chained | sealed | frozen
  deriving DecidableEq, Repr

/-- The code of a state in `cr.qctl` (R320). -/
def QState.code : QState → BitVec 3
  | .unallocated => 0 | .open => 1 | .spilling => 2 | .chained => 3 | .sealed => 4 | .frozen => 5

/-- A chain to a queue of another package (20 R429 to R431, R437): the granules sent and acknowledged carry sequence numbers. -/
structure Chain where
  cls : Nat := 0
  /-- The link field of its command: 31 for any Septermoon link that is up. -/
  link : Nat := 0
  /-- The link in use. -/
  use : Nat := 0
  /-- The thread whose `lnk.chain` waits for the confirmation (R441). -/
  asker : Nat := 0
  /-- `lnk.unchain` has stopped its sending (R441). -/
  ending : Bool := false
  remPkg : Nat := 0
  remQ : Nat := 0
  conf : Bool := false
  sent : BitVec 32 := 0
  /-- Elements sent and not acknowledged, the oldest first, with their sequence numbers. -/
  unack : List (BitVec 32 × QElem) := []
  /-- The receiver's expected number of this flow (R427). -/
  expected : BitVec 32 := 0
  /-- Granules held at the receiver until a gap fills. -/
  held : List (BitVec 32 × QElem) := []
  /-- Markers of the round in progress that the receiver has been given; the round's last one stands for all at the remote queue (R431). -/
  cm : Nat := 0
  deriving DecidableEq, Repr

/-- A token that waits in a reduce stage: its producer's `cr.ctxid`, its round and value, or a marker (14 R338). -/
structure StageTok where
  prod : Nat
  el : QElem
  deriving DecidableEq, Repr

/-- A queue record with its window (R314 to R330). The elements of the window and the cask stand here in order (log 10). -/
structure Queue where
  win : Win := {}
  state : QState := .unallocated
  prev : QState := .unallocated
  err : BitVec 2 := 0
  plane : Bool := false
  esize : BitVec 2 := 0
  journal : Bool := false
  spill : Bool := false
  prodk : Bool := false
  consk : Bool := false
  nprod : Nat := 0
  arnd : BitVec 16 := 0
  am : Nat := 0
  cm : Nat := 0
  crnd : BitVec 16 := 0
  prnd : BitVec 16 := 0
  caskLen : Nat := 0
  caskBase : Nat := 0
  drop : Word := 0
  els : List QElem := []
  cask : List QElem := []
  /-- A store by software has changed the live cask, whose check values then fail (R323). -/
  caskBad : Bool := false
  stage : RtStage := .pass
  stagePar : Word := 0
  stageToks : List StageTok := []
  /-- Context and engine queue of the stream operation that holds the producer role or the consumer role (15 R345). -/
  strmProd : Option (Nat × Nat) := none
  strmCons : Option (Nat × Nat) := none
  chain : Option Chain := none
  /-- The frames of a landing queue, the oldest first (20 R434, R435): the elements each occupied, and how many of them are left. -/
  landFrames : List (Nat × Nat) := []
  deriving DecidableEq, Repr

/-- The size of an element in bytes (R320). -/
def Queue.size (q : Queue) : Nat :=
  match q.esize.toNat with | 0 => 8 | 1 => 128 | 2 => 256 | _ => 512

/-- The capacity of the window in elements (R315). -/
def Queue.capacity (q : Queue) : Nat := if q.win.kind = 0 then 0 else 2 ^ q.win.lsize / q.size

/-- The capacity of the cask in elements (R323). -/
def Queue.caskCap (q : Queue) : Nat := if q.spill then q.caskLen * 65536 / (q.size + 8) else 0

/-- The elements a queue holds, the oldest first. -/
def Queue.all (q : Queue) : List QElem := q.els ++ q.cask

/-- Free entries of window and cask together, reservations not counted (R323). -/
def Queue.free (q : Queue) : Nat := q.capacity + q.caskCap - q.all.length

/-- A port binding (R328). -/
structure Bind where
  plane : Bool
  flag : Bool
  queue : Nat
  round : BitVec 16
  deriving DecidableEq, Repr

/-- A binding as its 32-bit word; an unbound port is zero (R328). -/
def bindWord : Option Bind → BitVec 32
  | none => 0
  | some b => 1#1 ++ BitVec.ofBool b.plane ++ BitVec.ofBool b.flag ++ 0#1 ++ BitVec.ofNat 12 b.queue ++ b.round

/-- The kinds of `cmdq` entries (R327). -/
inductive CmdKind where
  | start | binding | shape (k : Nat) | creg (n : Nat)
  deriving DecidableEq, Repr

/-- An entry of `cmdq` (R327); a start notice names the engine queue of its operation (15 R349). -/
structure CmdEnt where
  kind : CmdKind
  v : Word
  eq : Nat := 0
  /-- The stamp of that operation. -/
  op : Nat := 0
  deriving DecidableEq, Repr

/-- Whether an entry of `cmdq` is a marker (08 R188): that of a shape or of a control register. -/
def CmdEnt.isMarker (e : CmdEnt) : Bool := match e.kind with | .shape _ | .creg _ => true | .start | .binding => false

/-- The six counters of a receive context (20 R433, R436). -/
structure RxCnt where
  recv : Word := 0
  dlv : Word := 0
  full : Word := 0
  int : Word := 0
  key : Word := 0
  ovr : Word := 0
  deriving DecidableEq, Repr

/-- A receive context (20 R432, R437). -/
structure Rx where
  cfg : Word := 0
  cnt : RxCnt := {}
  deriving DecidableEq, Repr

end Sys2Proof.Machine
end

