-- ==== Sys2Proof/Machine/CtxTypes.lean ====
section
/-!
DEFINITION. The state of a context (02 R44, 13 R290, R292): registers, ports, records, control registers, the thread and
stream with their return stacks and waits, the store path, the engines and the matrix queue.
-/
namespace Sys2Proof.Machine

/-- The states of a context (13 R290). -/
inductive CtxState where
  | running | handling | sparging | kilning | saved | ended | faulted
  deriving DecidableEq, Repr

/-- A wait of a thread, stream or activation: what it waits for, and its successor (02 R58, 18 R398, R400, 13 R313). `met` says that
its condition has held, and whether it was released (18 R399, R402): a `bar.wait` that ends otherwise goes to its poison successor. -/
structure Wait where
  kind : WaitKind
  next : Word
  met : Option Bool := none
  deriving DecidableEq, Repr

/-- A thread, a stream or an activation as a fetcher of blocks: the address of its next block, the fetched block, its wait,
its return stack (09 R214) and its repeat record (03 R94). -/
structure Lane where
  next : Word := 0
  img : Option Image := none
  wait : Option Wait := none
  stk : Vector Word 16 := Vector.replicate 16 0
  depth : Nat := 0
  rptValid : Bool := false
  rptNext : Nat := 0
  rptAddr : Word := 0
  /-- The record was taken by a block of a handler, at hm 1 (R94). -/
  rptHm : Bool := false
  /-- The record awaits the first block that the lane fetches (R94). -/
  rptDue : Bool := false
  /-- It has resumed after a stop, and has dispatched no firing since (08 R188, 28_program_rowsum_trap R527). -/
  fresh : Bool := false
  /-- The fetched block's next firing to dispatch (R93). -/
  firing : Nat := 0
  /-- A fault of the fetch of the next block, or of a dispatch check of the fetched one, held until every older block has committed (R71, R90, R92). -/
  fetchFault : Option FaultRec := none
  /-- The last block to commit and its exit, which a successor-fetch fault names (09 R212). -/
  from' : Word := 0
  exit : BitVec 3 := 0
  /-- Whether the address of the next block is a successor that a branch gave. -/
  succ : Bool := false
  /-- There are no blocks to fetch: the stream of an access-only context, or of a kernel without execute blocks (16 R364). -/
  off : Bool := false
  deriving DecidableEq, Repr

/-- A handler activation (12 R287, R288, 13 R307): its tag and inlet, its entry block, its place in the arrival order, and
its lane; a queued activation has not dispatched. Its lane has a repeat record of its own, which no `cr.rpt` shows: a design choice of log 127, since
03 R94 gives a copy to each thread and stream and names none for an activation. -/
structure Activation where
  tag : BitVec 6
  inlet : Nat
  entry : Word
  order : Nat
  queued : Bool := true
  lane : Lane
  deriving DecidableEq, Repr

/-- A handle register (10 R225): the translation it holds while its valid bit is set, else what its other fields still show. -/
structure HReg where
  tr : Option Trans := none
  rest : Word := 0
  deriving DecidableEq, Repr

/-- The register files of the access and execute parts (02 R44). -/
structure Regs where
  g : Vector Word 64 := Vector.replicate 64 0
  gh : Vector (Option (BitVec 4)) 64 := Vector.replicate 64 none
  p : BitVec 8 := 0
  th : Vector HReg 16 := Vector.replicate 16 {}
  shA : Vector Word 8 := Vector.replicate 8 0
  shE : Vector Word 8 := Vector.replicate 8 0
  actV : Option Nat := none
  actT : Option Nat := none
  v : Vector VWord 32 := Vector.replicate 32 0
  m : Vector MWord 8 := (Vector.replicate 8 0).set 0 (BitVec.allOnes 1024)
  dl : Vector VWord 8 := Vector.replicate 8 0
  deriving DecidableEq, Repr

/-- The ports, the command queue and the branch queue (02 R43, 14 R326 to R328). -/
structure Ports where
  ins : Vector (Option Bind) 32 := Vector.replicate 32 none
  outs : Vector (Option Bind) 32 := Vector.replicate 32 none
  cmdq : List CmdEnt := []
  bq : List Word := []
  deriving DecidableEq, Repr

/-- The access record and the stream record (13 R301). -/
structure Recs where
  code : BitVec 8 := 0
  dcode : BitVec 8 := 0
  epc : Word := 0
  faddr : Word := 0
  finfo : Word := 0
  xvalid : Bool := false
  xhact : Bool := false
  xtag : BitVec 6 := 0
  /-- The activation that the fault struck, by its number. -/
  xact : Option Nat := none
  xcode : BitVec 8 := 0
  xepc : Word := 0
  xinfo : Word := 0
  deriving DecidableEq, Repr

/-- The context registers of 13 R302 and R312. -/
structure CtlRegs where
  prio : BitVec 2 := 0
  spm : Bool := false
  hm : Bool := false
  pm : Bool := false
  aonly : Bool := false
  tvec : Word := 0
  simg : Word := 0
  drain : BitVec 16 := 4096
  evpend : BitVec 8 := 0
  scratch : Vector Word 4 := Vector.replicate 4 0
  asn : BitVec 16 := 0
  deriving DecidableEq, Repr

/-- The decoupling counters, `cr.stall`, `cr.dctrap` and the hold episode in progress (02 R63 to R67). -/
structure Dec where
  empty : Word := 0
  full : Word := 0
  loss : Word := 0
  lastk : Bool := false
  lastp : BitVec 5 := 0
  lbq : Bool := false
  outh : BitVec 28 := 0
  inh : BitVec 28 := 0
  thempty : BitVec 16 := 0
  thfull : BitVec 16 := 0
  thloss : BitVec 16 := 0
  pend : BitVec 3 := 0
  /-- Fetchers whose next block is in an execute hold episode. -/
  hold : List Fetcher := []
  deriving DecidableEq, Repr

/-- A bind of a barrier to an operation of an engine queue: the barrier at its home, and the round of its arrival (18 R396). -/
structure BindRec where
  bar : PKey
  round : BitVec 16
  /-- The context and the stamp of the store-path entry of an access thread's `bar.bind` (18 R393): no arrival before it has been performed. -/
  entry : Option (Nat × Nat) := none
  deriving DecidableEq, Repr

/-- The extents and grants a matrix command takes with it (12 R276). -/
structure Extents where
  aM : Nat
  aN : Nat
  aK : Nat
  gM : Nat
  gN : Nat
  gK : Nat
  deriving DecidableEq, Repr

/-- A matrix command in queue 14: what it is, its extents, its `cr.acc`, the queues it pins and its progress (12 R276,
R281, R284). -/
structure MxOp where
  kind : MxKind
  ext : Extents
  accBase : Nat
  accSize : Nat
  stamp : Nat
  /-- The queues whose windows it reads, by operand, each pinned once, with the window position its offset counts from. -/
  pins : List (PKey × BitVec 32)
  next : Nat := 0
  /-- A stopped gather: the row that failed and why (12 R284). -/
  stop : Option (Nat × Nat) := none
  /-- Barriers that are bound to it (18 R396). -/
  binds : List BindRec := []
  /-- The activation whose block issued it (12 R279). -/
  by' : Option Nat := none
  /-- It has been counted in `cr.fold` (12 R270). -/
  folded : Bool := false
  deriving DecidableEq, Repr

/-- The stream's arithmetic and matrix state (06 R137, R143, 12 R270, R277, R283, R284). -/
structure FpMx where
  fpst : BitVec 13 := 0
  lfsr : BitVec 32 := 1
  accBase : Nat := 0
  accSize : Nat := 0
  foldOps : Nat := 0
  foldPasses : Nat := 0
  idle : Vector Word 32 := Vector.replicate 32 0
  q14 : List MxOp := []
  deriving DecidableEq, Repr

/-- A lease of a thread (10 R235): waiting with its cycles and its place in the order, or held until a cycle of its line's home die. -/
inductive LeaseSt where
  | none
  | waiting (line : Nat) (tr : Trans) (cycles : Nat)
  | held (line : Nat) (tr : Trans) (till : Word)
  deriving DecidableEq, Repr

/-- The lease state and `cr.lease` (10 R236). -/
structure Lease where
  st : LeaseSt := .none
  expd : Bool := false
  line : BitVec 50 := 0
  deriving DecidableEq, Repr

/-- The selectors, staging half and result registers of the object chapters (14 R319, 17 R379, 18 R401, 19 R422,
20 R437, 21 R460). -/
structure Sels where
  qsel : BitVec 12 := 0
  qwinh : Word := 0
  gsel : BitVec 8 := 0
  gres : Word := 0
  sgsel : BitVec 12 := 0
  bsel : BitVec 10 := 0
  wst : Word := 0
  pgres : Word := 0
  lnsel : BitVec 7 := 0
  lnres : Word := 0
  rxsel : BitVec 8 := 0
  rxsnap : RxCnt := {}
  vdsel : BitVec 5 := 0
  vdres : Word := 0
  deriving DecidableEq, Repr

/-- An entry of a thread's store path (10 R230, 08 R185, R187). -/
inductive PathEff where
  | store (evs : List StEvent)
  | amo (op : AmoOp) (pa key : Nat) (vp : PgUse) (wide : Bool) (v : Word) (sc : Scope) (ord sent : Bool)
  | lease (pa : Nat) (tr : Trans) (va : Word) (cycles : Nat)
  | unlease (pa : Nat)
  /-- A releasing fence: it is done once no entry below its number is left (08 R177, R185). -/
  | fence (below : Nat)
  | qfence (ops : List (Nat × Nat))
  | cmd (e : Eff)
  /-- A `bar.bind` whose operation has ended before it (18 R393, R396): the operation's arrival, or its failure. -/
  | bound (k : PKey) (r : BitVec 16) (ok : Bool)
  deriving DecidableEq, Repr

/-- A store-path entry with its stamp. -/
structure PathEnt where
  stamp : Nat
  eff : PathEff
  /-- The first stamp of its block: entries below it are of earlier blocks (08 R177). -/
  below : Nat := 0
  deriving DecidableEq, Repr

/-- The rows part of a staging set (15 R342). -/
structure RowsCfg where
  addr : Word
  clamp : Bool
  box : Nat
  n : Nat
  deriving DecidableEq, Repr

/-- A staging set (15 R339, R342). -/
structure Staging where
  stride : Vector Word 8 := Vector.replicate 8 0
  count : Vector Nat 8 := Vector.replicate 8 0
  rows : Option RowsCfg := none
  tag : BitVec 6 := 0
  deriving DecidableEq, Repr

/-- What an engine operation is (15 R343, R359). -/
inductive OpKind where
  | go (w : Word) (base : Word) (stg : Staging)
  | sph (isOr tree : Bool) (q : Nat) (l r : Word)
  deriving DecidableEq, Repr

/-- The record of a park (15 R355, R357). -/
structure ParkRec where
  why : Nat
  felem : Nat
  addr : Word
  deriving DecidableEq, Repr

/-- What a sparse loop header holds of one of its masks (15 R354, R359): the leaf dwords that it has read, from that of the cursor on, and the summary
dword in hand with its number. -/
structure MaskBuf where
  leaves : List Word := []
  sum : Option (Nat × Word) := none
  deriving DecidableEq, Repr

/-- A staging window (07 R163, R165, 15 R354): its descriptor, the byte position of its contents and the contents; a sparse loop header's are the
dwords of its two masks. A descriptor of kind 0 stands for contents that have not yet found a place on their die. -/
structure StgWin where
  win : Win
  pos : Nat := 0
  data : List Byte := []
  left : MaskBuf := {}
  right : MaskBuf := {}
  deriving DecidableEq, Repr

/-- An operation of an engine queue (15 R339 to R359). -/
structure StrmOp where
  kind : OpKind
  stamp : Nat
  /-- Its notice has been adopted (R349). -/
  noticed : Bool
  /-- The store-path fence and the operations it must wait for before its first access (08 R185, R187). -/
  fences : List Nat := []
  running : Bool := false
  park : Option ParkRec := none
  /-- The cursor: the first item not delivered (R340). -/
  cursor : Nat := 0
  /-- The next item to generate; items from the cursor up to it are packed or read ahead. -/
  gen : Nat := 0
  /-- Ragged patterns: the row in progress, its first item number, and its offset and length once read (R352). A sparse loop header keeps
  its two bit counts there (R359). -/
  row : Nat := 0
  rowBase : Nat := 0
  rowInfo : Option (BitVec 64 × Nat) := none
  /-- The row of the cursor and that row's first item number. -/
  cRow : Nat := 0
  cBase : Nat := 0
  /-- The privilege of the block that issued it. -/
  pm : Bool := false
  /-- Bytes packed into an element that is not yet full, or bytes of a taken element not yet written. -/
  packed : List Byte := []
  /-- A marker falls due before the next item. -/
  markDue : Bool := false
  /-- Bytes of items that the event of a granule has read and that are not yet packed (08 R175). -/
  ahead : List Byte := []
  /-- Bytes of the cursor's item that a copy in has written. -/
  part : Nat := 0
  /-- The page in transit that its next access waits for (13 R306). -/
  pull : Option (BitVec 16 × Nat) := none
  /-- Its staging window (R354). -/
  swin : Option StgWin := none
  /-- The barriers bound to it (18 R396). -/
  binds : List BindRec := []
  deriving DecidableEq, Repr

/-- The stream table entries of a context: staging sets, engine queues 0 to 13 and 15, the clamp counter (15 R339,
R357). -/
structure Engines where
  staging : Vector Staging 14 := Vector.replicate 14 {}
  eqs : Vector (List StrmOp) 16 := Vector.replicate 16 []
  /-- Binds that await the next operation of their engine queue, the oldest first (18 R396). -/
  binds : List (Nat × BindRec) := []
  sclmp : Word := 0
  deriving DecidableEq, Repr

/-- Pre-emption in progress (13 R291, R304, R305): its start on the die's counter, and whether it is to end the context (done) or save
it. -/
structure Preempt where
  start : Word := 0
  active : Bool := false
  kiln : Bool := false
  /-- The generation of the kiln section of its image, which the section holds (13 R293). -/
  gen : BitVec 16 := 0
  /-- The core it stood on when it was saved. -/
  core : Nat := 0
  deriving DecidableEq, Repr

/-- A context. -/
structure Ctx where
  pk : PartKey
  kern : KernKey
  index : Nat
  /-- The group it belongs to and its member index (17 R374). -/
  group : Nat := 0
  member : Nat := 0
  st : CtxState := .running
  /-- The core and pair position it holds (13 R290). -/
  pos : Option (Nat × Nat) := none
  regs : Regs := {}
  ports : Ports := {}
  recs : Recs := {}
  ctl : CtlRegs := {}
  dec : Dec := {}
  fx : FpMx := {}
  lease : Lease := {}
  sels : Sels := {}
  eng : Engines := {}
  thr : Lane := {}
  str : Lane := {}
  acts : List (Nat × Activation) := []
  path : List PathEnt := []
  /-- The wait that a trap entry suspended (18 R402). -/
  susp : Option Wait := none
  pre : Preempt := {}
  /-- The kernel done flag of the context (16 R370). -/
  done : Bool := false
  deriving DecidableEq, Repr

end Sys2Proof.Machine
end

