-- ==== Sys2Proof/Machine/PTypes.lean ====
section
/-!
DEFINITION. Kernels, groups, barriers, links, partitions and packages (16 R360 to R373, 17 R374 to R386, 18 R387 to R401,
19 R403 to R418, 20 R425, 21 R442 to R461, 22 R465 to R472, 23 R478 to R489), and the pending work of their units.
-/
namespace Sys2Proof.Machine

/-- The states of a kernel (16 R366). -/
inductive KState where
  | accepted | placing | running | completing | complete | faulted | replaying
  deriving DecidableEq, Repr

/-- A kernel: an entry of its launch queue's journal, and the kernel it became (16 R360 to R373). -/
structure Kern where
  st : KState := .accepted
  status : Nat := 0
  /-- The descriptor's physical address (R360). -/
  pa : Nat
  /-- The address that the new contexts' `g2` takes (R369): the virtual address of a `launch`, else free (log 62). -/
  va : Word
  /-- Whether a set priv bit is honoured: a host entry of the physical function's windows, or a `launch` with pm 1 (R367). -/
  srcPriv : Bool
  /-- Accepted from a host entry (R361), not from a `launch`. -/
  host : Bool
  /-- The descriptor as placement read it (R364). -/
  desc : Vector Word 16 := Vector.replicate 16 0
  /-- The next context index (R369, 17 R382). -/
  nctx : Nat := 0
  /-- Its fenced pages, by virtual base, and the pages of its execute code (19 R419). -/
  fenced : List Nat := []
  pinned : List Nat := []
  /-- The consumer position of each journalled queue at placement (R373). -/
  cuts : List (Nat × Nat) := []
  /-- The journalled queues it has taken from (R373). -/
  takes : List Nat := []
  tcode : BitVec 9 := 0
  /-- A fence that a done or faulted kernel waits for has recorded its end (R372). -/
  ended : Bool := false
  deriving DecidableEq, Repr

/-- The states of a group (17 R377). -/
inductive GState where
  | resident | collecting | saving | saved | freeing
  deriving DecidableEq, Repr

/-- The code of a group's state in `cr.gstat` (17 R379). -/
def GState.code : GState → BitVec 3
  | .resident => 1 | .collecting => 2 | .saving => 3 | .saved => 4 | .freeing => 5

/-- A command of a collection: its context, and its colour and key (17 R383, R385). -/
structure Collected where
  ctx : Nat
  colour : Word
  key : Word
  deriving DecidableEq, Repr

/-- A group (17 R374 to R386). -/
structure Group where
  st : GState := .resident
  level : BitVec 2
  unit : Nat
  die : Nat
  kern : KernKey
  /-- Contexts in member order. -/
  members : List Nat
  ckind : BitVec 2 := 0
  partner : Nat := 0
  coll : List Collected := []
  err : BitVec 3 := 0
  /-- A `preempt` mailbox command holds it saved (R378, 23 R482). -/
  hold : Bool := false
  /-- The kernel it was pre-empted for (R378). -/
  preFor : Option KernKey := none
  /-- It was in freeing when its device was quiesced (R386, 21 R446). -/
  freed : Bool := false
  /-- The stamps of its placement and of its save (R378). -/
  order : Nat := 0
  saved : Nat := 0
  deriving DecidableEq, Repr

/-- The states of a barrier (18 R391). -/
inductive BState where
  | free | idle | armed | complete | poisoned
  deriving DecidableEq, Repr

/-- The code of a barrier's state in `cr.bstat` (18 R401). -/
def BState.code : BState → BitVec 3
  | .free => 0 | .idle => 1 | .armed => 2 | .complete => 3 | .poisoned => 4

/-- A barrier (18 R389, R391). The unit is the number of the unit of its level: a core, a quad or a die of its package; for
`.ln` the context whose stream initialised it; for `.pk` and `.pd` nothing narrower than the package. -/
structure Bar where
  st : BState := .free
  phase : BitVec 16 := 0
  exp : Nat := 0
  arr : Nat := 0
  ahead : Nat := 0
  level : Scope := .ln
  unit : Nat := 0
  /-- The bound group, with its partition: that of the thread that initialised the barrier. -/
  group : Option PKey := none
  deriving DecidableEq, Repr

/-- The states of a link (20 R425). -/
inductive LState where
  | down | training | up | retraining
  deriving DecidableEq, Repr

/-- The code of a link's state in `cr.lnstat` (20 R437). -/
def LState.code : LState → BitVec 2
  | .down => 0 | .training => 1 | .up => 2 | .retraining => 3

/-- A link (20 R425, R437): its budget's start on the counter of die 0, and the flit failures in succession. -/
structure Link where
  st : LState := .down
  why : BitVec 3 := 0
  retries : Nat := 0
  trains : Nat := 0
  start : Word := 0
  fails : Nat := 0
  deriving DecidableEq, Repr

/-- The states of a partition slot (21 R446, R461). -/
inductive VState where
  | vacant | resident | quiescing | quiesced | inTransit | pulling | settled | replaying | failed
  deriving DecidableEq, Repr

/-- The code of a slot's state in `cr.vdstat` (21 R461). -/
def VState.code : VState → BitVec 4
  | .vacant => 0 | .resident => 1 | .quiescing => 2 | .quiesced => 3 | .inTransit => 4 | .pulling => 5 | .settled => 6
  | .replaying => 7 | .failed => 8

/-- Whether the device of a slot runs here (21 R446, R454). -/
def VState.runs : VState → Bool
  | .resident | .pulling | .settled => true
  | .vacant | .quiescing | .quiesced | .inTransit | .replaying | .failed => false

/-- Who appended an element of a journalled queue (21 R444). -/
inductive Producer where
  | ctx (lq seq idx : Nat)
  | port (port rx : Nat)
  | chain
  deriving DecidableEq, Repr

/-- An entry of a queue's journal (21 R444). -/
structure JEnt where
  el : QElem
  prod : Producer
  ord : Nat
  /-- The elements of the frame that it begins, in a landing queue (20 R434); else 0. -/
  fr : Nat := 0
  deriving DecidableEq, Repr

/-- The journal of a queue (21 R444, R445, R451): the position of its first entry, its entries, how many elements have been taken
since the queue opened, and each producer's ordinal in the current execution. -/
structure Jrnl where
  base : Nat := 0
  ents : List JEnt := []
  taken : Nat := 0
  ords : List (Producer × Nat) := []
  deriving DecidableEq, Repr

/-- A journalled queue as a fence record holds it (16 R373): the queue without its elements, its consumer position, and the position after its last
element. -/
structure RecQueue where
  n : Nat
  q : Queue
  taken : Nat
  upto : Nat
  deriving DecidableEq, Repr

/-- A kernel as a fence record holds it (16 R373). -/
structure RecKern where
  lq : Nat
  seq : Nat
  st : KState
  cuts : List (Nat × Nat)
  deriving DecidableEq, Repr

/-- Whether a record shows a kernel that returns to accepted (21 R450 step 5). -/
def RecKern.returns (r : RecKern) : Bool := r.st = .accepted || r.st = .placing || r.st = .running

/-- A complete fence record (16 R372, R373). -/
structure FenceRec where
  seq : BitVec 32 := 0
  head : Vector (BitVec 32) 4 := Vector.replicate 4 0
  tail : Vector (BitVec 32) 4 := Vector.replicate 4 0
  keep : Vector (BitVec 32) 4 := Vector.replicate 4 0
  kerns : List RecKern := []
  queues : List RecQueue := []
  /-- For each launch queue, where entry keep stands in its launch journal: a position that is the device's own (log 11). -/
  journ : Vector Word 4 := Vector.replicate 4 0
  deriving DecidableEq, Repr

/-- A page that moves and has not arrived (21 R455, R457): its address space, virtual address and size, the state it held at the
source, and its frames at the source and at the target, as 64 KiB frame numbers. -/
structure Moving where
  asn : BitVec 16
  va : Nat
  size : Nat
  st : BitVec 3
  src : Nat
  dst : Nat
  /-- Frames of it, at the source, that the transfer carried (R455). -/
  held : List Nat := []
  deriving DecidableEq, Repr

/-- What host writes have made of a ring slot (16 R361, R363, R367): the bytes that they have completed, whether the last of them came from the physical
function, and when it came. -/
structure RingSlot where
  bytes : BitVec 16 := 0
  pf : Bool := false
  at' : Nat := 0
  deriving DecidableEq, Repr

/-- A partition slot (16 R360 to R373, 19 R405 to R416, 21 R442 to R461). -/
structure Part where
  st : VState := .vacant
  tbad : Bool := false
  opart : BitVec 5 := 0
  opkg : BitVec 10 := 0
  left : BitVec 32 := 0
  vdcfg : Word := 0
  /-- The argument area of its last `assign` (23 R483, R485). -/
  area : Vector Word 32 := Vector.replicate 32 0
  linkadm : Bool := false
  vdjrn : Word := 0
  kfrec : Word := 0
  lq : Vector Word 4 := Vector.replicate 4 0
  head : Vector (BitVec 32) 4 := Vector.replicate 4 0
  tail : Vector (BitVec 32) 4 := Vector.replicate 4 0
  keep : Vector (BitVec 32) 4 := Vector.replicate 4 0
  ptu : Word := 0
  ptp : Word := 0
  /-- `cr.ptcfg`: after device reset mode 1 and sizes 0b001 (19 R406). -/
  ptcfg : Word := 0x8040000000000000
  ptanc : Word := 0
  shpool : Word := 0
  /-- The sequence of the last completed fence, and whether a fence is requested (16 R371, R372). -/
  fseq : BitVec 32 := 0
  /-- What host writes have made of ring slots, by launch queue and slot (16 R361). -/
  rings : Tab (Nat × Nat) RingSlot := []
  /-- The saved groups that the group scheduler considers for a restore (17 R378). -/
  look : List Nat := []
  fenceReq : Bool := false
  /-- The complete flag of a fence is written, and its step 4 is still to come; a write to `cr.kfrec` waits for it (R371, R372). -/
  fencing : Bool := false
  kfnext : Option Word := none
  /-- The kernels whose completion a fence records and whose step 4 is still to come (R372). -/
  ending : List (Nat × Nat) := []
  /-- The newest fence record with its complete flag set (16 R373, log 11). -/
  recd : Option FenceRec := none
  /-- Where that record stands. -/
  recAt : Nat := 0
  /-- The counter of die 0 at the partition's last commit or engine event (21 R449). -/
  stamp : Word := 0
  /-- Errors detected (01 R36). -/
  errs : Nat := 0
  /-- A replaying device was pulling (21 R446). -/
  wasPull : Bool := false
  /-- The replay under way recovers from a loss (01 R31). -/
  lossy : Bool := false
  /-- The peer alias table: source frame and target frame (21 R458). -/
  aliases : List (Nat × Nat) := []
  /-- The pages that have not arrived (21 R455, R457). -/
  transit : List Moving := []
  /-- Pages asked for by pull faults, not yet arrived (10 R223, 21 R457). -/
  pulls : List (BitVec 16 × Nat) := []
  /-- The thread whose `vd` command has begun and not ended (21 R464). -/
  vdBy : Option Nat := none
  deriving DecidableEq, Repr

/-- The states of a typed-buffer bank (07 R172). -/
inductive BankSt where
  | unowned
  | owned (p : Nat)
  | draining (p : Nat) (q : Option Nat)
  | scrubbing (q : Option Nat)
  deriving DecidableEq, Repr

/-- Whether a bank is a partition's: it owns the bank, or the bank is on its way to it (07 R172). -/
def BankSt.isOf (b : BankSt) (p : Nat) : Bool :=
  match b with | .owned o => o = p | .draining _ q | .scrubbing q => q = some p | .unowned => false

/-- Whether a bank is on its way to a partition (07 R172). -/
def BankSt.comesTo (b : BankSt) (p : Nat) : Bool :=
  match b with | .draining _ q | .scrubbing q => q = some p | .owned _ | .unowned => false

/-- A dispatcher's memory: the candidate last dispatched at each priority (02 R60), and how often each candidate has been passed
over in succession (R61). -/
structure Disp where
  last : Vector Nat 4
  passed : List ((Nat × Fetcher) × Nat) := []
  deriving DecidableEq, Repr

/-- A field die: its counter (01 R39), its inserted idle cycles (23 R489), and what the capability table says of it (22 R469). -/
structure Die where
  cycle : Word := 0
  idle : Word := 0
  present : Bool := true
  stack0 : Bool := true
  stack1 : Bool := true
  absent : BitVec 96 := 0
  /-- Lost since (21 R453): the die, and each of its stacks. -/
  lost : Bool := false
  lost0 : Bool := false
  lost1 : Bool := false
  deriving DecidableEq, Repr

/-- A key-table entry (23 R486). -/
structure KeyEnt where
  valid : Bool := false
  owner : Nat := 0
  kind : BitVec 2 := 0
  mat : Vector Word 8 := Vector.replicate 8 0
  deriving DecidableEq, Repr

/-- A peer-table entry (23 R484): the remote endpoint address, its identifier, and valid. -/
structure Peer where
  valid : Bool := false
  addrLo : Word := 0
  addrHi : Word := 0
  ident : BitVec 32 := 0
  deriving DecidableEq, Repr

/-- What the physical function reports by MSI-X (23 R487), and what the management controller reports (22 R472). -/
inductive Report where
  | failed (part : Nat) | firmware | discarded | done | rom | detected (part : Nat)
  deriving DecidableEq, Repr

/-- A package: its dies, the capability identity, the mailbox, the pod tables, the keys and the power registers (22, 23). -/
structure Pkg where
  num : BitVec 10 := 0
  /-- The part, the form, and the capacity of its LPDDR in GiB (00, 22 R469). -/
  chip : Chip := .f
  form : Form := .onModule
  lpddr : Nat := 1024
  dies : Vector Die 4 := Vector.replicate 4 {}
  /-- The field dies are held in reset (22 R472). -/
  held : Bool := false
  lost : Bool := false
  cvalid : Bool := true
  evalid : Bool := false
  clen : BitVec 10 := 4
  mbState : BitVec 2 := 0
  mbLost : Bool := false
  mbCode : BitVec 8 := 0
  mbWhy : BitVec 8 := 0
  /-- The command in performance: `mbcmd` as it was written. -/
  mbCmd : Word := 0
  arg : Vector Word 512 := Vector.replicate 512 0
  /-- Pod-map words by 1,024 x slot + package, port-map entries by 1,024 x port + entry, peer-table entries likewise (R480). -/
  podmap : Tab Nat (BitVec 32) := []
  portmap : Tab Nat Word := []
  peers : Tab Nat Peer := []
  /-- Pairings that a redirect has pointed at a target (21 R458): by 1,024 x slot + package number, the target package number and
  partition. -/
  redirs : Tab Nat (Nat × Nat) := []
  unmatched : Vector Word 8 := Vector.replicate 8 0
  keys : Tab Nat KeyEnt := []
  reports : List Report := []
  pwrlim : BitVec 11 := 2000
  curlim : BitVec 13 := 4000
  tripped : Bool := false
  /-- Idle cycles in eight, per die (01 R27). -/
  idleStep : Nat := 0
  deriving DecidableEq, Repr

/-- A page-table entry (19 R404, R409). -/
structure Pte where
  tag : BitVec 40
  asn : BitVec 16
  frame : BitVec 36
  key : BitVec 13
  sidx : BitVec 15
  state : BitVec 3
  size : BitVec 2
  x : Bool
  w : Bool
  r : Bool
  deriving DecidableEq, Repr

/-- A walk-cache entry of a core (19 R412): its partition and the entry read. -/
structure WalkEnt where
  pkg : Nat
  core : Nat
  part : Nat
  /-- va[56] of the translation that read it (07 R152). -/
  half : Bool
  e : Pte
  deriving DecidableEq, Repr

/-- A shoot-down under way (19 R414): its partition, its page or every page, the thread whose `xshoot` it is, the store-path
events and the home updates it waits for, and the key it ends with (23 R486). -/
structure Shoot where
  pk : PartKey
  page : Option (BitVec 16 × Nat × Nat)
  thr : Option Nat := none
  waits : List (Nat × Nat) := []
  key : Option Nat := none
  deriving DecidableEq, Repr

/-- Where an atomic update comes from (10 R234): its thread and the stamp of its store-path entry, its core, and its scope. -/
structure AmoSrc where
  ctx : Nat
  stamp : Nat
  core : Nat
  sc : Scope
  deriving DecidableEq, Repr

/-- An access that has come to a line of 128 bytes (10 R235): of a store path's entry, of a load, of an engine's operation, a lease's request, or the host's. -/
inductive LineAgent where
  | path (c stamp : Nat)
  | load (f : FrameKey) (seq slot : Nat)
  | engine (c q : Nat)
  | lease (c : Nat)
  | host
  deriving DecidableEq, Repr

/-- An atomic update on its way to its home or in the sparse-update unit (10 R233), with those that it has merged with before its home (R234); an engine's has
no source. -/
structure AmoReq where
  srcs : List AmoSrc
  op : AmoOp
  pk : PartKey
  pa : Nat
  key : Nat
  wide : Bool
  v : Word
  ord : Bool
  deriving DecidableEq, Repr

/-- One act of the machine: an event at its site, or the issue of the instruction of a slot (log 2). -/
inductive Act where
  | ev (i : Instr) (site : Site)
  | issue (cu : Cur)
  deriving DecidableEq, Repr

end Sys2Proof.Machine
end

