-- ==== Sys2Proof/Machine/State.lean ====
section
/-!
DEFINITION. The state of the machine, a pod of packages, as plain data, and the state right after device reset (23 R478). Every table
holds the entries that differ from their reset values; `Tab.getD` supplies the rest.
-/
namespace Sys2Proof.Machine

/-- Why a step of the model can stop. Both are the model's own and safe: no behaviour of the hardware ends in them, because an
instruction issues only from a slot of a block in flight and an event happens only at its own site (log 2). -/
inductive Fault where
  /-- An instruction is executed where `State.site` names no slot of a block in flight, or an event where the site is not one of
  its kind. Raised by every meaning; safe. -/
  | noSite
  /-- The slot that issues holds a word that its plane does not decode; dispatch refuses such a block (03 R78, 04 R109). Raised
  by `step`; safe. -/
  | undecodable
  deriving DecidableEq, Repr

/-- Why the model can refuse an instruction. -/
inductive Refusal where
  /-- The instruction has no meaning in this model. Raised by `exec`; safe. -/
  | notModelled (mnemonic : String)
  deriving DecidableEq, Repr

/-- The outcome of one step. -/
abbrev Out (σ : Type) := Host.Outcome σ Fault Refusal

/-- The state. `agenda`, `site`, `free` and `seq` are the model's own (logs 2 and 6); the rest is what the spec gives the
machine, in the tables INVENTORY.md lists. -/
structure State where
  /-- Acts that happen next, in order: what the outside world and schedules the spec leaves open bring about. -/
  agenda : List Act := []
  /-- Where the act in progress happens. -/
  site : Site := .none
  /-- The number of free values drawn. -/
  free : Nat := 0
  /-- The next age stamp. -/
  seq : Nat := 1
  /-- Local HBM and LPDDR of every package: byte `pa` of package `k` at 2^52 k + pa (07 R154). -/
  mem : Memory := []
  /-- Typed buffers (07 R168): byte `off` of buffer `b` of a core at ((512 package + core) 4 + b) 2^20 + off. -/
  bufs : Memory := []
  /-- Granules of `mem` whose stored CRC-32C does not match their bytes (01 R33, R34): a matching value is a function of the bytes and is not stored. An
error of a granule in a queue, a window, a buffer or on a link is the event DETECTED_ERROR of its partition (log 135). -/
  bad : List Nat := []
  /-- The memory key under which a granule of `mem` was last written through a page (23 R486). -/
  encs : Tab Nat (BitVec 2 × Vector Word 8) := []
  pkgs : Tab Nat Pkg := []
  banks : Tab BankKey BankSt := []
  disps : Tab DispKey Disp := []
  /-- The frames that hold a block in flight (02 R50). -/
  blks : Tab FrameKey Blk := []
  ctxs : Tab Nat Ctx := []
  parts : Tab PartKey Part := []
  queues : Tab PKey Queue := []
  jrnls : Tab PKey Jrnl := []
  bars : Tab PKey Bar := []
  sigs : Tab PKey Word := []
  groups : Tab PKey Group := []
  kerns : Tab KernKey Kern := []
  rxs : Tab PKey Rx := []
  links : Tab LinkKey Link := []
  walks : List WalkEnt := []
  shoots : List Shoot := []
  /-- Atomic updates on their way, in the order in which they reached their homes (10 R233). -/
  amos : List AmoReq := []
  /-- The accesses that have come to a line and wait for it, in the order in which they came (10 R235). -/
  lineQ : List (Nat × LineAgent) := []
  /-- Host writes to memory that wait for a line, in their order (10 R235). -/
  late : List (Nat × HostWr) := []
  deriving DecidableEq, Repr

/-- A die boundary trains after device reset; the other links are down (20 R425). -/
def Link.reset : LnkCls → Link
  | .die => { st := .training }
  | .sept | .ue => {}

/-- A dispatcher after reset: candidate 0 comes first at every priority (log 2). -/
def Disp.reset (acc : Bool) : Disp := { last := Vector.replicate 4 (if acc then 7 else 4) }

/-- The machine right after device reset: one package whose field dies run, every slot vacant, nothing in memory (23 R478, logs 1 and 3). -/
def State.reset : State := { pkgs := [(0, {})] }

end Sys2Proof.Machine
end

