-- ==== Sys2Proof/Machine/Base.lean ====
section
/-!
DEFINITION. Reading and changing the tables of the state: objects by key with their reset values, contexts and their lanes, and the
blocks in flight in order of age (02 R50, R51).
-/
namespace Sys2Proof.Machine

/-- A package. -/
def State.pkg (s : State) (k : Nat) : Pkg := s.pkgs.getD k {}
/-- Change a package. -/
def State.setPkg (s : State) (k : Nat) (p : Pkg) : State := { s with pkgs := s.pkgs.put k p }
/-- A partition slot. -/
def State.part (s : State) (k : PartKey) : Part := s.parts.getD k {}
/-- Change a partition slot. -/
def State.setPart (s : State) (k : PartKey) (p : Part) : State := { s with parts := s.parts.put k p }
/-- A queue. -/
def State.queue (s : State) (k : PKey) : Queue := s.queues.getD k {}
/-- Change a queue. -/
def State.setQueue (s : State) (k : PKey) (q : Queue) : State := { s with queues := s.queues.put k q }
/-- The journal of a queue. -/
def State.jrnl (s : State) (k : PKey) : Jrnl := s.jrnls.getD k {}
/-- Change the journal of a queue. -/
def State.setJrnl (s : State) (k : PKey) (j : Jrnl) : State := { s with jrnls := s.jrnls.put k j }
/-- A barrier. -/
def State.bar (s : State) (k : PKey) : Bar := s.bars.getD k {}
/-- Change a barrier. -/
def State.setBar (s : State) (k : PKey) (b : Bar) : State := { s with bars := s.bars.put k b }
/-- A signal. -/
def State.sig (s : State) (k : PKey) : Word := s.sigs.getD k 0
/-- Change a signal. -/
def State.setSig (s : State) (k : PKey) (v : Word) : State := { s with sigs := s.sigs.put k v }
/-- A receive context. -/
def State.rx (s : State) (k : PKey) : Rx := s.rxs.getD k {}
/-- Change a receive context. -/
def State.setRx (s : State) (k : PKey) (r : Rx) : State := { s with rxs := s.rxs.put k r }
/-- A link (20 R425). -/
def State.link (s : State) (k : LinkKey) : Link := s.links.getD k (Link.reset k.cls)
/-- Change a link. -/
def State.setLink (s : State) (k : LinkKey) (l : Link) : State := { s with links := s.links.put k l }
/-- A dispatcher. -/
def State.disp (s : State) (k : DispKey) : Disp := s.disps.getD k (Disp.reset k.acc)
/-- Change a dispatcher. -/
def State.setDisp (s : State) (k : DispKey) (d : Disp) : State := { s with disps := s.disps.put k d }
/-- A typed-buffer bank. -/
def State.bank (s : State) (k : BankKey) : BankSt := s.banks.getD k .unowned
/-- Change a bank. -/
def State.setBank (s : State) (k : BankKey) (b : BankSt) : State := { s with banks := s.banks.put k b }
/-- Change a context. -/
def State.setCtx (s : State) (c : Nat) (x : Ctx) : State := { s with ctxs := s.ctxs.put c x }
/-- Change a context where there is one. -/
def State.updCtx (s : State) (c : Nat) (f : Ctx → Ctx) : State := { s with ctxs := s.ctxs.upd c f }
/-- Change a kernel where there is one. -/
def State.updKern (s : State) (k : KernKey) (f : Kern → Kern) : State := { s with kerns := s.kerns.upd k f }
/-- Change a group where there is one. -/
def State.updGroup (s : State) (k : PKey) (f : Group → Group) : State := { s with groups := s.groups.upd k f }
/-- Put a block into a frame. -/
def State.setBlk (s : State) (f : FrameKey) (b : Blk) : State := { s with blks := s.blks.put f b }

/-- A free Boolean, drawn (log 6). -/
def State.drawBool (s : State) : Bool × State := (Config.freeBool s.free, { s with free := s.free + 1 })
/-- A free number, drawn (log 6). -/
def State.drawNat (s : State) : Nat × State := (Config.freeNat s.free, { s with free := s.free + 1 })
/-- Free bits, drawn (log 6). -/
def State.drawBits (s : State) : VWord × State := (Config.freeBits s.free, { s with free := s.free + 1 })
/-- An age stamp, taken. -/
def State.stamp (s : State) : Nat × State := (s.seq, { s with seq := s.seq + 1 })

/-- The object `n` of a partition. -/
def objKey (k : PartKey) (n : Nat) : PKey := ⟨k, n⟩

/-- The die of a core (01 R19). -/
def Pkg.dieOf (p : Pkg) (core : Nat) : Nat := core / Config.coresPerDie p.chip
/-- The quad of a core, counted across the package (01 R19, 17 R379). -/
def quadOf (core : Nat) : Nat := core / Config.coresPerQuad

/-- Whether a package is a bare field die, which has no hub die (00 R2). -/
def Pkg.bare (p : Pkg) : Bool := p.form = .bare
/-- A die of a package; a bare field die is die 0 alone. -/
def Pkg.die (p : Pkg) (d : Nat) : Die :=
  let t := p.dies[d]?.getD {}
  if p.bare && d ≠ 0 then { t with present := false, stack0 := false, stack1 := false } else t
/-- The counter of a die (01 R39). -/
def State.cycle (s : State) (pkg d : Nat) : Word := ((s.pkg pkg).die d).cycle
/-- Change a die. -/
def Pkg.setDie (p : Pkg) (d : Nat) (f : Die → Die) : Pkg :=
  { p with dies := p.dies.setIfInBounds d (f (p.die d)) }

/-- Whether a core is absent (01 R38, 22 R470, R472). -/
def Pkg.coreAbsent (p : Pkg) (core : Nat) : Bool :=
  let d := p.die (p.dieOf core)
  p.held || p.lost || !d.present || d.lost || d.absent.getLsbD (core % Config.coresPerDie p.chip) || decide (4 * Config.coresPerDie p.chip ≤ core)

/-- The package that has a pod number (23 R484): the entry of the table with that number, else the package of that index. -/
def State.pkgOfNum (s : State) (n : Nat) : Nat :=
  match s.pkgs.find? fun e => e.2.num.toNat = n && !e.2.lost with
  | some e => e.1
  | none => n

/-- The core a context stands on, 0 where it is not resident. -/
def Ctx.core (x : Ctx) : Nat := match x.pos with | some p => p.1 | none => 0
/-- The pair position or thread number of a context. -/
def Ctx.posn (x : Ctx) : Nat := match x.pos with | some p => p.2 | none => 0
/-- The die a context stands on. -/
def State.dieN (s : State) (x : Ctx) : Nat := (s.pkg x.pk.pkg).dieOf x.core
/-- Whether the context is resident and not being pre-empted (13 R290). -/
def Ctx.live (x : Ctx) : Bool := x.st = .running || x.st = .handling
/-- Whether a context takes part in pre-emption (13 R290). -/
def Ctx.saving (x : Ctx) : Bool := x.st = .sparging || x.st = .kilning
/-- The priority of a context: the number of its launch queue (02 R60). -/
def Ctx.priority (x : Ctx) : Nat := x.kern.lq

/-- The lane of a fetcher. -/
def Ctx.lane (x : Ctx) : Fetcher → Lane
  | .thread => x.thr
  | .stream => x.str
  | .act n => match Tab.get? x.acts n with | some a => a.lane | none => {}
/-- Change the lane of a fetcher. -/
def Ctx.setLane (x : Ctx) (u : Fetcher) (l : Lane) : Ctx :=
  match u with
  | .thread => { x with thr := l }
  | .stream => { x with str := l }
  | .act n => { x with acts := Tab.upd x.acts n fun a => { a with lane := l } }

/-- The family of a command whose outcome a result register holds: `grp` 0, `pg` 1, `lnk` 2, `vd` 3, others 4 (17 R379, 19 R422, 20 R437, 21 R461). -/
def Eff.fam : Eff → Nat
  | .grp _ _ _ => 0
  | .pg _ _ _ _ => 1
  | .lnk _ _ _ => 2
  | .vd _ _ => 3
  | _ => 4

/-- The state that a result register takes when a command of its family ends: pending while a later one of the thread is not yet performed. -/
def Ctx.outcome (x : Ctx) (f n : Nat) : Nat :=
  if x.path.any fun e => match e.eff with | .cmd e => decide (e.fam = f) | _ => false then 1 else n

/-- Whether a fetcher runs on the lattice. -/
def fetchExec : Fetcher → Bool
  | .thread => false
  | .stream | .act _ => true

/-- The blocks in flight of a fetcher, in no order. -/
def State.flight (s : State) (c : Nat) (u : Fetcher) : List (FrameKey × Blk) :=
  s.blks.filter fun e => e.2.ctx = c && e.2.u = u

/-- The entry with the smallest age stamp. -/
def oldestOf : List (FrameKey × Blk) → Option (FrameKey × Blk)
  | [] => none
  | e :: r =>
    match oldestOf r with
    | none => some e
    | some o => if o.2.seq < e.2.seq then some o else some e

/-- The entry with the largest age stamp. -/
def youngestOf : List (FrameKey × Blk) → Option (FrameKey × Blk)
  | [] => none
  | e :: r =>
    match youngestOf r with
    | none => some e
    | some o => if e.2.seq < o.2.seq then some o else some e

/-- The oldest block in flight of a fetcher (02 R51). -/
def State.oldest (s : State) (c : Nat) (u : Fetcher) : Option (FrameKey × Blk) := oldestOf (s.flight c u)

/-- The blocks in flight of the same fetcher that are older than a block. -/
def State.older (s : State) (b : Blk) : List (FrameKey × Blk) := (s.flight b.ctx b.u).filter fun e => e.2.seq < b.seq

/-- Whether a block is the oldest in flight of its fetcher. -/
def State.isOldest (s : State) (b : Blk) : Bool := (s.older b).isEmpty

/-- Remove blocks in flight: a discard releases every reservation and tentative take, which stand in the blocks (02 R54, 03 R88). -/
def State.discard (s : State) (p : Blk → Bool) : State := { s with blks := s.blks.filter fun e => !p e.2 }

/-- A fetcher whose blocks in flight are gone fetches its next block again (03 R90); a repeat record that is valid awaits that block (R94). -/
def Lane.refetch (l : Lane) : Lane := { l with img := none, firing := 0, rptDue := l.rptValid, fetchFault := none }

/-- Discard every block in flight of a fetcher, which will fetch its next block again. -/
def State.discardLane (s : State) (c : Nat) (u : Fetcher) : State :=
  (s.discard fun b => b.ctx = c && b.u = u).updCtx c fun x =>
    { x with dec := { x.dec with hold := x.dec.hold.filter fun h => h ≠ u } }.setLane u (x.lane u).refetch

/-- Discard every block in flight of a context. -/
def State.discardCtx (s : State) (c : Nat) : State :=
  (s.discard fun b => b.ctx = c).updCtx c fun x =>
    { x with
      dec := { x.dec with hold := [] }
      thr := x.thr.refetch, str := x.str.refetch, acts := x.acts.map fun a => (a.1, { a.2 with lane := a.2.lane.refetch }) }

/-- Bits `hi:lo` of a word as a number. -/
def fld (v : Word) (lo n : Nat) : Nat := (v.toNat >>> lo) % 2 ^ n
/-- A number placed at bit `lo` of a word. -/
def at' (n lo : Nat) : Word := BitVec.ofNat 64 n <<< lo
/-- A Boolean placed at bit `lo` of a word. -/
def bitAt (b : Bool) (lo : Nat) : Word := if b then 1#64 <<< lo else 0

/-- A result word with the state of its command (17 R379, 19 R422, 20 R437, 21 R460). -/
def withSt (w : Word) (n : Nat) : Word := at' n 61 ||| at' (fld w 0 61) 0

end Sys2Proof.Machine
end

