-- ==== Sys2Proof/Machine/Phys.lean ====
section
/-!
DEFINITION. The physical map of a package (07 R154 to R158), the capability frame (22 R465 to R472), the device registers (23 R479 to
R485, R489), and memory as bytes with their check values (01 R33, R34) and keys (23 R486).
-/
namespace Sys2Proof.Machine

/-- The spaces of the physical map (07 R154). A remote address keeps its package number and offset. -/
inductive Space where
  | hbm (die stack : Nat)
  | lpddr
  | remote (num off : Nat)
  | regs (off : Nat)
  | hole
  deriving DecidableEq, Repr

/-- Whether a stack of a die is present (07 R155, 22 R469). -/
def Pkg.stackHere (p : Pkg) (die stack : Nat) : Bool :=
  let d := p.die die
  d.present && !d.lost && (if stack = 0 then d.stack0 && !d.lost0 else d.stack1 && !d.lost1)

/-- Whether an offset of local HBM lies in a present stack (07 R155). -/
def Pkg.hbmHere (p : Pkg) (off : Nat) : Bool := p.stackHere (off / 2 ^ 37) (off / 2 ^ 36 % 2)

/-- The end of local HBM (07 R154, R155): a bare field die has that of die 0 alone. -/
def Pkg.hbmEnd (p : Pkg) : Nat := if p.bare then 2 ^ 37 else 2 ^ 39

/-- The end of LPDDR (07 R154): its capacity is what the capability table gives; a bare field die has none. -/
def Pkg.lpddrEnd (p : Pkg) : Nat := 2 ^ 40 + (if p.bare then 0 else min p.lpddr 1024 * 2 ^ 30)

/-- The space of a physical address of a package (07 R154, R155). -/
def Pkg.space (p : Pkg) (pa : Nat) : Space :=
  if pa < 2 ^ 39 then (if p.hbmHere pa then .hbm (pa / 2 ^ 37) (pa / 2 ^ 36 % 2) else .hole)
  else if pa < 2 ^ 40 then .hole
  else if pa < p.lpddrEnd then .lpddr
  else if pa < 2 ^ 50 then .hole
  else if pa < 2 ^ 51 then (if pa % 2 ^ 40 < 2 ^ 39 && !p.bare then .remote (pa / 2 ^ 40 % 1024) (pa % 2 ^ 40) else .hole)
  else if 2 ^ 52 ≤ pa then .hole
  else if 0xFFFFF00000000 ≤ pa then .regs (pa - 0xFFFFF00000000)
  else .hole

/-- Whether a range lies in local HBM (07 R154). -/
def Pkg.inHbm (p : Pkg) (pa len : Nat) : Bool := decide (pa + len ≤ p.hbmEnd)
/-- Whether a range lies in local HBM or in LPDDR (07 R154). -/
def Pkg.inLocal (p : Pkg) (pa len : Nat) : Bool :=
  p.inHbm pa len || (decide (2 ^ 40 ≤ pa) && decide (pa + len ≤ p.lpddrEnd))

/-- The pod-map word of a slot for a package number (23 R484). -/
def Pkg.pairing (p : Pkg) (slot num : Nat) : BitVec 32 := p.podmap.getD (1024 * slot + num) 0
/-- Whether a slot has a valid pairing with a package number (07 R156, 18 R388). -/
def Pkg.paired (p : Pkg) (slot num : Nat) : Bool := (p.pairing slot num).getLsbD 31

/-- Where byte `pa` of package `k` stands in `State.mem`. -/
def memKey (k pa : Nat) : Nat := k * 2 ^ 52 + pa

/-- The bytes of a list of dwords, the first the lowest (00 R7). -/
def dwBytes : List Word → List Byte
  | [] => []
  | w :: r => leBytes 8 w.toNat ++ dwBytes r

/-- Free bytes (log 11), in granules of 128. -/
def State.freeBytes (s : State) : Nat → List Byte × State
  | 0 => ([], s)
  | n + 1 =>
    let d := s.drawBits
    let r := d.2.freeBytes n
    (leBytes 128 d.1.toNat ++ r.1, r.2)

/-- The dword that the bytes of a list give. -/
def bytesW (l : List Byte) : Word := BitVec.ofNat 64 (leNat l)

/-- A record of the capability table (22 R468). -/
def capRec (type len inst : Nat) (v : List Word) : List Word := BitVec.ofNat 64 (type + len * 2 ^ 16 + inst * 2 ^ 32) :: v

/-- A die record (22 R469). -/
def capDie (i : Nat) (d : Die) : List Word :=
  capRec 2 32 i
    [bitAt d.present 0 ||| bitAt d.stack0 1 ||| bitAt d.stack1 2, d.absent.extractLsb' 0 64, d.absent.extractLsb' 64 32 |>.setWidth 64,
      64#64 ||| 64#64 <<< 16]

/-- The code of a part (22 R469). -/
def chipCode : Chip → Nat
  | .f => 1 | .n => 2
/-- The code of a form (22 R469). -/
def formCode : Form → Nat
  | .bare => 1 | .fiveDie => 2 | .onModule => 3

/-- The ROM records (22 R469): identity, dies, geometry, memory, ports, images. -/
def capRom (p : Pkg) (k : Nat) : List Word :=
  let kib := fun b => Config.banks p.chip b * 32
  let d : Pkg := { form := p.form }
  capRec 1 16 0 [at' (chipCode p.chip) 0 ||| at' (formCode p.form) 8 ||| Config.revision.setWidth 64 <<< 16, Config.serial k]
    ++ capDie 0 (d.die 0) ++ capDie 1 (d.die 1) ++ capDie 2 (d.die 2) ++ capDie 3 (d.die 3)
    ++ capRec 3 16 0
      [at' (Config.island p.chip) 0 ||| at' Config.lanes 8 ||| at' (Config.coresPerDie p.chip) 16 ||| at' (Config.quadsPerDie p.chip) 24,
        at' (kib .w) 0 ||| at' (kib .a) 16 ||| at' (kib .c) 32]
    ++ capRec 4 8 0 [at' ((p.lpddrEnd - 2 ^ 40) / 2 ^ 30) 0] ++ capRec 5 8 0 [if p.bare then 0 else 0x7FFFFFF]
    ++ capRec 6 8 0 [at' 1 0 ||| (Config.kilnGen k).setWidth 64 <<< 8 ||| at' 512 24]

/-- The firmware records: the dies as bring-up found them (22 R470, 23 R478 step 2). -/
def capFw (p : Pkg) : List Word := capDie 0 (p.die 0) ++ capDie 1 (p.die 1) ++ capDie 2 (p.die 2) ++ capDie 3 (p.die 3)

/-- A signature block (22 R467). -/
def capSig (l : List Word) : List Word :=
  let v := Config.vendorSig (Config.sm3 (dwBytes l))
  ((List.range 8).map fun i => bytesW ((List.range 8).map fun j => v.extractLsb' (8 * (63 - (8 * i + j))) 8))
    ++ List.replicate 8 0

/-- The header (22 R467). -/
def capHead (p : Pkg) (fw : Bool) : List Word :=
  [BitVec.ofNat 64 (1 + 4 * 2 ^ 8 + 9 * 2 ^ 16) ||| (if fw then at' 4 32 else 0),
    at' 512 0 ||| (if fw then at' (128 * p.clen.toNat) 32 else 0),
    (Config.capKeys &&& 0xFFFF#32).setWidth 64 ||| (if fw then (Config.capKeys >>> 16).setWidth 64 <<< 16 else 0)]
    ++ List.replicate 13 0

/-- The ROM part (22 R467). -/
def capRomPart (p : Pkg) (k : Nat) : List Word := capHead p false ++ capRom p k ++ capSig (capHead p false ++ capRom p k)

/-- The capability table as the frame holds it (22 R465 to R472). -/
def capTable (p : Pkg) (k : Nat) : List Word :=
  if p.evalid then
    let body := capHead p true ++ (capRomPart p k).drop 16 ++ capFw p ++ List.replicate 12 0
    body ++ capSig body
  else
    (capRomPart p k).set 1 (at' 512 0 ||| at' 512 32)

/-- The capability frame is the first 64 KiB of local HBM (22 R465). -/
def inCap (pa : Nat) : Bool := decide (pa < 65536)

/-- The byte of local memory that a physical address of a package holds. -/
def State.peek (s : State) (k pa : Nat) : Byte :=
  if inCap pa then
    (if (s.pkg k).cvalid then ((dwBytes (capTable (s.pkg k) k))[pa]?).getD 0 else 0)
  else s.mem.read (memKey k pa)

/-- Bytes of local memory. -/
def State.peeks (s : State) (k pa : Nat) : Nat → List Byte
  | 0 => []
  | n + 1 => s.peek k pa :: s.peeks k (pa + 1) n

/-- A dword of local memory. -/
def State.peekW (s : State) (k pa : Nat) : Word := bytesW (s.peeks k pa 8)

/-- The granule of a byte of `State.mem`. -/
def granule (key : Nat) : Nat := key / 128

/-- Write bytes of local memory, with fresh check values (01 R33, R34); the capability frame is read-only (22 R465). -/
def State.poke (s : State) (k pa : Nat) (l : List Byte) : State :=
  if inCap pa then s else { s with mem := s.mem.writeBytes (memKey k pa) l }

/-- Write a dword of local memory. -/
def State.pokeW (s : State) (k pa : Nat) (v : Word) : State := s.poke k pa (leBytes 8 v.toNat)

/-- Whole granules that a device unit writes take fresh check values and no page key (01 R33). -/
def State.freshen (s : State) (k pa len : Nat) : State :=
  { s with
    bad := s.bad.filter fun g => !(granule (memKey k pa) ≤ g && g < granule (memKey k (pa + len + 127)))
    encs := s.encs.filter fun e => !(granule (memKey k pa) ≤ e.1 && e.1 < granule (memKey k (pa + len + 127))) }

/-- Copy a range of the local memory of a package to another, with its check values (01 R33). -/
def State.carry (s : State) (a src b dst len : Nat) : State :=
  let ka := memKey a src
  let kb := memKey b dst
  let inA := fun g => decide (granule ka ≤ g) && decide (g < granule (ka + len))
  let inB := fun g => decide (granule kb ≤ g) && decide (g < granule (kb + len))
  let toB := fun g => g - granule ka + granule kb
  let cells := s.mem.filter fun c => decide (ka ≤ c.1) && decide (c.1 < ka + len)
  { s with
    mem := cells.foldl (fun m c => Memory.write m (c.1 - ka + kb) c.2) (s.mem.clear kb (kb + len))
    bad := (s.bad.filter fun g => !inB g) ++ (s.bad.filter inA).map toB
    encs := (s.encs.filter fun e => !inB e.1) ++ (s.encs.filter fun e => inA e.1).map fun e => (toB e.1, e.2) }

/-- The key entry of a package (23 R486). -/
def Pkg.key (p : Pkg) (i : Nat) : KeyEnt := p.keys.getD i {}

/-- Whether a key may open a page of a partition slot (23 R486); a bare field die checks none. -/
def Pkg.keyOk (p : Pkg) (slot i : Nat) : Bool :=
  let e := p.key i
  p.bare || (e.valid && decide (e.owner = slot) && decide (e.kind.toNat < 2))

/-- Whether the check value of a granule fails when it is read under a key (01 R33, R34, 23 R486). -/
def State.checkFails (s : State) (k pa : Nat) (key : Option KeyEnt) : Bool :=
  s.bad.contains (granule (memKey k pa)) ||
    match s.encs.get? (granule (memKey k pa)), key with
    | some e, some i => e.1 != i.kind || e.2 != i.mat
    | _, _ => false

/-- Write bytes within one granule through a page with a key (23 R486): the granule is then encrypted under that key. -/
def State.pokeKey (s : State) (k pa : Nat) (l : List Byte) (key : KeyEnt) : State :=
  if inCap pa then s
  else { s.poke k pa l with encs := s.encs.put (granule (memKey k pa)) (key.kind, key.mat) }

/-- `cr.vdstat` of a slot (21 R461). -/
def Part.vdstat (p : Part) : Word :=
  p.st.code ++ BitVec.ofBool p.tbad ++ p.opart ++ p.opkg ++ 0#12 ++ p.left

/-- `mbst` (23 R481). -/
def Pkg.mbst (p : Pkg) : Word := p.mbState ++ BitVec.ofBool p.mbLost ++ p.mbCode ++ p.mbWhy ++ 0#45

/-- The blocks of the device registers (23 R479). -/
inductive RegBlk where
  | mailbox | arg | power | config | pod
  deriving DecidableEq, Repr

/-- The block of an offset (23 R479). -/
def regBlk (off : Nat) : Option RegBlk :=
  if off < 0x1000 then some .mailbox
  else if off < 0x2000 then some .arg
  else if 0x10000 ≤ off ∧ off < 0x11000 then some .power
  else if 0x100000 ≤ off ∧ off < 0x120000 then some .config
  else if 0x2000000 ≤ off ∧ off < 0x2080000 then some .pod
  else none

/-- Whether some group of a slot is held by `preempt` (23 R485). -/
def State.heldGroup (s : State) (k : PartKey) : Bool := s.groups.any fun e => e.1.pk = k && e.2.hold

/-- A dword of a peer-table entry (23 R484). -/
def Peer.dw (p : Peer) : Nat → Word
  | 0 => p.addrLo
  | 1 => p.addrHi
  | 2 => p.ident.setWidth 64 ||| bitAt p.valid 32
  | _ => 0

/-- The device register at an offset, a multiple of 8 (23 R480, R485, R489). -/
def State.regRead (s : State) (k off : Nat) : Word :=
  let p := s.pkg k
  match regBlk off with
  | none => 0
  | some .mailbox => if off = 8 then p.mbst else 0
  | some .arg => (p.arg[(off - 0x1000) / 8]?).getD 0
  | some .power =>
    if off = 0x10000 then p.pwrlim.setWidth 64
    else if off = 0x10008 then p.curlim.setWidth 64
    else if off < 0x10030 then (p.die ((off - 0x10010) / 8)).idle
    else 0
  | some .config =>
    let kp : PartKey := ⟨k, (off - 0x100000) / 0x1000⟩
    let o := off % 0x1000
    let q := s.part kp
    if o < 0x100 then (if q.st = .vacant then 0 else (q.area[o / 8]?).getD 0)
    else if o = 0x100 then q.vdstat
    else if o = 0x108 then bitAt q.linkadm 0 ||| bitAt (s.heldGroup kp) 1
    else 0
  | some .pod =>
    if p.bare then 0
    else if off < 0x2020000 then
      let n := (off - 0x2000000) / 4
      (p.podmap.getD (n + 1) 0 ++ p.podmap.getD n 0)
    else if off = 0x2020000 then p.num.setWidth 64
    else if off < 0x2030000 then 0
    else if off < 0x2040000 then p.portmap.getD ((off - 0x2030000) / 8) 0
    else (p.peers.getD ((off - 0x2040000) / 32) {}).dw ((off - 0x2040000) / 8 % 4)

/-- Whether a writer may write a block: the host also reaches the power registers (23 R479). -/
def RegBlk.writable (host : Bool) : RegBlk → Bool
  | .mailbox | .arg => true
  | .power => host
  | .config | .pod => false

/-- A number brought between bounds (23 R489). -/
def clampN (lo hi n : Nat) : Nat := if n < lo then lo else if hi < n then hi else n

/-- The mailbox codes that R482 names. -/
def mbKnown (code : Nat) : Bool := decide (1 ≤ code) && decide (code ≤ 10)

/-- A write of `mbcmd` (23 R481, R482): a command starts unless the mailbox is busy. An unknown code is refused with why 1, and while the
field dies are held every command but `attest` with why 5 (22 R472); a bare field die refuses the commands of the hub die with why 4. A refused command is
reported as a completed one is (R487). -/
def Pkg.mbStart (p : Pkg) (v : Word) : Pkg :=
  if p.mbState = 1 then { p with mbLost := true }
  else
    let code := fld v 56 8
    let p := { p with mbCmd := v, mbCode := BitVec.ofNat 8 code, mbWhy := 0 }
    if p.held && code != 10 then { p with mbState := 3, mbWhy := 5, reports := p.reports ++ [.done] }
    else if p.bare && decide (4 ≤ code) && decide (code ≤ 10) then { p with mbState := 3, mbWhy := 4, reports := p.reports ++ [.done] }
    else if mbKnown code then { p with mbState := 1 }
    else { p with mbState := 3, mbWhy := 1, reports := p.reports ++ [.done] }

/-- Write a device register of a package, at a multiple of 8; `m` masks the bytes written (23 R480, R481, R489). -/
def Pkg.regWrite (p : Pkg) (off : Nat) (v m : Word) : Pkg :=
  if off = 0 then p.mbStart (v &&& m)
  else if off = 8 then { p with mbLost := p.mbLost && !(v &&& m).getLsbD 61 }
  else if 0x1000 ≤ off ∧ off < 0x2000 then
    let i := (off - 0x1000) / 8
    { p with arg := p.arg.setIfInBounds i (((p.arg[i]?).getD 0 &&& ~~~m) ||| (v &&& m)) }
  else if off = 0x10000 then
    { p with pwrlim := BitVec.ofNat 11 (clampN 500 2000 (fld ((p.pwrlim.setWidth 64 &&& ~~~m) ||| (v &&& m)) 0 11)) }
  else if off = 0x10008 then
    { p with curlim := BitVec.ofNat 13 (clampN 2600 4000 (fld ((p.curlim.setWidth 64 &&& ~~~m) ||| (v &&& m)) 0 13)) }
  else p

/-- The mask of the bytes of an access of `n` bytes at `off` within its dword. -/
def byteMask (off n : Nat) : Word := (BitVec.allOnes 64 >>> (64 - 8 * n)) <<< (8 * (off % 8))

/-- A register access of 4 or 8 bytes, written (07 R158). -/
def State.regStore (s : State) (k off : Nat) (l : List Byte) : State :=
  s.setPkg k ((s.pkg k).regWrite (off / 8 * 8) (bytesW l <<< (8 * (off % 8))) (byteMask off l.length))

/-- A register access of `n` bytes, read (07 R158). -/
def State.regLoad (s : State) (k off n : Nat) : List Byte :=
  leBytes n (s.regRead k (off / 8 * 8) >>> (8 * (off % 8))).toNat

end Sys2Proof.Machine
end

