-- ==== Sys2Proof/Machine/Walk.lean ====
section
/-!
DEFINITION. Page tables: entries, the hashed and the inverted walk, the walk caches, changes of entries, shoot-downs and shadow frames
(19 R403 to R418).
-/
namespace Sys2Proof.Machine

/-- One bit of CRC-32C, reflected. -/
def crcBit (c : BitVec 32) : BitVec 32 := if c.getLsbD 0 then (c >>> 1) ^^^ 0x82F63B78#32 else c >>> 1
/-- One byte of CRC-32C. -/
def crcByte (c : BitVec 32) (b : Byte) : BitVec 32 :=
  crcBit (crcBit (crcBit (crcBit (crcBit (crcBit (crcBit (crcBit (c ^^^ b.setWidth 32))))))))
/-- CRC-32C with initial value and final exclusive or of all ones (19 R407). -/
def crc32c (l : List Byte) : BitVec 32 := ~~~ (l.foldl crcByte 0xFFFFFFFF#32)

/-- ps(z) of R407. -/
def psz : Nat → Nat
  | 0 => 16 | 1 => 21 | _ => 30

/-- The code of a page size. -/
def pgNum : PgSize → Nat
  | .k64 => 0 | .m2 => 1 | .g1 => 2
/-- The page size of a code. -/
def pgOf : Nat → PgSize
  | 0 => .k64 | 1 => .m2 | _ => .g1
/-- The bytes of a page. -/
def pgBytes (z : PgSize) : Nat := 2 ^ psz (pgNum z)

/-- The hash of R407. -/
def hashOf (z : Nat) (asn : BitVec 16) (va : Nat) : Nat :=
  (crc32c (leBytes 8 (z * 2 ^ 62 + asn.toNat * 2 ^ 46 + va % 2 ^ 56 / 2 ^ psz z))).toNat

/-- An entry of the hashed table as its 128 bits (19 R404). -/
def Pte.ofBits (b : BitVec 128) : Pte :=
  { tag := b.extractLsb' 88 40, asn := b.extractLsb' 72 16, frame := b.extractLsb' 36 36, key := b.extractLsb' 23 13,
    sidx := b.extractLsb' 8 15, state := b.extractLsb' 5 3, size := b.extractLsb' 3 2, x := b.getLsbD 2, w := b.getLsbD 1,
    r := b.getLsbD 0 }
/-- The 128 bits of an entry of the hashed table (19 R404). -/
def Pte.bits (e : Pte) : BitVec 128 :=
  e.tag ++ e.asn ++ e.frame ++ e.key ++ e.sidx ++ e.state ++ e.size ++ BitVec.ofBool e.x ++ BitVec.ofBool e.w ++ BitVec.ofBool e.r

/-- The tag of a page (19 R404). -/
def tagOf (z va : Nat) : Nat := va % 2 ^ 56 / 2 ^ psz z * 2 ^ (psz z - 16)

/-- An entry that is legal (19 R408): its size, the tag bits below its size, its frame's alignment. -/
def Pte.legal (e : Pte) : Bool :=
  e.size != 3 && decide (e.tag.toNat % 2 ^ (psz e.size.toNat - 16) = 0) && decide (e.frame.toNat % 2 ^ (psz e.size.toNat - 16) = 0)

/-- Whether an entry maps a page (states 1 to 6, R403). -/
def Pte.maps (e : Pte) : Bool := decide (1 ≤ e.state.toNat) && decide (e.state.toNat ≤ 6) && e.legal

/-- Whether an entry is empty (19 R403): an illegal one counts as deleted, whatever its state (R408). -/
def Pte.empty (e : Pte) : Bool := e.state = 0 && e.legal

/-- The first virtual address of the page of an entry, without the half bit. -/
def Pte.vbase (e : Pte) : Nat := e.tag.toNat * 65536
/-- The bytes of the page of an entry. -/
def Pte.len (e : Pte) : Nat := 2 ^ psz e.size.toNat

/-- 128 bits of local memory. -/
def State.peek128 (s : State) (k pa : Nat) : BitVec 128 := BitVec.ofNat 128 (leNat (s.peeks k pa 16))

/-- Where an entry stands: a bucket entry of the hashed table at an address, or the inverted entry of a frame. -/
inductive PteLoc where
  | hashed (pa : Nat)
  | inverted (stack index : Nat)
  deriving DecidableEq, Repr

/-- The table register of the half of an address (19 R405): lnb and base. -/
def Part.table (p : Part) (va : Nat) : Nat × Nat :=
  let t := if va / 2 ^ 56 % 2 = 0 then p.ptu else p.ptp
  (fld t 58 6, fld t 7 45 * 128)

/-- The entries of a bucket, from entry `e`. -/
def State.bucket (s : State) (k pa : Nat) : Nat → List (Nat × Pte)
  | 0 => []
  | n + 1 => (pa + 16 * (7 - n), Pte.ofBits (s.peek128 k (pa + 16 * (7 - n)))) :: s.bucket k pa n

/-- The probe of one size from bucket `b` (19 R407). -/
def State.probe (s : State) (k base nb z : Nat) (asn : BitVec 16) (va b : Nat) : Nat → Option (PteLoc × Pte)
  | 0 => none
  | n + 1 =>
    let es := s.bucket k (base + 128 * (b % nb)) 8
    match es.find? fun e => e.2.maps && e.2.size.toNat = z && e.2.asn = asn && e.2.tag.toNat = tagOf z va with
    | some e => some (.hashed e.1, e.2)
    | none => if es.any fun e => e.2.empty then none else s.probe k base nb z asn va (b + 1) n

/-- The sizes in use, the first size first (19 R406, R407). -/
def Part.sizes (p : Part) : List Nat :=
  let first := fld p.ptcfg 57 2
  let on := fun z => p.ptcfg.getLsbD (54 + z)
  ([first] ++ (List.range 3).filter (· ≠ first)).filter on

/-- The base of a stack in local HBM (07 R155). -/
def stackBase (t : Nat) : Nat := t * 2 ^ 36
/-- The address of an inverted entry (19 R409). -/
def invAddr (t i : Nat) : Nat := stackBase t + 2 ^ 36 - 2 ^ 24 + 16 * i

/-- An inverted entry: its fields, its next entry where it has one, and whether its zero bits are zero (19 R409). -/
def invOfBits (t i : Nat) (b : BitVec 128) : Pte × Option (Nat × Nat) :=
  ({ tag := b.extractLsb' 88 40, asn := b.extractLsb' 72 16, frame := BitVec.ofNat 36 ((stackBase t + i * 65536) / 65536),
     key := b.extractLsb' 35 13, sidx := b.extractLsb' 20 15,
     state := if b.extractLsb' 8 12 = 0 && b.extractLsb' 3 2 = 0 then b.extractLsb' 5 3 else 7,
     size := 0, x := b.getLsbD 2, w := b.getLsbD 1, r := b.getLsbD 0 },
   if b.getLsbD 71 then some ((b.extractLsb' 68 3).toNat, (b.extractLsb' 48 20).toNat) else none)

/-- The 128 bits of an inverted entry (19 R409). -/
def Pte.invBits (e : Pte) (next : Option (Nat × Nat)) : BitVec 128 :=
  let n : BitVec 24 := match next with | some p => 1#1 ++ BitVec.ofNat 3 p.1 ++ BitVec.ofNat 20 p.2 | none => 0
  e.tag ++ e.asn ++ n ++ e.key ++ e.sidx ++ 0#12 ++ e.state ++ 0#2 ++ BitVec.ofBool e.x ++ BitVec.ofBool e.w ++ BitVec.ofBool e.r

/-- The anchor word of a hash (19 R409, R410): where it stands, and the entry it names. -/
def State.anchor (s : State) (k : Nat) (p : Part) (asn : BitVec 16) (va : Nat) : Option (Nat × Option (Nat × Nat)) :=
  let lna := fld p.ptanc 58 6
  if lna = 0 then none
  else
    let pa := fld p.ptanc 2 50 * 4 + 4 * (hashOf 0 asn va % 2 ^ lna)
    let w := leNat (s.peeks k pa 4)
    some (pa, if w / 2 ^ 31 = 1 then some (w / 2 ^ 20 % 8, w % 2 ^ 20) else none)

/-- The chain of R410 from an entry. -/
def State.chase (s : State) (k : Nat) (asn : BitVec 16) (va : Nat) : Option (Nat × Nat) → Nat → Option (PteLoc × Pte)
  | none, _ => none
  | some _, 0 => none
  | some (t, i), n + 1 =>
    let e := invOfBits t i (s.peek128 k (invAddr t i))
    if e.1.maps && e.1.asn = asn && e.1.tag.toNat = va % 2 ^ 56 / 65536 then some (.inverted t i, e.1)
    else s.chase k asn va e.2 n

/-- Whether the partition walks the inverted table (19 R406). -/
def Part.inv (p : Part) : Bool := p.ptcfg.getLsbD 63

/-- A walk of the tables (19 R407, R410). -/
def State.walk (s : State) (pk : PartKey) (asn : BitVec 16) (va : Nat) : Option (PteLoc × Pte) :=
  let p := s.part pk
  if p.inv then
    match s.anchor pk.pkg p asn va with
    | none => none
    | some a => s.chase pk.pkg asn va a.2 64
  else
    let t := p.table va
    if t.1 = 0 then none
    else
      p.sizes.findSome? fun z =>
        s.probe pk.pkg t.2 (2 ^ t.1) z asn va (hashOf z asn va % 2 ^ t.1) (fld p.ptcfg 59 4 + 1)

/-- The entry of a walk-cache line that covers an address. -/
def WalkEnt.hits (w : WalkEnt) (pk : PartKey) (core : Nat) (asn : BitVec 16) (va : Nat) : Bool :=
  w.pkg = pk.pkg && w.core = core && w.part = pk.part && w.e.asn = asn && w.half = decide (va / 2 ^ 56 % 2 = 1)
    && decide (w.e.vbase ≤ va % 2 ^ 56) && decide (va % 2 ^ 56 < w.e.vbase + w.e.len)

/-- A translation by a core: an entry it holds may serve it, or it walks and holds the entry it reads (19 R412); which is free. -/
def State.lookup (s : State) (pk : PartKey) (core : Nat) (asn : BitVec 16) (va : Nat) : Option Pte × State :=
  match s.walks.find? fun w => w.hits pk core asn va with
  | some w =>
    let d := s.drawBool
    if d.1 then (some w.e, d.2) else ((d.2.walk pk asn va).map Prod.snd, d.2)
  | none =>
    match s.walk pk asn va with
    | some e => (some e.2, { s with walks := ⟨pk.pkg, core, pk.part, decide (va / 2 ^ 56 % 2 = 1), e.2⟩ :: s.walks })
    | none => (none, s)

/-- Write 128 bits of local memory. -/
def State.poke128 (s : State) (k pa : Nat) (v : BitVec 128) : State := s.poke k pa (leBytes 16 v.toNat)

/-- The link of an inverted entry to the next of its chain. -/
def State.invNext (s : State) (k t i : Nat) : Option (Nat × Nat) := (invOfBits t i (s.peek128 k (invAddr t i))).2

/-- Write an entry where it stands, as one event (19 R423). -/
def State.setPte (s : State) (k : Nat) (l : PteLoc) (e : Pte) : State :=
  match l with
  | .hashed pa => s.poke128 k pa e.bits
  | .inverted t i => s.poke128 k (invAddr t i) (e.invBits (s.invNext k t i))

/-- Write the word of an anchor. -/
def State.setAnchor (s : State) (k pa : Nat) (n : Option (Nat × Nat)) : State :=
  s.poke k pa (leBytes 4 (match n with | some p => 2 ^ 31 + p.1 * 2 ^ 20 + p.2 | none => 0))

/-- Link `new` in place of the entry `old` of the chain from `cur`, or take `old` out of it. -/
def State.relink (s : State) (k : Nat) (old : Nat × Nat) (new : Option (Nat × Nat)) : Option (Nat × Nat) → Nat → State
  | none, _ => s
  | some _, 0 => s
  | some (t, i), n + 1 =>
    let e := invOfBits t i (s.peek128 k (invAddr t i))
    if e.2 = some old then s.poke128 k (invAddr t i) (e.1.invBits new) else s.relink k old new e.2 n

/-- Take an inverted entry out of its chain, or put another in its place (19 R411, R421). -/
def State.unchain (s : State) (pk : PartKey) (e : Pte) (old : Nat × Nat) (new : Option (Nat × Nat)) : State :=
  match s.anchor pk.pkg (s.part pk) e.asn e.vbase with
  | none => s
  | some a => if a.2 = some old then s.setAnchor pk.pkg a.1 new else s.relink pk.pkg old new a.2 64

/-- Whether a translation's page overlaps a page of an address space. -/
def overlaps (b1 l1 b2 l2 : Nat) : Bool := decide (b1 < b2 + l2) && decide (b2 < b1 + l1)

/-- Whether a shoot-down of a page (every page where none) clears a translation; addresses are taken with their half, va[56:0]. -/
def hitPage (page : Option (BitVec 16 × Nat × Nat)) (asn : BitVec 16) (b l : Nat) : Bool :=
  match page with
  | none => true
  | some p => p.1 = asn && overlaps p.2.1 p.2.2 b l

/-- The lease state after a shoot-down: a lease taken through the page ends (10 R235). -/
def Lease.shot (l : Lease) (page : Option (BitVec 16 × Nat × Nat)) : Lease :=
  match l.st with
  | .none => l
  | .waiting _ tr _ | .held _ tr _ =>
    if hitPage page tr.asn (tr.vbase % 2 ^ 57) (pgBytes tr.size) then { l with st := .none } else l

/-- The fields of `cr.th` but its valid bit (10 R225). -/
def Trans.fields (t : Trans) : Word :=
  at' (pgNum t.size) 61 ||| bitAt t.wr 60 ||| bitAt t.rd 59 ||| at' (t.vbase / 65536 % 2 ^ 41) 16 ||| t.asn.setWidth 64

/-- A handle's valid bit is cleared where its translation meets a condition (10 R225). -/
def HReg.clearIf (h : HReg) (f : Trans → Bool) : HReg :=
  match h.tr with
  | none => h
  | some t => if f t then { tr := none, rest := t.fields } else h

/-- A handle after a shoot-down of a page (10 R225, 19 R414). -/
def shotHandle (page : Option (BitVec 16 × Nat × Nat)) (h : HReg) : HReg :=
  h.clearIf fun tr => hitPage page tr.asn (tr.vbase % 2 ^ 57) (pgBytes tr.size)

/-- The page that a translation maps, as an access that uses it remembers it (19 R414). -/
def Trans.use (t : Trans) : PgUse := ⟨t.asn, t.vbase % 2 ^ 57, pgBytes t.size⟩

/-- Whether a shoot-down of a page reaches an access that used a translation (19 R412, R414). -/
def PgUse.hit (u : PgUse) (page : Option (BitVec 16 × Nat × Nat)) : Bool := hitPage page u.asn u.va u.len

/-- Whether an event in a store path used a translation of the page. -/
def PathEff.uses (page : Option (BitVec 16 × Nat × Nat)) : PathEff → Bool
  | .store evs => evs.any fun e => e.vp.hit page
  | .amo _ _ _ vp _ _ _ _ _ => vp.hit page
  | .lease _ tr _ _ => hitPage page tr.asn (tr.vbase % 2 ^ 57) (pgBytes tr.size)
  | .unlease _ | .fence _ | .qfence _ | .cmd _ | .bound _ _ _ => false

/-- The committed events of a partition that used a translation of the page: context and stamp (19 R414). -/
def State.pathUses (s : State) (pk : PartKey) (page : Option (BitVec 16 × Nat × Nat)) : List (Nat × Nat) :=
  s.ctxs.flatMap fun e =>
    if e.2.pk = pk then (e.2.path.filter fun p => p.eff.uses page).map fun p => (e.1, p.stamp) else []

/-- Whether a block holds an access that translated the page. -/
def State.blkUses (s : State) (pk : PartKey) (page : Option (BitVec 16 × Nat × Nat)) (b : Blk) : Bool :=
  match s.ctxs.get? b.ctx with
  | none => false
  | some x => x.pk = pk && b.vas.any fun u => u.hit page

/-- Threads whose blocks a shoot-down discards fetch again. -/
def State.refetchUses (s : State) (pk : PartKey) (page : Option (BitVec 16 × Nat × Nat)) : State :=
  let bs := (s.blks.filter fun e => s.blkUses pk page e.2).map Prod.snd
  bs.foldl
    (fun s b => (s.discard fun o => o.ctx = b.ctx && o.u = b.u && decide (b.seq ≤ o.seq)).updCtx b.ctx fun x =>
      x.setLane b.u (x.lane b.u).refetch) s

/-- Begin a shoot-down (19 R412, R414 steps 1 and 2). -/
def State.shoot (s : State) (pk : PartKey) (page : Option (BitVec 16 × Nat × Nat)) (thr key : Option Nat) : State :=
  let s := s.refetchUses pk page
  let w := s.pathUses pk page
  { s with
    ctxs := s.ctxs.map fun e =>
      if e.2.pk = pk then
        (e.1, { e.2 with regs := { e.2.regs with th := e.2.regs.th.map (shotHandle page) }, lease := e.2.lease.shot page })
      else e
    walks := s.walks.filter fun e => !(e.pkg = pk.pkg && e.part = pk.part && hitPage page e.e.asn (e.e.vbase + (if e.half then 2 ^ 56 else 0)) e.e.len)
    shoots := s.shoots ++ [{ pk := pk, page := page, thr := thr, waits := w, key := key }] }

/-- The halves of the address space that an entry serves (07 R152, 19 R405, R410): that of its table; an inverted entry both. -/
def Part.halves (p : Part) (l : PteLoc) : List Nat :=
  match l with
  | .inverted _ _ => [0, 2 ^ 56]
  | .hashed pa =>
    let on := [0, 2 ^ 56].filter fun h => let t := p.table h; decide (t.2 ≤ pa) && decide (pa < t.2 + 128 * 2 ^ t.1) && decide (t.1 ≠ 0)
    if on = [] then [0, 2 ^ 56] else on

/-- Begin a shoot-down of the page of an entry. -/
def State.shootPte (s : State) (pk : PartKey) (l : PteLoc) (e : Pte) : State :=
  ((s.part pk).halves l).foldl (fun s h => s.shoot pk (some (e.asn, e.vbase + h, e.len)) none none) s

/-- Change the state and the shadow index of an entry, with a shoot-down of its page (19 R403). -/
def State.setPageState (s : State) (pk : PartKey) (l : PteLoc) (e : Pte) (st : BitVec 3) (sidx : BitVec 15) : State :=
  (s.setPte pk.pkg l { e with state := st, sidx := sidx }).shootPte pk l e

/-- The shadow pool table (19 R416): its base and its count. -/
def Part.pool (p : Part) : Nat × Nat := (fld p.shpool 0 49 * 8, fld p.shpool 49 15)

/-- The physical frame number in a pool entry. -/
def State.poolFrame (s : State) (pk : PartKey) (n : Nat) : Nat := fld (s.peekW pk.pkg ((s.part pk).pool.1 + 8 * n)) 0 36

/-- The lowest pool index with used 0 (19 R417). -/
def State.freePool (s : State) (pk : PartKey) : Option Nat :=
  (List.range (s.part pk).pool.2).find? fun n => !(s.peekW pk.pkg ((s.part pk).pool.1 + 8 * n)).getLsbD 63

/-- Whether a frame of local HBM is protected for a partition (21 R443). -/
def State.protected' (s : State) (pk : PartKey) (pa : Nat) : Bool :=
  let p := s.part pk
  let f := pa / 65536
  let kf := fld p.kfrec 16 36
  let jr := fld p.vdjrn 16 36
  (decide (kf ≤ f) && decide (f < kf + 2 * fld p.kfrec 52 12)) || (decide (jr ≤ f) && decide (f < jr + fld p.vdjrn 52 12))
    || (decide (0 < p.pool.2) && decide (p.pool.1 / 65536 ≤ f) && decide (f ≤ (p.pool.1 + 8 * p.pool.2 - 1) / 65536))
    || ((List.range p.pool.2).any fun n =>
      let w := s.peekW pk.pkg (p.pool.1 + 8 * n)
      w.getLsbD 63 && decide (fld w 0 36 = f))
    || (s.kerns.any fun e => e.1.pk = pk && e.2.fenced.any fun va =>
      match s.walk pk (e.2.desc[0].extractLsb' 32 16) va with
      | some (_, t) => (t.state = 2 || t.state = 3) && decide (t.frame.toNat = f)
      | none => false)

/-- Whether a range of local memory lies in a slot's memory ranges (23 R483). -/
def Part.inRanges (p : Part) (pa len : Nat) : Bool :=
  (List.range 8).any fun i =>
    let b := ((p.area[12 + 2 * i]?).getD 0).toNat
    let l := ((p.area[13 + 2 * i]?).getD 0).toNat
    decide (0 < l) && decide (b ≤ pa) && decide (pa + len ≤ b + l)

/-- Where the twin of bytes of a protected frame goes (21 R443): none where no twin is due, else a package and an address of its local memory, or none where
it cannot be written. -/
def State.twinPlace (s : State) (pk : PartKey) (pa len : Nat) : Option (Option (Nat × Nat)) :=
  let p := s.part pk
  let cls := fld p.vdcfg 62 2
  if !(s.pkg pk.pkg).inHbm pa 1 || cls = 0 || !s.protected' pk pa then none
  else if cls = 1 then
    let ta := (BitVec.ofNat 52 pa ^^^ (BitVec.ofNat 52 (fld p.vdcfg 60 2) <<< 37)).toNat
    some (if (s.pkg pk.pkg).hbmHere ta && p.inRanges ta len then some (pk.pkg, ta) else none)
  else
    let k := s.pkgOfNum (fld p.vdcfg 48 10)
    let q := s.part ⟨k, fld p.vdcfg 43 5⟩
    some (if (s.pkg k).hbmHere pa && (q.inRanges pa len || q.st = .vacant) then some (k, pa) else none)

/-- What a write to a protected frame does at its twin (21 R443): one that cannot be written sets tbad. -/
def State.atTwin (s : State) (pk : PartKey) (pa len : Nat) (f : State → Nat × Nat → State) : State :=
  match s.twinPlace pk pa len with
  | none => s
  | some (some t) => f s t
  | some none => s.setPart pk { s.part pk with tbad := true }

/-- The twin of a write of bytes (21 R443): on another die of the package, or on the partner package. -/
def State.twin (s : State) (pk : PartKey) (pa : Nat) (l : List Byte) : State := s.atTwin pk pa l.length fun s t => s.poke t.1 t.2 l

/-- Write a pool entry, with its twin (21 R443). -/
def State.setPool (s : State) (pk : PartKey) (n : Nat) (used : Bool) (frame : Nat) : State :=
  let a := (s.part pk).pool.1 + 8 * n
  let v : Word := bitAt used 63 ||| at' frame 0
  (s.pokeW pk.pkg a v).twin pk a (leBytes 8 v.toNat)

/-- Copy a page to a frame of the shadow pool (19 R417), with its check values (01 R33), and there to its twin (01 R30, 21 R443). -/
def State.copyShadow (s : State) (pk : PartKey) (src dst len : Nat) : State :=
  (s.carry pk.pkg src pk.pkg dst len).atTwin pk dst len fun s t => s.carry pk.pkg dst t.1 t.2 len

/-- The frame that a page's reads and writes use (19 R403). -/
def State.liveFrame (s : State) (pk : PartKey) (e : Pte) : Nat :=
  (if e.state = 3 then s.poolFrame pk e.sidx.toNat else e.frame.toNat) * 65536

/-- A write to a fenced page takes a shadow (19 R417); nothing where no pool index is free. -/
def State.takeShadow (s : State) (pk : PartKey) (l : PteLoc) (e : Pte) : Option State :=
  match s.freePool pk with
  | none => none
  | some n =>
    let fr := s.poolFrame pk n
    let s := (s.setPool pk n true fr).copyShadow pk (e.frame.toNat * 65536) (fr * 65536) 65536
    some (s.setPageState pk l e 3 (BitVec.ofNat 15 n))

/-- Discard the shadow of a page (19 R418). -/
def State.dropShadow (s : State) (pk : PartKey) (l : PteLoc) (e : Pte) (st : BitVec 3) : State :=
  if e.state = 3 then
    (s.setPool pk e.sidx.toNat false (s.poolFrame pk e.sidx.toNat)).setPageState pk l e st 0
  else s.setPageState pk l e st 0

/-- Promote a shadowed page (19 R411, R418): the frames change places. -/
def State.promote (s : State) (pk : PartKey) (l : PteLoc) (e : Pte) (st : BitVec 3) : State :=
  if e.state ≠ 3 then s.setPageState pk l e st 0
  else
    let n := e.sidx.toNat
    let new := s.poolFrame pk n
    match l with
    | .hashed _ =>
      let s := s.setPte pk.pkg l { e with frame := BitVec.ofNat 36 new, state := st, sidx := 0 }
      (s.setPool pk n false e.frame.toNat).shootPte pk l e
    | .inverted t i =>
      let t' := new / 2 ^ 20
      let i' := new % 2 ^ 20
      let s := s.poke128 pk.pkg (invAddr t' i') ({ e with state := st, sidx := 0 }.invBits (s.invNext pk.pkg t i))
      let s := s.unchain pk e (t, i) (some (t', i'))
      let s := s.poke128 pk.pkg (invAddr t i) ({ e with state := 0 }.invBits none)
      (s.setPool pk n false e.frame.toNat).shootPte pk l e

end Sys2Proof.Machine
end

