-- ==== Sys2Proof/Machine/Access.lean ====
section
/-!
DEFINITION. The checks of an access (10 R220 to R223, 07 R152, R156 to R161), the events it splits into, and reading and writing memory
as its events do (01 R33, R34, 21 R443, 23 R486).
-/
namespace Sys2Proof.Machine

/-- A failed check of R221: cause code, step, subcode; a pull fault names the page to pull (10 R223). -/
structure Fail where
  code : Nat
  step : Nat
  sub : Nat := 0
  pull : Option (BitVec 16 × Nat) := none
  /-- A device unit's read has met a check value that fails (01 R36). -/
  broken : Bool := false
  deriving DecidableEq, Repr

/-- One event of an access: where it stands physically, its length, the key and the page it goes through. -/
structure Part' where
  pa : Nat
  len : Nat
  key : Nat
  vp : PgUse := {}
  deriving DecidableEq, Repr

/-- Canonical form and the privileged half (07 R152). -/
def canonical (va : Word) (pm : Bool) : Bool :=
  let top := va.extractLsb' 56 8
  top = 0 || (top = 0xFF && pm)

/-- The translation that an entry gives for the page of an address. -/
def State.transOf (s : State) (pk : PartKey) (e : Pte) (va : Word) : Trans :=
  { size := pgOf e.size.toNat, vbase := va.toNat / e.len * e.len, asn := e.asn, frame := s.liveFrame pk e, key := e.key.toNat,
    rd := e.r, wr := e.w, fenced := e.state = 2 }

/-- Whether a handle's translation serves an access (10 R222). -/
def Trans.serves (t : Trans) (asn : BitVec 16) (va : Word) (len : Nat) (rd wr : Bool) : Bool :=
  t.asn = asn && decide (t.vbase ≤ va.toNat) && decide (va.toNat + len ≤ t.vbase + pgBytes t.size) && (!rd || t.rd)
    && (!wr || (t.wr && !t.fenced))

/-- Steps 3 and 4 of R221 on a walk result (19 R408, 23 R486): the translation, with the shadow that a write takes (19 R417). -/
def State.grade (s : State) (pk : PartKey) (va : Word) (asn : BitVec 16) (rd wr shadow : Bool) (e : Option Pte) :
    Except Fail Trans × State :=
  match e with
  | none => (.error { code := 0x10, step := 3 }, s)
  | some e =>
    if e.state = 6 then (.error { code := 0x10, step := 3, sub := 2 }, s)
    else if e.state = 4 then (.error { code := 0x10, step := 3, pull := some (asn, va.toNat / e.len * e.len) }, s)
    else if (rd && !e.r) || (wr && !e.w) then (.error { code := 0x11, step := 4 }, s)
    else if !(s.pkg pk.pkg).keyOk pk.part e.key.toNat then (.error { code := 0x11, step := 4, sub := 1 }, s)
    else if wr && shadow && e.state = 2 then
      match s.walk pk asn va.toNat with
      | none => (.error { code := 0x10, step := 3 }, s)
      | some (l, e') =>
        if e'.state = 2 then
          match s.takeShadow pk l e' with
          | none => (.error { code := 0x10, step := 3, sub := 1 }, s)
          | some s' => (.ok { s'.transOf pk { e' with state := 2 } va with
              frame := s'.poolFrame pk ((s.freePool pk).getD 0) * 65536, fenced := false }, s')
        else (.ok (s.transOf pk e' va), s)
    else (.ok (s.transOf pk e va), s)

/-- Who makes an access: its partition, core, address space and privilege. -/
structure Who where
  pk : PartKey
  core : Nat
  asn : BitVec 16
  pm : Bool
  deriving DecidableEq, Repr

/-- Steps 2 to 4 of R221 for one part; `h` is the translation of the handle that the address carries (10 R222). -/
def State.translate (s : State) (w : Who) (va : Word) (len : Nat) (rd wr shadow : Bool) (h : Option Trans) :
    Except Fail Trans × State :=
  if !canonical va w.pm then (.error { code := 0x12, step := 2 }, s)
  else
    match h with
    | some t =>
      if t.serves w.asn va len rd wr then
        (if (s.pkg w.pk.pkg).keyOk w.pk.part t.key then (.ok t, s) else (.error { code := 0x11, step := 4, sub := 1 }, s))
      else let r := s.lookup w.pk w.core w.asn va.toNat
           r.2.grade w.pk va w.asn rd wr shadow r.1
    | none => let r := s.lookup w.pk w.core w.asn va.toNat
              r.2.grade w.pk va w.asn rd wr shadow r.1

/-- Whether a slot holds the virtual-device administration right (21 R442). -/
def State.vadm (s : State) (pk : PartKey) : Bool := (s.part pk).vdcfg.getLsbD 42

/-- Whether a physical target is one that the access may have (07 R156 to R158, 23 R479): `whole` says that the access is one
event, `plain` that it is a load or a store. -/
def State.targetOk (s : State) (w : Who) (pa len : Nat) (wr whole plain : Bool) : Bool :=
  match (s.pkg w.pk.pkg).space pa with
  | .hbm _ _ | .lpddr => true
  | .remote num off =>
    decide (num ≠ (s.pkg w.pk.pkg).num.toNat) && (s.pkg w.pk.pkg).paired w.pk.part num && (s.pkg (s.pkgOfNum num)).hbmHere off
  | .regs off =>
    w.pm && s.vadm w.pk && whole && plain && (len = 4 || len = 8) && decide (off % len = 0) &&
      match regBlk off with
      | none => false
      | some b => !wr || b.writable false
  | .hole => false

/-- The spaces that the parts of one access may not mix (07 R160). -/
def Space.cls : Space → Nat
  | .hbm _ _ => 0 | .lpddr => 1 | .remote n _ => 16 + n | .regs _ => 2 | .hole => 3

/-- Cut a range at 64-byte boundaries (07 R160). -/
def cut64 (va : Word) (len : Nat) : List (Word × Nat) :=
  let room := 64 - va.toNat % 64
  if len ≤ room then [(va, len)] else [(va, room), (va + BitVec.ofNat 64 room, len - room)]

/-- The events of an access of `len` bytes with event width `ew`, in ascending address order (09 R209, R210). -/
def events (va : Word) (len ew : Nat) : List (Word × Nat) :=
  if ew < len then (List.range (len / ew)).flatMap fun i => cut64 (va + BitVec.ofNat 64 (i * ew)) ew else cut64 va len

/-- Check the parts of an access in ascending order (10 R221). -/
def State.checkParts (s : State) (w : Who) (rd wr whole plain : Bool) (h : Option Trans) :
    List (Word × Nat) → Except Fail (List Part') × State
  | [] => (.ok [], s)
  | (va, len) :: r =>
    match s.translate w va len rd wr true h with
    | (.error f, s) => (.error f, s)
    | (.ok t, s) =>
      let pa := t.frame + (va.toNat - t.vbase)
      if !s.targetOk w pa len wr whole plain then (.error { code := 0x12, step := 5 }, s)
      else
        match s.checkParts w rd wr whole plain h r with
        | (.error f, s) => (.error f, s)
        | (.ok l, s) => (.ok (⟨pa, len, t.key, t.use⟩ :: l), s)

/-- The handle that serves an access is one whose page covers the whole of it (10 R222). -/
def wholeHandle (h : Option Trans) (asn : BitVec 16) (va : Word) (len : Nat) (rd wr : Bool) : Option Trans :=
  match h with
  | none => none
  | some t => if t.serves asn va len rd wr then some t else none

/-- The checks of an access of `len` bytes (10 R221): its events, or the failed check. -/
def State.access (s : State) (w : Who) (va : Word) (len ew : Nat) (rd wr plain : Bool) (h : Option Trans) :
    Except Fail (List Part') × State :=
  let evs := events va len ew
  match s.checkParts w rd wr (decide (evs.length = 1)) plain (wholeHandle h w.asn va len rd wr) evs with
  | (.error f, s) => (.error f, s)
  | (.ok l, s) =>
    let cls := l.map fun p => ((s.pkg w.pk.pkg).space p.pa).cls
    if cls.all fun c => some c = cls.head? then (.ok l, s) else (.error { code := 0x12, step := 5 }, s)

/-- Whether the device of a slot has moved here and its source is not released (21 R446). -/
def Part.movedIn (p : Part) : Bool := p.st = .pulling || p.st = .settled || (p.st = .replaying && p.wasPull)

/-- Whether a page that moves holds a frame that has not arrived. -/
def Moving.lacks (m : Moving) (f : Nat) : Bool :=
  decide (m.src ≤ f) && decide (f < m.src + 2 ^ (psz m.size - 16)) && !m.held.contains f

/-- The frame at the target of a source frame whose page has arrived (21 R458). -/
def Part.arrived (p : Part) (f : Nat) : Option Nat :=
  match p.aliases.find? fun a => a.1 = f with
  | some a => if p.transit.any fun m => m.lacks f then none else some a.2
  | none => none

/-- The slot that a device on a package has moved to, as an access of a slot to a frame there finds it (21 R458): by the requester's repointed pairing,
else by the redirect of a source in transit. -/
def State.movedTo (s : State) (pk : PartKey) (num f : Nat) : Option PartKey :=
  match (s.pkg pk.pkg).redirs.get? (1024 * pk.part + num) with
  | some t => some ⟨s.pkgOfNum t.1, t.2⟩
  | none =>
    (s.parts.find? fun e =>
      e.2.movedIn && e.2.opkg.toNat = num && (e.2.arrived f).isSome).map Prod.fst

/-- The package and the address in its local memory that a physical address of a slot's package reaches (07 R154, 21 R456, R458). -/
def State.reach (s : State) (pk : PartKey) (pa : Nat) : Nat × Nat :=
  match (s.pkg pk.pkg).space pa with
  | .remote num off =>
    match s.movedTo pk num (off / 65536) with
    | some k =>
      match (s.part k).arrived (off / 65536) with
      | some f => (k.pkg, f * 65536 + off % 65536)
      | none => (s.pkgOfNum num, off)
    | none => (s.pkgOfNum num, off)
  | .hbm _ _ | .lpddr | .regs _ | .hole => (pk.pkg, pa)

/-- Whether a translation names a physical frame. -/
def Trans.names (t : Trans) (f : Nat) : Bool := decide (t.frame / 65536 ≤ f) && decide (f < t.frame / 65536 + 2 ^ (psz (pgNum t.size) - 16))

/-- A requester's hub follows a redirect (21 R458): its pairing points at the target, and its translations of the page are cleared. -/
def State.repoint (s : State) (k : PartKey) (num : Nat) (t : PartKey) (f : Nat) : State :=
  let p := s.pkg k.pkg
  let s := s.setPkg k.pkg { p with redirs := p.redirs.put (1024 * k.part + num) ((s.pkg t.pkg).num.toNat, t.part) }
  { s with
    ctxs := s.ctxs.map fun e =>
      if e.2.pk = k then
        (e.1, { e.2 with regs := { e.2.regs with
          th := e.2.regs.th.map fun h => h.clearIf fun u => u.names f } })
      else e
    walks := s.walks.filter fun w =>
      !(w.pkg = k.pkg && w.part = k.part && decide (w.e.frame.toNat ≤ f) && decide (f < w.e.frame.toNat + 2 ^ (psz w.e.size.toNat - 16))) }

/-- What an access of a slot to a physical address meets on its way (21 R458): where its page has arrived elsewhere, a redirect, which the requester's hub
follows. -/
def State.redirected (s : State) (k : PartKey) (pa : Nat) : State :=
  match (s.pkg k.pkg).space pa with
  | .remote num off =>
    if !(s.pkg k.pkg).paired k.part num || ((s.pkg k.pkg).redirs.get? (1024 * k.part + num)).isSome then s
    else
      match s.movedTo k num (off / 65536) with
      | some t => s.repoint k num t (pa / 65536)
      | none => s
  | .hbm _ _ | .lpddr | .regs _ | .hole => s

/-! ### Routes between dies -/

/-- Whether a field die is there. -/
def Pkg.dieHere (p : Pkg) (d : Nat) : Bool := (p.die d).present && !(p.die d).lost

/-- The field dies in the order of the ring (01 R17): boundary `i` joins the `i`-th to the next. -/
def ringDies : List Nat := [0, 1, 3, 2]

/-- Whether a die boundary carries traffic, or will (20 R425). -/
def State.boundary (s : State) (k n : Nat) : Bool := (s.link ⟨k, .die, n⟩).st ≠ .down

/-- The boundaries of the ring between two field dies (01 R18): those of the first choice. -/
def ringWay (a b : Nat) : List Nat :=
  match min a b, max a b with
  | 0, 1 => [0] | 1, 3 => [1] | 2, 3 => [2] | 0, 2 => [3] | 0, 3 => [0, 1] | 1, 2 => [0, 3]
  | _, _ => []

/-- The two ways round the ring between two field dies (01 R18). -/
def ringWays (a b : Nat) : List (List Nat) := if a = b then [[]] else [ringWay a b, (List.range 4).filter fun i => !(ringWay a b).contains i]

/-- The ways from a field die to another, or to the hub die, in the order of choice (01 R18): boundary 4 joins die 0 to the hub, boundary 5 die 3. -/
def diesWays (a : Nat) : Option Nat → List (List Nat)
  | some b => ringWays a b
  | none =>
    let by0 := (ringWays a 0).map (4 :: ·)
    let by3 := (ringWays a 3).map (5 :: ·)
    let l := if a = 3 then by3.take 1 ++ by0.take 1 else by0.take 1 ++ by3.take 1
    l ++ by0.drop 1 ++ by3.drop 1

/-- Whether a boundary is there and not down (20 R425): its dies are there. -/
def State.boundaryHere (s : State) (k n : Nat) : Bool :=
  s.boundary k n
    && (if n = 4 then (s.pkg k).dieHere 0 else if n = 5 then (s.pkg k).dieHere 3
        else (s.pkg k).dieHere ((ringDies[n]?).getD 0) && (s.pkg k).dieHere ((ringDies[(n + 1) % 4]?).getD 0))

/-- The route from a field die to another, or to the hub die (01 R18): none while every way has a boundary that is down. -/
def State.route (s : State) (k a : Nat) (b : Option Nat) : Option (List Nat) := (diesWays a b).find? fun l => l.all (s.boundaryHere k)

/-- Whether traffic passes from a field die to another, or to the hub die, now (20 R426, R427): it waits while it has no route, and while a boundary of its
route trains. A bare field die has one die. -/
def State.passes (s : State) (k a : Nat) (b : Option Nat) : Bool :=
  (s.pkg k).bare
    || match s.route k a b with
      | some l => l.all fun n => (s.link ⟨k, .die, n⟩).st = .up
      | none => false

/-- Whether a die reaches the home of a physical address of its package now (01 R18): memory of a die, or by the hub die LPDDR, device registers and
another package, there from its hub die. -/
def State.homeUp (s : State) (pk : PartKey) (die pa : Nat) : Bool :=
  match (s.pkg pk.pkg).space pa with
  | .hbm d _ => s.passes pk.pkg die (some d)
  | .lpddr | .regs _ => s.passes pk.pkg die none
  | .remote _ _ => s.passes pk.pkg die none && (let r := s.reach pk pa; decide (2 ^ 39 ≤ r.2) || s.passes r.1 (r.2 / 2 ^ 37) none)
  | .hole => true

/-- Whether a context's core reaches the window of a queue now (01 R18, 07 R163). -/
def State.queueUp (s : State) (x : Ctx) (k : PKey) : Bool := s.passes x.pk.pkg (s.dieN x) (some (s.queue k).win.die)

/-- The page in transit that holds a frame of its target (21 R456). -/
def Part.movingAt (p : Part) (pa : Nat) : Option Moving :=
  p.transit.find? fun m => decide (m.dst ≤ pa / 65536) && decide (pa / 65536 < m.dst + 2 ^ (psz m.size - 16))

/-- Whether the check value of the granule of an event fails under its key (01 R34, 23 R486). -/
def State.evFails (s : State) (pk : PartKey) (pa key : Nat) : Bool :=
  let r := s.reach pk pa
  s.checkFails r.1 r.2 (some ((s.pkg pk.pkg).key key))

/-- Whether an event reads memory whose check value fails (01 R36); device registers carry none. -/
def State.memFails (s : State) (pk : PartKey) (p : Part') : Bool :=
  match (s.pkg pk.pkg).space p.pa with | .regs _ => false | .hbm _ _ | .lpddr | .remote _ _ | .hole => s.evFails pk p.pa p.key

/-- The bytes that a load's event reads from memory or from a device register (10 R228, 07 R158). -/
def State.readEv (s : State) (pk : PartKey) (p : Part') : List Byte :=
  match (s.pkg pk.pkg).space p.pa with
  | .regs off => s.regLoad pk.pkg off p.len
  | .hbm _ _ | .lpddr | .remote _ _ | .hole => let r := s.reach pk p.pa; s.peeks r.1 r.2 p.len

/-- A write by a device unit on behalf of a partition, at a physical address of its package (01 R33, 21 R443). -/
def State.unitWrite (s : State) (pk : PartKey) (pa : Nat) (l : List Byte) : State :=
  let r := s.reach pk pa
  (s.poke r.1 r.2 l).twin pk pa l

/-- A store into the live cask of a queue makes its check values fail (14 R323). -/
def State.hitCasks (s : State) (k pa len : Nat) : State :=
  { s with
    queues := s.queues.map fun e =>
      if e.1.pk.pkg = k && e.2.cask ≠ [] && overlaps (e.2.caskBase * 65536) (e.2.caskLen * 65536) pa len then
        (e.1, { e.2 with caskBad := true })
      else e }

/-- Perform one event of a store (10 R230, 01 R34): none where the old check value fails. -/
def State.writeEv (s : State) (pk : PartKey) (pa key : Nat) (l : List Byte) : Option State :=
  match (s.pkg pk.pkg).space pa with
  | .regs off => some (s.regStore pk.pkg off l)
  | .hbm _ _ | .lpddr | .remote _ _ | .hole =>
    if s.evFails pk pa key then none
    else
      let r := s.reach pk pa
      some (((s.pokeKey r.1 r.2 l ((s.pkg pk.pkg).key key)).twin pk pa l).hitCasks r.1 r.2 l.length)

/-- The fault record of a failed check, at an access's effective address (13 R301). -/
def Fail.rec' (f : Fail) (va : Word) : FaultRec :=
  { code := f.code, faddr := va, step := BitVec.ofNat 3 f.step, sub := BitVec.ofNat 8 f.sub }

end Sys2Proof.Machine
end

