-- ==== Sys2Proof/Machine/Sync.lean ====
section
/-!
DEFINITION. Barriers and signals at their homes (18 R387 to R401): tokens and homes, arrivals, drops, phases, poisoning, and the
resolution of waits.
-/
namespace Sys2Proof.Machine

/-- The peer partition of a slot on a package (18 R388, 21 R458); none where no valid pairing names one. A device
that has moved is met where it is. -/
def State.peerPart (s : State) (pk : PartKey) (num : Nat) : Option PartKey :=
  if !(s.pkg pk.pkg).paired pk.part num then none
  else
    match (s.pkg pk.pkg).redirs.get? (1024 * pk.part + num) with
    | some t => some ⟨s.pkgOfNum t.1, t.2⟩
    | none =>
      let k : PartKey := ⟨s.pkgOfNum num, ((s.pkg pk.pkg).pairing pk.part num).toNat % 32⟩
      let p := s.part k
      some (if p.st = .inTransit then ⟨s.pkgOfNum p.opkg.toNat, p.opart.toNat⟩ else k)

/-- The partition whose table a barrier or signal token names (18 R388); none where its package has no peer partition. -/
def State.tokenPart (s : State) (pk : PartKey) (t : Word) : Option PartKey :=
  let num := fld t 48 10
  if !t.getLsbD 63 || num = (s.pkg pk.pkg).num.toNat then some pk else s.peerPart pk num

/-- Whether a token names another package (18 R388). -/
def State.tokenFar (s : State) (pk : PartKey) (t : Word) : Bool := t.getLsbD 63 && fld t 48 10 != (s.pkg pk.pkg).num.toNat

/-- The round of a barrier token (18 R388). -/
def tokRound (t : Word) : BitVec 16 := t.extractLsb' 32 16

/-- The barrier of a token at its home. -/
def State.barKey (s : State) (pk : PartKey) (t : Word) : Option PKey := (s.tokenPart pk t).map fun k => objKey k (fld t 0 10)
/-- The signal of a token at its home. -/
def State.sigKey (s : State) (pk : PartKey) (t : Word) : Option PKey := (s.tokenPart pk t).map fun k => objKey k (fld t 0 12)

/-- `a` is the same round as `b` or before it (14 R316). -/
def rndLe (a b : BitVec 16) : Bool := decide ((b - a).toNat ≤ 32767)
/-- Two rounds are unordered (14 R316). -/
def rndApart (a b : BitVec 16) : Bool := b - a = 32768

/-- How a wait on round `r` of a barrier stands: released, poisoned, or still waiting (18 R398). -/
def Bar.waitFor (b : Bar) (r : BitVec 16) : Option Bool :=
  let c := if b.st = .complete then b.phase else b.phase - 1
  if b.st = .free then some false
  else if b.st = .poisoned && rndLe b.phase r then some false
  else if rndLe r c then some true
  else if rndApart r c then some false
  else none

/-- Whether a signal satisfies a threshold (18 R400). -/
def sigMet (v thr : Word) : Bool := decide ((v - thr).toNat < 2 ^ 63)

/-- Resolve a lane's wait by what its barrier or signal has come to. -/
def Lane.resolve (l : Lane) (f : WaitKind → Option Bool) : Lane :=
  match l.wait with
  | none => l
  | some w => if w.met = none then { l with wait := some { w with met := f w.kind } } else l

/-- Resolve a suspended wait. -/
def resolveSusp (f : WaitKind → Option Bool) : Option Wait → Option Wait
  | none => none
  | some w => if w.met = none then some { w with met := f w.kind } else some w

/-- Resolve every wait of every context (18 R399). -/
def State.resolve (s : State) (f : Ctx → WaitKind → Option Bool) : State :=
  { s with
    ctxs := s.ctxs.map fun e =>
      (e.1, { e.2 with
        susp := resolveSusp (f e.2) e.2.susp
        thr := e.2.thr.resolve (f e.2), str := e.2.str.resolve (f e.2)
        acts := e.2.acts.map fun a => (a.1, { a.2 with lane := a.2.lane.resolve (f e.2) }) }) }

/-- Act at once on every waiter of a barrier (18 R399), by how the barrier now stands. -/
def State.resolveBar (s : State) (k : PKey) (b : Bar) : State :=
  s.resolve fun x w =>
    match w with
    | .bar tok _ => if s.barKey x.pk tok = some k then b.waitFor (tokRound tok) else none
    | .sig _ _ | .yield | .idle => none

/-- Act on every waiter of a barrier that a drop frees (18 R391): up to its phase released, later rounds poisoned. -/
def State.resolveFreed (s : State) (k : PKey) (p : BitVec 16) : State :=
  s.resolve fun x w =>
    match w with
    | .bar tok _ => if s.barKey x.pk tok = some k then some (rndLe (tokRound tok) p) else none
    | .sig _ _ | .yield | .idle => none

/-- Poison a barrier's phase (18 R391, R397). -/
def State.poison (s : State) (k : PKey) : State :=
  let b := s.bar k
  if b.st = .idle || b.st = .armed || b.st = .complete then
    let b := { b with st := .poisoned }
    (s.setBar k b).resolveBar k b
  else s

/-- An arrival of `n` for round `r` (18 R391). -/
def State.arrive (s : State) (k : PKey) (r : BitVec 16) (n : Nat) : State :=
  let b := s.bar k
  match b.st with
  | .free | .poisoned => s
  | .idle | .armed =>
    if r = b.phase then
      if b.arr + n < b.exp then s.setBar k { b with st := .armed, arr := b.arr + n }
      else if b.arr + n = b.exp then
        let b := { b with st := .complete, arr := b.arr + n }
        (s.setBar k b).resolveBar k b
      else s.poison k
    else if r = b.phase + 1 && b.ahead + n ≤ b.exp then s.setBar k { b with ahead := b.ahead + n }
    else s.poison k
  | .complete =>
    if r = b.phase + 1 && b.ahead + n ≤ b.exp then s.setBar k { b with ahead := b.ahead + n } else s.poison k

/-- A drop of `n` for round `r` (18 R391). -/
def State.drop (s : State) (k : PKey) (r : BitVec 16) (n : Nat) : State :=
  let b := s.bar k
  match b.st with
  | .free | .poisoned => s
  | .idle | .armed =>
    if r ≠ b.phase then s.poison k
    else if n < b.exp then
      let b := { b with exp := b.exp - n, st := if b.exp - n ≤ b.arr then .complete else b.st }
      (s.setBar k b).resolveBar k b
    else (s.setBar k {}).resolveFreed k b.phase
  | .complete =>
    if r ≠ b.phase then s.poison k
    else if n < b.exp then s.setBar k { b with exp := b.exp - n }
    else (s.setBar k {}).resolveFreed k b.phase

/-- The end of a completing cycle (18 R391): the phase advances and carries the ahead arrivals; it may complete again. -/
def State.advance (s : State) (k : PKey) : State :=
  let b := s.bar k
  if b.st = .complete then
    let st := if b.ahead = 0 then BState.idle else if b.ahead = b.exp then .complete else .armed
    let b := { b with st := st, phase := b.phase + 1, arr := b.ahead, ahead := 0 }
    (s.setBar k b).resolveBar k b
  else s

/-- An event at a barrier and the end of its cycle: a phase that completes again advances once more. -/
def State.settle (s : State) (k : PKey) : State := (s.advance k).advance k

/-- An arrival alone in its cycle. -/
def State.arriveNow (s : State) (k : PKey) (r : BitVec 16) (n : Nat) : State := (s.arrive k r n).settle k

/-- The unit of a level that holds a context (18 R389). -/
def State.unitAt (s : State) (x : Ctx) (c : Nat) : Scope → Nat
  | .ln => c
  | .co => x.core
  | .qd => quadOf x.core
  | .di => s.dieN x
  | .pk | .pd => 0

/-- The expected count of a `bar.init` (18 R394): the member count of a bound group. -/
def State.initCount (s : State) (pk : PartKey) (r : Word) : Nat :=
  if r.getLsbD 63 then
    match s.groups.get? (objKey pk (fld r 48 8)) with
    | some g => g.members.length
    | none => 0
  else fld r 0 16

/-- `bar.init` (18 R391, R394): whether it is performed or refused. -/
def State.barInit (s : State) (pk : PartKey) (k : PKey) (sc : Scope) (unit : Nat) (tok r : Word) : Bool × State :=
  let b := s.bar k
  if b.st = .armed then (false, s)
  else
    let e := s.initCount pk r
    let nb : Bar :=
      if e = 0 then {}
      else
        { st := .idle, phase := tokRound tok, exp := e, level := sc, unit := unit,
          group := if r.getLsbD 63 then some (objKey pk (fld r 48 8)) else none }
    (true, (s.setBar k nb).resolveBar k nb)

/-- Add to a signal at its home (18 R400). -/
def State.sigAdd (s : State) (k : PKey) (v : Word) : State :=
  let n := s.sig k + v
  (s.setSig k n).resolve fun x w =>
    match w with
    | .sig tok thr => if s.sigKey x.pk tok = some k && sigMet n thr then some true else none
    | .bar _ _ | .yield | .idle => none

/-- A write of `cr.sgval` at the home (18 R401). -/
def State.sigPut (s : State) (k : PKey) (v : Word) : State := s.sigAdd k (v - s.sig k)

/-- What a bound operation that ends does at a bind (18 R396, R397): an arrival, or where it failed the poisoning of the phase. It follows the performance
of the bind (R393). -/
def State.bindEnds (s : State) (ok : Bool) (b : BindRec) : State :=
  match b.entry with
  | some (c, n) =>
    if (match s.ctxs.get? c with | some x => x.path.any fun e => e.stamp = n | none => false) then
      s.updCtx c fun x => { x with path := x.path.map fun e => if e.stamp = n then { e with eff := .bound b.bar b.round ok } else e }
    else if ok then s.arriveNow b.bar b.round 1
    else s.poison b.bar
  | none => if ok then s.arriveNow b.bar b.round 1 else s.poison b.bar

/-- A bound operation completes (18 R396). -/
def State.bindsArrive (s : State) (l : List BindRec) : State := l.foldl (State.bindEnds · true ·) s

/-- A bound operation fails (18 R397). -/
def State.bindsFail (s : State) (l : List BindRec) : State := l.foldl (State.bindEnds · false ·) s

/-- Barriers bound to a group that has left every state become free (18 R391). -/
def State.freeGroupBars (s : State) (k : PKey) : State :=
  (s.bars.filter fun e => e.2.group = some k).foldl (fun s e => (s.setBar e.1 {}).resolveBar e.1 {}) s

/-- The barriers of a partition become free at its reset (18 R387, R391): every waiter takes its poison successor. -/
def State.freeBars (s : State) (pk : PartKey) : State :=
  let s := (s.bars.filter fun e => e.1.pk = pk).foldl (fun s e => (s.setBar e.1 {}).resolveBar e.1 {}) s
  { s with bars := s.bars.filter fun e => e.1.pk ≠ pk }

end Sys2Proof.Machine
end

