-- ==== Sys2Proof/Machine/Life.lean ====
section
/-!
DEFINITION. How contexts, kernels and partitions end: engine queues emptied, contexts ended, kernels faulted (16 R366), shadow frames discarded
(19 R418, R419), a partition failed (01 R31) or reset for replay (21 R448, R450).
-/
namespace Sys2Proof.Machine

/-- Remove the pins of a matrix operation (07 R166). -/
def State.unpin (s : State) (m : MxOp) : State :=
  (m.pins.map Prod.fst).eraseDups.foldl (fun s k => let q := s.queue k; s.setQueue k { q with win := { q.win with pins := q.win.pins - 1 } }) s

/-- Give up the producer and consumer roles that an engine queue's operation holds (15 R345). -/
def State.dropRoles (s : State) (c q : Nat) : State :=
  { s with
    queues := s.queues.map fun e =>
      (e.1, { e.2 with
        strmProd := if e.2.strmProd = some (c, q) then none else e.2.strmProd
        strmCons := if e.2.strmCons = some (c, q) then none else e.2.strmCons }) }

/-- The binds of a context's operations, and those that await one (18 R397). -/
def Ctx.allBinds (x : Ctx) : List BindRec :=
  (x.eng.eqs.toList.flatMap fun l => l.flatMap StrmOp.binds) ++ x.fx.q14.flatMap MxOp.binds ++ x.eng.binds.map Prod.snd

/-- Empty a context's engine queues without performing their commands: bound operations fail (13 R299, 18 R397). -/
def State.emptyEngines (s : State) (c : Nat) : State :=
  match s.ctxs.get? c with
  | none => s
  | some x =>
    let s := s.bindsFail x.allBinds
    let s := x.fx.q14.foldl State.unpin s
    let s := (List.range 16).foldl (fun s q => s.dropRoles c q) s
    s.updCtx c fun x =>
      { x with eng := { x.eng with eqs := Vector.replicate 16 [], binds := [] }, fx := { x.fx with q14 := [] } }

/-- Whether a saved group is eligible for a restore (17 R378). -/
def State.eligible (s : State) (k : PKey) (g : Group) : Bool :=
  g.st = .saved && !g.hold && (s.part k.pk).st.runs
    && match g.preFor with
      | some kk => (match s.kerns.get? kk with | some n => n.st ≠ .placing && n.st ≠ .running | none => true)
      | none => true

/-- The group scheduler considers restores (17 R378): a pair position of the partition has fallen free, a kernel of it has ended, a hold is released, or its
slot resumes (21 R446, R455). -/
def State.consider (s : State) (pk : PartKey) : State :=
  let l := (s.groups.filter fun e => e.1.pk = pk && s.eligible e.1 e.2).map fun e => e.1.n
  if (s.part pk).look = l then s else s.setPart pk { s.part pk with look := l }

/-- End a context (13 R290): its blocks are discarded, its engine queues emptied, its lease ended, its position freed. Committed stores are
still performed (10 R230). -/
def State.endCtx (s : State) (c : Nat) : State :=
  match s.ctxs.get? c with
  | none => s
  | some x =>
    if x.st = .ended then s
    else
      (((s.discard fun b => b.ctx = c).emptyEngines c).updCtx c fun x =>
        { x with
          st := if x.st = .faulted then .faulted else .ended
          pos := none
          lease := { x.lease with st := .none }
          ports := {}
          acts := []
          thr := { x.thr with wait := none, img := none }
          str := { x.str with wait := none, img := none } }).consider x.pk

/-- The contexts of a kernel. -/
def State.kernCtxs (s : State) (k : KernKey) : List Nat := (s.ctxs.filter fun e => e.2.kern = k).map Prod.fst

/-- The address-space number of a kernel's descriptor (16 R364). -/
def Kern.asn (k : Kern) : BitVec 16 := k.desc[0].extractLsb' 32 16

/-- Whether a kernel runs (16 R366). -/
def Kern.runs (k : Kern) : Bool := k.st = .running || k.st = .completing

/-- Whether another running kernel of the partition declares a page a fenced output, or covers it with its execute code (19 R418, R419). -/
def State.otherKern (s : State) (k : KernKey) (asn : BitVec 16) (f : Kern → List Nat) (va len : Nat) : Bool :=
  s.kerns.any fun e => e.1.pk = k.pk && e.1 ≠ k && e.2.runs && e.2.asn = asn && (f e.2).any fun p => overlaps p 65536 va len

/-- The state of a fenced page once a kernel has ended: fenced while another running kernel declares it (19 R403, R418). -/
def State.afterFence (s : State) (k : KernKey) (asn : BitVec 16) (va : Nat) : BitVec 3 :=
  if s.otherKern k asn Kern.fenced va 65536 then 2 else 1

/-- A change of a fenced or shadowed page (19 R418). One in transit stays in transit, and arrives in the state that the change gives it: what a change of
frames leaves of it at the target is there already. -/
def State.changeFenced (s : State) (pk : PartKey) (va : Nat) (l : PteLoc) (e : Pte) (f : State → Pte → State) : State :=
  if e.state = 2 || e.state = 3 then f s e
  else
    match (s.part pk).transit.find? fun m => e.state = 4 && (m.st = 2 || m.st = 3) && m.asn = e.asn && decide (m.va = e.vbase) && decide (m.dst = e.frame.toNat) with
    | none => s
    | some m =>
      let t := f (s.setPte pk.pkg l { e with state := m.st }) { e with state := m.st }
      match t.walk pk e.asn va with
      | none => t
      | some (l', e') =>
        let dst := e'.frame.toNat
        let m' := { m with st := e'.state, dst := dst, held := if dst = m.dst then m.held else [m.src] }
        let p := t.part pk
        (t.setPte pk.pkg l' { e' with state := 4 }).setPart pk { p with transit := p.transit.map fun n => if n = m then m' else n }

/-- Discard the shadows of a kernel's fenced pages (16 R366, 19 R403, R418). -/
def State.dropShadows (s : State) (k : KernKey) (kn : Kern) : State :=
  kn.fenced.foldl
    (fun s va =>
      match s.walk k.pk kn.asn va with
      | some (l, e) => s.changeFenced k.pk va l e fun t u => t.dropShadow k.pk l u (s.afterFence k kn.asn va)
      | none => s) s

/-- Promote the shadows of a kernel's fenced pages (16 R372, 19 R418). -/
def State.promoteAll (s : State) (k : KernKey) (kn : Kern) : State :=
  kn.fenced.foldl
    (fun s va =>
      match s.walk k.pk kn.asn va with
      | some (l, e) => s.changeFenced k.pk va l e fun t u => t.promote k.pk l u (s.afterFence k kn.asn va)
      | none => s) s

/-- Unpin the pages of a kernel's execute code that no other running kernel covers (19 R419). -/
def State.unpinCode (s : State) (k : KernKey) (kn : Kern) : State :=
  kn.pinned.foldl
    (fun s va =>
      match s.walk k.pk kn.asn va with
      | some (l, e) =>
        if e.state = 5 && !s.otherKern k kn.asn Kern.pinned (va / e.len * e.len) e.len then s.setPte k.pk.pkg l { e with state := 1 } else s
      | none => s) s

/-- The groups of a kernel leave every state, and their barriers become free (17 R377, 18 R391). -/
def State.dropGroups (s : State) (k : KernKey) : State :=
  let gs := (s.groups.filter fun e => e.2.kern = k).map Prod.fst
  let s := gs.foldl State.freeGroupBars s
  let s := { s with groups := s.groups.filter fun e => e.2.kern ≠ k }
  { s with groups := s.groups.map fun e => (e.1, if e.2.preFor = some k then { e.2 with preFor := none } else e.2) }

/-- End every context and every group of a kernel. -/
def State.endKern (s : State) (k : KernKey) : State := (((s.kernCtxs k).foldl State.endCtx s).dropGroups k).consider k.pk

/-- Request a fence of a partition (16 R372). -/
def State.reqFence (s : State) (pk : PartKey) : State := s.setPart pk { s.part pk with fenceReq := true }

/-- A kernel enters faulted (16 R366). -/
def State.kernFault (s : State) (k : KernKey) (status : Nat) (tcode : BitVec 9) : State :=
  match s.kerns.get? k with
  | none => s
  | some kn =>
    if kn.st = .complete || kn.st = .faulted then s
    else
      let s := s.updKern k fun kn => { kn with st := .faulted, status := status, tcode := tcode }
      (((s.endKern k).dropShadows k kn).unpinCode k kn).reqFence k.pk

/-- Raise a report to the host (23 R487, 22 R472). -/
def State.report (s : State) (k : Nat) (r : Report) : State :=
  s.setPkg k { s.pkg k with reports := (s.pkg k).reports ++ [r] }

/-- Everything a partition runs is gone: contexts, blocks, store paths, engine work, barriers, signals, groups, queues (21 R450 step 2, 14 R317,
18 R387). The far end of a chain keeps its expected number (20 R430). -/
def State.wipePart (s : State) (pk : PartKey) : State :=
  let cs := (s.ctxs.filter fun e => e.2.pk = pk).map Prod.fst
  let s := s.discard fun b => cs.contains b.ctx
  let s := (cs.filterMap s.ctxs.get?).foldl (fun s x => s.bindsFail x.allBinds) s
  let s := ((s.groups.filter fun e => e.1.pk = pk).map Prod.fst).foldl State.freeGroupBars s
  let s := s.freeBars pk
  { s with
    ctxs := s.ctxs.map fun e =>
      if e.2.pk = pk then
        (e.1, { pk := pk, kern := e.2.kern, index := e.2.index, st := .ended, pos := none })
      else e
    sigs := s.sigs.filter fun e => e.1.pk ≠ pk
    groups := s.groups.filter fun e => e.1.pk ≠ pk
    queues := s.queues.filterMap fun e =>
      if e.1.pk ≠ pk then some e
      else match e.2.chain with | some c => some (e.1, { chain := some c }) | none => none
    amos := s.amos.filter fun a => !a.srcs.any fun z => cs.contains z.ctx
    shoots := s.shoots.filter fun h => h.pk ≠ pk || h.key ≠ none }

/-- A partition enters failed (01 R31): nothing of it commits, and the host is told. -/
def State.failPart (s : State) (pk : PartKey) : State :=
  if (s.part pk).st = .vacant || (s.part pk).st = .failed then s
  else
    let s := s.wipePart pk
    (s.setPart pk { s.part pk with st := .failed }).report pk.pkg (.failed pk.part)

/-- The address of a fence record slot (16 R371). -/
def Part.slotAddr (p : Part) (i : Nat) : Nat := fld p.kfrec 16 36 * 65536 + i * (fld p.kfrec 52 12 * 65536)

/-- Whether the newest complete fence record can be read, from its primary copy or from its twin (21 R450 step 3). -/
def State.recReadable (s : State) (pk : PartKey) : Bool :=
  let p := s.part pk
  match p.recd with
  | none => false
  | some r =>
    let pa := p.slotAddr (r.seq.toNat % 2)
    let primary := (s.pkg pk.pkg).hbmHere pa && !s.checkFails pk.pkg pa none
    let cls := fld p.vdcfg 62 2
    let ta := (BitVec.ofNat 52 pa ^^^ (BitVec.ofNat 52 (fld p.vdcfg 60 2) <<< 37)).toNat
    let twin :=
      (cls = 1 && (s.pkg pk.pkg).hbmHere ta && !s.checkFails pk.pkg ta none) ||
        (cls = 2 && !(s.pkg (s.pkgOfNum (fld p.vdcfg 48 10))).lost && !s.checkFails (s.pkgOfNum (fld p.vdcfg 48 10)) pa none)
    p.recAt = pa && (primary || twin)

/-- The outcome of a thread's `vd` command in `cr.vdres` (21 R461). -/
def State.vdresPut (s : State) (c st : Nat) : State :=
  s.updCtx c fun x => { x with sels := { x.sels with vdres := withSt x.sels.vdres (x.outcome 3 st) } }

/-- The `vd` command that a slot performs ends (21 R464). -/
def State.vdEnd (s : State) (pk : PartKey) (st : Nat) : State :=
  match (s.part pk).vdBy with
  | none => s
  | some c => (s.setPart pk { s.part pk with vdBy := none }).vdresPut c st

/-- The `vd` command of a slot that a reset meets reports wrong state (21 R446). -/
def State.dropVd (s : State) (pk : PartKey) : State := s.vdEnd pk 5

/-- The kernels that have not reached their end state replay (16 R366). -/
def State.kernsReplay (s : State) (pk : PartKey) : State :=
  { s with
    kerns := s.kerns.map fun e =>
      if e.1.pk = pk && e.2.st ≠ .complete && e.2.st ≠ .faulted then (e.1, { e.2 with st := .replaying }) else e }

/-- A partition reset (21 R448, R450 steps 1 to 3): everything that runs ends, and the slot replays, or fails where no complete fence
record can be read. Causes that arise before replay completes give one replay. `cr.kfrec` (with a value that waits for it) and `cr.rxcfg` keep their values:
replay reads the record slots that `cr.kfrec` names, and receive contexts go on dropping and counting frames (log 133). -/
def State.partReset (s : State) (pk : PartKey) : State :=
  let p := s.part pk
  match p.st with
  | .vacant | .failed | .replaying | .inTransit => s
  | .resident | .quiescing | .quiesced | .pulling | .settled =>
    let s := ((s.wipePart pk).dropVd pk).kernsReplay pk
    if s.recReadable pk then
      s.setPart pk { s.part pk with st := .replaying, wasPull := p.movedIn, fenceReq := false, fencing := false, ending := [], look := [] }
    else s.failPart pk

/-- A detected error of a partition (01 R36): the controller counts it, and the partition resets. -/
def State.detected (s : State) (pk : PartKey) : State :=
  let p := s.part pk
  (s.setPart pk { p with errs := p.errs + 1 }).partReset pk

end Sys2Proof.Machine
end

