-- ==== Sys2Proof/Machine/Ops.lean ====
section
/-!
DEFINITION. Taking an exception and returning from one (13 R295 to R310): trap entry on the access thread, the stop of a stream, events, and `rfe`; and
registers by their numbers (04 R100).
-/
namespace Sys2Proof.Machine

/-- Raise an event on a context (13 R297). -/
def State.raise (s : State) (c bit : Nat) : State :=
  s.updCtx c fun x => { x with ctl := { x.ctl with evpend := x.ctl.evpend ||| (1#8 <<< bit) } }

/-- The resume address as a record holds it (13 R301). -/
def align16 (a : Word) : Word := a &&& ~~~ 15#64

/-- The access record of a cause (13 R301). -/
def Recs.take (r : Recs) (f : FaultRec) (epc : Word) : Recs :=
  { r with code := BitVec.ofNat 8 f.code, dcode := 0, epc := align16 epc, faddr := f.faddr, finfo := f.finfo }

/-- A double fault (13 R299): the context enters faulted, its engine queues are emptied, and its kernel is faulted by its own program. -/
def State.doubleFault (s : State) (c : Nat) (f : FaultRec) (epc : Word) : State :=
  match s.ctxs.get? c with
  | none => s
  | some x =>
    let s := s.updCtx c fun x =>
      { x with
        st := .faulted
        recs := { x.recs.take f epc with code := 0x3F, dcode := BitVec.ofNat 8 f.code } }
    ((s.discardCtx c).emptyEngines c).kernFault x.kern 2 f.tcode

/-- Trap entry on a context's access thread (13 R295): privilege and handler mode, the record, the discard of the thread's blocks, and the
handler's first block; with hm 1, a double fault. -/
def State.trapEntry (s : State) (c : Nat) (f : FaultRec) (epc : Word) : State :=
  match s.ctxs.get? c with
  | none => s
  | some x =>
    if x.ctl.hm then s.doubleFault c f epc
    else
      (s.discardLane c .thread).updCtx c fun x =>
        { x with
          st := if x.st = .running then .handling else x.st
          ctl := { x.ctl with spm := x.ctl.pm, pm := true, hm := true }
          recs := x.recs.take f epc
          thr := { x.thr with next := align16 x.ctl.tvec, succ := false } }

/-- `cr.wst` without its valid bit, for a suspended wait (18 R401, R402). -/
def wstOf (old : Word) (w : Wait) : Word :=
  let res := old &&& (3#64 <<< 58)
  match w.kind with
  | .bar tok _ => res ||| at' (fld tok 0 10) 0
  | .sig tok _ => res ||| bitAt true 62 ||| at' (fld tok 0 12) 0
  | .yield | .idle => res

/-- Suspend the thread's wait on a barrier or a signal (18 R402); a wait in `yield` or `idle` ends. -/
def Ctx.suspend (x : Ctx) : Ctx :=
  match x.thr.wait with
  | none => x
  | some w =>
    let t := { x.thr with wait := none, next := w.next }
    match w.kind with
    | .bar _ _ | .sig _ _ => { x with susp := some w, sels := { x.sels with wst := wstOf x.sels.wst w }, thr := t }
    | .yield | .idle => { x with thr := t }

/-- The address of the thread's next block (13 R301): the oldest block in flight or, with none, the block to fetch; a wait's successor. -/
def State.nextAddr (s : State) (c : Nat) (u : Fetcher) (x : Ctx) : Word :=
  match (x.lane u).wait with
  | some w => w.next
  | none =>
    match s.oldest c u with
    | some e => e.2.addr
    | none => (x.lane u).next

/-- Deliver the pending events of a context as one trap entry (13 R297). -/
def State.deliverEvents (s : State) (c : Nat) : State :=
  match s.ctxs.get? c with
  | none => s
  | some x =>
    let epc := s.nextAddr c .thread x
    let f : FaultRec := { code := 0x28, evset := x.ctl.evpend }
    (s.updCtx c fun x => { x.suspend with ctl := { x.ctl with evpend := 0 } }).trapEntry c f epc

/-- Stop a stream with a fault of it or of an activation (13 R296). -/
def State.streamStop (s : State) (c : Nat) (u : Fetcher) (f : FaultRec) (epc : Word) : State :=
  match s.ctxs.get? c with
  | none => s
  | some x =>
    let act : Option Activation := match u with | .act n => Tab.get? x.acts n | .thread | .stream => none
    let num : Option Nat := match u with | .act n => some n | .thread | .stream => none
    ((s.discardLane c u).updCtx c fun x =>
      { x with
        recs := { x.recs with
          xvalid := true, xhact := act.isSome, xtag := match act with | some a => a.tag | none => 0
          xact := num, xcode := BitVec.ofNat 8 f.code, xepc := align16 epc, xinfo := f.finfo } }).raise c 4

/-- Resume a stopped stream at `cr.xepc` (13 R296). -/
def State.streamResume (s : State) (c : Nat) : State :=
  s.updCtx c fun x =>
    if x.recs.xvalid then
      let u : Fetcher := match x.recs.xact with | some n => .act n | none => .stream
      { x with recs := { x.recs with xvalid := false } }.setLane u { (x.lane u).refetch with next := x.recs.xepc, succ := false, fresh := true }
    else x

/-- The return from a handler (13 R310, 18 R402). -/
def State.returnFrom (s : State) (c : Nat) : State :=
  (s.discardLane c .thread).updCtx c fun x =>
    let next := align16 x.recs.epc
    { x with
      st := if x.st = .handling then .running else x.st
      ctl := { x.ctl with pm := x.ctl.spm, hm := false }
      susp := none
      thr := { x.thr with
        next := next, succ := false
        wait := match x.susp with | some w => some { w with next := next } | none => none } }

/-- `cr.wst` (18 R401). -/
def Ctx.wst (x : Ctx) : Word := x.sels.wst ||| bitAt x.susp.isSome 63

/-- Take the exception of a fault in a block or in a fetch: on the access thread or on the stream (13 R295, R296). -/
def State.takeFault (s : State) (c : Nat) (u : Fetcher) (f : FaultRec) (epc : Word) : State :=
  match u with
  | .thread => s.trapEntry c f epc
  | .stream | .act _ => s.streamStop c u f epc

/-- Read a general register (09 R196): `g0` is 0 with no handle. -/
def Regs.readG (r : Regs) (n : Nat) : Tok :=
  if n = 0 then Tok.ofWord 0 else .ctl ((r.g[n]?).getD 0) ((r.gh[n]?).getD none) 8

/-- Write a general register with its handle (09 R197): a write to `g0` changes nothing. -/
def Regs.writeG (r : Regs) (n : Nat) (v : Word) (h : Option (BitVec 4)) : Regs :=
  if n = 0 then r
  else
    { r with
      g := r.g.setIfInBounds n v
      gh := r.gh.setIfInBounds n h }

/-- Read a predicate register. -/
def Regs.readP (r : Regs) (n : Nat) : Tok := Tok.ofWord (bitAt (r.p.getLsbD n) 0)
/-- Write a predicate register (09 R197): bit 0 of the value. -/
def Regs.writeP (r : Regs) (n : Nat) (v : Word) : Regs :=
  { r with p := (r.p &&& ~~~ (1#8 <<< n)) ||| (if v.getLsbD 0 then 1#8 <<< n else 0) }

/-- Read entry `n` of a register file. -/
def vecGet {α : Type} {n : Nat} (v : Vector α n) (i : Nat) (d : α) : α := (v[i]?).getD d
/-- Write entry `n` of a register file. -/
def vecSet {α : Type} {n : Nat} (v : Vector α n) (i : Nat) (a : α) : Vector α n :=
  v.setIfInBounds i a

/-- A die's counter a number of cycles later (log 5). -/
def Die.later (d : Die) (n : Nat) : Die := { d with cycle := d.cycle + BitVec.ofNat 64 n }

/-- Pass time on every die of a package (01 R39), by a free number of cycles each; field dies held in reset do not count. -/
def Pkg.tick (p : Pkg) (n : Nat → Nat) : Pkg :=
  if p.held then p
  else { p with dies := #v[p.dies[0].later (n 0), p.dies[1].later (n 1), p.dies[2].later (n 2), p.dies[3].later (n 3)] }

/-- Pass time (01 R39): every counter advances by a free number of cycles. -/
def State.tick (s : State) : State :=
  { s with pkgs := s.pkgs.map fun e => (e.1, e.2.tick (Config.freeCycles s.free e.1)), free := s.free + 1 }

end Sys2Proof.Machine
end

