-- ==== Sys2Proof/Machine/Operands.lean ====
section
/-!
DEFINITION. The operands of a slot and the tokens it sends: arrival and quenching (03 R81), collisions (R83), splats (R74), null and fault tokens
(R82, 09 R193), and the shapes that an instruction's meaning takes by its class (R79).
-/
namespace Sys2Proof.Machine

/-- A value repeated over the 4,096 bits at the width its consumer reads (03 R74). -/
def splat (w : SplatW) (v : Word) : VWord :=
  match w with
  | .elem n => pack n (List.replicate (4096 / n) (v.toNat % 2 ^ n))
  | .whole => pack 64 (List.replicate 64 v.toNat)

/-- The width at which a consumer reads an operand (03 R74). -/
def operandW (sl : Slot) (k : TKind) : SplatW :=
  match decode sl.plane sl.word with
  | .ok i => if k = .right then (info i).rw else (info i).lw
  | .error _ => .whole

/-- The token as a consumer's operand receives it: a control-plane token becomes a splat at a data slot (03 R74, R82, 11 R243). -/
def asOperand (src dst : Slot) (k : TKind) (t : Tok) : Tok :=
  if src.plane = .ctl && dst.plane = .dat && k != .pred then
    (if t.isNull then .null else .vec (splat (operandW dst k) t.val))
  else t

/-- The operand of a slot that a target names. -/
def Slot.operand (sl : Slot) : TKind → Option Tok
  | .none => none
  | .left => sl.l
  | .right => sl.r
  | .pred => sl.p

/-- Whether an arriving predicate quenches an instruction (03 R81); a null or a fault token does not. -/
def quenches (p : Pred) (t : Tok) : Bool :=
  match t with
  | .null | .fault _ _ _ _ => false
  | .ctl v _ _ => (p = .onTrue && !v.getLsbD 0) || (p = .onFalse && v.getLsbD 0)
  | .vec _ => false

/-- The predicate field of the instruction in a slot. -/
def Slot.pred (sl : Slot) : Pred :=
  match decode sl.plane sl.word with
  | .ok i => (info i).p
  | .error _ => .always

/-- A slot with an operand put in place; a predicate that does not fire quenches it. -/
def Slot.put (sl : Slot) (k : TKind) (t : Tok) : Slot :=
  match k with
  | .none => sl
  | .left => { sl with l := some t }
  | .right => { sl with r := some t }
  | .pred => { sl with p := some t, st := if sl.st = .waiting && quenches sl.pred t then .quenched else sl.st }

/-- Raise a fault in a block; the earliest stands first (03 R92). -/
def Blk.raise (b : Blk) (f : FaultRec) : Blk := { b with faults := b.faults ++ [f] }

/-- A fault of a slot. -/
def slotFault (code slot : Nat) : FaultRec := { code := code, slot := BitVec.ofNat 7 slot }

/-- The fault that a fault token carries, raised at a slot (09 R193). -/
def tokFault (t : Tok) (slot : Nat) : FaultRec :=
  match t with
  | .fault v code step sub =>
    { code := code, faddr := v, step := BitVec.ofNat 3 step, sub := BitVec.ofNat 8 sub, slot := BitVec.ofNat 7 slot }
  | .null | .ctl _ _ _ | .vec _ => slotFault 0 slot

/-- Change a slot of a block. -/
def Blk.updSlot (b : Blk) (n : Nat) (f : Slot → Slot) : Blk := { b with slots := b.slots.modify n f }

/-- An instruction has issued. -/
def Blk.fin (b : Blk) (n : Nat) : Blk := b.updSlot n fun sl => { sl with st := .done, why := none }

/-- Deliver a token to a target; a second token at an operand is a token collision at the consumer (03 R83). -/
def Blk.send (b : Blk) (src : Slot) (t : Tok) (tg : Tgt) : Blk :=
  if tg.kind = .none then b
  else
    match b.slots[tg.slot.toNat]? with
    | none => b
    | some dst =>
      if (dst.operand tg.kind).isSome then b.raise (slotFault 0x05 tg.slot.toNat)
      else b.updSlot tg.slot.toNat fun d => d.put tg.kind (asOperand src dst tg.kind t)

/-- An instruction issues and sends a token to each of its targets. -/
def Blk.sends (b : Blk) (n : Nat) (src : Slot) (i : Info) (t1 t2 : Tok) : Blk := ((b.fin n).send src t1 i.t1).send src t2 i.t2

/-- An instruction raises a fault when it would issue. -/
def Blk.fails (b : Blk) (n : Nat) (f : FaultRec) : Blk := (b.fin n).raise f

/-- Complete an identifier, really or as null (03 R86); a second completion is a token collision (R83). -/
def Blk.complete (b : Blk) (n : Nat) (id : Ident) (e : Option Eff) : Blk :=
  if b.idDone.getLsbD id.toNat then b.fails n (slotFault 0x05 n)
  else
    { b.fin n with
      idDone := b.idDone ||| (1#32 <<< id.toNat)
      effs := match e with | some e => b.effs ++ [(id.toNat, e)] | none => b.effs }

/-- Complete a register, really or as null (09 R197); a second completion is a token collision (03 R83). -/
def Blk.completeReg (b : Blk) (n reg : Nat) (t : Option Tok) : Blk :=
  if b.regs.any fun r => r.1 = reg then b.fails n (slotFault 0x05 n)
  else { b.fin n with regs := b.regs ++ [(reg, t)] }

/-- What an instruction finds when it would issue: an operand missing, a null token on an operand it uses, a fault token on its predicate, or
its left and right operands. -/
inductive Gate where
  | missing
  | null
  | predFault (t : Tok)
  | go (l r : Tok)
  deriving DecidableEq, Repr

/-- Whether an optional predicate token is a fault token. -/
def faultOf : Option Tok → Option Tok
  | some t => if t.isFault then some t else none
  | none => none

/-- An operand that an instruction uses, or a plain zero for one it does not. -/
def used (b : Bool) (t : Option Tok) : Option Tok := if b then t else some (Tok.ofWord 0)

/-- The operands of an instruction (03 R76, R82, 09 R193). -/
def gate (i : Info) (sl : Slot) : Gate :=
  match used i.usesL sl.l, used i.usesR sl.r, used (i.p != .always) sl.p with
  | some l, some r, some p =>
    if l.isNull || r.isNull || p.isNull then .null
    else if p.isFault then .predFault p
    else .go l r
  | _, _, _ => .missing

/-- Act on the slot that issues; an instruction that has issued or is quenched does nothing more. -/
def withSlot (s : State) (k : Cur → Blk → Slot → Out State) : Out State :=
  match s.site with
  | .slot cu =>
    match s.blks.get? cu.frame with
    | none => .fault .noSite
    | some b =>
      match b.slots[cu.slot]? with
      | none => .fault .noSite
      | some sl => if sl.st = .waiting then k cu b sl else .next s
  | _ => .fault .noSite

/-- The context of a block. -/
def withCtx (s : State) (b : Blk) (k : Ctx → Out State) : Out State :=
  match s.ctxs.get? b.ctx with
  | some x => k x
  | none => .fault .noSite

/-- A token-producing instruction of the control plane (09 R192, R193). -/
def tokOp (i : Info) (f : Tok → Tok → Tok) (s : State) : Out State :=
  withSlot s fun cu b sl =>
    match gate i sl with
    | .missing => .next s
    | .null => .next (s.setBlk cu.frame (b.sends cu.slot sl i .null .null))
    | .predFault t => .next (s.setBlk cu.frame (b.fails cu.slot (tokFault t cu.slot)))
    | .go l r =>
      let t := if l.isFault then l else if r.isFault then r else f l r
      .next (s.setBlk cu.frame (b.sends cu.slot sl i t t))

/-- A token-producing instruction on the 64-bit values: no handle, event width 8 (09 R191, R192). -/
def valOp (i : Info) (f : Word → Word → Word) (s : State) : Out State := tokOp i (fun l r => Tok.ofWord (f l.val r.val)) s

/-- A test: 1 or 0 (09 R204). -/
def testOp (i : Info) (f : Word → Word → Bool) (s : State) : Out State := valOp i (fun l r => if f l r then 1 else 0) s

/-- The handle of an address sum (09 R208). -/
def sumHandle (l r : Tok) : Option (BitVec 4) := if r.handle.isSome then none else l.handle

/-- A sum or difference that keeps the handle of its left operand (09 R208). -/
def addrOp (i : Info) (f : Word → Word → Word) (s : State) : Out State :=
  tokOp i (fun l r => .ctl (f l.val r.val) (sumHandle l r) 8) s

/-- An instruction that is not token-producing: nulls, fault predicates and fault operands are handled here; `onNull` is what a null does. -/
def actOp (i : Info) (onNull : Cur → Blk → Slot → Blk) (k : Cur → Blk → Slot → Tok → Tok → Out State) (s : State) :
    Out State :=
  withSlot s fun cu b sl =>
    match gate i sl with
    | .missing => .next s
    | .null => .next (s.setBlk cu.frame (onNull cu b sl))
    | .predFault t => .next (s.setBlk cu.frame (b.fails cu.slot (tokFault t cu.slot)))
    | .go l r =>
      if l.isFault then .next (s.setBlk cu.frame (b.fails cu.slot (tokFault l cu.slot)))
      else if r.isFault then .next (s.setBlk cu.frame (b.fails cu.slot (tokFault r cu.slot)))
      else k cu b sl l r

/-- A store-class instruction (03 R82, R85): a null completes its identifier as null. -/
def storeOp (i : Info) (id : Ident) (k : Cur → Blk → Slot → Tok → Tok → Out State) (s : State) : Out State :=
  actOp i (fun cu b _ => b.complete cu.slot id none) k s

/-- A load-class instruction (03 R82): a null sends null tokens and makes no access. -/
def loadOp (i : Info) (k : Cur → Blk → Slot → Tok → Tok → Out State) (s : State) : Out State :=
  actOp i (fun cu b sl => b.sends cu.slot sl i .null .null) k s

/-- The instruction completes its identifier with an effect. -/
def completeWith (s : State) (cu : Cur) (b : Blk) (id : Ident) (e : Eff) : Out State :=
  .next (s.setBlk cu.frame (b.complete cu.slot id (some e)))

/-- The instruction raises a fault (03 R92). -/
def failWith (s : State) (cu : Cur) (b : Blk) (f : FaultRec) : Out State := .next (s.setBlk cu.frame (b.fails cu.slot f))

/-- The instruction raises an object fault with a subcode (13 R300). -/
def subFault (s : State) (cu : Cur) (b : Blk) (code sub : Nat) : Out State :=
  failWith s cu b { slotFault code cu.slot with sub := BitVec.ofNat 8 sub }

/-- The instruction holds its slot (02 R56). -/
def holdFor (s : State) (cu : Cur) (b : Blk) (w : HoldWhy) : Out State :=
  .next (s.setBlk cu.frame (b.updSlot cu.slot fun sl => { sl with st := .held, why := some w }))

/-- The mask bit that a `write` completes (03 R72, 04 R100): in pwmask, and the bit. -/
def writeBit (kind n : Nat) : Bool × Nat :=
  if kind = 1 then (if n < 64 then (false, n) else (true, n - 64))
  else if n < 32 then (false, n)
  else if n < 40 then (true, n - 32)
  else (false, n - 8)

/-- Whether the header names the register of a `write`. -/
def Header.names (h : Header) (n : Nat) : Bool :=
  let b := writeBit h.kind n
  if b.1 then h.pwmask.getLsbD b.2 else h.rwmask.getLsbD b.2

/-- A register that a block writes (04 R100, 09 R197); one completed as null keeps its value. -/
def Regs.commit (r : Regs) (kind : Nat) (w : Nat × Option Tok) : Regs :=
  match w.2 with
  | none => r
  | some t =>
    if kind = 1 then (if w.1 < 64 then r.writeG w.1 t.val t.handle else r.writeP (w.1 - 64) t.val)
    else if w.1 < 32 then { r with v := vecSet r.v w.1 t.bits }
    else if w.1 < 40 then { r with m := vecSet r.m (w.1 - 32) (maskOf t.bits) }
    else { r with dl := vecSet r.dl (w.1 - 40) t.bits }

/-- Blocks in the order of their age, the oldest first (02 R51). -/
def byAge : List (FrameKey × Blk) → List Blk
  | [] => []
  | e :: r => insert e.2 (byAge r)
where
  /-- A block put into its place. -/
  insert (b : Blk) : List Blk → List Blk
    | [] => [b]
    | a :: r => if b.seq < a.seq then b :: a :: r else a :: insert b r

/-- The writes of a block that have arrived, of registers that its header names. -/
def Blk.arrivedRegs (b : Blk) : List (Nat × Option Tok) := b.regs.filter fun w => b.hdr.names w.1

/-- The registers as a block reads them (03 R77): as every older block in flight of its fetcher will have left them, by the writes that have arrived. -/
def State.seenRegs (s : State) (b : Blk) (x : Ctx) : Regs :=
  (byAge (s.older b)).foldl (fun r o => o.arrivedRegs.foldl (fun r w => r.commit o.hdr.kind w) r) x.regs

/-- The context of a block with the registers that the block reads. -/
def State.seen (s : State) (b : Blk) (x : Ctx) : Ctx := { x with regs := s.seenRegs b x }

/-- Whether a read of register `n` waits (03 R77): an older block in flight of the same fetcher names it, by `f` on its header, and its `write` has not
arrived. -/
def State.regPending (s : State) (b : Blk) (f : Header → Bool) (n : Nat) : Bool :=
  (s.older b).any fun e => f e.2.hdr && !e.2.regs.any fun w => w.1 = n

/-- The instructions of a list of slots, by slot. -/
def instrsOf (l : List Slot) : List (Nat × Slot × Instr) :=
  l.zipIdx.filterMap fun e =>
    match decode e.1.plane e.1.word with
    | .ok i => some (e.2, e.1, i)
    | .error _ => none

/-- The instructions of a block by slot. -/
def Blk.instrs (b : Blk) : List (Nat × Slot × Instr) := instrsOf b.slots

/-- Whether a slot has issued for good or is quenched. -/
def Slot.isOver (sl : Slot) : Bool := sl.st = .done || sl.st = .quenched

/-- Whether a block's commit may leave another view of a shape register (12 R268): it holds an `shstep` of it, or a `shape`. -/
def Blk.steps (b : Blk) (k : Nat) : Bool :=
  b.instrs.any fun e =>
    match e.2.2 with
    | .shstep _ _ sh _ => decide (sh.toNat = k)
    | .shstepV _ _ sh _ => decide (sh.toNat = k)
    | .shapeV _ _ sh => decide (sh.toNat = k)
    | .shapeT _ _ sh => decide (sh.toNat = k)
    | _ => false

end Sys2Proof.Machine
end

