-- ==== Sys2Proof/Machine/Flags.lean ====
section
/-!
DEFINITION. The stream's flags and enables (06 R143, R144), the draws of stochastic rounding (R137), the active vector shape (11 R240, 12 R268), and
the meaning that a vector instruction takes (11 R241 to R243).
-/
namespace Sys2Proof.Machine

/-- The union of the flags that elements raise. -/
def flagUnion (l : List (Nat × Flags)) : Flags := l.foldl (fun a e => a.or e.2) {}

/-- The enabled flags among those raised (06 R143): `sat` has no enable. -/
def enabledIn (fpst : BitVec 13) (f : Flags) : BitVec 5 := f.bits.setWidth 5 &&& fpst.extractLsb' 8 5

/-- The lowest element that raised an enabled flag (06 R144). -/
def lowestElem (fpst : BitVec 13) : List (Nat × Flags) → Option Nat
  | [] => none
  | e :: r =>
    match lowestElem fpst r with
    | none => if enabledIn fpst e.2 != 0 then some e.1 else none
    | some n => if enabledIn fpst e.2 != 0 && decide (e.1 < n) then some e.1 else some n

/-- OR flags into the sticky flags (06 R144). -/
def stick (fpst : BitVec 13) (f : Flags) : BitVec 13 := fpst ||| f.bits.setWidth 13

/-- The granted length of a kind-1 view (12 R265): 8 x 2^g lanes. -/
def viewG (v : Word) : Nat := 8 * 2 ^ fld v 59 3
/-- The kind of a view (12 R265). -/
def viewKind (v : Word) : Nat := fld v 62 2

/-- The register of the active vector shape, where its execute view holds kind 1 (12 R268). -/
def Regs.vShape (r : Regs) : Option (Nat × Word) :=
  match r.actV with
  | none => none
  | some k => let v := vecGet r.shE k 0; if viewKind v = 1 then some (k, v) else none

/-- G, A and m0 as a data-plane instruction sees them (11 R240, R241, 12 R267). -/
def Ctx.vctx (x : Ctx) : VCtx :=
  match x.regs.vShape with
  | none => { g := 128, a := 128, m0 := x.regs.m[0] }
  | some (_, v) => { g := viewG v, a := min (fld v 0 20) (viewG v), m0 := x.regs.m[0] }

/-- Whether an instruction rounds by `rs` (06 R136). -/
def usesRs : Instr → Bool
  | .cvt _ _ _ m _ _ => m = .rs
  | .narrow _ _ _ m _ => m = .rs
  | _ => false

/-- An `rs` instruction may issue (06 R137): every older block has committed, and every `rs` instruction in a lower slot has issued. -/
def State.rsReady (s : State) (b : Blk) (n : Nat) : Bool :=
  s.isOldest b && b.instrs.all fun e => !(decide (e.1 < n) && usesRs e.2.2) || e.2.1.isOver

/-- Whether a data-plane instruction must wait: for `m0` where it is governed (11 R241), for the view of its shape (12 R268), for the generator
(06 R137). -/
def State.vecWaits (s : State) (x : Ctx) (b : Blk) (n : Nat) (governed rs : Bool) : Bool :=
  (governed && s.regPending b (fun h => h.pwmask.getLsbD 0) 32)
    || ((s.older b).any fun e => match x.regs.vShape with | some (k, _) => e.2.steps k | none => false)
    || (rs && !s.rsReady b n)

/-- A vector instruction issues with a result (06 R144): its flags and generator state stand in the block until commit, and an enabled flag
raises an arithmetic fault. -/
def Blk.vecDone (b : Blk) (n : Nat) (sl : Slot) (i : Info) (fpst : BitVec 13) (rs two : Bool) (r : VRes) : Blk :=
  let f := flagUnion r.fl
  if enabledIn fpst f != 0 then
    b.fails n
      { slotFault 0x18 n with
        sub := (enabledIn fpst f).setWidth 8, elem := BitVec.ofNat 10 ((lowestElem fpst r.fl).getD 0) }
  else
    { b.sends n sl i (.vec r.lo) (.vec (if two then r.hi else r.lo)) with fl := b.fl.or f, lfsr := if rs then some r.lfsr else b.lfsr }

/-- A vector instruction (11 R243). -/
def vecOp (i : Info) (governed rs two : Bool) (f : Ctx → VCtx → VWord → VWord → BitVec 32 → VRes) (s : State) : Out State :=
  withSlot s fun cu b sl =>
    match gate i sl with
    | .missing => .next s
    | .null => .next (s.setBlk cu.frame (b.sends cu.slot sl i .null .null))
    | .predFault t => .next (s.setBlk cu.frame (b.fails cu.slot (tokFault t cu.slot)))
    | .go l r =>
      withCtx s b fun x =>
        if s.vecWaits x b cu.slot governed rs then .next s
        else
          .next (s.setBlk cu.frame
            (b.vecDone cu.slot sl i x.fx.fpst rs two (f (s.seen b x) (s.seen b x).vctx l.bits r.bits (b.lfsr.getD x.fx.lfsr))))

/-- A vector instruction that raises no flag and reads neither `m0` nor the generator. -/
def plainVec (i : Info) (f : VCtx → VWord → VWord → VWord) (s : State) : Out State :=
  vecOp i false false false (fun _ c l r lf => { lo := f c l r, hi := 0, lfsr := lf }) s

end Sys2Proof.Machine
end

