-- ==== Sys2Proof/Machine/Flow.lean ====
section
/-!
DEFINITION. Queues as producers and consumers meet them: reservations (02 R54 to R56), appends through router stages (14 R323 to R325, R329, R338),
takes (R329, R333, R334), hold episodes (02 R63 to R66), delay lines (14 R330) and journals (21 R444, R451).
-/
namespace Sys2Proof.Machine

/-- The binding of an inlet. -/
def Ctx.inlet (x : Ctx) (n : Nat) : Option Bind := vecGet x.ports.ins n none
/-- The binding of an outlet. -/
def Ctx.outlet (x : Ctx) (n : Nat) : Option Bind := vecGet x.ports.outs n none

/-- The bits of an element of a size in bytes (14 R315): every higher byte zero. -/
def trimTo (size : Nat) (v : VWord) : VWord := BitVec.ofNat 4096 (v.toNat % 2 ^ (8 * size))

/-- How many entries of a queue the effects of a block reserve (02 R56). -/
def Blk.pushes (b : Blk) (pk : PartKey) (k : PKey) : Nat :=
  (b.effs.filter fun e => match e.2 with | .qpush q _ => decide (objKey pk q = k) | _ => false).length

/-- The remote queue of a chain to another package of the pod (20 R429): none where it lies outside the pod as modelled. -/
def State.chainDest (s : State) (k : PKey) (c : Chain) : Option PKey :=
  if c.cls ≠ 1 then none
  else
    match s.peerPart k.pk c.remPkg with
    | some p => if (s.pkgs.get? p.pkg).isSome then some (objKey p c.remQ) else none
    | none => none

/-- The elements of a chain that its receiver has not delivered (20 R427, R430). -/
def Chain.undelivered (c : Chain) : Nat := (c.unack.filter fun e => decide ((e.1 - c.expected).toNat < 2 ^ 31)).length

/-- Entries of a remote queue that chains hold in reserve (20 R430). -/
def State.chainReserved (s : State) (k : PKey) : Nat :=
  (s.queues.map fun e =>
    match e.2.chain with
    | some c => if s.chainDest e.1 c = some k then c.undelivered else 0
    | none => 0).sum

/-- Entries that blocks in flight and chains hold in reserve for the appends to a queue itself (02 R54, R56, 14 R324, 20 R430). -/
def State.reservedHere (s : State) (k : PKey) : Nat :=
  s.chainReserved k + (s.blks.map fun e =>
    match s.ctxs.get? e.2.ctx with
    | none => 0
    | some x =>
      if x.pk = k.pk then
        e.2.pushes x.pk k
          + ((e.2.outRes.filter fun r => match x.outlet r.1 with | some b => decide (b.queue = k.n) | none => false).map
              Prod.snd).sum
      else 0).sum

/-- The queues that a queue's traffic is appended to: itself, and under `mcast` each valid destination (14 R338). -/
def Queue.dests (q : Queue) (k : PKey) : List PKey :=
  k :: (if q.stage = .multicast then
    ((List.range 4).filter fun i => q.stagePar.getLsbD (48 + i)).map fun i => objKey k.pk (fld q.stagePar (12 * i) 12)
  else [])

/-- Entries of a queue that are held in reserve: for its own appends, and for those of each queue that multicasts to it (14 R338). -/
def State.reserved (s : State) (k : PKey) : Nat :=
  s.reservedHere k + (s.queues.map fun e =>
    if e.2.stage = .multicast ∧ e.1 ≠ k ∧ k ∈ e.2.dests e.1 then s.reservedHere e.1 else 0).sum

/-- Free entries of one queue not held in reserve (02 R54); none while it is frozen (14 R317). -/
def State.roomHere (s : State) (k : PKey) : Nat :=
  let q := s.queue k
  if q.state = .frozen || q.state = .unallocated then 0 else q.free - s.reserved k

/-- Free entries not held in reserve: under `mcast` the fewest of its destinations (14 R338). -/
def State.room (s : State) (k : PKey) : Nat :=
  ((s.queue k).dests k).foldl (fun n d => min n (s.roomHere d)) (s.roomHere k)

/-- Whether a token of a round waits for the arrival round of a queue, or of a destination under `mcast` (14 R329, R338). -/
def State.outOfTurn (s : State) (k : PKey) (round : BitVec 16) : Bool :=
  ((s.queue k).dests k).any fun d => !(s.queue d).prodk && round ≠ (s.queue d).arnd

/-- Whether appends through an outlet, tokens and markers in their order, each come in their round's turn (14 R329): `arnd` and `am` of the queue advance
with the outlet's own markers. -/
def inTurn (nprod : Nat) : BitVec 16 → Nat → BitVec 16 → List Bool → Bool
  | _, _, _, [] => true
  | arnd, am, round, marker :: r =>
    decide (round = arnd)
      && if marker then (if am + 1 < nprod then inTurn nprod arnd (am + 1) (round + 1) r else inTurn nprod (arnd + 1) 0 (round + 1) r)
         else inTurn nprod arnd am round r

/-- Whether a block's appends through an outlet come in turn, at its queue and at each destination under `mcast` (14 R329, R338). -/
def State.allInTurn (s : State) (k : PKey) (round : BitVec 16) (l : List Bool) : Bool :=
  ((s.queue k).dests k).all fun d => let q := s.queue d; q.prodk || inTurn q.nprod q.arnd q.am round l

/-- The producer of a context's appends (21 R444). -/
def Ctx.producer (x : Ctx) : Producer := .ctx x.kern.lq x.kern.seq x.index

/-- The next ordinal of a producer, and the journal with it counted (21 R444, R451). -/
def Jrnl.ordinal (j : Jrnl) (p : Producer) : Nat × Jrnl :=
  match j.ords.find? fun e => e.1 = p with
  | some e => (e.2, { j with ords := j.ords.map fun o => if o.1 = p then (p, o.2 + 1) else o })
  | none => (0, { j with ords := j.ords ++ [(p, 1)] })

/-- Journal an append (21 R444): false where its producer and ordinal already have an entry, so that the append is dropped (R451). -/
def State.journal (s : State) (k : PKey) (p : Producer) (el : QElem) : Bool × State :=
  let o := (s.jrnl k).ordinal p
  if o.2.ents.any fun e => e.prod = p && e.ord = o.1 then (false, s.setJrnl k o.2)
  else (true, s.setJrnl k { o.2 with ents := o.2.ents ++ [{ el := el, prod := p, ord := o.1 }] })

/-- Whether a producer's next append to a journalled queue has an entry already (21 R451). -/
def State.replayed (s : State) (k : PKey) (p : Producer) : Bool :=
  (s.queue k).journal && (s.jrnl k).ents.any fun e => e.prod = p && e.ord = ((s.jrnl k).ordinal p).1

/-- Journal entries for which a partition's journal area has room, beside those that appends in flight will write (21 R444). -/
def State.journalRoom (s : State) (pk : PartKey) : Nat :=
  Config.journalCap (fld (s.part pk).vdjrn 52 12) - (s.jrnls.map fun e => if e.1.pk = pk then e.2.ents.length else 0).sum
    - (s.queues.map fun e => if e.1.pk = pk ∧ e.2.journal = true then s.reservedHere e.1 else 0).sum

/-- Free entries that a producer's append may reserve (02 R54): those of the queue, and where it is journalled and the append is not a replayed one
those of its journal (21 R444). -/
def State.roomFor (s : State) (k : PKey) (p : Producer) : Nat :=
  if (s.queue k).journal && !s.replayed k p then min (s.room k) (s.journalRoom k.pk) else s.room k

/-- Free entries that a context's append may reserve (02 R54): none while its core does not reach the queue's window (20 R426). -/
def State.roomOf (s : State) (x : Ctx) (k : PKey) : Nat := if s.queueUp x k then s.roomFor k x.producer else 0

/-- A marker of the arrival round is appended (14 R329). -/
def Queue.countMarker (q : Queue) (n : Nat) : Queue :=
  if q.am + 1 < n then { q with am := q.am + 1 } else { q with am := 0, arnd := q.arnd + 1 }

/-- The markers that end a round at the consumer: one from a combining stage, else one from each producer (14 R329, R338). -/
def Queue.consMarkers (q : Queue) : Nat :=
  match q.stage with
  | .reduceAdd | .reduceMax => 1
  | .pass | .filter | .multicast => q.nprod

/-- An element enters the window, or the cask where elements stand in it or the window of a queue that spills is full (14 R317, R323, R325). -/
def Queue.enter (q : Queue) (el : QElem) : Queue :=
  if q.state = .spilling || q.cask ≠ [] || (q.spill && decide (q.capacity ≤ q.els.length)) then
    { q with state := if q.state = .open then .spilling else q.state, cask := q.cask ++ [el] }
  else { q with els := q.els ++ [el], win := { q.win with head := q.win.head + BitVec.ofNat 32 q.size } }

/-- An element reaches a queue's window with its tag (14 R315, R329), and a journalled queue's journal (21 R444). -/
def State.land (s : State) (k : PKey) (p : Producer) (el : QElem) : State :=
  let q := s.queue k
  let el := { el with bits := trimTo q.size el.bits }
  let ok := if q.journal then s.journal k p el else (true, s)
  if ok.1 then ok.2.setQueue k (q.enter el) else ok.2

/-- The value that a combining stage reads: a control token as `s64`, or the elements of a data token (14 R338). -/
def combine (max : Bool) (plane : Bool) (ty : Nat) (a b : VWord) : VWord :=
  if plane then
    match code? ty with
    | some t => (vBin (if max then .max else .add) t false { m0 := BitVec.allOnes 1024 } a b 1).lo
    | none => a
  else
    let x := a.extractLsb' 0 64
    let y := b.extractLsb' 0 64
    (if max then (if x.slt y then y else x) else x + y).setWidth 4096
where
  /-- The type of an I or F type code (04 R104). -/
  code? (n : Nat) : Option ElTy := elTyOf n
  /-- The element types of the I and F codes by number (04 R104). -/
  elTyOf : Nat → Option ElTy
    | 0 => some .s8 | 1 => some .s16 | 2 => some .s32 | 4 => some .n8 | 5 => some .n16 | 6 => some .n32
    | 8 => some .f32 | 9 => some .f16 | 10 => some .bf16
    | _ => none

/-- The identity of a combining stage (06 R148): zero for a sum, negative in F types, the least value for a maximum. -/
def combineId (max : Bool) (plane : Bool) (ty : Nat) : VWord :=
  if plane then
    match combine.elTyOf ty with
    | some t => pack (ElTy.width t) (List.replicate (4096 / ElTy.width t) (redId (if max then .max else .add) t))
    | none => 0
  else if max then (1#64 <<< 63).setWidth 4096
  else 0

/-- The number by which a combining stage orders a chain among its producers: after every context. -/
def chainId (k : PKey) : Nat := 2 ^ 20 + (k.pk.pkg * 32 + k.pk.part) * 4096 + k.n

/-- The producers whose tokens of a round wait in a combining stage, in ascending `cr.ctxid` (14 R338). -/
def Queue.producersOf (q : Queue) (r : BitVec 16) : List Nat :=
  ((q.stageToks.filter fun t => t.el.round = r).map StageTok.prod).foldl insert []
where
  /-- Insert in ascending order, each once. -/
  insert (l : List Nat) (n : Nat) : List Nat :=
    match l with
    | [] => [n]
    | a :: r => if n < a then n :: a :: r else if n = a then a :: r else a :: insert r n

/-- The tokens of a producer that wait in a combining stage, up to its first marker of the round. -/
def Queue.waitingOf (q : Queue) (r : BitVec 16) (p : Nat) : List QElem :=
  (q.stageToks.filter fun t => t.prod = p && t.el.round = r).map StageTok.el

/-- Combine as much of the oldest round as its producers' tokens and the window's free entries allow (14 R338): a position is complete when
each of the queue's nprod producers has a token there, or has a marker first. -/
def State.stageRun (s : State) (k : PKey) (max : Bool) : Nat → State
  | 0 => s
  | fuel + 1 =>
    let q := s.queue k
    match q.stageToks with
    | [] => s
    | t :: _ =>
      let r := t.el.round
      let ps := q.producersOf r
      let heads := ps.map fun p => (q.waitingOf r p).head?
      if ps.length < q.nprod || q.free = 0 then s
      else if heads.all fun h => match h with | some e => e.marker | none => false then
        let q := { q with stageToks := q.stageToks.filter fun t => t.el.round ≠ r }
        ((s.setQueue k q).land k .chain { marker := true, round := r }).stageRun k max fuel
      else
        let ty := fld q.stagePar 0 4
        let v := heads.foldl
          (fun acc h => match h, acc with
            | some e, some a => some (combine max q.plane ty a (if e.marker then combineId max q.plane ty else e.bits))
            | some e, none => some (if e.marker then combineId max q.plane ty else e.bits)
            | none, a => a) (none : Option VWord)
        let q := { q with stageToks := dropHeads ps r q.stageToks }
        ((s.setQueue k q).land k .chain { bits := v.getD 0, round := r }).stageRun k max fuel
where
  /-- Remove the first token of each producer that is no marker. -/
  dropHeads (ps : List Nat) (r : BitVec 16) : List StageTok → List StageTok
    | [] => []
    | t :: l =>
      if ps.contains t.prod && t.el.round = r then
        (if t.el.marker then t :: dropHeads (ps.filter (· ≠ t.prod)) r l else dropHeads (ps.filter (· ≠ t.prod)) r l)
      else t :: dropHeads ps r l

/-- Whether a filter stage passes a token (14 R338). -/
def Queue.passes (q : Queue) (el : QElem) : Bool :=
  el.marker || (el.bits.extractLsb' 0 32 &&& q.stagePar.extractLsb' 32 32) = q.stagePar.extractLsb' 0 32

/-- The combining stage of a queue goes on where it can (14 R338). -/
def State.stageGo (s : State) (k : PKey) : State :=
  match (s.queue k).stage with
  | .reduceAdd => s.stageRun k false ((s.queue k).stageToks.length + 1)
  | .reduceMax => s.stageRun k true ((s.queue k).stageToks.length + 1)
  | .pass | .filter | .multicast => s

/-- Append an element to a queue through its router stage (14 R325, R338). A null token appends nothing (R315), which callers see to. -/
def State.append (s : State) (k : PKey) (prodId : Nat) (p : Producer) (el : QElem) : State :=
  let q := s.queue k
  let s := if el.marker && !q.prodk && !s.replayed k p then s.setQueue k (q.countMarker q.nprod) else s
  match q.stage with
  | .pass => s.land k p el
  | .filter =>
    if q.passes el then s.land k p el else let q := s.queue k; s.setQueue k { q with drop := q.drop + 1 }
  | .multicast =>
    (q.dests k).foldl
      (fun s d =>
        let t := s.queue d
        let s := if d ≠ k && el.marker && !t.prodk then s.setQueue d (t.countMarker t.nprod) else s
        s.land d p el) s
  | .reduceAdd | .reduceMax =>
    let q := s.queue k
    (s.setQueue k { q with stageToks := q.stageToks ++ [⟨prodId, el⟩] }).stageGo k

/-- A committed take moves the tail past the element (07 R165); that of a marker counts towards the consumer's round (14 R329). -/
def Queue.countTake (q : Queue) (el : QElem) : Queue :=
  let q := { q with win := { q.win with tail := q.win.tail + BitVec.ofNat 32 q.size } }
  if el.marker then
    (if q.cm + 1 < q.consMarkers then { q with cm := q.cm + 1 } else { q with cm := 0, crnd := q.crnd + 1 })
  else q

/-- A committed take of the oldest element (07 R165, 14 R317, 21 R444). -/
def State.takeHead (s : State) (k : PKey) : State :=
  let q := s.queue k
  match q.els with
  | [] => s
  | el :: r =>
    let s := (s.setQueue k ({ q with els := r, landFrames := shrink q.landFrames }.countTake el)).stageGo k
    if q.journal then s.setJrnl k { s.jrnl k with taken := (s.jrnl k).taken + 1 } else s
where
  /-- The sizes of landed frames once an element has left (20 R434). -/
  shrink : List (Nat × Nat) → List (Nat × Nat)
    | [] => []
    | (n, l) :: r => if l ≤ 1 then r else (n, l - 1) :: r

/-- A kernel has taken from a journalled queue (16 R373). -/
def State.noteTake (s : State) (kk : KernKey) (k : PKey) : State :=
  if (s.queue k).journal then
    s.updKern kk fun kn => if kn.takes.contains k.n then kn else { kn with takes := kn.takes ++ [k.n] }
  else s

/-- An outlet's append, or marker, at its producer's round (14 R329, R335). -/
def State.outAppend (s : State) (c : Nat) (n : Nat) (v : Option VWord) : State :=
  match s.ctxs.get? c with
  | none => s
  | some x =>
    match x.outlet n with
    | none => s
    | some b =>
      let k := objKey x.pk b.queue
      let id := x.core * 32 + x.posn * 4
      match v with
      | some v => s.append k id x.producer { bits := v, round := b.round }
      | none =>
        (s.append k id x.producer { marker := true, round := b.round }).updCtx c fun x =>
          { x with ports := { x.ports with outs := vecSet x.ports.outs n (some { b with round := b.round + 1 }) } }

/-- An access-fed append (14 R332). -/
def State.qAppend (s : State) (x : Ctx) (k : PKey) (v : Word) : State :=
  s.append k (x.core * 32 + x.posn * 4) x.producer { bits := v.setWidth 4096, round := (s.queue k).prnd }

/-- The inlets bound with rin (14 R327, R330). -/
def Ctx.rins (x : Ctx) : List Nat :=
  (List.range 32).filter fun i => match x.inlet i with | some b => b.flag | none => false

/-- The consumer's round as it reads (14 R329): that of an access-fed queue is prnd. -/
def Queue.takenRound (q : Queue) : BitVec 16 := if q.prodk then q.prnd else q.crnd

/-- Whether every rin input has left the round of an outlet behind (14 R316, R330). -/
def State.dlDue (s : State) (x : Ctx) (b : Bind) : Bool :=
  b.flag && x.rins ≠ [] && x.rins.all fun i =>
    match x.inlet i with
    | some ib =>
      let cr := (s.queue (objKey x.pk ib.queue)).takenRound
      decide (1 ≤ (cr - b.round).toNat) && decide ((cr - b.round).toNat ≤ 32767)
    | none => false

/-- Release a delay line while every rin input has left its outlet's round behind (14 R330), as long as that round is the receiving queue's (R329). -/
def State.dlRelease (s : State) (c k : Nat) : Nat → State
  | 0 => s
  | fuel + 1 =>
    match s.ctxs.get? c with
    | none => s
    | some x =>
      match x.outlet k with
      | none => s
      | some b =>
        if s.dlDue x b && !s.outOfTurn (objKey x.pk b.queue) b.round then
          ((s.outAppend c k (some (vecGet x.regs.dl k 0))).outAppend c k none).dlRelease c k fuel
        else s

/-- The releases of a block's commit cycle (14 R330). -/
def State.dlReleases (s : State) (c : Nat) : State := (List.range 8).foldl (fun s k => s.dlRelease c k 65536) s

/-- The takes that the instructions of a block make of an inlet, by slot: pops and reads, with the identifier that orders pops (03 R84, 04 R101, 14 R334,
R337). -/
def inletTake (n : Nat) : Instr → Option Nat
  | .pop _ id inl _ => if inl.toNat = n then some id.toNat else none
  | .popV _ id inl _ => if inl.toNat = n then some id.toNat else none
  | .collect _ id inl _ => if inl.toNat = n || inl.toNat + 1 = n then some id.toNat else none
  | .read reg _ _ => if reg.toNat = 64 + n then some 0 else none
  | _ => none

/-- The peeks of an inlet. -/
def inletPeek (n : Nat) : Instr → Option Nat
  | .peek _ id inl _ => if inl.toNat = n then some id.toNat else none
  | .peekV _ id inl _ => if inl.toNat = n then some id.toNat else none
  | _ => none

/-- Tentative takes of a queue by a block. -/
def Blk.took (b : Blk) (q : QRef) : Nat := (b.takes.filter fun t => t.2 = q).length

/-- Whether a take comes before another of the same inlet: reads by slot, pops by identifier. -/
def takeBefore (isRead : Bool) (id n id' n' : Nat) : Bool := if isRead then decide (n < n') else decide (id < id')

/-- The position, counted from the head, that a take or peek of an inlet reads (02 R54, 03 R84): none while an earlier take is not decided, or a
block of another fetcher on the same ports has not left. -/
def State.inletPos (s : State) (b : Blk) (inl : Nat) (q : PKey) (n id : Nat) (isRead : Bool) : Option Nat :=
  let ports := s.blks.filter fun e => e.2.ctx = b.ctx && fetchExec e.2.u && e.2.seq < b.seq
  let other := ports.any fun e => e.2.u ≠ b.u && e.2.instrs.any fun i => (inletTake inl i.2.2).isSome
  let open' := ports.any fun e => e.2.instrs.any fun i => (inletTake inl i.2.2).isSome && !i.2.1.isOver
  let mine := b.instrs.filter fun i =>
    match inletTake inl i.2.2 with
    | some id' => i.1 ≠ n && takeBefore isRead id' i.1 id n
    | none => false
  if other || open' || mine.any (fun i => !i.2.1.isOver) then none
  else
    some ((ports.map fun e => e.2.took (.part q)).sum
      + (b.takes.filter fun t => t.2 = .part q && mine.any fun i => i.1 = t.1).length)

/-- What a position of a queue holds for a consumer: an element, nothing yet, or the end of a sealed queue (14 R317). -/
inductive Avail where
  | elem (e : QElem)
  | ended
  | wait
  deriving DecidableEq, Repr

/-- The element at a position of a queue. -/
def Queue.availAt (q : Queue) (p : Nat) : Avail :=
  if q.state = .frozen || q.state = .unallocated then .wait
  else
    match q.els[p]? with
    | some e => .elem e
    | none => if q.state = .sealed && q.cask = [] then .ended else .wait

/-- The token of an element (14 R315, R329): a marker is a null token. -/
def elemTok (plane : Bool) (e : QElem) : Tok :=
  if e.marker then .null else if plane then .vec e.bits else Tok.ofWord (e.bits.extractLsb' 0 64)

/-- Count a decoupling hold and raise its event (02 R63, R66): empty 0, full 1, loss 2. -/
def State.countHold (s : State) (c kind : Nat) : State :=
  match s.ctxs.get? c with
  | none => s
  | some x =>
    let d := x.dec
    let n := (if kind = 0 then d.empty else if kind = 1 then d.full else d.loss) + 1
    let th := if kind = 0 then d.thempty else if kind = 1 then d.thfull else d.thloss
    let d := if kind = 0 then { d with empty := n } else if kind = 1 then { d with full := n } else { d with loss := n }
    let due := th != 0 && decide (n.toNat % th.toNat = 0) && decide (n ≠ 0) && !d.pend.getLsbD kind
    let s := s.updCtx c fun x => { x with dec := if due then { d with pend := d.pend ||| (1#3 <<< kind) } else d }
    if due then s.raise c kind else s

/-- Whether an outlet of some stream is bound to a queue (02 R63). -/
def State.streamFed (s : State) (k : PKey) : Bool :=
  s.ctxs.any fun e => e.2.pk = k.pk && e.2.ports.outs.toList.any fun b =>
    match b with | some b => decide (b.queue = k.n) | none => false

/-- Entries of `cmdq` that blocks in flight reserve (14 R327, 12 R271, 06 R145). -/
def State.cmdqReserved (s : State) (c : Nat) : Nat := (s.blks.map fun e => if e.2.ctx = c then e.2.cmdqRes else 0).sum

/-- Free entries of `cmdq`, reservations counted. -/
def State.cmdqRoom (s : State) (c : Nat) (x : Ctx) : Nat := 32 - x.ports.cmdq.length - s.cmdqReserved c

/-- The dispatcher that a fetcher's blocks run on. -/
def Ctx.dispKey (x : Ctx) (u : Fetcher) : DispKey := ⟨x.pk.pkg, x.core, !fetchExec u⟩

end Sys2Proof.Machine
end

