-- ==== Sys2Proof/Machine/Token.lean ====
section
/-!
DEFINITION. The control-plane instructions of 09: constants, registers, moves, arithmetic, logic, tests, immediate forms, addresses, width converters and
branches.
-/
namespace Sys2Proof.Machine

/-- Signed division (09 R201). -/
def divS (l r : Word) : Word := if r = 0 then -1 else l.sdiv r
/-- Signed remainder, with the sign of the dividend (09 R201). -/
def remS (l r : Word) : Word := if r = 0 then l else l.srem r
/-- Unsigned division (09 R201). -/
def divN (l r : Word) : Word := if r = 0 then -1 else l / r
/-- Unsigned remainder (09 R201). -/
def remN (l r : Word) : Word := if r = 0 then l else l % r
/-- The high half of the exact signed product (09 R200). -/
def mulhS (l r : Word) : Word := (l.signExtend 128 * r.signExtend 128).extractLsb' 64 64
/-- The high half of the exact unsigned product (09 R200). -/
def mulhN (l r : Word) : Word := (l.setWidth 128 * r.setWidth 128).extractLsb' 64 64
/-- The absolute value, which wraps at the least number (09 R200). -/
def absW (l : Word) : Word := if l.msb then -l else l
/-- Left shift by a whole 64-bit amount (09 R203). -/
def shlW (l r : Word) : Word := if 64 ≤ r.toNat then 0 else l <<< r.toNat
/-- Logical right shift (09 R203). -/
def shrW (l r : Word) : Word := if 64 ≤ r.toNat then 0 else l >>> r.toNat
/-- Arithmetic right shift (09 R203). -/
def sarW (l r : Word) : Word := if 64 ≤ r.toNat then (if l.msb then -1 else 0) else l.sshiftRight r.toNat
/-- Rotate left (09 R203). -/
def rolW (l r : Word) : Word := l.rotateLeft (r.toNat % 64)
/-- Rotate right (09 R203). -/
def rorW (l r : Word) : Word := l.rotateRight (r.toNat % 64)
/-- Zeros below the lowest one of a number, among its first bits (09 R202). -/
def ctzGo : Nat → Nat → Nat
  | 0, _ => 0
  | n + 1, x => if x % 2 = 1 then 0 else 1 + ctzGo n (x / 2)
/-- Byte reversal (09 R202). -/
def bswapW (l : Word) : Word := BitVec.ofNat 64 (leNat (leBytes 8 l.toNat).reverse)
/-- The low bits sign-extended (09 R202). -/
def sextW (w : Nat) (l : Word) : Word := (l.setWidth w).signExtend 64
/-- The low bits zero-extended (09 R202). -/
def zextW (w : Nat) (l : Word) : Word := (l.setWidth w).setWidth 64
/-- Bit test (09 R204). -/
def tbitW (l r : Word) : Bool := decide (r.toNat < 64) && l.getLsbD r.toNat
/-- A signed 14-bit immediate (09 R206). -/
def simm (f : FmtI) : Word := f.imm.signExtend 64
/-- An unsigned 14-bit immediate (09 R206). -/
def uimm (f : FmtI) : Word := f.imm.setWidth 64

/-- What a `read` finds (09 R196): it must wait, a token with the takes it makes, or a fault. -/
inductive ReadRes where
  | wait
  | tok (t : Tok) (takes : List QRef)
  | fault (code sub : Nat)
  deriving DecidableEq, Repr

/-- A register's token once no older block will still write it (03 R77). -/
def State.readReg (s : State) (b : Blk) (named : Header → Bool) (n : Nat) (t : Tok) : ReadRes :=
  if s.regPending b named n then .wait else .tok t []

/-- A view of a shape register once no older block will still step it (12 R268). -/
def State.readShape (s : State) (b : Blk) (k : Nat) (v : Word) : ReadRes :=
  if (s.older b).any fun e => e.2.steps k then .wait else .tok (Tok.ofWord v) []

/-- An inlet's next token (04 R101, 14 R334): what stands at the place that the take has in its queue. -/
def State.readInlet (s : State) (x : Ctx) (b : Blk) (inl n id : Nat) (isRead : Bool) (plane : Plane) : ReadRes :=
  match x.inlet inl with
  | none => .wait
  | some bd =>
    let k := objKey x.pk bd.queue
    if (s.queue k).plane != (plane = .dat) then .fault 0x30 3
    else
      match s.inletPos b inl k n id isRead with
      | none => .wait
      | some p =>
        match (s.queue k).availAt p with
        | .elem e => .tok (elemTok (plane = .dat) e) [.part k]
        | .ended => .tok .null []
        | .wait => .wait

/-- The register or inlet that a number names (04 R100). -/
def State.readNum (s : State) (x : Ctx) (b : Blk) (n r : Nat) (plane : Plane) : ReadRes :=
  let g := s.seenRegs b x
  if b.hdr.kind = 1 then
    if r < 64 then s.readReg b (fun h => h.rwmask.getLsbD r) r (g.readG r)
    else if r < 72 then s.readReg b (fun h => h.pwmask.getLsbD (r - 64)) r (g.readP (r - 64))
    else if r < 80 then s.readShape b (r - 72) (vecGet g.shA (r - 72) 0)
    else .fault 0x02 0
  else if r < 32 then s.readReg b (fun h => h.rwmask.getLsbD r) r (.vec (vecGet g.v r 0))
  else if r < 40 then s.readReg b (fun h => h.pwmask.getLsbD (r - 32)) r (.vec (ofMask (vecGet g.m (r - 32) 0)))
  else if r < 48 then s.readReg b (fun h => h.rwmask.getLsbD (r - 8)) r (.vec (vecGet g.dl (r - 40) 0))
  else if 48 ≤ r ∧ r < 56 then s.readShape b (r - 48) (vecGet g.shE (r - 48) 0)
  else if 64 ≤ r ∧ r < 96 then s.readInlet x b (r - 64) n 0 true plane
  else .fault 0x02 0

/-- An instruction takes what it read and sends it to its targets (03 R88). -/
def Blk.takes' (b : Blk) (n : Nat) (sl : Slot) (i : Info) (t : Tok) (q : List QRef) : Blk :=
  let b := b.sends n sl i t t
  { b with takes := b.takes ++ q.map fun k => (n, k) }

/-- A read or pop goes on with what it found. -/
def readDone (s : State) (cu : Cur) (b : Blk) (sl : Slot) (i : Info) : ReadRes → Out State
  | .wait => .next s
  | .tok t q => .next (s.setBlk cu.frame (b.takes' cu.slot sl i t q))
  | .fault code sub => subFault s cu b code sub

/-- A branch-class instruction issues (09 R212); a second real branch is a multiple-exit fault (03 R83). -/
def Blk.setBranch (b : Blk) (n : Nat) (br : Branch) : Blk :=
  if b.branch.isSome then b.fails n (slotFault 0x06 n) else { b.fin n with branch := some br, brSlot := n }

/-- A branch-class instruction (09 R193, R212): a null token produces nothing (03 R82). -/
def branchOp (i : Info) (exit : BitVec 3) (k : Blk → Tok → Tok → BrKind) (s : State) : Out State :=
  actOp i (fun cu b _ => b.fin cu.slot)
    (fun cu b _ l r => .next (s.setBlk cu.frame (b.setBranch cu.slot ⟨exit, k b l r⟩))) s

/-- The fault of a call or a return whose stack does not allow it (09 R216, R217), found when its block is the oldest. -/
def Blk.stackFault (b : Blk) (l : Lane) : Option FaultRec :=
  match b.branch with
  | some ⟨_, .call _⟩ => if 16 ≤ l.depth then some (slotFault 0x08 b.brSlot) else none
  | some ⟨_, .ret _⟩ => if l.depth = 0 then some (slotFault 0x09 b.brSlot) else none
  | _ => none

/-- The oldest block of a fetcher raises the fault of its call or return once it is the oldest and its branch has issued (09 R216, R217). -/
def State.stackCheck (s : State) (c : Nat) (u : Fetcher) : State :=
  match s.oldest c u, s.ctxs.get? c with
  | some e, some x =>
    (match e.2.stackFault (x.lane u) with
      | some r => if e.2.faults.any fun f => f.code = r.code then s else s.setBlk e.1 (e.2.raise r)
      | none => s)
  | _, _ => s

/-- A call or a return issues: as a branch, with the check of the return stack (09 R216, R217). -/
def stackOp (i : Info) (exit : BitVec 3) (k : Blk → Tok → Tok → BrKind) (s : State) : Out State :=
  actOp i (fun cu b _ => b.fin cu.slot)
    (fun cu b _ l r => .next ((s.setBlk cu.frame (b.setBranch cu.slot ⟨exit, k b l r⟩)).stackCheck b.ctx b.u)) s

/-- The target of a branch with an offset (09 R213). -/
def Blk.target (b : Blk) (off : BitVec 20) : Word := b.addr + (off.signExtend 64 <<< 4)


/-- `const` (09 R194). -/
def execConst (imm : BitVec 16) (t1 : Tgt) (s : State) : Out State := valOp (info (.const imm t1)) (fun _ _ => imm.signExtend 64) s

/-- `constx` (09 R195). -/
def execConstx (imm : BitVec 16) (t1 : Tgt) (s : State) : Out State := valOp (info (.constx imm t1)) (fun l _ => l <<< 16 ||| imm.setWidth 64) s

/-- `read` (09 R196). -/
def execRead (reg : BitVec 7) (t2 t1 : Tgt) (s : State) : Out State :=
  withSlot s fun cu b sl => withCtx s b fun x =>
    readDone s cu b sl (info (.read reg t2 t1)) (s.readNum x b cu.slot reg.toNat sl.plane)

/-- `write` (09 R197). -/
def execWrite (p : Pred) (reg : BitVec 7) (s : State) : Out State :=
  actOp (info (.write p reg)) (fun cu b _ => b.completeReg cu.slot reg.toNat none)
    (fun cu b _ l _ => .next (s.setBlk cu.frame (b.completeReg cu.slot reg.toNat (some l)))) s

/-- `mov` (09 R198). -/
def execMov (g : FmtG) (s : State) : Out State := tokOp (info (.mov g)) (fun l _ => l) s

/-- `null` (09 R198). -/
def execNull (g : FmtG) (s : State) : Out State := tokOp (info (.null g)) (fun _ _ => .null) s

/-- `mov.v` (09 R198). -/
def execMovV (g : FmtG) (s : State) : Out State := tokOp (info (.movV g)) (fun l _ => l) s

/-- `null.v` (09 R198). -/
def execNullV (g : FmtG) (s : State) : Out State := tokOp (info (.nullV g)) (fun _ _ => .null) s

/-- `add` (09 R200, R208). -/
def execAdd (g : FmtG) (s : State) : Out State := addrOp (info (.add g)) (fun l r => l + r) s

/-- `sub` (09 R200, R208). -/
def execSub (g : FmtG) (s : State) : Out State := addrOp (info (.sub g)) (fun l r => l - r) s

/-- `mul` (09 R200). -/
def execMul (g : FmtG) (s : State) : Out State := valOp (info (.mul g)) (fun l r => l * r) s

/-- `mulh.s64` (09 R200). -/
def execMulhS64 (g : FmtG) (s : State) : Out State := valOp (info (.mulhS64 g)) (mulhS) s

/-- `mulh.n64` (09 R200). -/
def execMulhN64 (g : FmtG) (s : State) : Out State := valOp (info (.mulhN64 g)) (mulhN) s

/-- `div.s64` (09 R201). -/
def execDivS64 (g : FmtG) (s : State) : Out State := valOp (info (.divS64 g)) (divS) s

/-- `div.n64` (09 R201). -/
def execDivN64 (g : FmtG) (s : State) : Out State := valOp (info (.divN64 g)) (divN) s

/-- `rem.s64` (09 R201). -/
def execRemS64 (g : FmtG) (s : State) : Out State := valOp (info (.remS64 g)) (remS) s

/-- `rem.n64` (09 R201). -/
def execRemN64 (g : FmtG) (s : State) : Out State := valOp (info (.remN64 g)) (remN) s

/-- `neg` (09 R200). -/
def execNeg (g : FmtG) (s : State) : Out State := valOp (info (.neg g)) (fun l _ => -l) s

/-- `abs` (09 R200). -/
def execAbs (g : FmtG) (s : State) : Out State := valOp (info (.abs g)) (fun l _ => absW l) s

/-- `min.s64` (09 R200). -/
def execMinS64 (g : FmtG) (s : State) : Out State := valOp (info (.minS64 g)) (fun l r => if l.slt r then l else r) s

/-- `max.s64` (09 R200). -/
def execMaxS64 (g : FmtG) (s : State) : Out State := valOp (info (.maxS64 g)) (fun l r => if l.slt r then r else l) s

/-- `min.n64` (09 R200). -/
def execMinN64 (g : FmtG) (s : State) : Out State := valOp (info (.minN64 g)) (fun l r => if l.ult r then l else r) s

/-- `max.n64` (09 R200). -/
def execMaxN64 (g : FmtG) (s : State) : Out State := valOp (info (.maxN64 g)) (fun l r => if l.ult r then r else l) s

/-- `and` (09 R202). -/
def execAnd (g : FmtG) (s : State) : Out State := valOp (info (.and g)) (fun l r => l &&& r) s

/-- `or` (09 R202). -/
def execOr (g : FmtG) (s : State) : Out State := valOp (info (.or g)) (fun l r => l ||| r) s

/-- `xor` (09 R202). -/
def execXor (g : FmtG) (s : State) : Out State := valOp (info (.xor g)) (fun l r => l ^^^ r) s

/-- `andn` (09 R202). -/
def execAndn (g : FmtG) (s : State) : Out State := valOp (info (.andn g)) (fun l r => l &&& ~~~r) s

/-- `not` (09 R202). -/
def execNot (g : FmtG) (s : State) : Out State := valOp (info (.not g)) (fun l _ => ~~~l) s

/-- `shl` (09 R203). -/
def execShl (g : FmtG) (s : State) : Out State := valOp (info (.shl g)) (shlW) s

/-- `shr` (09 R203). -/
def execShr (g : FmtG) (s : State) : Out State := valOp (info (.shr g)) (shrW) s

/-- `sar` (09 R203). -/
def execSar (g : FmtG) (s : State) : Out State := valOp (info (.sar g)) (sarW) s

/-- `rol` (09 R203). -/
def execRol (g : FmtG) (s : State) : Out State := valOp (info (.rol g)) (rolW) s

/-- `ror` (09 R203). -/
def execRor (g : FmtG) (s : State) : Out State := valOp (info (.ror g)) (rorW) s

/-- `popc` (09 R202). -/
def execPopc (g : FmtG) (s : State) : Out State := valOp (info (.popc g)) (fun l _ => BitVec.ofNat 64 (popcount 64 l.toNat)) s

/-- `clz` (09 R202). -/
def execClz (g : FmtG) (s : State) : Out State := valOp (info (.clz g)) (fun l _ => BitVec.ofNat 64 (countLead 64 l.toNat)) s

/-- `ctz` (09 R202). -/
def execCtz (g : FmtG) (s : State) : Out State := valOp (info (.ctz g)) (fun l _ => BitVec.ofNat 64 (ctzGo 64 l.toNat)) s

/-- `bswap` (09 R202). -/
def execBswap (g : FmtG) (s : State) : Out State := valOp (info (.bswap g)) (fun l _ => bswapW l) s

/-- `sext.s8` (09 R202). -/
def execSextS8 (g : FmtG) (s : State) : Out State := valOp (info (.sextS8 g)) (fun l _ => sextW 8 l) s

/-- `sext.s16` (09 R202). -/
def execSextS16 (g : FmtG) (s : State) : Out State := valOp (info (.sextS16 g)) (fun l _ => sextW 16 l) s

/-- `sext.s32` (09 R202). -/
def execSextS32 (g : FmtG) (s : State) : Out State := valOp (info (.sextS32 g)) (fun l _ => sextW 32 l) s

/-- `zext.n8` (09 R202). -/
def execZextN8 (g : FmtG) (s : State) : Out State := valOp (info (.zextN8 g)) (fun l _ => zextW 8 l) s

/-- `zext.n16` (09 R202). -/
def execZextN16 (g : FmtG) (s : State) : Out State := valOp (info (.zextN16 g)) (fun l _ => zextW 16 l) s

/-- `zext.n32` (09 R202). -/
def execZextN32 (g : FmtG) (s : State) : Out State := valOp (info (.zextN32 g)) (fun l _ => zextW 32 l) s

/-- `teq` (09 R204). -/
def execTeq (g : FmtG) (s : State) : Out State := testOp (info (.teq g)) (fun l r => l == r) s

/-- `tne` (09 R204). -/
def execTne (g : FmtG) (s : State) : Out State := testOp (info (.tne g)) (fun l r => l != r) s

/-- `tlt.s64` (09 R204). -/
def execTltS64 (g : FmtG) (s : State) : Out State := testOp (info (.tltS64 g)) (BitVec.slt) s

/-- `tle.s64` (09 R204). -/
def execTleS64 (g : FmtG) (s : State) : Out State := testOp (info (.tleS64 g)) (BitVec.sle) s

/-- `tgt.s64` (09 R204). -/
def execTgtS64 (g : FmtG) (s : State) : Out State := testOp (info (.tgtS64 g)) (fun l r => r.slt l) s

/-- `tge.s64` (09 R204). -/
def execTgeS64 (g : FmtG) (s : State) : Out State := testOp (info (.tgeS64 g)) (fun l r => r.sle l) s

/-- `tlt.n64` (09 R204). -/
def execTltN64 (g : FmtG) (s : State) : Out State := testOp (info (.tltN64 g)) (BitVec.ult) s

/-- `tle.n64` (09 R204). -/
def execTleN64 (g : FmtG) (s : State) : Out State := testOp (info (.tleN64 g)) (BitVec.ule) s

/-- `tgt.n64` (09 R204). -/
def execTgtN64 (g : FmtG) (s : State) : Out State := testOp (info (.tgtN64 g)) (fun l r => r.ult l) s

/-- `tge.n64` (09 R204). -/
def execTgeN64 (g : FmtG) (s : State) : Out State := testOp (info (.tgeN64 g)) (fun l r => r.ule l) s

/-- `tbit` (09 R204). -/
def execTbit (g : FmtG) (s : State) : Out State := testOp (info (.tbit g)) (tbitW) s

/-- `tz` (09 R204). -/
def execTz (g : FmtG) (s : State) : Out State := testOp (info (.tz g)) (fun l _ => l == 0) s

/-- `tnz` (09 R204). -/
def execTnz (g : FmtG) (s : State) : Out State := testOp (info (.tnz g)) (fun l _ => l != 0) s

/-- `wsplit.b8` (09 R209). -/
def execWsplitB8 (g : FmtG) (s : State) : Out State := tokOp (info (.wsplitB8 g)) (fun l _ => .ctl l.val l.handle 1) s

/-- `wsplit.b16` (09 R209). -/
def execWsplitB16 (g : FmtG) (s : State) : Out State := tokOp (info (.wsplitB16 g)) (fun l _ => .ctl l.val l.handle 2) s

/-- `wsplit.b32` (09 R209). -/
def execWsplitB32 (g : FmtG) (s : State) : Out State := tokOp (info (.wsplitB32 g)) (fun l _ => .ctl l.val l.handle 4) s

/-- `wjoin.b8` (09 R210). -/
def execWjoinB8 (g : FmtG) (s : State) : Out State := tokOp (info (.wjoinB8 g)) (fun l _ => .ctl l.val l.handle 1) s

/-- `wjoin.b16` (09 R210). -/
def execWjoinB16 (g : FmtG) (s : State) : Out State := tokOp (info (.wjoinB16 g)) (fun l _ => .ctl l.val l.handle 2) s

/-- `wjoin.b32` (09 R210). -/
def execWjoinB32 (g : FmtG) (s : State) : Out State := tokOp (info (.wjoinB32 g)) (fun l _ => .ctl l.val l.handle 4) s

/-- `lea.x1` (09 R207, R208). -/
def execLeaX1 (g : FmtG) (s : State) : Out State := addrOp (info (.leaX1 g)) (fun l r => l + r) s

/-- `lea.x2` (09 R207, R208). -/
def execLeaX2 (g : FmtG) (s : State) : Out State := addrOp (info (.leaX2 g)) (fun l r => l + r * 2) s

/-- `lea.x4` (09 R207, R208). -/
def execLeaX4 (g : FmtG) (s : State) : Out State := addrOp (info (.leaX4 g)) (fun l r => l + r * 4) s

/-- `lea.x8` (09 R207, R208). -/
def execLeaX8 (g : FmtG) (s : State) : Out State := addrOp (info (.leaX8 g)) (fun l r => l + r * 8) s

/-- `addi` (09 R206, R208). -/
def execAddi (f : FmtI) (s : State) : Out State := addrOp (info (.addi f)) (fun l _ => l + simm f) s

/-- `andi` (09 R206, R202). -/
def execAndi (f : FmtI) (s : State) : Out State := valOp (info (.andi f)) (fun l _ => l &&& uimm f) s

/-- `ori` (09 R206, R202). -/
def execOri (f : FmtI) (s : State) : Out State := valOp (info (.ori f)) (fun l _ => l ||| uimm f) s

/-- `xori` (09 R206, R202). -/
def execXori (f : FmtI) (s : State) : Out State := valOp (info (.xori f)) (fun l _ => l ^^^ uimm f) s

/-- `teqi` (09 R206, R204). -/
def execTeqi (f : FmtI) (s : State) : Out State := testOp (info (.teqi f)) (fun l _ => l == simm f) s

/-- `shli` (09 R206, R203). -/
def execShli (f : FmtI) (s : State) : Out State := valOp (info (.shli f)) (fun l _ => shlW l (uimm f)) s

/-- `shri` (09 R206, R203). -/
def execShri (f : FmtI) (s : State) : Out State := valOp (info (.shri f)) (fun l _ => shrW l (uimm f)) s

/-- `sari` (09 R206, R203). -/
def execSari (f : FmtI) (s : State) : Out State := valOp (info (.sari f)) (fun l _ => sarW l (uimm f)) s

/-- `tnei` (09 R206, R204). -/
def execTnei (f : FmtI) (s : State) : Out State := testOp (info (.tnei f)) (fun l _ => l != simm f) s

/-- `tlti` (09 R206, R204). -/
def execTlti (f : FmtI) (s : State) : Out State := testOp (info (.tlti f)) (fun l _ => l.slt (simm f)) s

/-- `tgei` (09 R206, R204). -/
def execTgei (f : FmtI) (s : State) : Out State := testOp (info (.tgei f)) (fun l _ => (simm f).sle l) s

/-- `tltui` (09 R206, R204). -/
def execTltui (f : FmtI) (s : State) : Out State := testOp (info (.tltui f)) (fun l _ => l.ult (uimm f)) s

/-- `tgeui` (09 R206, R204). -/
def execTgeui (f : FmtI) (s : State) : Out State := testOp (info (.tgeui f)) (fun l _ => (uimm f).ule l) s

/-- `br` (09 R213). -/
def execBr (b : FmtB) (s : State) : Out State := branchOp (info (.br b)) b.exit (fun k _ _ => .jump (k.target b.off)) s

/-- `call` (09 R213, R216). -/
def execCall (b : FmtB) (s : State) : Out State := stackOp (info (.call b)) b.exit (fun k _ _ => .call (k.target b.off)) s

/-- `brr` (09 R213). -/
def execBrr (p : Pred) (exit : BitVec 3) (s : State) : Out State :=
  branchOp (info (.brr p exit)) exit (fun _ l _ => .jump l.val) s

/-- `callr` (09 R213, R216). -/
def execCallr (p : Pred) (exit : BitVec 3) (s : State) : Out State :=
  stackOp (info (.callr p exit)) exit (fun _ l _ => .call l.val) s

/-- `ret` (09 R213, R217). -/
def execRet (p : Pred) (exit : BitVec 3) (s : State) : Out State :=
  stackOp (info (.ret p exit)) exit (fun _ l _ => .ret l.val) s

end Sys2Proof.Machine
end

