-- ==== Sys2Proof/Machine/Memory.lean ====
section
/-!
DEFINITION. The memory instructions as they issue (10 R220 to R237): loads, translations, prefetch, stores, atomic updates, leases and fences; and a
load as it performs (R228).
-/
namespace Sys2Proof.Machine

/-- Who a block's accesses are made for. -/
def Blk.who (b : Blk) (x : Ctx) : Who := ⟨x.pk, x.core, x.ctl.asn, b.pm⟩

/-- The translation of the handle that an address carries (10 R222): one that an `xlate` of the block found, or the thread's. -/
def Blk.handleOf (b : Blk) (x : Ctx) (t : Tok) : Option Trans :=
  match t.handle with
  | none => none
  | some h =>
    match b.handles.find? fun e => e.1 = h.toNat with
    | some e => e.2
    | none => (vecGet x.regs.th h.toNat {}).tr

/-- Whether the source that a slot pulls from is lost (10 R223). -/
def State.sourceLost (s : State) (pk : PartKey) : Bool :=
  s.pkgs.any fun e => e.2.num = (s.part pk).opkg && e.2.lost

/-- Discard a block and every younger block of its fetcher, which fetches again (03 R90). -/
def State.discardFrom (s : State) (b : Blk) : State :=
  (s.discard fun o => o.ctx = b.ctx && o.u = b.u && decide (b.seq ≤ o.seq)).updCtx b.ctx fun x =>
    x.setLane b.u (x.lane b.u).refetch

/-- Ask the source for a page (10 R223, 21 R457). -/
def State.askPage (s : State) (pk : PartKey) (pg : BitVec 16 × Nat) : State :=
  let p := s.part pk
  if p.pulls.contains pg then s else s.setPart pk { p with pulls := p.pulls ++ [pg] }

/-- An access of an instruction fails a check (10 R221): a fault, or a pull (R223). -/
def memFail (s : State) (cu : Cur) (b : Blk) (x : Ctx) (va : Word) (f : Fail) : Out State :=
  match f.pull with
  | some pg =>
    if s.sourceLost x.pk then failWith s cu b { f.rec' va with slot := BitVec.ofNat 7 cu.slot }
    else .next ((s.discardFrom b).askPage x.pk pg)
  | none => failWith s cu b { f.rec' va with slot := BitVec.ofNat 7 cu.slot }

/-- The place that an atomic update to a page in transit names (08 R190, 21 R456): it is forwarded and pulls nothing. A page that was fenced at
its source is pulled, because the write takes its shadow at the target. -/
def State.forwarded (s : State) (w : Who) (va : Word) (len : Nat) : Option Part' :=
  match s.walk w.pk w.asn va.toNat with
  | none => none
  | some (_, e) =>
    let pa := e.frame.toNat * 65536 + va.toNat % e.len
    if e.state = 4 && e.r && e.w && (s.pkg w.pk.pkg).keyOk w.pk.part e.key.toNat && canonical va w.pm && decide (va.toNat % len = 0) then
      match (s.part w.pk).movingAt pa with
      | some m => if m.st = 2 || m.st = 3 then none else some ⟨pa, len, e.key.toNat, (s.transOf w.pk e va).use⟩
      | none => none
    else none

/-- A block that remembers the pages its accesses have translated (19 R414). -/
def Blk.sawPages (b : Blk) (ps : List Part') : Blk := { b with vas := b.vas ++ ps.map Part'.vp }

/-- Make the checks of an access (10 R221), and go on with its events. A shoot-down that a shadow brings about may discard the block itself
(19 R414, R417). -/
def checked (s : State) (cu : Cur) (b : Blk) (x : Ctx) (va : Word) (len ew : Nat) (rd wr plain : Bool) (h : Option Trans)
    (k : State → Blk → List Part' → Out State) : Out State :=
  match s.access (b.who x) va len ew rd wr plain h with
  | (.error f, s) => memFail s cu b x va f
  | (.ok ps, s) => if (s.blks.get? cu.frame).isSome then k s (b.sawPages ps) ps else .next s

/-- A load: its size, whether it sign-extends, and its displacement field (10 R227). -/
structure LoadSpec where
  size : Nat
  signed : Bool
  disp : BitVec 9
  deriving DecidableEq, Repr

/-- The load that an instruction is. -/
def loadSpec : Instr → Option LoadSpec
  | .ldN8 l => some ⟨1, false, l.disp⟩
  | .ldS8 l => some ⟨1, true, l.disp⟩
  | .ldN16 l => some ⟨2, false, l.disp⟩
  | .ldS16 l => some ⟨2, true, l.disp⟩
  | .ldN32 l => some ⟨4, false, l.disp⟩
  | .ldS32 l => some ⟨4, true, l.disp⟩
  | .ldB64 l => some ⟨8, false, l.disp⟩
  | .ldN82t _ => some ⟨1, false, 0⟩
  | .ldS82t _ => some ⟨1, true, 0⟩
  | .ldN162t _ => some ⟨2, false, 0⟩
  | .ldS162t _ => some ⟨2, true, 0⟩
  | .ldN322t _ => some ⟨4, false, 0⟩
  | .ldS322t _ => some ⟨4, true, 0⟩
  | .ldB642t _ => some ⟨8, false, 0⟩
  | _ => none

/-- The effective address of a load (10 R220). -/
def LoadSpec.ea (l : LoadSpec) (base : Word) : Word := base + l.disp.signExtend 64 * BitVec.ofNat 64 l.size

/-- A load issues (10 R221, R228): its checks pass and its access stands outstanding, or it raises the fault of the check that fails. -/
def loadIssue (i : Info) (l : LoadSpec) (s : State) : Out State :=
  loadOp i
    (fun cu b _ a _ => withCtx s b fun x =>
      checked s cu b x (l.ea a.val) l.size a.ew true false true (b.handleOf x a) fun s b _ =>
        .next (s.setBlk cu.frame (b.updSlot cu.slot fun sl => { sl with st := .out }))) s

/-- `ld.n8` (10 R227). -/
def execLdN8 (l : FmtL) (s : State) : Out State := loadIssue (info (.ldN8 l)) ⟨1, false, l.disp⟩ s
/-- `ld.s8` (10 R227). -/
def execLdS8 (l : FmtL) (s : State) : Out State := loadIssue (info (.ldS8 l)) ⟨1, true, l.disp⟩ s
/-- `ld.n16` (10 R227). -/
def execLdN16 (l : FmtL) (s : State) : Out State := loadIssue (info (.ldN16 l)) ⟨2, false, l.disp⟩ s
/-- `ld.s16` (10 R227). -/
def execLdS16 (l : FmtL) (s : State) : Out State := loadIssue (info (.ldS16 l)) ⟨2, true, l.disp⟩ s
/-- `ld.n32` (10 R227). -/
def execLdN32 (l : FmtL) (s : State) : Out State := loadIssue (info (.ldN32 l)) ⟨4, false, l.disp⟩ s
/-- `ld.s32` (10 R227). -/
def execLdS32 (l : FmtL) (s : State) : Out State := loadIssue (info (.ldS32 l)) ⟨4, true, l.disp⟩ s
/-- `ld.b64` (10 R227). -/
def execLdB64 (l : FmtL) (s : State) : Out State := loadIssue (info (.ldB64 l)) ⟨8, false, l.disp⟩ s
/-- `ld.n8` with two targets (10 R227). -/
def execLdN82t (l : FmtL2) (s : State) : Out State := loadIssue (info (.ldN82t l)) ⟨1, false, 0⟩ s
/-- `ld.s8` with two targets (10 R227). -/
def execLdS82t (l : FmtL2) (s : State) : Out State := loadIssue (info (.ldS82t l)) ⟨1, true, 0⟩ s
/-- `ld.n16` with two targets (10 R227). -/
def execLdN162t (l : FmtL2) (s : State) : Out State := loadIssue (info (.ldN162t l)) ⟨2, false, 0⟩ s
/-- `ld.s16` with two targets (10 R227). -/
def execLdS162t (l : FmtL2) (s : State) : Out State := loadIssue (info (.ldS162t l)) ⟨2, true, 0⟩ s
/-- `ld.n32` with two targets (10 R227). -/
def execLdN322t (l : FmtL2) (s : State) : Out State := loadIssue (info (.ldN322t l)) ⟨4, false, 0⟩ s
/-- `ld.s32` with two targets (10 R227). -/
def execLdS322t (l : FmtL2) (s : State) : Out State := loadIssue (info (.ldS322t l)) ⟨4, true, 0⟩ s
/-- `ld.b64` with two targets (10 R227). -/
def execLdB642t (l : FmtL2) (s : State) : Out State := loadIssue (info (.ldB642t l)) ⟨8, false, 0⟩ s

/-- Whether a class completes an identifier of smask. -/
def Cls.stores (c : Cls) : Bool := c = .st || c = .stRes

/-- Every store-class instruction of a block with an identifier below `n` has arrived or is quenched (03 R84). -/
def Blk.storesBelow (b : Blk) (n : Nat) : Bool :=
  b.instrs.all fun e =>
    match (info e.2.2).cls.stores, (info e.2.2).id with
    | true, some i => decide (n ≤ i.toNat) || e.2.1.isOver
    | _, _ => true

/-- Every load-class instruction of a block with an identifier below `n` has delivered or is quenched (08 R185). -/
def Blk.loadsBelow (b : Blk) (n : Nat) : Bool :=
  b.instrs.all fun e =>
    match (info e.2.2).cls, (info e.2.2).id with
    | .ld, some i => decide (n ≤ i.toNat) || e.2.1.isOver
    | _, _ => true

/-- The line of 128 bytes in the pod that holds a physical address of a partition's package (10 R235). -/
def State.lineOf (s : State) (pk : PartKey) (pa : Nat) : Nat :=
  let r := s.reach pk pa
  memKey r.1 r.2 / 128

/-- The cycle of the home die of a line (10 R234, R235). -/
def State.homeCycle (s : State) (line : Nat) : Word :=
  let pa := line * 128 % 2 ^ 52
  s.cycle (line * 128 / 2 ^ 52) (if pa < 2 ^ 39 then pa / 2 ^ 37 else 0)

/-- Whether a lease's count has not reached 0 (10 R235). -/
def State.leaseRuns (s : State) (line : Nat) (till : Word) : Bool := decide (2 ^ 63 ≤ (s.homeCycle line - till).toNat)

/-- Whether a context holds the lease of a line (10 R235). -/
def State.holdsLine (s : State) (x : Ctx) (line : Nat) : Bool :=
  match x.lease.st with | .held l _ till => decide (l = line) && s.leaseRuns l till | .none | .waiting _ _ _ => false

/-- Whether a lease of another thread holds a line (10 R235). -/
def State.leasedFrom (s : State) (c : Option Nat) (line : Nat) : Bool := s.ctxs.any fun e => some e.1 ≠ c && s.holdsLine e.2 line

/-- Whether an access that came to a line still waits there (10 R235). -/
def State.atLine (s : State) (line : Nat) : LineAgent → Bool
  | .path c stamp => (match s.ctxs.get? c with | some x => x.path.any fun e => e.stamp = stamp | none => false)
  | .load f seq slot =>
    (match s.blks.get? f with
    | some b => decide (b.seq = seq) && (match b.slots[slot]? with | some sl => sl.st = .out | none => false)
    | none => false)
  | .engine c q =>
    (match s.ctxs.get? c with
    | some x => (match vecGet x.eng.eqs q [] with | o :: _ => o.running && x.live | [] => false)
    | none => false)
  | .lease c =>
    (match s.ctxs.get? c with
    | some x => (match x.lease.st with | .waiting l _ _ => decide (l = line) | .none | .held _ _ _ => false)
    | none => false)
  | .host => s.late ≠ []

/-- Whether no access stands before another at a line (10 R235). -/
def State.firstAt (s : State) (a : LineAgent) (line : Nat) : Bool :=
  match s.lineQ.find? fun e => decide (e.1 = line) && s.atLine line e.2 with | none => true | some e => decide (e.2 = a)

/-- Whether an access waits at a line (10 R235): for a lease that another thread holds, or for accesses and requests that came before it; a holder's own
accesses do not. -/
def State.lineShut (s : State) (a : LineAgent) (c : Option Nat) (line : Nat) : Bool :=
  s.leasedFrom c line
    || (!(match c.bind s.ctxs.get? with | some x => s.holdsLine x line | none => false) && !s.firstAt a line)

/-- An access comes to a line and waits there (10 R235). -/
def State.arriveAt (s : State) (a : LineAgent) (line : Nat) : State :=
  if s.lineQ.contains (line, a) then s else { s with lineQ := (s.lineQ.filter fun e => s.atLine e.1 e.2) ++ [(line, a)] }

/-- An access waits at those of its lines that are shut to it; none where none is. -/
def State.waitAt (s : State) (a : LineAgent) (c : Option Nat) (lines : List Nat) : Option State :=
  let l := lines.filter (s.lineShut a c)
  if l = [] then none else some (l.foldl (fun s n => s.arriveAt a n) s)

/-- Whether a thread's own lease of a line is requested and has not taken hold (10 R228, R235). -/
def Ctx.leasePending (x : Ctx) (line : Nat) (of : Nat → Nat) : Bool :=
  (match x.lease.st with | .waiting l _ _ => decide (l = line) | .none | .held _ _ _ => false)
    || x.path.any fun e => match e.eff with | .lease pa _ _ _ => decide (of pa = line) | _ => false

/-- Whether events write a byte of a range. -/
def evsTouch (evs : List StEvent) (pa len : Nat) : Bool := evs.any fun e => overlaps e.pa e.bytes.length pa len

/-- The bytes of an access of width 32 or 64 that an `amo` updates. -/
def amoLen (wide : Bool) : Nat := if wide then 8 else 4

/-- Whether an engine operation must still be waited for by a `qfence` (08 R187): a parked one only while its event is to be delivered. -/
def Ctx.opPending (x : Ctx) (op : Nat × Nat) : Bool :=
  ((vecGet x.eng.eqs op.1 []).any fun o =>
      o.stamp = op.2 && (o.park.isNone || (x.ctl.evpend.getLsbD 7 && !x.ctl.hm)))
    || (op.1 = 14 && x.fx.q14.any fun o => o.stamp = op.2 && (o.stop.isNone || (x.ctl.evpend.getLsbD 6 && !x.ctl.hm)))

/-- Whether an engine operation stands in its queue. -/
def Ctx.opHere (x : Ctx) (op : Nat × Nat) : Bool :=
  ((vecGet x.eng.eqs op.1 []).any fun o => o.stamp = op.2) || (op.1 = 14 && x.fx.q14.any fun o => o.stamp = op.2)

/-- Whether a `qfence` in the store path still holds later blocks (08 R187); one whose operation has parked holds again once it is resumed. -/
def Ctx.qfenced (x : Ctx) : Bool :=
  x.path.any fun e => match e.eff with | .qfence ops => ops.any x.opPending | _ => false

/-- Whether an entry of a store path is a `qfence`, which is no event. -/
def PathEff.isQfence : PathEff → Bool
  | .qfence _ => true
  | .store _ | .amo _ _ _ _ _ _ _ _ _ | .lease _ _ _ _ | .unlease _ | .fence _ | .cmd _ | .bound _ _ _ => false

/-- Whether entries below a stamp are left that a fence waits for (08 R185). -/
def Ctx.eventsUnder (x : Ctx) (below : Nat) : Bool := x.path.any fun g => decide (g.stamp < below) && !g.eff.isQfence

/-- The entries of a store path before an entry. -/
def Ctx.before (x : Ctx) (e : PathEnt) : List PathEnt := x.path.filter fun g => g.stamp < e.stamp

/-- Whether a fence or a `qfence` before an entry holds it (08 R185, R187). -/
def Ctx.fencedOff (x : Ctx) (e : PathEnt) : Bool :=
  (x.before e).any fun f =>
    match f.eff with
    | .fence below => x.eventsUnder below
    | .qfence ops => ops.any x.opPending
    | _ => false

/-- Whether an older block in flight leaves a load of a range free to perform (10 R228). -/
def Blk.clears (b : Blk) (ps : List Part') : Bool :=
  (b.instrs.all fun e => !(info e.2.2).cls.stores || e.2.1.isOver)
    && b.effs.all fun e =>
      match e.2 with
      | .store evs => ps.all fun p => !evsTouch evs p.pa p.len
      | .amo _ pa _ _ wide _ _ _ => ps.all fun p => !overlaps pa (amoLen wide) p.pa p.len
      | .lease pa _ _ _ => ps.all fun p => !overlaps (pa / 128 * 128) 128 p.pa p.len
      | .qfence _ => false
      | _ => true

/-- Whether an atomic update of a thread has not yet been performed on a byte of a range (10 R234). -/
def Ctx.amoPending (x : Ctx) (ps : List Part') : Bool :=
  x.path.any fun e =>
    match e.eff with
    | .amo _ pa _ _ wide _ _ _ _ => ps.any fun p => overlaps pa (amoLen wide) p.pa p.len
    | _ => false

/-- Whether a load of device registers waits for the thread's committed stores there (07 R158). -/
def State.regsPending (s : State) (x : Ctx) (ps : List Part') : Bool :=
  let reg := fun pa => match (s.pkg x.pk.pkg).space pa with | .regs _ => true | .hbm _ _ | .lpddr | .remote _ _ | .hole => false
  (ps.any fun p => reg p.pa)
    && x.path.any fun e => match e.eff with | .store evs => evs.any fun v => reg v.pa | _ => false

/-- Whether a load may perform (10 R228): the home of each byte can be reached (20 R426). -/
def State.loadReady (s : State) (x : Ctx) (b : Blk) (id : Nat) (ps : List Part') : Bool :=
  b.storesBelow id && ((s.older b).all fun e => e.2.clears ps) && !x.qfenced && !x.amoPending ps && !s.regsPending x ps
    && ps.all fun p =>
      s.homeUp x.pk (s.dieN x) p.pa && !x.leasePending (s.lineOf x.pk p.pa) (s.lineOf x.pk)

/-- The byte that a list of events, in order, leaves at an address. -/
def lastByte (evs : List StEvent) (pa : Nat) : Option Byte :=
  evs.foldl (fun r e => if e.pa ≤ pa ∧ pa < e.pa + e.bytes.length then e.bytes[pa - e.pa]? else r) none

/-- The events of the stores in a store path. -/
def Ctx.pathEvents (x : Ctx) : List StEvent :=
  x.path.flatMap fun e => match e.eff with | .store evs => evs | _ => []

/-- Insert an effect in ascending order of identifiers. -/
def insertEff (e : Nat × Eff) : List (Nat × Eff) → List (Nat × Eff)
  | [] => [e]
  | a :: r => if e.1 < a.1 then e :: a :: r else a :: insertEff e r

/-- The effects of a block in ascending order of identifiers (03 R84). -/
def Blk.sortedEffs (b : Blk) : List (Nat × Eff) := b.effs.foldl (fun l e => insertEff e l) []

/-- The events of a block's stores with identifiers below `n`, in their order (03 R84). -/
def Blk.eventsBelow (b : Blk) (n : Nat) : List StEvent :=
  (b.sortedEffs.filter fun e => e.1 < n).flatMap fun e => match e.2 with | .store evs => evs | _ => []

/-- The bytes that one event of a load returns (10 R228): from stores of its block or its thread, else from memory. -/
def State.loadPart (s : State) (pk : PartKey) (evs : List StEvent) (p : Part') : List Byte :=
  (s.readEv pk p).mapIdx fun j m => (lastByte evs (p.pa + j)).getD m

/-- Whether an event of a load takes a byte from memory whose check value fails (01 R36). -/
def State.loadFails (s : State) (pk : PartKey) (evs : List StEvent) (p : Part') : Bool :=
  s.memFails pk p && (List.range p.len).any fun j => (lastByte evs (p.pa + j)).isNone

/-- The 64-bit value of loaded bytes (10 R227). -/
def LoadSpec.value (l : LoadSpec) (bs : List Byte) : Word :=
  let v := bytesW bs
  if l.signed then sextW (8 * l.size) v else v

/-- A load performs its next event (08 R175), and with the last delivers its token (10 R228). -/
def loadNow (s : State) (cu : Cur) (b : Blk) (sl : Slot) (x : Ctx) (i : Instr) (l : LoadSpec) (a : Tok) : Out State :=
  let va := l.ea a.val
  checked s cu b x va l.size a.ew true false true (b.handleOf x a) fun s b ps =>
    let id := match (info i).id with | some n => n.toNat | none => 0
    let todo := ps.drop sl.got.length
    if !s.loadReady x b id todo then .next s
    else
      match todo with
      | [] => .next s
      | p :: more =>
        match s.waitAt (.load cu.frame b.seq cu.slot) (some b.ctx) [s.lineOf x.pk p.pa] with
        | some s => .next s
        | none =>
          let s := s.redirected x.pk p.pa
          let evs := x.pathEvents ++ b.eventsBelow id
          if s.loadFails x.pk evs p then .next (s.detected x.pk)
          else
            let got := sl.got ++ [s.loadPart x.pk evs p]
            if more ≠ [] then .next (s.setBlk cu.frame (b.updSlot cu.slot fun sl => { sl with got := got }))
            else
              let t := Tok.ofWord (l.value got.flatten)
              .next (s.setBlk cu.frame (b.sends cu.slot sl (info i) t t))

/-- LOAD_PERFORM (10 R228). -/
def execLoadPerform (s : State) : Out State :=
  match s.site with
  | .slot cu =>
    match s.blks.get? cu.frame with
    | none => .next s
    | some b =>
      match b.slots[cu.slot]?, s.ctxs.get? b.ctx with
      | some sl, some x =>
        match decode sl.plane sl.word, sl.l with
        | .ok i, some a =>
          match loadSpec i with
          | some l => if sl.st = .out then loadNow s cu b sl x i l a else .next s
          | none => .next s
        | _, _ => .next s
      | _, _ => .next s
  | _ => .fault .noSite

/-- Whether a translated address has a physical target that some access may have (10 R224): `xlate` names no size. -/
def State.targetAny (s : State) (w : Who) (pa : Nat) (wr : Bool) : Bool :=
  match (s.pkg w.pk.pkg).space pa with
  | .regs off => s.targetOk w (pa - off % 8) 8 wr true true
  | .hbm _ _ | .lpddr | .remote _ _ | .hole => s.targetOk w pa 1 wr true true

/-- Steps 2 to 5 of R221 as `xlate` runs them (10 R224): for a read, and for a write where it is asked; no shadow is taken. -/
def State.probeAddr (s : State) (w : Who) (va : Word) (wr : Bool) (h : Option Trans) : Except Fail Trans × State :=
  match s.translate w va 1 true wr false h with
  | (.error f, s) => (.error f, s)
  | (.ok t, s) =>
    if s.targetAny w (t.frame + (va.toNat - t.vbase)) wr then (.ok t, s) else (.error { code := 0x12, step := 5 }, s)

/-- Load a handle at commit (10 R224); a second completion of one handle is a token collision (03 R83). -/
def Blk.claim (b : Blk) (n : Nat) (th : BitVec 4) (t : Option Trans) (k : Blk → Blk) : Blk :=
  if b.handles.any fun e => e.1 = th.toNat then b.fails n (slotFault 0x05 n)
  else k { b with handles := b.handles ++ [(th.toNat, t)] }

/-- The token and the handle of an `xlate` (10 R224). -/
def Blk.xlated (b : Blk) (n : Nat) (sl : Slot) (i : Info) (th : BitVec 4) (l : Tok) : Except Fail Trans → Blk
  | .ok t =>
    b.claim n th (some t) fun b =>
      { b.sends n sl i (.ctl l.val (some th) l.ew) .null with vas := b.vas ++ [t.use] }
  | .error f =>
    match f.pull with
    | some _ => b.claim n th none fun b => b.sends n sl i (.ctl l.val (some th) l.ew) .null
    | none => b.sends n sl i (.fault l.val f.code f.step f.sub) .null

/-- `xlate` (10 R224). -/
def execXlate (p : Pred) (id : Ident) (wr : Bool) (th : BitVec 4) (t1 : Tgt) (s : State) : Out State :=
  let i := info (.xlate p id wr th t1)
  withSlot s fun cu b sl =>
    match gate i sl with
    | .missing => .next s
    | .null => .next (s.setBlk cu.frame (b.sends cu.slot sl i .null .null))
    | .predFault t => .next (s.setBlk cu.frame (b.fails cu.slot (tokFault t cu.slot)))
    | .go l _ =>
      if l.isFault then .next (s.setBlk cu.frame (b.sends cu.slot sl i l .null))
      else if !b.storesBelow id.toNat then .next s
      else
        withCtx s b fun x =>
          let r := s.probeAddr (b.who x) l.val wr (b.handleOf x l)
          .next (r.2.setBlk cu.frame (b.xlated cu.slot sl i th l r.1))

/-- The translation of an `xprobe`'s address as its steps find it (10 R226), by the handle that serves it, a walk-cache entry or the walk: page size, and
whether the page permits writes and reads; none where no entry maps it. -/
def State.probedPage (s : State) (w : Who) (va : Word) (wr : Bool) (h : Option Trans) : Option (Nat × Bool × Bool) :=
  if !canonical va w.pm then none
  else
    match h.bind fun t => if t.serves w.asn va 1 true wr then some t else none with
    | some t => some (pgNum t.size, t.wr, t.rd)
    | none => (s.lookup w.pk w.core w.asn va.toNat).1.map fun e => (e.size.toNat, e.w, e.r)

/-- The status token of an `xprobe` (10 R226). -/
def probeWord (r : Except Fail Trans) (e : Option (Nat × Bool × Bool)) : Word :=
  let cause := match r with
    | .ok _ => 0
    | .error f => if f.pull.isSome then 0 else if f.code = 0x12 then 1 else if f.code = 0x10 then 2 else 3
  at' cause 6 ||| bitAt (decide (cause = 0)) 0
    ||| match e with
      | some e => at' e.1 4 ||| bitAt e.2.1 3 ||| bitAt e.2.2 2 ||| bitAt true 1
      | none => 0

/-- The block after an `xprobe` (10 R226): its status, and the handle where it may be loaded. -/
def Blk.probed (b : Blk) (n : Nat) (sl : Slot) (i : Info) (th : BitVec 4) (r : Except Fail Trans) (e : Option (Nat × Bool × Bool)) : Blk :=
  let t := Tok.ofWord (probeWord r e)
  match r with
  | .ok tr => b.claim n th (some tr) fun b => { b.sends n sl i t .null with vas := b.vas ++ [tr.use] }
  | .error f =>
    if f.pull.isSome then b.claim n th none fun b => b.sends n sl i t .null else b.sends n sl i t .null

/-- `xprobe` (10 R226). -/
def execXprobe (p : Pred) (id : Ident) (wr : Bool) (th : BitVec 4) (t1 : Tgt) (s : State) : Out State :=
  let i := info (.xprobe p id wr th t1)
  withSlot s fun cu b sl =>
    match gate i sl with
    | .missing => .next s
    | .null => .next (s.setBlk cu.frame (b.sends cu.slot sl i .null .null))
    | .predFault t => .next (s.setBlk cu.frame (b.fails cu.slot (tokFault t cu.slot)))
    | .go l _ =>
      if l.isFault then .next (s.setBlk cu.frame (b.sends cu.slot sl i (Tok.ofWord (at' 1 6)) .null))
      else if !b.storesBelow id.toNat then .next s
      else
        withCtx s b fun x =>
          let r := s.probeAddr (b.who x) l.val wr (b.handleOf x l)
          .next (r.2.setBlk cu.frame
            (b.probed cu.slot sl i th r.1 (s.probedPage (b.who x) l.val wr (b.handleOf x l))))

/-- The effective address of a prefetch (10 R220). -/
def prefAddr (l : FmtL) (base : Word) : Word := base + l.disp.signExtend 64 * 128

/-- Whether a prefetch is sent (10 R231). -/
def State.prefSent (s : State) (w : Who) (va : Word) (h : Option Trans) : Bool × State :=
  match s.probeAddr w va false h with
  | (.ok t, s) =>
    (match (s.pkg w.pk.pkg).space (t.frame + (va.toNat - t.vbase)) with
      | .regs _ => false
      | .hbm _ _ | .lpddr | .remote _ _ | .hole => true, s)
  | (.error _, s) => (false, s)

/-- `pref` (10 R231). -/
def execPref (l : FmtL) (s : State) : Out State :=
  let i := info (.pref l)
  withSlot s fun cu b sl =>
    match gate i sl with
    | .missing => .next s
    | .null => .next (s.setBlk cu.frame (b.sends cu.slot sl i .null .null))
    | .predFault t => .next (s.setBlk cu.frame (b.fails cu.slot (tokFault t cu.slot)))
    | .go a _ =>
      if a.isFault then .next (s.setBlk cu.frame (b.sends cu.slot sl i (Tok.ofWord 0) .null))
      else if !b.storesBelow l.id.toNat then .next s
      else
        withCtx s b fun x =>
          let r := s.prefSent (b.who x) (prefAddr l a.val) (b.handleOf x a)
          .next (r.2.setBlk cu.frame (b.sends cu.slot sl i (Tok.ofWord (bitAt r.1 0)) .null))

/-- The events of a store with their bytes; `e` is the width of an event before it is cut at a 64-byte boundary, `o` the offset of the next. -/
def storeEvents (e : Nat) : List Part' → List Byte → Nat → List StEvent
  | [], _, _ => []
  | p :: r, bs, o =>
    { pa := p.pa, key := p.key, vp := p.vp, bytes := bs.take p.len, cut := decide (o % e ≠ 0) } :: storeEvents e r (bs.drop p.len) (o + p.len)

/-- The effective address of a store (10 R220). -/
def storeAddr (disp : BitVec 18) (base : Word) : Word := base + disp.signExtend 64

/-- A store arrives (10 R229): its events stand in the block until commit. -/
def storeIssue (i : Info) (id : Ident) (disp : BitVec 18) (size : Nat) (s : State) : Out State :=
  storeOp i id
    (fun cu b _ a d => withCtx s b fun x =>
      checked s cu b x (storeAddr disp a.val) size d.ew false true true (b.handleOf x a) fun s b ps =>
        completeWith s cu b id (.store (storeEvents (min d.ew size) ps (leBytes size d.val.toNat) 0))) s

/-- `st.b8` (10 R229). -/
def execStB8 (p : Pred) (id : Ident) (disp : BitVec 18) (s : State) : Out State := storeIssue (info (.stB8 p id disp)) id disp 1 s
/-- `st.b16` (10 R229). -/
def execStB16 (p : Pred) (id : Ident) (disp : BitVec 18) (s : State) : Out State := storeIssue (info (.stB16 p id disp)) id disp 2 s
/-- `st.b32` (10 R229). -/
def execStB32 (p : Pred) (id : Ident) (disp : BitVec 18) (s : State) : Out State := storeIssue (info (.stB32 p id disp)) id disp 4 s
/-- `st.b64` (10 R229). -/
def execStB64 (p : Pred) (id : Ident) (disp : BitVec 18) (s : State) : Out State := storeIssue (info (.stB64 p id disp)) id disp 8 s

/-- An `amo` arrives (10 R232): checks for read and write, then alignment (R221 step 6). -/
def amoIssue (i : Info) (id : Ident) (op : AmoOp) (wide : Bool) (sc : Scope) (ord : Bool) (s : State) : Out State :=
  storeOp i id
    (fun cu b _ a v => withCtx s b fun x =>
      match s.forwarded (b.who x) a.val (amoLen wide) with
      | some q => completeWith s cu (b.sawPages [q]) id (.amo op q.pa q.key q.vp wide v.val sc ord)
      | none =>
      checked s cu b x a.val (amoLen wide) (amoLen wide) true true false (b.handleOf x a) fun s b ps =>
        if a.val.toNat % amoLen wide ≠ 0 then memFail s cu b x a.val { code := 0x12, step := 6 }
        else
          match ps with
          | [] => .next s
          | p :: _ => completeWith s cu b id (.amo op p.pa p.key p.vp wide v.val sc ord)) s

/-- `amo.add` (10 R232). -/
def execAmoAdd (p : Pred) (id : Ident) (sc : Scope) (wide ord : Bool) (s : State) : Out State :=
  amoIssue (info (.amoAdd p id sc wide ord)) id .add wide sc ord s
/-- `amo.add.f32` (10 R232). -/
def execAmoAddF32 (p : Pred) (id : Ident) (sc : Scope) (ord : Bool) (s : State) : Out State :=
  amoIssue (info (.amoAddF32 p id sc ord)) id .addF32 false sc ord s
/-- `amo.min` on signed numbers (10 R232). -/
def execAmoMinS (p : Pred) (id : Ident) (sc : Scope) (wide ord : Bool) (s : State) : Out State :=
  amoIssue (info (.amoMinS p id sc wide ord)) id .minS wide sc ord s
/-- `amo.max` on signed numbers (10 R232). -/
def execAmoMaxS (p : Pred) (id : Ident) (sc : Scope) (wide ord : Bool) (s : State) : Out State :=
  amoIssue (info (.amoMaxS p id sc wide ord)) id .maxS wide sc ord s
/-- `amo.min` on unsigned numbers (10 R232). -/
def execAmoMinN (p : Pred) (id : Ident) (sc : Scope) (wide ord : Bool) (s : State) : Out State :=
  amoIssue (info (.amoMinN p id sc wide ord)) id .minN wide sc ord s
/-- `amo.max` on unsigned numbers (10 R232). -/
def execAmoMaxN (p : Pred) (id : Ident) (sc : Scope) (wide ord : Bool) (s : State) : Out State :=
  amoIssue (info (.amoMaxN p id sc wide ord)) id .maxN wide sc ord s
/-- `amo.and` (10 R232). -/
def execAmoAnd (p : Pred) (id : Ident) (sc : Scope) (wide ord : Bool) (s : State) : Out State :=
  amoIssue (info (.amoAnd p id sc wide ord)) id .and wide sc ord s
/-- `amo.or` (10 R232). -/
def execAmoOr (p : Pred) (id : Ident) (sc : Scope) (wide ord : Bool) (s : State) : Out State :=
  amoIssue (info (.amoOr p id sc wide ord)) id .or wide sc ord s
/-- `amo.xor` (10 R232). -/
def execAmoXor (p : Pred) (id : Ident) (sc : Scope) (wide ord : Bool) (s : State) : Out State :=
  amoIssue (info (.amoXor p id sc wide ord)) id .xor wide sc ord s

/-- `lease` (10 R235): the field holds the cycles less one. -/
def execLease (p : Pred) (id : Ident) (cyc : BitVec 12) (s : State) : Out State :=
  storeOp (info (.lease p id cyc)) id
    (fun cu b _ a _ => withCtx s b fun x =>
      checked s cu b x a.val 1 8 true true false (b.handleOf x a) fun s b ps =>
        match ps, s.translate (b.who x) a.val 1 true true true (b.handleOf x a) with
        | q :: _, (.ok t, s) => completeWith s cu b id (.lease q.pa t a.val (cyc.toNat + 1))
        | _, (_, s) => .next s) s

/-- `unlease` (10 R235). -/
def execUnlease (p : Pred) (id : Ident) (s : State) : Out State :=
  storeOp (info (.unlease p id)) id
    (fun cu b _ a _ => withCtx s b fun x =>
      checked s cu b x a.val 1 8 true true false (b.handleOf x a) fun s b ps =>
        match ps with
        | [] => .next s
        | q :: _ => completeWith s cu b id (.unlease q.pa)) s

/-- The loads before an acquiring fence have delivered (08 R185). -/
def State.acqReady (s : State) (b : Blk) (id : Nat) : Bool :=
  b.loadsBelow id && (s.older b).all fun e => e.2.loadsBelow 32

/-- Every store-class event of earlier blocks has been performed (08 R185). -/
def State.pathDone (s : State) (x : Ctx) (b : Blk) : Bool :=
  (x.path.all fun e => e.eff.isQfence) && (s.older b).all fun e => e.2.hdr.smask = 0

/-- `fence.acq` (10 R237, 08 R185). -/
def execFenceAcq (p : Pred) (id : Ident) (sc : Scope) (s : State) : Out State :=
  storeOp (info (.fenceAcq p id sc)) id
    (fun cu b _ _ _ => if s.acqReady b id.toNat then completeWith s cu b id (.fence true false sc) else .next s) s

/-- `fence.rel` (10 R237, 08 R185). -/
def execFenceRel (p : Pred) (id : Ident) (sc : Scope) (s : State) : Out State :=
  storeOp (info (.fenceRel p id sc)) id (fun cu b _ _ _ => completeWith s cu b id (.fence false true sc)) s

/-- `fence.ar` (10 R237, 08 R185). -/
def execFenceAr (p : Pred) (id : Ident) (sc : Scope) (s : State) : Out State :=
  storeOp (info (.fenceAr p id sc)) id
    (fun cu b _ _ _ => withCtx s b fun x =>
      if s.acqReady b id.toNat && s.pathDone x b then completeWith s cu b id (.fence true true sc) else .next s) s

/-- `qfence` (10 R237, 08 R187). -/
def execQfence (p : Pred) (id : Ident) (set : BitVec 16) (s : State) : Out State :=
  storeOp (info (.qfence p id set)) id (fun cu b _ _ _ => completeWith s cu b id (.qfence set)) s

end Sys2Proof.Machine
end

