-- ==== Sys2Proof/Machine/Atomic.lean ====
section
/-!
DEFINITION. Atomic updates at their homes (10 R232 to R234, 08 R184).
-/
namespace Sys2Proof.Machine

/-- The new value of an update (10 R233), of `w` bits. -/
def amoNew (op : AmoOp) (w old v : Nat) : Nat :=
  match op with
  | .add => (old + v) % 2 ^ w
  | .addF32 => (fltBin .add f32Fmt false old v).1
  | .minS => if intOfBits true w old ≤ intOfBits true w v then old else v
  | .maxS => if intOfBits true w old ≤ intOfBits true w v then v else old
  | .minN => if old ≤ v then old else v
  | .maxN => if old ≤ v then v else old
  | .and => old &&& v
  | .or => old ||| v
  | .xor => old ^^^ v

/-- The operand of an update at its width. -/
def AmoReq.opnd (r : AmoReq) : Nat := r.v.toNat % 2 ^ (8 * amoLen r.wide)

/-- Whether two updates may merge (08 R184): the same location, operation and width, neither with `.ord`. -/
def AmoReq.merges (r o : AmoReq) : Bool :=
  !r.ord && !o.ord && r.pk = o.pk && decide (r.pa = o.pa) && r.op = o.op && r.wide = o.wide

/-- Whether an update waits at its source (10 R234): LPDDR while the hub boundary of die 0 is down. -/
def State.amoWaits (s : State) (r : AmoReq) : Bool :=
  (s.pkg r.pk.pkg).space r.pa = .lpddr && (s.link ⟨r.pk.pkg, .die, 4⟩).st = .down

/-- Whether an update waits at its home for its line (10 R235). -/
def State.amoShut (s : State) (r : AmoReq) : Bool :=
  r.srcs.any fun z => s.lineShut (.path z.ctx z.stamp) (some z.ctx) (s.lineOf r.pk r.pa)

/-- The package, the die and the granule of the home of an update (10 R234). -/
def State.homeOf (s : State) (r : AmoReq) : Nat × Nat × Nat :=
  let h := s.reach r.pk r.pa
  (h.1, (if h.2 < 2 ^ 39 then h.2 / 2 ^ 37 else 0), h.2 / 128)

/-- Whether two updates have one home (10 R234): a unit of one die, which their granules select (log 136). -/
def State.sameHome (s : State) (r o : AmoReq) : Bool :=
  let a := s.homeOf r
  let b := s.homeOf o
  decide (a.1 = b.1) && decide (a.2.1 = b.2.1) && (decide (a.2.2 = b.2.2) || decide (Config.homeUnit a.2.2 = Config.homeUnit b.2.2))

/-- Whether two updates may merge before their home (10 R234): each scope takes in the other's core. -/
def scopeMeets (p : Pkg) (a b : AmoSrc) : Bool :=
  let one := fun (sc : Scope) =>
    match sc with
    | .ln | .co => decide (a.core = b.core)
    | .qd => decide (quadOf a.core = quadOf b.core)
    | .di => decide (p.dieOf a.core = p.dieOf b.core)
    | .pk | .pd => false
  one a.sc && one b.sc

/-- Whether an update may join another that is on its way (10 R234). -/
def State.joins (s : State) (r o : AmoReq) : Bool :=
  r.merges o && r.srcs.all fun a => o.srcs ≠ [] && o.srcs.all (scopeMeets (s.pkg r.pk.pkg) a)

/-- An update joins one that is on its way, by a free choice. -/
def joinAmo (r : AmoReq) (may : AmoReq → Bool) : List AmoReq → State → Option (List AmoReq) × State
  | [], s => (none, s)
  | o :: l, s =>
    let d := s.drawBool
    if may o && d.1 then
      (some ({ o with srcs := o.srcs ++ r.srcs, v := BitVec.ofNat 64 (amoNew r.op (8 * amoLen r.wide) o.opnd r.opnd) } :: l), d.2)
    else
      let t := joinAmo r may l (if may o then d.2 else s)
      (t.1.map (o :: ·), t.2)

/-- An update leaves its core (10 R234): within its scope it may merge with one on its way, else it goes to its home. -/
def State.sendAmo (s : State) (r : AmoReq) : State :=
  match joinAmo r (s.joins r) s.amos s with
  | (some l, t) => { t with amos := l }
  | (none, t) => { t with amos := t.amos ++ [r] }

/-- Perform one update event with an operand (10 R233): none where the old check value fails. One to a page in transit is performed at the source
(21 R456). -/
def State.amoApply (s : State) (r : AmoReq) (v : Nat) : Option State :=
  let n := amoLen r.wide
  match (s.part r.pk).movingAt r.pa with
  | some m =>
    let k := s.pkgOfNum (s.part r.pk).opkg.toNat
    let pa := m.src * 65536 + (r.pa - m.dst * 65536)
    let key := (s.pkg k).key r.key
    if s.checkFails k pa (some key) then none
    else some (s.pokeKey k pa (leBytes n (amoNew r.op (8 * n) (leNat (s.peeks k pa n)) v)) key)
  | none =>
    let h := s.reach r.pk r.pa
    let old := leNat (s.peeks h.1 h.2 n)
    s.writeEv r.pk r.pa r.key (leBytes n (amoNew r.op (8 * n) old v))

/-- What a home does with the updates of its window when it performs one. -/
structure Merged where
  v : Nat
  taken : List AmoReq
  left : List AmoReq
  s : State

/-- Merge the updates that wait in a window of `k` more tokens into one (08 R184), each that may by a free choice. -/
def mergeAmos (r : AmoReq) (near may : AmoReq → Bool) : Nat → List AmoReq → Nat → State → Merged
  | _, [], v, s => ⟨v, [], [], s⟩
  | k, o :: l, v, s =>
    let d := s.drawBool
    let here := near o && decide (0 < k)
    let k' := if near o then k - 1 else k
    if here && may o && d.1 then
      let m := mergeAmos r near may k' l (amoNew r.op (8 * amoLen r.wide) v o.opnd) d.2
      { m with taken := o :: m.taken }
    else
      let m := mergeAmos r near may k' l v (if here && may o then d.2 else s)
      { m with left := o :: m.left }

/-- An update of a thread has been performed: its entries leave the store path (10 R234). -/
def State.amoDone (s : State) (r : AmoReq) : State :=
  r.srcs.foldl (fun s z => s.updCtx z.ctx fun x => { x with path := x.path.filter fun e => e.stamp ≠ z.stamp }) s

/-- Perform an update, with those waiting in its home's window of 64 that merge with it (08 R184); a failed check is a detected error. -/
def State.amoNow (s : State) (r : AmoReq) (rest : List AmoReq) : State :=
  let m := mergeAmos r (s.sameHome r) (fun o => r.merges o && !s.amoShut o) 63 rest r.opnd s
  let s := { m.s with amos := m.left }
  let s := s.redirected r.pk r.pa
  match s.amoApply r m.v with
  | none => s.detected r.pk
  | some s => (r :: m.taken).foldl State.amoDone s

/-- Whether an earlier update with `.ord` to a shared location stands before one with `.ord` (08 R184). -/
def ordBefore (r : AmoReq) (l : List AmoReq) : Bool :=
  r.ord && l.any fun o => o.ord && o.pk.pkg = r.pk.pkg && overlaps o.pa (amoLen o.wide) r.pa (amoLen r.wide)

/-- AMO_HOME_UPDATE (10 R233): a home performs the update at a place of its window. -/
def execAmoHomeUpdate (s : State) : Out State :=
  match s.site with
  | .num n =>
    match s.amos[n]? with
    | none => .next s
    | some r =>
      if 64 ≤ ((s.amos.take n).filter (s.sameHome r)).length || ordBefore r (s.amos.take n) || s.amoWaits r then .next s
      else if s.amoShut r then
        .next (r.srcs.foldl (fun s z => (s.waitAt (.path z.ctx z.stamp) (some z.ctx) [s.lineOf r.pk r.pa]).getD s) s)
      else .next (s.amoNow r (s.amos.eraseIdx n))
  | _ => .fault .noSite

end Sys2Proof.Machine
end

