-- ==== Sys2Proof/Machine/QueueOps.lean ====
section
/-!
DEFINITION. The queue instructions as they issue (14 R326 to R338): `qpop`, `qpush`, the pops, peeks and pushes of ports, `steer`, `collect` and `rtcfg`.
-/
namespace Sys2Proof.Machine

/-- The partition queue that a `qpop` names, once its operand has arrived. -/
def popQueue (x : Ctx) (sl : Slot) : Instr → Option (Option QRef)
  | .qpop _ _ _ => some (sl.l.map fun t => .part (objKey x.pk (fld t.val 0 12)))
  | .qpopBq _ _ _ => some (some .bq)
  | _ => none

/-- Whether a slot is an undecided pop that may be of a queue. -/
def openPop (x : Ctx) (q : QRef) (e : Nat × Slot × Instr) : Bool :=
  match popQueue x e.2.1 e.2.2 with
  | none => false
  | some none => !e.2.1.isOver
  | some (some r) => r = q && !e.2.1.isOver

/-- Whether an instruction is a fence that later load-class instructions wait for (08 R185). -/
def acquires : Instr → Bool
  | .fenceAcq _ _ _ | .fenceAr _ _ _ => true
  | _ => false

/-- Whether an access pop is not to perform yet, whatever its queue holds: a fence of an older block that acquires is not complete (08 R185), or an
earlier pop of its thread that may be of the queue is undecided (03 R84). -/
def State.popOpen (s : State) (b : Blk) (x : Ctx) (q : QRef) (id : Nat) : Bool :=
  ((s.older b).any fun o => o.2.instrs.any fun e => (acquires e.2.2 && !e.2.1.isOver) || openPop x q e)
    || b.instrs.any fun e => (match (info e.2.2).id with | some i => decide (i.toNat < id) | none => false) && openPop x q e

/-- Whether another thread holds a tentative take of a queue (14 R325). -/
def State.tookByOthers (s : State) (b : Blk) (q : QRef) : Bool :=
  q ≠ .bq && s.blks.any fun e => (e.2.ctx ≠ b.ctx || e.2.u ≠ b.u) && decide (0 < e.2.took q)

/-- The position that an access pop takes (03 R84, R88): none while it is not to perform yet, or another thread holds a tentative take of the queue
(14 R325), or the core does not reach its window (20 R426). -/
def State.popPos (s : State) (b : Blk) (x : Ctx) (q : QRef) (id : Nat) : Option Nat :=
  if s.tookByOthers b q || s.popOpen b x q id || (match q with | .part k => !s.queueUp x k | .bq => false) then none
  else some (((s.older b).map fun o => o.2.took q).sum + b.took q)

/-- What an access pop finds (14 R317, R333). -/
def State.popFind (s : State) (b : Blk) (x : Ctx) (q : QRef) (id : Nat) : Avail :=
  match s.popPos b x q id with
  | none => .wait
  | some p =>
    match q with
    | .part k => (s.queue k).availAt p
    | .bq => match x.ports.bq[p]? with | some v => .elem { bits := v.setWidth 4096 } | none => .wait

/-- Whether a queue holds no token but those that blocks in flight have taken (02 R63). -/
def State.dry (s : State) (x : Ctx) (c : Nat) : QRef → Bool
  | .part k => decide ((s.queue k).els.length ≤ (s.blks.map fun e => e.2.took (.part k)).sum)
  | .bq => decide (x.ports.bq.length ≤ (s.blks.map fun e => if e.2.ctx = c then e.2.took .bq else 0).sum)

/-- An access pop holds its slot for want of a token, which may be a loss of decoupling (02 R56, R63). -/
def popHold (s : State) (cu : Cur) (b : Blk) (x : Ctx) (q : QRef) : Out State :=
  let s' := s.setBlk cu.frame (b.updSlot cu.slot fun sl => { sl with st := .held, why := some (.token q) })
  let loss := match q with | .bq => true | .part k => s.streamFed k
  .next (if loss && s.dry x b.ctx q then s'.countHold b.ctx 2 else s')

/-- An access pop takes its token, or holds (14 R333); one that is not to perform yet waits in its slot. -/
def popNow (s : State) (cu : Cur) (b : Blk) (sl : Slot) (x : Ctx) (i : Info) (q : QRef) (id : Nat) : Out State :=
  if s.popOpen b x q id then .next s
  else
    match s.popFind b x q id with
    | .elem e => .next (s.setBlk cu.frame (b.takes' cu.slot sl i (elemTok false e) [q]))
    | .ended => .next (s.setBlk cu.frame (b.takes' cu.slot sl i .null []))
    | .wait => popHold s cu b x q

/-- The queue fault of a `qpop` (14 R331, R333): 0 where there is none. -/
def State.qpopFault (s : State) (x : Ctx) (v : Word) : Nat :=
  let q := s.queue (objKey x.pk (fld v 0 12))
  if 4096 ≤ v.toNat then 9 else if q.state = .unallocated then 2 else if q.plane then 3 else if !q.consk then 5 else 0

/-- `qpop` of a partition queue (14 R333). -/
def execQpop (p : Pred) (id : Ident) (t1 : Tgt) (s : State) : Out State :=
  let i := info (.qpop p id t1)
  loadOp i
    (fun cu b sl l _ => withCtx s b fun x =>
      if s.qpopFault x l.val ≠ 0 then subFault s cu b 0x30 (s.qpopFault x l.val)
      else if !b.storesBelow id.toNat then .next s
      else popNow s cu b sl x i (.part (objKey x.pk (fld l.val 0 12))) id.toNat) s

/-- `qpop` of `bq` (14 R326, R333). -/
def execQpopBq (p : Pred) (id : Ident) (t1 : Tgt) (s : State) : Out State :=
  let i := info (.qpopBq p id t1)
  loadOp i
    (fun cu b sl _ _ => withCtx s b fun x =>
      if x.ctl.aonly then subFault s cu b 0x30 6
      else if !b.storesBelow id.toNat then .next s
      else popNow s cu b sl x i .bq id.toNat) s

/-- Whether a queue is sealed, frozen or not (14 R317). -/
def Queue.isSealed (q : Queue) : Bool := q.state = .sealed || (q.state = .frozen && q.prev = .sealed)

/-- Whether an append to a queue would reach a sealed one: the queue, or under `mcast` a destination (14 R331, R338); one that is frozen holds it (R317). -/
def State.reachesSealed (s : State) (k : PKey) : Bool := ((s.queue k).dests k).any fun d => (s.queue d).state = .sealed

/-- The queue fault of a `qpush` (14 R331, R332): 0 where there is none. -/
def State.qpushFault (s : State) (k : PKey) : Nat :=
  let q := s.queue k
  if q.state = .unallocated then 2 else if q.plane then 3 else if !q.prodk then 5 else if s.reachesSealed k then 4 else 0

/-- An access push holds its slot, a full hold (02 R63). -/
def pushHold (s : State) (cu : Cur) (b : Blk) (w : HoldWhy) : Out State :=
  .next ((s.setBlk cu.frame (b.updSlot cu.slot fun sl => { sl with st := .held, why := some w })).countHold b.ctx 1)

/-- `qpush` to a partition queue (14 R332): it reserves an entry, or holds. -/
def execQpush (p : Pred) (id : Ident) (q : BitVec 12) (s : State) : Out State :=
  storeOp (info (.qpush p id q)) id
    (fun cu b _ l _ => withCtx s b fun x =>
      let k := objKey x.pk q.toNat
      if s.qpushFault k ≠ 0 then subFault s cu b 0x30 (s.qpushFault k)
      else if s.roomOf x k = 0 then pushHold s cu b (.entry k)
      else completeWith s cu b id (.qpush q.toNat l.val)) s

/-- Whether a binding command keeps R327. -/
def bindOk (v : Word) : Bool :=
  let op := fld v 60 4
  decide (1 ≤ op) && decide (op ≤ 4) && decide (fld v 45 15 = 0) && !v.getLsbD 39 && decide (fld v 12 26 = 0)
    && !(v.getLsbD 38 && (op = 2 || op = 4) && decide (8 ≤ fld v 40 5)) && (decide (op ≤ 2) || decide (fld v 0 12 = 0))

/-- `qpush` to `cmdq` (14 R327, R332). -/
def execQpushCmdq (p : Pred) (id : Ident) (s : State) : Out State :=
  storeOp (info (.qpushCmdq p id)) id
    (fun cu b _ l _ => withCtx s b fun x =>
      if x.ctl.aonly || !bindOk l.val then subFault s cu b 0x30 6
      else if s.cmdqRoom b.ctx x = 0 then pushHold s cu b .cmdq
      else completeWith s cu { b with cmdqRes := b.cmdqRes + 1 } id (.cmdq l.val)) s

/-- A pop of an inlet (14 R334). -/
def inletPop (i : Info) (id : Ident) (inl : BitVec 5) (s : State) : Out State :=
  loadOp i
    (fun cu b sl _ _ => withCtx s b fun x =>
      if !b.storesBelow id.toNat then .next s
      else readDone s cu b sl i (s.readInlet x b inl.toNat cu.slot id.toNat false sl.plane)) s

/-- `pop` (14 R334). -/
def execPop (p : Pred) (id : Ident) (inl : BitVec 5) (t1 : Tgt) (s : State) : Out State := inletPop (info (.pop p id inl t1)) id inl s
/-- `pop.v` (14 R334). -/
def execPopV (p : Pred) (id : Ident) (inl : BitVec 5) (t1 : Tgt) (s : State) : Out State :=
  inletPop (info (.popV p id inl t1)) id inl s

/-- The tag word of a position (14 R334): the round where no element stands there is a free value. -/
def tagWord (s : State) : Avail → Word
  | .elem e => bitAt e.marker 63 ||| e.round.setWidth 64
  | .ended => bitAt true 62 ||| (s.drawBits.1.extractLsb' 0 16).setWidth 64
  | .wait => 0

/-- `peek`: the tag word of the element past the block's pops (14 R334). -/
def execPeek (p : Pred) (id : Ident) (inl : BitVec 5) (t1 : Tgt) (s : State) : Out State :=
  let i := info (.peek p id inl t1)
  loadOp i
    (fun cu b sl _ _ => withCtx s b fun x =>
      match x.inlet inl.toNat with
      | none => .next s
      | some bd =>
        let k := objKey x.pk bd.queue
        if !b.storesBelow id.toNat then .next s
        else
          match s.inletPos b inl.toNat k cu.slot id.toNat false with
          | none => .next s
          | some n =>
            match (s.queue k).availAt n with
            | .wait => .next s
            | a => .next ({ s with free := s.free + 1 }.setBlk cu.frame (b.sends cu.slot sl i (Tok.ofWord (tagWord s a)) .null))) s

/-- `peek.v`: the element past the block's pops, or null for a marker (14 R334). -/
def execPeekV (p : Pred) (id : Ident) (inl : BitVec 5) (t1 : Tgt) (s : State) : Out State :=
  let i := info (.peekV p id inl t1)
  loadOp i
    (fun cu b sl _ _ => withCtx s b fun x =>
      if !b.storesBelow id.toNat then .next s
      else
        match s.readInlet x b inl.toNat cu.slot id.toNat false sl.plane with
        | .tok t _ => readDone s cu b sl i (.tok t [])
        | r => readDone s cu b sl i r) s

/-- The queue fault of an append through an outlet (14 R335): 0 where there is none. -/
def State.outFault (s : State) (k : PKey) (plane : Bool) (marker : Bool) : Nat :=
  if !marker && (s.queue k).plane != plane then 3 else if s.reachesSealed k then 4 else 0

/-- An append through an outlet arrives (14 R335); an outlet that is not bound keeps its block from firing (07 R167). -/
def outIssue (s : State) (cu : Cur) (b : Blk) (sl : Slot) (x : Ctx) (o : Nat) (marker : Bool) (k : Out State) : Out State :=
  match x.outlet o with
  | none => .next s
  | some bd =>
    let f := s.outFault (objKey x.pk bd.queue) (sl.plane = .dat) marker
    if f ≠ 0 then subFault s cu b 0x30 f else k

/-- `push` through an outlet in the control plane (14 R335). -/
def execPush (p : Pred) (id : Ident) (outl : BitVec 5) (s : State) : Out State :=
  storeOp (info (.push p id outl)) id
    (fun cu b sl l _ => withCtx s b fun x =>
      outIssue s cu b sl x outl.toNat false (completeWith s cu b id (.out outl.toNat l))) s

/-- `push` to `bq` (14 R326, R335). -/
def execPushBq (p : Pred) (id : Ident) (s : State) : Out State :=
  storeOp (info (.pushBq p id)) id (fun cu b _ l _ => completeWith s cu b id (.bq l.val)) s

/-- `push.v` (14 R335). -/
def execPushV (p : Pred) (id : Ident) (outl : BitVec 5) (s : State) : Out State :=
  storeOp (info (.pushV p id outl)) id
    (fun cu b sl l _ => withCtx s b fun x =>
      outIssue s cu b sl x outl.toNat false (completeWith s cu b id (.out outl.toNat l))) s

/-- `pushm` (14 R335). -/
def execPushm (p : Pred) (id : Ident) (outl : BitVec 5) (s : State) : Out State :=
  storeOp (info (.pushm p id outl)) id
    (fun cu b sl _ _ => withCtx s b fun x =>
      outIssue s cu b sl x outl.toNat true (completeWith s cu b id (.outMark outl.toNat))) s

/-- The lanes of a token that a mask selects, in order, packed from lane 0 (14 R336). -/
def steerLanes (m : MWord) (want : Bool) (a : Nat) (v : VWord) : VWord :=
  pack 32 (((List.range a).filter fun e => m.getLsbD e = want).map fun e => elem 32 e v)

/-- `steer` (14 R336): both tokens are always sent, to `ot` t then to `ot` f. -/
def execSteer (p : Pred) (id : Ident) (m : BitVec 3) (of ot : BitVec 5) (s : State) : Out State :=
  storeOp (info (.steer p id m of ot)) id
    (fun cu b sl l _ => withCtx s b fun x =>
      if s.regPending b (fun h => h.pwmask.getLsbD m.toNat) (32 + m.toNat) || s.vecWaits x b cu.slot false false then .next s
      else
        outIssue s cu b sl x ot.toNat false (outIssue s cu b sl x of.toNat false
          (let mk := vecGet (s.seenRegs b x).m m.toNat 0
           let t := steerLanes mk true x.vctx.a l.bits
           let f := steerLanes mk false x.vctx.a l.bits
           if b.idDone.getLsbD id.toNat then completeWith s cu b id (.out ot.toNat (.vec t))
           else
             let b := b.complete cu.slot id (some (.out ot.toNat (.vec t)))
             .next (s.setBlk cu.frame { b with effs := b.effs ++ [(id.toNat, .out of.toNat (.vec f))] })))) s

/-- The lanes of two tokens merged under a mask (14 R337). -/
def collectLanes (m : MWord) (n : Nat) (v w : VWord) : Nat → Nat → Nat → List Nat
  | _, _, 0 => []
  | i, j, k + 1 =>
    if m.getLsbD (n - (k + 1)) then elem 32 j w :: collectLanes m n v w i (j + 1) k
    else elem 32 i v :: collectLanes m n v w (i + 1) j k

/-- What `collect` makes of its two elements (14 R337). -/
def collectTok (m : MWord) (a : Nat) (t u : Tok) : Tok :=
  if t.isNull || u.isNull then .null else .vec (pack 32 (collectLanes m a t.bits u.bits 0 0 a))

/-- `collect` (14 R337). -/
def execCollect (p : Pred) (id : Ident) (inl : BitVec 5) (t1 : Tgt) (s : State) : Out State :=
  let i := info (.collect p id inl t1)
  loadOp i
    (fun cu b sl _ _ => withCtx s b fun x =>
      if !b.storesBelow id.toNat || s.vecWaits x b cu.slot true false then .next s
      else
        match s.readInlet x b inl.toNat cu.slot id.toNat false .dat, s.readInlet x b (inl.toNat + 1) cu.slot id.toNat false .dat with
        | .tok t q, .tok u r => readDone s cu b sl i (.tok (collectTok (s.seenRegs b x).m[0] x.vctx.a t u) (q ++ r))
        | .fault c d, _ => subFault s cu b c d
        | _, .fault c d => subFault s cu b c d
        | _, _ => .next s) s

/-- Whether a stage parameter keeps the table of R338, with its destinations fit. -/
def State.stageOk (s : State) (k : PKey) (stg : RtStage) (v : Word) : Bool :=
  let q := s.queue k
  (stg = .pass || !q.journal)
    && match stg with
      | .pass => v = 0
      | .reduceAdd | .reduceMax => if q.plane then decide (v.toNat < 16) && (combine.elTyOf v.toNat).isSome else v = 0
      | .filter => true
      | .multicast =>
        decide (fld v 52 12 = 0)
          && (List.range 4).all fun i =>
            let d := s.queue (objKey k.pk (fld v (12 * i) 12))
            !v.getLsbD (48 + i) || (d.state = .open && d.plane = q.plane && d.esize = q.esize && d.journal = q.journal)

/-- `rtcfg` (14 R338). -/
def execRtcfg (p : Pred) (id : Ident) (stg : RtStage) (q : BitVec 12) (s : State) : Out State :=
  storeOp (info (.rtcfg p id stg q)) id
    (fun cu b _ l _ => withCtx s b fun x =>
      let k := objKey x.pk q.toNat
      if (s.queue k).state = .unallocated then subFault s cu b 0x30 2
      else if !s.stageOk k stg l.val || (s.queue k).all ≠ [] || (s.queue k).stageToks ≠ [] || s.reserved k ≠ 0 then subFault s cu b 0x30 7
      else completeWith s cu b id (.rtcfg stg q.toNat l.val)) s

end Sys2Proof.Machine
end

