-- ==== Sys2Proof/Machine/Streams.lean ====
section
/-!
DEFINITION. Streams and sparse loop headers (15 R339 to R359): their commands as they issue and commit, their start, their items, parks, resumption
and end; and typed-buffer ranges (07 R168 to R172).
-/
namespace Sys2Proof.Machine

/-- The code of a typed buffer (04 R107). -/
def bufNum : Buf → Nat
  | .w => 0 | .a => 1 | .c => 2
/-- The typed buffer of a code. -/
def bufOf : Nat → Buf
  | 0 => .w | 1 => .a | _ => .c

/-- Where byte `off` of a core's typed buffer stands in `State.bufs`. -/
def bufKey (pkg core : Nat) (b : Buf) (off : Nat) : Nat := ((pkg * 512 + core) * 4 + bufNum b) * 2 ^ 20 + off

/-- The bytes of a typed buffer (07 R168). -/
def bufSize (k : Chip) (b : Buf) : Nat := Config.banks k b * 32768

/-- The banks of a range of a buffer. -/
def State.rangeBanks (s : State) (pk : PartKey) (core : Nat) (b : Buf) (off len : Nat) : List BankSt :=
  (List.range (if len = 0 then 0 else (off + len - 1) / 32768 - off / 32768 + 1)).map fun i => s.bank ⟨pk.pkg, core, b, off / 32768 + i⟩

/-- Whether a range of a buffer lies within it, in banks of a partition (07 R170, R172); a command that names a bank on its way to its partition waits. -/
def State.bufOk (s : State) (pk : PartKey) (core : Nat) (b : Buf) (off len : Nat) : Bool :=
  decide (off + len ≤ bufSize (s.pkg pk.pkg).chip b) && (s.rangeBanks pk core b off len).all fun k => k.isOf pk.part

/-- Whether a range of a buffer lies in a bank that is still on its way to a partition (07 R172). -/
def State.bufComes (s : State) (pk : PartKey) (core : Nat) (b : Buf) (off len : Nat) : Bool :=
  (s.rangeBanks pk core b off len).any fun k => k.comesTo pk.part

/-- Bytes of a typed buffer. -/
def State.bufRead (s : State) (pkg core : Nat) (b : Buf) (off len : Nat) : List Byte :=
  Memory.readBytes s.bufs (bufKey pkg core b off) len

/-- Write bytes of a typed buffer. -/
def State.bufWrite (s : State) (pkg core : Nat) (b : Buf) (off : Nat) (l : List Byte) : State :=
  { s with bufs := Memory.writeBytes s.bufs (bufKey pkg core b off) l }

/-! ### The commands -/

/-- Raise a stream fault (15 R347). -/
def strmFault (s : State) (cu : Cur) (b : Blk) (sub : Nat) : Out State := subFault s cu b 0x31 sub

/-- The subcode of a staging command or a `halt` (15 R341, R342, R347): 0 where there is no fault. -/
def strmSub (c : StrmCmd) (l r : Word) : Nat :=
  if 14 ≤ fld r 60 4 then 1
  else
    match c with
    | .stage _ => if fld r 32 28 ≠ 0 then 1 else 0
    | .rows => if fld r 40 19 ≠ 0 then 1 else if fld l 0 3 ≠ 0 || fld r 24 16 = 0 then 3 else 0
    | .tag => if fld l 6 58 ≠ 0 || fld r 0 60 ≠ 0 then 7 else 0
    | .halt => if fld l 1 63 ≠ 0 || fld r 0 60 ≠ 0 then 7 else 0
    | .go => 0

/-- Apply a staging command to a staging set (15 R342). -/
def Staging.cmd (g : Staging) (c : StrmCmd) (l r : Word) : Staging :=
  match c with
  | .stage n => { g with stride := vecSet g.stride n l, count := vecSet g.count n (fld r 0 32) }
  | .rows => { g with rows := some ⟨l, r.getLsbD 59, fld r 24 16, fld r 0 24⟩ }
  | .tag => { g with tag := l.extractLsb' 0 6 }
  | .go | .halt => g

/-- The staging set that a `go` sees (15 R341): what older blocks left, with the staging commands of its own block below it. -/
def Blk.stagingFor (b : Blk) (x : Ctx) (k id : Nat) : Staging :=
  (b.sortedEffs.filter fun e => e.1 < id).foldl
    (fun g e => match e.2 with | .strm c l r => if fld r 60 4 = k then g.cmd c l r else g | _ => g)
    (vecGet x.eng.staging k {})

/-- The direction of a go word (15 R343). -/
def goDir (w : Word) : Nat := fld w 57 3
/-- The size of an item (15 R343). -/
def goEsz (w : Word) : Nat := 2 ^ fld w 55 2
/-- The marks of a go word (15 R343). -/
def goMark (w : Word) : Nat := fld w 51 4
/-- The last stage used (15 R343). -/
def goNst (w : Word) : Nat := fld w 48 3
/-- Whether a direction is a copy. -/
def goCopy (w : Word) : Bool := goDir w = 2 || goDir w = 3
/-- The queue of a go word. -/
def goQueue (pk : PartKey) (w : Word) : PKey := objKey pk (fld w 0 12)

/-- The total number of items of a pattern without rows (15 R350). -/
def Staging.total (g : Staging) (nst : Nat) : Nat := (List.range (nst + 1)).foldl (fun n i => n * vecGet g.count i 0) 1

/-- The part of subcode 1 that the go word and the base decide (15 R343, R345, R347). -/
def goWordBad (base w : Word) : Bool :=
  decide (14 ≤ fld w 60 4) || decide (5 ≤ goDir w) || decide (9 ≤ goMark w) || fld w 44 2 = 3 || fld w 32 11 ≠ 0
    || (!goCopy w && fld w 12 20 ≠ 0) || (goCopy w && fld w 0 12 ≠ 0) || base.toNat % goEsz w ≠ 0

/-- Whether some outlet is bound to a queue (14 R328). -/
def State.outletsOf (s : State) (k : PKey) : Nat :=
  (s.ctxs.map fun e =>
    if e.2.pk = k.pk then
      (e.2.ports.outs.toList.filter fun b => match b with | some b => decide (b.queue = k.n) | none => false).length
    else 0).sum

/-- The inlet bound to a queue: its context and number (14 R328). -/
def State.inletOf (s : State) (k : PKey) : Option (Nat × Nat) :=
  s.ctxs.findSome? fun e =>
    if e.2.pk = k.pk then
      ((List.range 32).find? fun i => match e.2.inlet i with | some b => decide (b.queue = k.n) | none => false).map fun i => (e.1, i)
    else none

/-- Whether a queue keeps the read rules of R345. -/
def State.feedable (s : State) (k : PKey) : Bool :=
  let q := s.queue k
  q.state ≠ .unallocated && !q.isSealed && !q.prodk && q.nprod = 1 && s.outletsOf k = 0

/-- Whether a queue keeps the write rules of R345. -/
def State.drainable (s : State) (k : PKey) : Bool :=
  let q := s.queue k
  q.state ≠ .unallocated && !q.isSealed && !q.consk && (s.inletOf k).isNone

/-- The subcode of a `go` by its word and queue (15 R345, R347): 0 where there is no fault. -/
def State.goSub (s : State) (pk : PartKey) (base w : Word) : Nat :=
  let k := goQueue pk w
  if goWordBad base w then 1
  else if !goCopy w && !(if goDir w = 0 then s.feedable k else s.drainable k) then 4
  else if w.getLsbD 46 && (goDir w ≠ 0 || (s.queue k).consk) then 5
  else if (goDir w = 4 && goEsz w < 4) || (w.getLsbD 43 && (goDir w ≠ 4 || goEsz w ≠ 4)) then 6
  else if w.getLsbD 47 && (goNst w ≠ 0 || 2 ≤ goMark w || goCopy w) then 3
  else 0

/-- The subcode of a `go` by its staging set (15 R341, R347): 0 where there is no fault. -/
def stagingSub (g : Staging) (w : Word) : Nat :=
  if (List.range (goNst w + 1)).any fun i => (vecGet g.stride i 0).toNat % goEsz w ≠ 0 then 1
  else if (List.range (goNst w + 1)).any (fun i => vecGet g.count i 0 = 0) || decide (2 ^ 48 ≤ g.total (goNst w)) then 2
  else if w.getLsbD 47 && (match g.rows with | some r => r.box = 0 || r.addr.toNat % 8 ≠ 0 | none => true) then 3
  else 0

/-- Operations that commands of blocks in flight will place in an engine queue (15 R343). -/
def State.engReserved (s : State) (c q : Nat) : Nat :=
  (s.blks.map fun e =>
    if e.2.ctx = c then
      (e.2.effs.filter fun f =>
        match f.2 with
        | .strm .go _ w => decide (fld w 60 4 = q)
        | .sph _ _ _ _ _ => decide (q = 15)
        | _ => false).length
    else 0).sum

/-- Free places of an engine queue of 8 operations, reservations counted (15 R339). -/
def State.engRoom (s : State) (c : Nat) (x : Ctx) (q : Nat) : Nat := 8 - (vecGet x.eng.eqs q []).length - s.engReserved c q

/-- A staging command or a `halt` issues (15 R341). -/
def strmIssue (i : Info) (id : Ident) (c : StrmCmd) (s : State) : Out State :=
  storeOp i id
    (fun cu b _ l r =>
      if strmSub c l.val r.val ≠ 0 then strmFault s cu b (strmSub c l.val r.val)
      else completeWith s cu b id (.strm c l.val r.val)) s

/-- `strm.stage` (15 R341). -/
def execStrmStage (p : Pred) (id : Ident) (stg : BitVec 3) (s : State) : Out State :=
  strmIssue (info (.strmStage p id stg)) id (.stage stg.toNat) s
/-- `strm.rows` (15 R341). -/
def execStrmRows (p : Pred) (id : Ident) (s : State) : Out State := strmIssue (info (.strmRows p id)) id .rows s
/-- `strm.tag` (15 R341). -/
def execStrmTag (p : Pred) (id : Ident) (s : State) : Out State := strmIssue (info (.strmTag p id)) id .tag s
/-- `strm.halt` (15 R341, R344). -/
def execStrmHalt (p : Pred) (id : Ident) (s : State) : Out State := strmIssue (info (.strmHalt p id)) id .halt s

/-- A `go` reserves its places, or holds (15 R343). -/
def goReserve (s : State) (cu : Cur) (b : Blk) (x : Ctx) (id : Ident) (l r : Word) : Out State :=
  if s.engRoom b.ctx x (fld r 60 4) = 0 then holdFor s cu b (.engine (fld r 60 4))
  else if x.ctl.aonly then completeWith s cu b id (.strm .go l r)
  else if s.cmdqRoom b.ctx x = 0 then holdFor s cu b .cmdq
  else completeWith s cu { b with cmdqRes := b.cmdqRes + 1 } id (.strm .go l r)

/-- `strm.go` (15 R341, R343): its checks against the staging set wait until older blocks have committed. -/
def execStrmGo (p : Pred) (id : Ident) (s : State) : Out State :=
  storeOp (info (.strmGo p id)) id
    (fun cu b _ l r => withCtx s b fun x =>
      let w := r.val
      let g := b.stagingFor x (fld w 60 4) id.toNat
      if s.goSub x.pk l.val w ≠ 0 then strmFault s cu b (s.goSub x.pk l.val w)
      else if !s.isOldest b || !b.storesBelow id.toNat then .next s
      else if stagingSub g w ≠ 0 then strmFault s cu b (stagingSub g w)
      else if goCopy w && !s.bufOk x.pk x.core (bufOf (fld w 44 2)) (fld w 12 20) (goEsz w * g.total (goNst w)) then
        failWith s cu b (slotFault 0x14 cu.slot)
      else goReserve s cu b x id l.val w) s

/-- A sparse loop header issues (15 R359). -/
def sphIssue (i : Info) (id : Ident) (isOr tree : Bool) (q : BitVec 12) (s : State) : Out State :=
  storeOp i id
    (fun cu b _ l r => withCtx s b fun x =>
      let k := objKey x.pk q.toNat
      if (s.queue k).plane || !s.feedable k || fld l.val 0 3 ≠ 0 || fld r.val 0 3 ≠ 0 then strmFault s cu b 8
      else if s.engRoom b.ctx x 15 = 0 then holdFor s cu b (.engine 15)
      else completeWith s cu b id (.sph isOr tree q.toNat l.val r.val)) s

/-- `sph.and` (15 R359). -/
def execSphAnd (p : Pred) (id : Ident) (tree : Bool) (q : BitVec 12) (s : State) : Out State :=
  sphIssue (info (.sphAnd p id tree q)) id false tree q s
/-- `sph.or` (15 R359). -/
def execSphOr (p : Pred) (id : Ident) (tree : Bool) (q : BitVec 12) (s : State) : Out State :=
  sphIssue (info (.sphOr p id tree q)) id true tree q s

/-! ### Operations in engine queues -/

/-- Change the operations of an engine queue. -/
def Ctx.setEq (x : Ctx) (q : Nat) (l : List StrmOp) : Ctx := { x with eng := { x.eng with eqs := vecSet x.eng.eqs q l } }

/-- Put an operation at the head of an engine queue. -/
def State.putHead (s : State) (c q : Nat) (op : StrmOp) : State :=
  s.updCtx c fun x => x.setEq q (op :: (vecGet x.eng.eqs q []).drop 1)

/-- The head operation of an engine queue. -/
def Ctx.head (x : Ctx) (q : Nat) : Option StrmOp := (vecGet x.eng.eqs q []).head?

/-- An operation ends (15 R346, R354): the head's roles are given up with its staging window, and its binds arrive, or fail (18 R396, R397). -/
def State.endOp (s : State) (c q : Nat) (op : StrmOp) (failed : Bool) : State :=
  let head := match s.ctxs.get? c with
    | some x => (match x.head q with | some o => decide (o.stamp = op.stamp) | none => false)
    | none => false
  let s := (s.updCtx c fun x => x.setEq q ((vecGet x.eng.eqs q []).filter fun o => o.stamp ≠ op.stamp))
  let s := if head then s.dropRoles c q else s
  if failed then s.bindsFail op.binds else s.bindsArrive op.binds

/-- The first bind that awaits an operation of an engine queue, and the context without it (18 R396): binds attach to successive operations. -/
def Ctx.takeBinds (x : Ctx) (q : Nat) : List BindRec × Ctx :=
  (((x.eng.binds.filter fun b => b.1 = q).map Prod.snd).take 1, { x with eng := { x.eng with binds := drop1 x.eng.binds } })
where
  /-- The list without its first bind of the queue. -/
  drop1 : List (Nat × BindRec) → List (Nat × BindRec)
    | [] => []
    | b :: r => if b.1 = q then r else b :: drop1 r

/-- The store-path entries that a new command's accesses must wait for (08 R185, R187). -/
def Ctx.fencesNow (x : Ctx) : List Nat :=
  (x.path.filter fun e => match e.eff with | .fence _ | .qfence _ => true | _ => false).map PathEnt.stamp

/-- Place an operation, with its stamp, in its engine queue at commit (15 R343, R359). -/
def State.enqueueOp (s : State) (c q stamp : Nat) (kind : OpKind) (noticed pm : Bool) : State :=
  s.updCtx c fun x =>
    let t := x.takeBinds q
    t.2.setEq q (vecGet x.eng.eqs q [] ++
      [{ kind := kind, stamp := stamp, noticed := noticed, fences := x.fencesNow, pm := pm, binds := t.1 }])

/-- Place an operation in its engine queue at commit (15 R343, R359). -/
def State.issueOp (s : State) (c q : Nat) (kind : OpKind) (noticed pm : Bool) : State :=
  let st := s.stamp
  st.2.enqueueOp c q st.1 kind noticed pm

/-- `halt` at commit (15 R344). -/
def State.halt (s : State) (c q : Nat) (behind : Bool) : State :=
  match s.ctxs.get? c with
  | none => s
  | some x =>
    let l := vecGet x.eng.eqs q []
    let s := if behind then (l.drop 1).foldl (fun s o => s.endOp c q o true) s else s
    match l with
    | [] => s
    | o :: _ => s.endOp c q o true

/-- A stream command at commit (15 R341 to R344). -/
def State.strmCommit (s : State) (c : Nat) (pm : Bool) (cmd : StrmCmd) (l r : Word) : State :=
  let k := fld r 60 4
  match cmd with
  | .stage _ | .rows | .tag =>
    s.updCtx c fun x => { x with eng := { x.eng with staging := vecSet x.eng.staging k ((vecGet x.eng.staging k {}).cmd cmd l r) } }
  | .halt => s.halt c k (l.getLsbD 0)
  | .go =>
    match s.ctxs.get? c with
    | none => s
    | some x =>
      let st := s.stamp
      let s := st.2.enqueueOp c k st.1 (.go r l (vecGet x.eng.staging k {})) x.ctl.aonly pm
      if x.ctl.aonly then s
      else s.updCtx c fun x => { x with ports := { x.ports with cmdq := x.ports.cmdq ++ [{ kind := .start, v := r, eq := k, op := st.1 }] } }

/-- The queue that an operation feeds or drains: the queue, and whether it feeds. -/
def StrmOp.role (op : StrmOp) (pk : PartKey) : Option (PKey × Bool) :=
  match op.kind with
  | .go w _ _ => if goCopy w then none else some (goQueue pk w, goDir w = 0)
  | .sph _ _ q _ _ => some (objKey pk q, true)

/-- The window memory of a slot on a die, in bytes (23 R483): base and length. -/
def Part.windowMem (p : Part) (die : Nat) : Nat × Nat :=
  let v := (p.area[8 + die]?).getD 0
  (fld v 0 16 * 65536, fld v 32 16 * 65536)

/-- The storage of the windows of a die, in bytes. -/
def State.windowsOn (s : State) (pkg die : Nat) : List (Nat × Nat) :=
  (s.queues.filterMap fun e =>
      if e.1.pk.pkg = pkg && e.2.win.die = die && e.2.win.kind ≠ 0 then some (e.2.win.base * 128, 2 ^ e.2.win.lsize) else none)
    ++ s.ctxs.flatMap fun e =>
      if e.2.pk.pkg = pkg then
        e.2.eng.eqs.toList.flatMap fun l => l.filterMap fun o =>
          match o.swin with
          | some w => if w.win.kind ≠ 0 && w.win.die = die then some (w.win.base * 128, 2 ^ w.win.lsize) else none
          | none => none
      else []

/-- Room of `len` bytes, a power of two, in a slot's window memory on a die (15 R354, 16 R365): the base in 128-byte units. -/
def State.windowRoom (s : State) (pk : PartKey) (die len : Nat) : Option Nat :=
  let m := (s.part pk).windowMem die
  let used := s.windowsOn pk.pkg die
  let cands := m.1 :: used.map fun u => (u.1 + u.2 + 127) / 128 * 128
  (cands.find? fun b =>
    decide (m.1 ≤ b) && decide (b + len ≤ m.1 + m.2) && used.all fun u => !overlaps u.1 u.2 b len).map fun b => b / 128

/-- Whether another operation holds the role that an operation needs (15 R348). -/
def State.roleHeld (s : State) (c q : Nat) (k : PKey) (feeds : Bool) : Bool :=
  let r := if feeds then (s.queue k).strmProd else (s.queue k).strmCons
  match r with | some o => o ≠ (c, q) | none => false

/-- Whether the head of another engine queue that was issued earlier waits for the same role (15 R348). -/
def State.roleAwaited (s : State) (stamp : Nat) (k : PKey) (feeds : Bool) : Bool :=
  s.ctxs.any fun e =>
    e.2.pk = k.pk && e.2.eng.eqs.toList.any fun l =>
      match l with
      | [] => false
      | o :: _ => !o.running && o.park.isNone && decide (o.stamp < stamp) && o.role e.2.pk = some (k, feeds)

/-- Take the role of an operation on its queue. -/
def State.takeRole (s : State) (c q : Nat) (k : PKey) (feeds : Bool) : State :=
  let t := s.queue k
  s.setQueue k (if feeds then { t with strmProd := some (c, q) } else { t with strmCons := some (c, q) })

/-- Whether an operation needs a staging window (15 R354). -/
def StrmOp.staged (op : StrmOp) : Bool :=
  match op.kind with | .go w _ _ => goCopy w | .sph _ _ _ _ _ => true

/-- Whether the drain budget of a context in pre-emption is spent (13 R302, R305). -/
def State.budgetSpent (s : State) (x : Ctx) : Bool := decide (x.ctl.drain.toNat ≤ (s.cycle x.pk.pkg (s.dieN x) - x.pre.start).toNat)

/-- Whether a context sparges within its drain budget (13 R304, R305). -/
def State.draining (s : State) (x : Ctx) : Bool := x.st = .sparging && !s.budgetSpent x

/-- Whether a context's engines go on (15 R358, 13 R304): while it is resident, and while a sparge drains its writes and updates. -/
def State.engines (s : State) (x : Ctx) (op : StrmOp) : Bool :=
  x.live || (s.draining x && match op.kind with | .go w _ _ => goDir w = 1 || goDir w = 4 | .sph _ _ _ _ _ => false)

/-- Whether an operation holds a role already: a pre-emption has stopped it (15 R358). -/
def State.holdsRole (s : State) (c q : Nat) (k : PKey) (feeds : Bool) : Bool :=
  (if feeds then (s.queue k).strmProd else (s.queue k).strmCons) = some (c, q)

/-- The kind of the staging window of an operation (15 R354): in, or out for a copy out. -/
def StrmOp.stgKind (op : StrmOp) : Nat := match op.kind with | .go w _ _ => if goDir w = 3 then 3 else 2 | .sph _ _ _ _ _ => 2

/-- Whether a staging window stands open on a die (15 R354). -/
def StgWin.openOn (w : StgWin) (die : Nat) : Bool := w.win.kind ≠ 0 && w.win.die = die

/-- The staging window with which an operation starts on a die (15 R354): the one that it has kept there, else a new one of 4 KiB, with what it has kept in
another; none while no 4 KiB is free. -/
def State.openStaging (s : State) (pk : PartKey) (die : Nat) (op : StrmOp) : Option StgWin :=
  let old : StgWin := op.swin.getD { win := {} }
  if old.openOn die then some old
  else (s.windowRoom pk die 4096).map fun b =>
    { old with win := { part := pk.part, kind := op.stgKind, lsize := 12, base := b, head := old.win.head, tail := old.win.tail, die := die } }

/-- Whether a copy names a bank that is still on its way to its partition, and is held for it (07 R172). -/
def State.copyComes (s : State) (x : Ctx) (op : StrmOp) : Bool :=
  match op.kind with
  | .go w _ g => goCopy w && s.bufComes x.pk x.core (bufOf (fld w 44 2)) (fld w 12 20) (goEsz w * g.total (goNst w))
  | .sph _ _ _ _ _ => false

/-- Start an operation once its role is free (15 R348, R354). -/
def State.startOp (s : State) (c q : Nat) (x : Ctx) (op : StrmOp) : State :=
  let room := if op.staged then (s.openStaging x.pk (s.dieN x) op).map some else some none
  match room with
  | none => s
  | some w =>
    let op' := { op with running := true, swin := w }
    if s.copyComes x op then s
    else
      match op.role x.pk with
      | none => s.putHead c q op'
      | some (k, feeds) =>
        if (!s.holdsRole c q k feeds && (s.roleHeld c q k feeds || s.roleAwaited op.stamp k feeds)) || (s.queue k).state = .frozen then s
        else (s.putHead c q op').takeRole c q k feeds

/-- STREAM_START (15 R348). -/
def execStreamStart (s : State) : Out State :=
  match s.site with
  | .ctxQ c q =>
    match s.ctxs.get? c with
    | none => .next s
    | some x =>
      match x.head q with
      | none => .next s
      | some op =>
        if op.running || op.park.isSome || !op.noticed || !x.live || q = 14 then .next s else .next (s.startOp c q x op)
  | _ => .fault .noSite

/-! ### Items -/

/-- A staging window with its contents discarded (15 R354, R358). -/
def StgWin.clear (w : StgWin) : StgWin := { win := { w.win with head := w.win.tail }, pos := w.pos }

/-- An operation back at its cursor (15 R356, R358): what it has read and not delivered is discarded, what a write has taken from its queue is kept. A
marker that is due after the cursor's last item stays due. -/
def StrmOp.rewind (op : StrmOp) (keep : Bool) : StrmOp :=
  { op with
    packed := if keep then op.packed else [], ahead := [], part := 0
    markDue := op.markDue && op.gen = op.cursor
    gen := op.cursor, row := op.cRow, rowBase := op.cBase, swin := op.swin.map StgWin.clear
    rowInfo := match op.kind with | .go _ _ _ => none | .sph _ _ _ _ _ => op.rowInfo }

/-- A parked operation's record, and the engine-park event (15 R355): a read discards what it has packed. -/
def State.parkOp (s : State) (c q : Nat) (op : StrmOp) (why felem : Nat) (addr : Word) (keep : Bool) : State :=
  (s.putHead c q { op.rewind keep with running := false, park := some ⟨why, felem, addr⟩ }).raise c 7

/-- The reason of a park for a failed check (15 R357). -/
def parkWhy (f : Fail) : Nat := if f.code = 0x10 then 1 else if f.code = 0x11 then 2 else 3

/-- An access of an engine (15 R355): its events, or what a failed check brings about, with its reason, or the state while it waits for a pull, a lease or a route (20 R426). -/
def engTry (s : State) (c q : Nat) (x : Ctx) (op : StrmOp) (va : Word) (len : Nat) (rd wr : Bool) (fail : State → Nat → State)
    (k : State → List Part' → State) : State :=
  match s.access ⟨x.pk, x.core, x.ctl.asn, op.pm⟩ va len len rd wr false none with
  | (.error f, s) =>
    match f.pull with
    | some pg => if s.sourceLost x.pk then fail s 1 else (s.askPage x.pk pg).putHead c q { op with pull := some pg }
    | none => fail s (parkWhy f)
  | (.ok ps, s) => 
    if ps.any fun p => !s.homeUp x.pk (s.dieN x) p.pa then s
    else (s.waitAt (.engine c q) none (ps.map fun p => s.lineOf x.pk p.pa)).getD (k (ps.foldl (fun s p => s.redirected x.pk p.pa) s) ps)

/-- An access of an engine that parks its operation where a check fails (15 R355). -/
def engAccess (s : State) (c q : Nat) (x : Ctx) (op : StrmOp) (va : Word) (len felem : Nat) (rd wr keep : Bool)
    (k : State → List Part' → State) : State :=
  engTry s c q x op va len rd wr (fun s why => s.parkOp c q op why felem va keep) k

/-- The bytes that an engine reads, where no check value fails (01 R36). -/
def engRead (s : State) (pk : PartKey) (ps : List Part') (k : State → List Byte → State) : State :=
  if ps.any fun p => s.evFails pk p.pa p.key then s.detected pk else k s (ps.flatMap (s.readEv pk))

/-- Write the bytes of an engine's item (15 R353). -/
def engWrite (s : State) (pk : PartKey) : List Part' → List Byte → State
  | [], _ => s
  | p :: r, bs =>
    match s.writeEv pk p.pa p.key (bs.take p.len) with
    | some s => engWrite s pk r (bs.drop p.len)
    | none => s.detected pk

/-- What a pattern generates next (15 R350, R352): an item at an address, a padding item, the read of a row's offsets, the end of a row, or
nothing more. -/
inductive Gen where
  | item (a : Word)
  | pad
  | row (i : Nat) (a : Word)
  | rowEnd
  | done
  deriving DecidableEq, Repr

/-- The address of an item of a pattern without rows (15 R350). -/
def Staging.addr (g : Staging) (base : Word) : List Nat → Nat → Word
  | [], _ => base
  | i :: r, n =>
    let c := vecGet g.count i 0
    g.addr base r (n / c) + vecGet g.stride i 0 * BitVec.ofNat 64 (n % c)

/-- What comes next in a pattern. -/
def StrmOp.nextGen (op : StrmOp) (w base : Word) (g : Staging) : Gen :=
  if w.getLsbD 47 then
    match g.rows with
    | none => .done
    | some r =>
      if r.n ≤ op.row then .done
      else
        match op.rowInfo with
        | none => .row op.row (r.addr + BitVec.ofNat 64 (8 * op.row))
        | some (offs, len) =>
          let j := op.gen - op.rowBase
          if (len + r.box - 1) / r.box * r.box ≤ j then .rowEnd
          else if j < len then .item (base + (offs + BitVec.ofNat 64 j) * vecGet g.stride 0 0)
          else .pad
  else if g.total (goNst w) ≤ op.gen then .done
  else .item (g.addr base (List.range (goNst w + 1)) op.gen)

/-- The addresses of the next items that lie in one granule (08 R175), as far as a row goes. -/
def StrmOp.run (op : StrmOp) (w base : Word) (g : Staging) : Nat → List Word
  | 0 => []
  | n + 1 =>
    match op.nextGen w base g with
    | .item a =>
      a :: (({ op with gen := op.gen + 1 } : StrmOp).run w base g n).takeWhile fun b => b.toNat / 128 = a.toNat / 128
    | .pad | .row _ _ | .rowEnd | .done => []

/-- The events of items that lie in the granule of a first one (08 R175). -/
def runParts (p : Part') (as : List Word) : List Part' := as.map fun a => { p with pa := p.pa / 128 * 128 + a.toNat % 128 }

/-- Whether a marker follows item `n` of a pattern without rows (15 R350). -/
def markAfter (w : Word) (g : Staging) (n : Nat) : Bool :=
  let m := goMark w
  let period := (List.range (min m (goNst w + 1))).foldl (fun a i => a * vecGet g.count i 0) 1
  decide (0 < m) && !w.getLsbD 47 && decide ((n + 1) % period = 0)

/-- The operation once item `gen` has been generated. -/
def StrmOp.gone (op : StrmOp) (w : Word) (g : Staging) : StrmOp := { op with gen := op.gen + 1, markDue := markAfter w g op.gen }

/-- The end of a row (15 R352). -/
def StrmOp.nextRow (op : StrmOp) (w : Word) : StrmOp :=
  { op with row := op.row + 1, rowBase := op.gen, rowInfo := none, markDue := goMark w = 1 }

/-- Read the two offsets of a row (15 R352), as one event of 8 bytes each; a row in descending order is clamped or parks. -/
def rowStep (s : State) (c q : Nat) (x : Ctx) (op : StrmOp) (g : Staging) (i : Nat) (a : Word) (keep : Bool) : State :=
  engAccess s c q x op a 8 op.gen true false keep fun s ps =>
    engAccess s c q x op (a + 8) 8 op.gen true false keep fun s qs =>
      engRead s x.pk ps fun s lo => engRead s x.pk qs fun s hi =>
        let len := (bytesW hi - bytesW lo).toInt
        if 0 ≤ len then s.putHead c q { op with rowInfo := some (bytesW lo, len.toNat) }
        else if match g.rows with | some r => r.clamp | none => false then
          (s.putHead c q { op with rowInfo := some (bytesW lo, 0) }).updCtx c fun x =>
            { x with eng := { x.eng with sclmp := x.eng.sclmp + 1 } }
        else s.parkOp c q op 4 i a keep

/-- The address of the entry of a tag in a kernel's handler table (05 R121, 16 R364): none where the kernel has no table. -/
def State.handlerAddr (s : State) (x : Ctx) (t : BitVec 6) : Option Word :=
  (s.kerns.get? x.kern).bind fun kn => if kn.desc[3] = 0 then none else some (kn.desc[3] + BitVec.ofNat 64 (8 * t.toNat))

/-- Activations that stand in the queue of a core's lattice (12 R287); a stream's own, saved or not, are at most 16 as well (13 R307). -/
def State.actsOn (s : State) (pkg core : Nat) : Nat :=
  (s.ctxs.map fun e => if e.2.pk.pkg = pkg && e.2.pos.isSome && e.2.core = core then e.2.acts.length else 0).sum

/-- Place an activation (12 R287) at the block that its kernel's handler table gives for a tag, or raise a tag fault where the table has none. -/
def State.activate (s : State) (c inl : Nat) (x : Ctx) (t : BitVec 6) : State :=
  match s.handlerAddr x t with
  | none => s.raise c 5
  | some a =>
    match s.access ⟨x.pk, x.core, x.ctl.asn, x.ctl.pm⟩ a 8 8 true false false none with
    | (.error _, _) => s.raise c 5
    | (.ok ps, _) =>
      if ps.any (s.memFails x.pk) then s.detected x.pk
      else
        let e := bytesW (ps.flatMap (s.readEv x.pk))
        if e = 0 then s.raise c 5
        else
          let st := s.stamp
          st.2.updCtx c fun x =>
            { x with acts := x.acts ++ [(st.1, { tag := t, inlet := inl, entry := e, order := st.1, lane := { next := e } })] }

/-- Append an element of a read stream (15 R353), tagged where the go word says so: none while the queue has no room, or the activation queue
is full. -/
def State.strmAppend (s : State) (x : Ctx) (w : Word) (g : Staging) (k : PKey) (el : QElem) : Option State :=
  let put := fun (s : State) => s.append k (x.core * 32 + x.posn * 4) x.producer { el with round := (s.queue k).arnd }
  if s.roomOf x k = 0 then none
  else if w.getLsbD 46 && !el.marker then
    match s.inletOf k with
    | none => none
    | some (d, inl) =>
      match s.ctxs.get? d with
      | none => none
      | some y => if 16 ≤ y.acts.length || 16 ≤ s.actsOn y.pk.pkg y.core then none else some ((put s).activate d inl y g.tag)
  else some (put s)

/-- The bytes that an element of a queue takes from a stream of items of `e` bytes (15 R353). -/
def elemBytes (q : Queue) (e : Nat) : Nat := if q.plane then q.size else e

/-- The next step of a read (15 R353). -/
def readStep (s : State) (c q : Nat) (x : Ctx) (op : StrmOp) (w base : Word) (g : Staging) : State :=
  let k := goQueue x.pk w
  let qu := s.queue k
  let nx := op.nextGen w base g
  if qu.state = .frozen then s
  else if op.packed = [] && !op.markDue && nx = .done then s.endOp c q op false
  else if qu.state = .sealed then s.parkOp c q op 5 op.cursor 0 false
  else if op.packed ≠ [] && (decide (elemBytes qu (goEsz w) ≤ op.packed.length) || op.markDue || nx = .done) then
    match s.strmAppend x w g k { bits := BitVec.ofNat 4096 (leNat op.packed) } with
    | none => s
    | some s => s.putHead c q { op with packed := [], cursor := op.gen, cRow := op.row, cBase := op.rowBase }
  else if op.markDue then
    match s.strmAppend x w g k { marker := true } with
    | none => s
    | some s => s.putHead c q { op with markDue := false, cursor := op.gen, cRow := op.row, cBase := op.rowBase }
  else
    match nx with
    | .done => s.endOp c q op false
    | .rowEnd => s.putHead c q (op.nextRow w)
    | .row i a => rowStep s c q x op g i a false
    | .pad => s.putHead c q ({ op with packed := op.packed ++ List.replicate (goEsz w) 0 }.gone w g)
    | .item a =>
      if op.ahead ≠ [] then
        s.putHead c q ({ op with packed := op.packed ++ op.ahead.take (goEsz w), ahead := op.ahead.drop (goEsz w) }.gone w g)
      else
        engAccess s c q x op a (goEsz w) op.gen true false false fun s ps =>
          engRead s x.pk ps fun s bs =>
            let more := ps.flatMap fun p => (runParts p ((op.run w base g 128).drop 1)).flatMap (s.readEv x.pk)
            s.putHead c q ({ op with packed := op.packed ++ bs, ahead := more }.gone w g)

/-- `n` items of a write or an update are performed (15 R353): the cursor passes them. -/
def StrmOp.delivered (op : StrmOp) (n e : Nat) : StrmOp :=
  { op with cursor := op.cursor + n, gen := op.cursor + n, packed := op.packed.drop (n * e), cRow := op.row, cBase := op.rowBase }

/-- The element that a draining stream takes next (15 R346): none where the queue holds none for it. -/
def State.drainHead (s : State) (k : PKey) : Option QElem :=
  let qu := s.queue k
  if qu.win.pins ≠ 0 then none else match qu.availAt 0 with | .elem e => some e | .ended | .wait => none

/-- An item of an update is performed, or the items of a write that it holds and that lie in one granule (15 R345, 08 R175). -/
def drainItem (s : State) (c q : Nat) (x : Ctx) (op : StrmOp) (w base : Word) (g : Staging) (a : Word) : State :=
  let e := goEsz w
  let upd := goDir w = 4
  let acc := fun (k : State → List Part' → State) =>
    match (if upd then s.forwarded ⟨x.pk, x.core, x.ctl.asn, op.pm⟩ a e else none) with
    | some p => k s [p]
    | none => engAccess s c q x op a e op.cursor upd true true k
  acc fun s ps =>
    match ps with
    | [] => s
    | p :: _ =>
      if upd then
        let r : AmoReq :=
          { srcs := [], op := if w.getLsbD 43 then .addF32 else .add, pk := x.pk, pa := p.pa, key := p.key
            wide := e = 8, v := bytesW (op.packed.take e), ord := false }
        if s.amoWaits r then s else (s.amoNow r s.amos).putHead c q (op.delivered 1 e)
      else
        let parts := runParts p (op.run w base g (op.packed.length / e))
        (engWrite s x.pk parts op.packed).putHead c q (op.delivered parts.length e)

/-- The next step of a write or an update (15 R346). -/
def drainStep (s : State) (c q : Nat) (x : Ctx) (op : StrmOp) (w base : Word) (g : Staging) : State :=
  let k := goQueue x.pk w
  match op.nextGen w base g with
  | .done => s.endOp c q op false
  | .rowEnd => s.putHead c q { op.nextRow w with markDue := false }
  | .row i a => rowStep s c q x op g i a true
  | nx =>
    if op.packed = [] then
      match s.drainHead k with
      | none => s
      | some el =>
        let s := s.takeHead k
        if el.marker then s
        else s.putHead c q { op with packed := leBytes (elemBytes (s.queue k) (goEsz w)) el.bits.toNat }
    else
      match nx with
      | .item a => drainItem s c q x op w base g a
      | _ => s.putHead c q (op.delivered 1 (goEsz w))

/-- The contents of a staging window change (07 R165): head and tail follow them. Head moves by whole granules, and so does the tail of a window that
is written to memory. -/
def StgWin.now (w : StgWin) (pos : Nat) (l : List Byte) : StgWin :=
  { w with
    pos := pos, data := l
    win := { w.win with
      head := BitVec.ofNat 32 ((pos + l.length + 127) / 128 * 128)
      tail := BitVec.ofNat 32 (if w.win.kind = 3 then pos / 128 * 128 else pos) } }

/-- Bytes enter a staging window at its head. -/
def StgWin.fill (w : StgWin) (l : List Byte) : StgWin := w.now w.pos (w.data ++ l)
/-- Bytes leave a staging window at its tail. -/
def StgWin.drop (w : StgWin) (n : Nat) : StgWin := w.now (w.pos + n) (w.data.drop n)

/-- Whether a granule more finds room in a staging window (07 R165). -/
def StgWin.room (w : StgWin) : Bool := decide (w.data.length + 128 ≤ 4096)

/-- A copy acts on a granule of its buffer (07 R171, R172, 15 R355): it waits for a bank on its way to its partition, and another bank that is not its
partition's is lost to it. -/
def copyBank (s : State) (x : Ctx) (b : Buf) (off : Nat) (lost go : State → State) : State :=
  let k := s.bank ⟨x.pk.pkg, x.core, b, off / 32768⟩
  if k = .owned x.pk.part then go s else if k.comesTo x.pk.part then s else lost s

/-- A copy in writes `n` bytes, the event of one buffer granule, from its staging window (07 R165, R171, 15 R354); at a lost bank it parks. -/
def copyEmpty (s : State) (c q : Nat) (x : Ctx) (op : StrmOp) (w : Word) (sw : StgWin) (a : Word) (n : Nat) : State :=
  let b := bufOf (fld w 44 2)
  let e := goEsz w
  let at' := op.cursor * e + op.part
  let off := fld w 12 20 + at'
  copyBank s x b off (fun s => s.parkOp c q op 6 op.cursor a false) fun s =>
    (s.bufWrite x.pk.pkg x.core b off (sw.data.take n)).putHead c q
      { op with cursor := (at' + n) / e, part := (at' + n) % e, swin := some (sw.drop n) }

/-- The next step of a copy in (15 R345, R354): a granule of the buffer is written once its bytes stand in the staging window, else the items of a granule
of memory are read into it. Before an item that fails parks the copy, what stands in the window is delivered. -/
def copyIn (s : State) (c q : Nat) (x : Ctx) (op : StrmOp) (w base : Word) (g : Staging) (sw : StgWin) (total : Nat) : State :=
  let e := goEsz w
  let at' := op.cursor * e + op.part
  let n := min (128 - (fld w 12 20 + at') % 128) (total - at')
  let here := match ({ op with gen := op.cursor } : StrmOp).nextGen w base g with | .item a => a | _ => 0
  if n ≤ sw.data.length || !sw.room then copyEmpty s c q x op w sw here (min n sw.data.length)
  else
    match op.run w base g 128 with
    | [] => s
    | a :: as =>
      engTry s c q x op a e true false
        (fun s why => if sw.data = [] then s.parkOp c q op why op.gen a false else copyEmpty s c q x op w sw here sw.data.length) fun s ps =>
        engRead s x.pk ps fun s bs =>
          let more := ps.flatMap fun p => (runParts p as).map (s.readEv x.pk)
          s.putHead c q { op with gen := op.gen + 1 + more.length, swin := some (sw.fill (bs ++ more.flatten)) }

/-- A copy out writes the items of one granule of memory from its staging window (07 R165, 15 R354). -/
def copyWrite (s : State) (c q : Nat) (x : Ctx) (op : StrmOp) (e : Nat) (sw : StgWin) : List Word → State
  | [] => s
  | a :: as =>
    engAccess s c q x op a e op.cursor false true false fun s ps =>
      let parts := ps ++ ps.flatMap fun p => runParts p as
      (engWrite s x.pk parts sw.data).putHead c q
        { op with cursor := op.cursor + parts.length, gen := op.cursor + parts.length, swin := some (sw.drop (parts.length * e)) }

/-- The next step of a copy out (15 R345, R354): a granule of the buffer is read into the staging window while there is room and the items of a granule of
memory may be incomplete, else those are written. -/
def copyOut (s : State) (c q : Nat) (x : Ctx) (op : StrmOp) (w base : Word) (g : Staging) (sw : StgWin) (total : Nat) : State :=
  let b := bufOf (fld w 44 2)
  let e := goEsz w
  let f := op.cursor * e + sw.data.length
  let off := fld w 12 20 + f
  let n := min (128 - off % 128) (total - f)
  let as := ({ op with gen := op.cursor } : StrmOp).run w base g (min 128 (sw.data.length / e))
  let here := match ({ op with gen := op.cursor } : StrmOp).nextGen w base g with | .item a => a | _ => 0
  if f < total && sw.room && decide (sw.data.length < (as.length + 1) * e) then
    copyBank s x b off (fun s => if as = [] then s.parkOp c q op 6 op.cursor here false else copyWrite s c q x op e sw as) fun s =>
      s.putHead c q { op with swin := some (sw.fill (s.bufRead x.pk.pkg x.core b off n)) }
  else copyWrite s c q x op e sw as

/-- The next step of a copy in or a copy out (15 R345, R346). -/
def copyStep (s : State) (c q : Nat) (x : Ctx) (op : StrmOp) (w base : Word) (g : Staging) : State :=
  let total := g.total (goNst w) * goEsz w
  match op.swin with
  | none => s
  | some sw =>
    if total ≤ op.cursor * goEsz w then s.endOp c q op false
    else if goDir w = 2 then copyIn s c q x op w base g sw total
    else copyOut s c q x op w base g sw total

/-- The leaf dwords of a mask of `n` bits, and its summary dwords (15 R359). -/
def maskLeaves (n : Nat) : Nat := (n + 63) / 64
/-- The address of leaf dword `j` of a mask (15 R359). -/
def leafAddr (tree : Bool) (base : Word) (n j : Nat) : Word :=
  base + BitVec.ofNat 64 (16 + 8 * (if tree then (maskLeaves n + 63) / 64 else 0) + 8 * j)

/-- Read dwords of one granule for a sparse loop header (08 R175, 15 R359): the first parks the operation where a check fails. -/
def maskRead (s : State) (c q : Nat) (x : Ctx) (op : StrmOp) (a : Word) (as : List Word) (k : State → List Word → State) : State :=
  engAccess s c q x op a 8 op.cursor true false false fun s ps =>
    engRead s x.pk ps fun s bs => k s (bytesW bs :: ps.flatMap fun p => (runParts p as).map fun p => bytesW (s.readEv x.pk p))

/-- The leaf dwords from leaf `j` on that one event reads (08 R175, 15 R359): they lie in one granule, and in a tree the summary bit of each is set. -/
def leafRun (tree : Bool) (base : Word) (n j : Nat) (sum : Word) : List Word :=
  ((List.range 16).takeWhile fun i =>
    decide (j + i < maskLeaves n) && (leafAddr tree base n (j + i)).toNat / 128 = (leafAddr tree base n j).toNat / 128
      && (!tree || ((j + i) / 64 = j / 64 && sum.getLsbD ((j + i) % 64)))).map fun i => leafAddr tree base n (j + i)

/-- The bits of leaf dword `j` that belong to a mask of `n` bits. -/
def leafKeep (n j : Nat) (v : Word) : Word := if n < 64 * (j + 1) then v &&& (BitVec.allOnes 64 >>> (64 * (j + 1) - n)) else v

/-- Read ahead in a mask that has no leaf dword in hand (15 R359): a leaf past its end is zero, and one whose summary bit is 0 is zero and is not read. -/
def maskFetch (s : State) (c q : Nat) (x : Ctx) (op : StrmOp) (tree : Bool) (base : Word) (n j : Nat) (m : MaskBuf)
    (put : MaskBuf → StrmOp) : State :=
  let leaves := fun (s : State) (sum : Word) =>
    match leafRun tree base n j sum with
    | [] => s.putHead c q (put { m with leaves := [0] })
    | a :: as => maskRead s c q x op a as fun s vs => s.putHead c q (put { m with leaves := vs.zipIdx.map fun v => leafKeep n (j + v.2) v.1 })
  if n ≤ 64 * j then s.putHead c q (put { m with leaves := [0] })
  else if !tree then leaves s 0
  else
    match m.sum with
    | some (u, v) =>
      if u = j / 64 then leaves s v
      else maskRead s c q x op (base + BitVec.ofNat 64 (16 + 8 * (j / 64))) [] fun s vs => s.putHead c q (put { m with sum := some (j / 64, vs.headD 0) })
    | none => maskRead s c q x op (base + BitVec.ofNat 64 (16 + 8 * (j / 64))) [] fun s vs => s.putHead c q (put { m with sum := some (j / 64, vs.headD 0) })

/-- The bit count of a mask header is good (15 R359). -/
def countOk (n : Word) : Bool := decide (1 ≤ n.toNat) && decide (n.toNat ≤ 2 ^ 40)

/-- Read the headers of the two masks (15 R359): a bad one parks with why 3 and the address of the dword that breaks the rule. -/
def sphHeaders (s : State) (c q : Nat) (x : Ctx) (op : StrmOp) (l r : Word) : State :=
  maskRead s c q x op l [] fun s nl => maskRead s c q x op (l + 8) [] fun s zl =>
    maskRead s c q x op r [] fun s nr => maskRead s c q x op (r + 8) [] fun s zr =>
      if !countOk (nl.headD 0) then s.parkOp c q op 3 0 l false
      else if zl.headD 0 ≠ 0 then s.parkOp c q op 3 0 (l + 8) false
      else if !countOk (nr.headD 0) then s.parkOp c q op 3 0 r false
      else if zr.headD 0 ≠ 0 then s.parkOp c q op 3 0 (r + 8) false
      else s.putHead c q { op with rowInfo := some (nl.headD 0, (nr.headD 0).toNat) }

/-- The cursor of a sparse loop header moves (15 R359): a dword that it has left leaves the staging window. -/
def StrmOp.scanTo (op : StrmOp) (sw : StgWin) (p : Nat) : StrmOp :=
  let pass := fun (m : MaskBuf) => if p / 64 = op.cursor / 64 then m else { m with leaves := m.leaves.drop 1 }
  { op with cursor := p, gen := p, swin := some { sw with left := pass sw.left, right := pass sw.right } }

/-- The next step of a sparse loop header (15 R354, R359): dwords of a mask are read ahead, or a dword's positions are scanned and one index is appended. -/
def sphStep (s : State) (c q : Nat) (x : Ctx) (op : StrmOp) (isOr tree : Bool) (qn : Nat) (l r : Word) : State :=
  let k := objKey x.pk qn
  if (s.queue k).state = .frozen then s
  else if (s.queue k).state = .sealed then s.parkOp c q op 5 op.cursor 0 false
  else
    match op.rowInfo, op.swin with
    | none, _ => sphHeaders s c q x op l r
    | some _, none => s
    | some (nl, nr), some sw =>
      let n := if isOr then max nl.toNat nr else min nl.toNat nr
      if n ≤ op.cursor then
        match s.strmAppend x 0 {} k { marker := true } with
        | none => s
        | some s => s.endOp c q op false
      else
        let j := op.cursor / 64
        match sw.left.leaves, sw.right.leaves with
        | [], _ => maskFetch s c q x op tree l nl.toNat j sw.left fun m => { op with swin := some { sw with left := m } }
        | _ :: _, [] => maskFetch s c q x op tree r nr j sw.right fun m => { op with swin := some { sw with right := m } }
        | a :: _, b :: _ =>
          let v := if isOr then a ||| b else a &&& b
          match (List.range 64).find? fun i => decide (op.cursor % 64 ≤ i) && v.getLsbD i && decide (64 * j + i < n) with
          | none => s.putHead c q (op.scanTo sw (64 * (j + 1)))
          | some i =>
            match s.strmAppend x 0 {} k { bits := BitVec.ofNat 4096 (64 * j + i) } with
            | none => s
            | some s => s.putHead c q (op.scanTo sw (64 * j + i + 1))

/-- Whether a fence or a `qfence` still holds an operation's accesses (08 R185, R187). -/
def Ctx.fenced (x : Ctx) (op : StrmOp) : Bool :=
  x.path.any fun e => op.fences.contains e.stamp && match e.eff with | .qfence ops => ops.any x.opPending | _ => true

/-- The next step of the operation at the head of an engine queue. -/
def opStep (s : State) (c q : Nat) (x : Ctx) (op : StrmOp) : State :=
  match op.kind with
  | .sph isOr tree qn l r => sphStep s c q x op isOr tree qn l r
  | .go w base g =>
    if goDir w = 0 then readStep s c q x op w base g
    else if goCopy w then copyStep s c q x op w base g
    else drainStep s c q x op w base g

/-- Note the time of an engine's event for the watchdog of hangs (21 R449). -/
def State.touch (s : State) (pk : PartKey) : State :=
  s.setPart pk { s.part pk with stamp := s.cycle pk.pkg 0 }

/-- STREAM_ITEM (15 R353): the running operation at the head of an engine queue takes its next step. -/
def execStreamItem (s : State) : Out State :=
  match s.site with
  | .ctxQ c q =>
    match s.ctxs.get? c with
    | none => .next s
    | some x =>
      match x.head q with
      | none => .next s
      | some op =>
        if !op.running || !s.engines x op || x.fenced op || q = 14 then .next s
        else
          let s' := opStep s c q x { op with pull := none }
          .next (if s' = s then s else s'.touch x.pk)
  | _ => .fault .noSite

/-- Decide a parked operation (15 R356): resume it from its cursor, or end it. -/
def State.sstatAct (s : State) (c q : Nat) (resume : Bool) : State :=
  match s.ctxs.get? c with
  | none => s
  | some x =>
    match x.head q with
    | none => s
    | some op =>
      if op.park.isNone then s
      else if resume then
        s.putHead c q { op with park := none, running := !op.staged || (match op.swin with | some w => w.openOn (s.dieN x) | none => false), gen := op.cursor }
      else s.endOp c q op true

/-- SSTAT_RESUME (15 R356). -/
def execSstatResume (s : State) : Out State :=
  match s.site with
  | .ctxQ c q => .next (s.sstatAct c q true)
  | _ => .fault .noSite

/-- SSTAT_ABANDON (15 R356). -/
def execSstatAbandon (s : State) : Out State :=
  match s.site with
  | .ctxQ c q => .next (s.sstatAct c q false)
  | _ => .fault .noSite

end Sys2Proof.Machine
end

