-- ==== Sys2Proof/Machine/Matrix.lean ====
section
/-!
DEFINITION. Shapes, tiles and accumulators (12 R264 to R286): `shape`, `shstep`, the matrix commands as they issue, and the work of engine queue 14.
-/
namespace Sys2Proof.Machine

/-! ### Shapes -/

/-- The code of a grant (12 R266): the grant is 8 x 2^code; `m` is the native maximum. -/
def grantCode (m q : Nat) : Nat := if q < 8 then 0 else Nat.log2 (min q m) - 3

/-- Whether a shape request keeps R271. -/
def shapeOk (tile : Bool) (v : Word) : Bool :=
  if tile then decide (fld v 38 26 = 0) && decide (fld v 36 2 ≠ 3) else decide (fld v 20 44 = 0)

/-- The view that a shape request gives on a part (12 R265, R266, R271). -/
def shapeView (c : Chip) (tile : Bool) (v : Word) : Word :=
  if tile then
    let g := grantCode (Config.island c)
    let m := fld v 24 12
    let n := fld v 12 12
    let k := fld v 0 12
    let d := fld v 36 2
    at' 2 62 ||| at' d 60 ||| at' (g m) 57 ||| at' (g n) 54 ||| at' (g k) 51 ||| at' m 36 ||| at' n 24
      ||| at' k 12 ||| at' (if d = 0 then m else if d = 1 then n else k) 0
  else
    let q := fld v 0 20
    at' 1 62 ||| at' (grantCode Config.lanes q) 59 ||| at' q 20 ||| at' q 0

/-- A `shape` at commit (12 R271): the access view, and the marker in a pair context. -/
def State.shapeCommit (s : State) (c : Nat) (tile : Bool) (k : Nat) (v : Word) : State :=
  s.updCtx c fun x =>
    let w := shapeView (s.pkg x.pk.pkg).chip tile v
    { x with
      regs := { x.regs with shA := vecSet x.regs.shA k w }
      ports := if x.ctl.aonly then x.ports else { x.ports with cmdq := x.ports.cmdq ++ [{ kind := .shape k, v := w }] } }

/-- A `shape` issues (12 R271): a pair context's reserves an entry of `cmdq`. -/
def shapeIssue (i : Info) (id : Ident) (tile : Bool) (sh : BitVec 3) (s : State) : Out State :=
  storeOp i id
    (fun cu b _ l _ => withCtx s b fun x =>
      if !shapeOk tile l.val then failWith s cu b (slotFault 0x15 cu.slot)
      else if x.ctl.aonly then completeWith s cu b id (.shape tile sh.toNat l.val)
      else if s.cmdqRoom b.ctx x = 0 then holdFor s cu b .cmdq
      else completeWith s cu { b with cmdqRes := b.cmdqRes + 1 } id (.shape tile sh.toNat l.val)) s

/-- `shape.v` (12 R271). -/
def execShapeV (p : Pred) (id : Ident) (sh : BitVec 3) (s : State) : Out State := shapeIssue (info (.shapeV p id sh)) id false sh s
/-- `shape.t` (12 R271). -/
def execShapeT (p : Pred) (id : Ident) (sh : BitVec 3) (s : State) : Out State := shapeIssue (info (.shapeT p id sh)) id true sh s

/-- The grant of the stepped dimension of a view (12 R267, R272). -/
def stepGrant (v : Word) : Nat :=
  if viewKind v = 1 then viewG v
  else 8 * 2 ^ (match fld v 60 2 with | 0 => fld v 57 3 | 1 => fld v 54 3 | _ => fld v 51 3)

/-- The remainder of a view (12 R265). -/
def viewRem (v : Word) : Nat := if viewKind v = 1 then fld v 0 20 else fld v 0 12

/-- A view with another remainder (12 R272). -/
def setRem (v : Word) (r : Nat) : Word :=
  if viewKind v = 1 then (v &&& ~~~0xFFFFF#64) ||| at' (r % 2 ^ 20) 0 else (v &&& ~~~0xFFF#64) ||| at' (r % 2 ^ 12) 0

/-- The view of a block's side of a shape register. -/
def Regs.sideView (r : Regs) (acc : Bool) (k : Nat) : Word := vecGet (if acc then r.shA else r.shE) k 0

/-- The remainder that an `shstep` sees (12 R272): the view's, stepped by each lower identifier of its block. -/
def Blk.stepRem (b : Blk) (k id : Nat) (v : Word) : Nat :=
  (b.sortedEffs.filter fun e => e.1 < id).foldl (fun n e => match e.2 with | .shstep k' r => if k' = k then r else n | _ => n) (viewRem v)

/-- Whether a lower `shstep` of the register in the block, or one of an older block, has not arrived (12 R268, R272). -/
def State.stepWaits (s : State) (b : Blk) (k id : Nat) : Bool :=
  ((s.older b).any fun e => e.2.steps k)
    || b.instrs.any fun e =>
      match e.2.2 with
      | .shstep _ j sh _ => decide (sh.toNat = k) && decide (j.toNat < id) && !e.2.1.isOver
      | .shstepV _ j sh _ => decide (sh.toNat = k) && decide (j.toNat < id) && !e.2.1.isOver
      | _ => false

/-- The token of an `shstep` (12 R272). -/
def stepTok (dat : Bool) (a r : Nat) : Tok :=
  if dat then .vec (ofMask (BitVec.ofNat 1024 (2 ^ a - 1))) else Tok.ofWord (at' (a % 2 ^ 20) 20 ||| at' (r % 2 ^ 20) 0)

/-- An `shstep` issues (12 R272). -/
def stepIssue (i : Info) (id : Ident) (k : Nat) (dat : Bool) (s : State) : Out State :=
  actOp i (fun cu b sl => (b.complete cu.slot id none).send sl .null i.t1)
    (fun cu b sl _ _ => withCtx s b fun x =>
      if s.stepWaits b k id.toNat then .next s
      else
        let v := x.regs.sideView (decide (b.hdr.kind = 1)) k
        if viewKind v = 0 then failWith s cu b (slotFault 0x16 cu.slot)
        else
          let n := b.stepRem k id.toNat v
          let a := min n (stepGrant v)
          .next (s.setBlk cu.frame
            ((b.complete cu.slot id (some (.shstep k (n - a)))).send sl (stepTok dat a (n - a)) i.t1))) s

/-- `shstep` (12 R272). -/
def execShstep (p : Pred) (id : Ident) (sh : BitVec 3) (t1 : Tgt) (s : State) : Out State :=
  stepIssue (info (.shstep p id sh t1)) id sh.toNat false s
/-- `shstep.v` (12 R272). -/
def execShstepV (p : Pred) (id : Ident) (sh : BitVec 3) (t1 : Tgt) (s : State) : Out State :=
  stepIssue (info (.shstepV p id sh t1)) id sh.toNat true s

/-- The active tile shape (12 R268): the register and its execute view. -/
def Regs.tShape (r : Regs) : Option (Nat × Word) :=
  match r.actT with
  | none => none
  | some k => let v := vecGet r.shE k 0; if viewKind v = 2 then some (k, v) else none

/-- The extents and grants of a tile view (12 R267). -/
def extentsOf (v : Word) : Extents :=
  let g := fun lo => 8 * 2 ^ fld v lo 3
  let a := fun (d lo q : Nat) => if fld v 60 2 = d then min (fld v 0 12) (g lo) else min (fld v q 12) (g lo)
  { aM := a 0 57 36, aN := a 1 54 24, aK := a 2 51 12, gM := g 57, gN := g 54, gK := g 51 }

/-- Whether an older block in flight still steps the active tile shape (12 R268). -/
def State.tileWaits (s : State) (x : Ctx) (b : Blk) : Bool :=
  (s.older b).any fun e => match x.regs.actT with | some k => e.2.steps k | none => false

/-! ### Tiles -/

/-- Whether reserved bits of a tile descriptor are zero and its offset is a multiple of 128 (12 R273, R275). -/
def descOk (d : Word) : Bool :=
  decide (fld d 42 16 = 0) && decide (fld d 32 4 = 0) && decide (fld d 0 20 % 128 = 0) && (d.getLsbD 63 || decide (fld d 58 5 = 0))

/-- The pitch of a tile descriptor in bytes. -/
def descPitch (d : Word) : Nat := 128 * fld d 20 12
/-- The offset of a tile descriptor. -/
def descOff (d : Word) : Nat := fld d 0 20
/-- Whether a tile descriptor names a window. -/
def descWin (d : Word) : Bool := d.getLsbD 63

/-- The beats of a row of `c` positions (12 R274). -/
def rowBeats (ty : ElTy) (c : Nat) : Nat :=
  match ty with
  | .mx8 => ((c + 31) / 32 + 2) / 3
  | .mx4 => ((c + 31) / 32 + 6) / 7
  | .s8 | .s16 | .s32 | .n8 | .n16 | .n32 | .f32 | .f16 | .bf16 | .e4m3 | .e5m2 | .e2m1 => (c * ElTy.width ty + 1023) / 1024

/-- The element type of an `mma` type. -/
def mmaEl : MmaTy → ElTy
  | .s8 => .s8 | .n8 => .n8 | .f16 => .f16 | .bf16 => .bf16 | .e4m3 => .e4m3 | .e5m2 => .e5m2 | .e2m1 => .e2m1 | .mx8 => .mx8 | .mx4 => .mx4

/-- The queue of a descriptor's window (12 R273). -/
def Ctx.winQueue (x : Ctx) (d : Word) : Option PKey := (x.inlet (fld d 58 5)).map fun b => objKey x.pk b.queue

/-- Step 2 of R275 for an operand of `rows` rows of `b` beats. -/
def State.descFits (s : State) (x : Ctx) (d : Word) (rows b : Nat) : Bool :=
  descOk d && decide (1 ≤ fld d 20 12) && decide (b ≤ fld d 20 12)
    && (!descWin d ||
      match x.winQueue d with
      | none => false
      | some k =>
        let w := (s.queue k).win
        decide (w.kind ≠ 0) && decide (descOff d + descPitch d * rows + 128 * b ≤ 2 ^ w.lsize + descPitch d))

/-- Step 3 of R275: the rows' beats lie in owned banks of a buffer. -/
def State.rowsOwned (s : State) (x : Ctx) (buf : Buf) (d : Word) (rows b : Nat) : Bool :=
  descWin d || b = 0 || (List.range rows).all fun r => s.bufOk x.pk x.core buf (descOff d + descPitch d * r) (128 * b)

/-- The bytes of an accumulator tile (12 R277). -/
def Extents.tile (e : Extents) : Nat := 4 * e.gM * e.gN

/-- The offset of an accumulator in C (12 R277). -/
def accOff (base : Nat) (e : Extents) (n : Nat) : Nat := 4096 * base + n * e.tile

/-- Step 4 of R275: the accumulator is usable and lies in owned banks. -/
def State.accOk (s : State) (x : Ctx) (e : Extents) (n : Nat) : Bool :=
  decide (n < min 16 (4096 * x.fx.accSize / e.tile)) && s.bufOk x.pk x.core .c (accOff x.fx.accBase e n) e.tile

/-- The rows and columns of a `tmov` source (12 R273, R286). -/
def tmovDims (e : Extents) (d : Word) : Nat × Nat :=
  match fld d 40 2 with
  | 0 => (e.aM, e.aK) | 1 => (e.aN, e.aK) | 2 => (e.aM, e.aN) | _ => (e.aK, e.aN)

/-- The type of a `tmov` descriptor. -/
def descTy (d : Word) : Option ElTy := ElTy.ofCode (d.extractLsb' 36 4)

/-- Whether a type is a microscaled one. -/
def isMx (t : ElTy) : Bool := t = .mx8 || t = .mx4

/-- The checks of a matrix command against its extents (12 R275, R278, R286): the code of the first that fails, 0 for none. -/
def State.mxCheck (s : State) (x : Ctx) (e : Extents) : MxKind → Nat
  | .mma ty _ acc a w =>
    let b := rowBeats (mmaEl ty) e.aK
    if !s.descFits x a e.aM b || !s.descFits x w e.aN b then 0x17
    else if !s.rowsOwned x .a a e.aM b || !s.rowsOwned x .w w e.aN b then 0x14
    else if !s.accOk x e acc then 0x14 else 0
  | .mmaG ty _ acc _ w =>
    let b := rowBeats (mmaEl ty) e.aK
    if !s.descFits x w e.aN b then 0x17
    else if !s.rowsOwned x .w w e.aN b then 0x14
    else if !s.accOk x e acc then 0x14 else 0
  | .tmov tr src dst sd dd =>
    match descTy sd, descTy dd with
    | some ts, some td =>
      let n := tmovDims e sd
      let m := if tr then (n.2, n.1) else n
      if descWin sd || descWin dd || ((isMx ts || isMx td) && (tr || ts != td)) || !s.descFits x sd n.1 (rowBeats ts n.2)
          || !s.descFits x dd m.1 (rowBeats td m.2) then 0x17
      else if !s.rowsOwned x src sd n.1 (rowBeats ts n.2) || !s.rowsOwned x dst dd m.1 (rowBeats td m.2) then 0x14
      else 0
    | _, _ => 0x17
  | .acclr acc => if !s.accOk x e acc then 0x14 else 0
  | .accst acc t =>
    let dt := ElTy.ofCode (t.extractLsb' 8 4)
    let bound := match x.outlet (fld t 0 5) with | some b => (s.queue (objKey x.pk b.queue)).plane | none => false
    if fld t 17 47 ≠ 0 || fld t 5 3 ≠ 0 || 4 ≤ fld t 12 3 || !bound
        || (match dt with
          | none => true
          | some d => isMx d || (t.getLsbD 15 && (d = .f32 || d = .f16 || d = .bf16))) then 0x17
    else if !s.accOk x e acc then 0x14 else 0

/-- Entries of queue 14 that blocks in flight reserve (12 R276). -/
def State.mxReserved (s : State) (c : Nat) : Nat := (s.blks.map fun e => if e.2.ctx = c then e.2.mxRes else 0).sum

/-- Free places of queue 14 (12 R276). -/
def State.mxRoom (s : State) (c : Nat) (x : Ctx) : Nat := 32 - x.fx.q14.length - s.mxReserved c

/-- A matrix command issues (12 R275, R276): it waits for its shape and for a place in queue 14. -/
def mxIssue (i : Info) (id : Ident) (f : Tok → Tok → MxKind) (s : State) : Out State :=
  storeOp i id
    (fun cu b _ l r => withCtx s b fun x =>
      if s.tileWaits x b then .next s
      else
        match x.regs.tShape with
        | none => failWith s cu b (slotFault 0x16 cu.slot)
        | some v =>
          let m := f l r
          if s.mxCheck x (extentsOf v.2) m ≠ 0 then failWith s cu b (slotFault (s.mxCheck x (extentsOf v.2) m) cu.slot)
          else if s.mxRoom b.ctx x = 0 then .next s
          else completeWith s cu { b with mxRes := b.mxRes + 1 } id (.mx m)) s

/-- `mma` (12 R280). -/
def execMma (p : Pred) (id : Ident) (ty : MmaTy) (sat : Bool) (acc : BitVec 4) (s : State) : Out State :=
  mxIssue (info (.mma p id ty sat acc)) id (fun l r => .mma ty sat acc.toNat l.val r.val) s
/-- `mma.g` (12 R280). -/
def execMmaG (p : Pred) (id : Ident) (ty : MmaTy) (sat : Bool) (acc : BitVec 4) (s : State) : Out State :=
  mxIssue (info (.mmaG p id ty sat acc)) id (fun l r => .mmaG ty sat acc.toNat l.bits r.val) s
/-- `tmov` (12 R286). -/
def execTmov (p : Pred) (id : Ident) (src dst : Buf) (s : State) : Out State :=
  mxIssue (info (.tmov p id src dst)) id (fun l r => .tmov false src dst l.val r.val) s
/-- `tmov.t` (12 R286). -/
def execTmovT (p : Pred) (id : Ident) (src dst : Buf) (s : State) : Out State :=
  mxIssue (info (.tmovT p id src dst)) id (fun l r => .tmov true src dst l.val r.val) s
/-- `acclr` (12 R278). -/
def execAcclr (p : Pred) (id : Ident) (acc : BitVec 4) (s : State) : Out State :=
  mxIssue (info (.acclr p id acc)) id (fun _ _ => .acclr acc.toNat) s
/-- `accst` (12 R278). -/
def execAccst (p : Pred) (id : Ident) (acc : BitVec 4) (s : State) : Out State :=
  mxIssue (info (.accst p id acc)) id (fun l _ => .accst acc.toNat l.val) s

/-! ### Queue 14 -/

/-- The windows that a matrix command reads, its left operand's first (12 R276). -/
def MxKind.windows (x : Ctx) : MxKind → List PKey
  | .mma _ _ _ a w => (if descWin a then (x.winQueue a).toList else []) ++ (if descWin w then (x.winQueue w).toList else [])
  | .mmaG _ _ _ _ w => if descWin w then (x.winQueue w).toList else []
  | .tmov _ _ _ _ _ | .acclr _ | .accst _ _ => []

/-- The windows that a matrix command pins, each once (07 R166). -/
def MxKind.pinned (x : Ctx) (m : MxKind) : List PKey := (m.windows x).eraseDups

/-- A matrix command at commit (12 R276): its extents, its place for accumulators and its pins. `x` is the context before its block's own
steps. -/
def State.mxCommit (s : State) (c : Nat) (x : Ctx) (act : Option Nat) (m : MxKind) : State :=
  match x.regs.tShape with
  | none => s
  | some v =>
    let st := s.stamp
    let ks := m.windows x
    let s := ks.eraseDups.foldl (fun s k => let q := s.queue k; s.setQueue k { q with win := { q.win with pins := q.win.pins + 1 } }) st.2
    s.updCtx c fun y =>
      let t := y.takeBinds 14
      { t.2 with
        fx := { t.2.fx with
          q14 := t.2.fx.q14 ++
            [{ kind := m, ext := extentsOf v.2, accBase := x.fx.accBase, accSize := x.fx.accSize, stamp := st.1
               pins := ks.map fun k => (k, (s.queue k).win.tail), binds := t.1, by' := act }] } }

/-- Change the head of queue 14. -/
def State.putMx (s : State) (c : Nat) (op : MxOp) : State :=
  s.updCtx c fun x => { x with fx := { x.fx with q14 := op :: x.fx.q14.drop 1 } }

/-- A matrix operation ends (12 R281, R284, 18 R396, R397). -/
def State.mxEnd (s : State) (c : Nat) (op : MxOp) (failed : Bool) : State :=
  let s := (s.updCtx c fun x => { x with fx := { x.fx with q14 := x.fx.q14.filter fun o => o.stamp ≠ op.stamp } }).unpin op
  if failed then s.bindsFail op.binds else s.bindsArrive op.binds

/-- Flags of a matrix operation go to `cr.fpst` (06 R144). -/
def State.mxFlags (s : State) (c : Nat) (f : Flags) : State := s.updCtx c fun x => { x with fx := { x.fx with fpst := stick x.fx.fpst f } }

/-- A typed buffer or a window as an operand. -/
inductive Src where
  | buf (b : Buf)
  | win (k : PKey)
  deriving DecidableEq, Repr

/-- The bytes that a window holds from its tail (12 R273, log 10); those of a marker's element are free. -/
def Queue.winBytes (q : Queue) : List Byte :=
  q.els.zipIdx.flatMap fun e => leBytes q.size (if e.1.marker then Config.freeBits (q.win.tail.toNat + q.size * e.2) else e.1.bits).toNat

/-- A beat of an operand as a number: none while a window's fills have not reached it (07 R166). -/
def State.beat (s : State) (x : Ctx) (src : Src) (off : Nat) : Option Nat :=
  match src with
  | .buf b => some (leNat (s.bufRead x.pk.pkg x.core b off 128))
  | .win k =>
    let l := ((s.queue k).winBytes.drop off).take 128
    if l.length < 128 then none else some (leNat l)

/-- The beat of a row that holds K-group `g` (12 R274). -/
def groupBeat (ty : ElTy) (g : Nat) : Nat :=
  match ty with
  | .mx8 => g / 3
  | .mx4 => g / 7
  | .s8 | .s16 | .s32 | .n8 | .n16 | .n32 | .f32 | .f16 | .bf16 | .e4m3 | .e5m2 | .e2m1 => 32 * g * ElTy.width ty / 1024

/-- The value of position `k` of a row, from the beat that holds it (12 R274, 06 R131). -/
def beatVal (ty : ElTy) (beat k : Nat) : Xv :=
  match mxOf ty with
  | some m => mxElem m beat (k % mxPerBeat m)
  | none =>
    let w := ElTy.width ty
    elemVal ty (beat / 2 ^ (k * w % 1024) % 2 ^ w)

/-- The products of one element of a K-group (12 R281). -/
def groupProducts (ty : ElTy) (a w : Nat) (ks : List Nat) : List (Xv × Flags) :=
  ks.map fun k => (beatVal ty a k).mul (beatVal ty w k)

/-- The exact sum of a group's products (06 R146). -/
def groupSum : List (Xv × Flags) → Xv × Flags
  | [] => (.fin false 0 0, {})
  | p :: r =>
    if (p :: r).any fun q => q.1 = .nan then (.nan, { nv := true })
    else r.foldl (fun a q => let t := a.1.add q.1; (t.1, a.2.or t.2)) (p.1, {})

/-- The integer of an exact integer value. -/
def Xv.toInt' : Xv → Int
  | .fin n m e => scaled n m e 0
  | .nan | .inf _ => 0

/-- The group addition of R146 and R147. -/
def groupAdd (ty : MmaTy) (sat : Bool) (old : Nat) (ps : List (Xv × Flags)) : Nat × Flags :=
  if ElTy.isInt (mmaEl ty) then
    intResult .s32 sat (intOfBits true 32 old + (ps.map fun p => p.1.toInt').sum)
  else
    let g := groupSum ps
    let t := (f32Fmt.decode old).add g.1
    let r := roundTo f32Fmt {} t.1
    (r.1, (g.2.or t.2).or r.2)

/-- The 32-bit values of a row of an accumulator tile, from a byte offset. -/
def State.accRow (s : State) (x : Ctx) (off n : Nat) : List Nat :=
  (List.range n).map fun j => leNat (s.bufRead x.pk.pkg x.core .c (off + 4 * j) 4)

/-- One row of a K-group (12 R281): the new values of its active elements and their flags. -/
def State.mmaRow (s : State) (x : Ctx) (op : MxOp) (ty : MmaTy) (sat : Bool) (acc : Nat) (ks : List Nat) (a : Nat) (ws : List Nat) (i : Nat) :
    List (Nat × Flags) :=
  let old := s.accRow x (accOff op.accBase op.ext acc + 4 * i * op.ext.gN) op.ext.aN
  (old.zip ws).map fun p => groupAdd ty sat p.1 (groupProducts (mmaEl ty) a p.2 ks)

/-- The idle cycles of the rows of a K-group (12 R283): free numbers of cycles, added with saturation. -/
def addIdle (v : Vector Word 32) (rows : Nat) (f : VWord) : Vector Word 32 :=
  (List.range 32).foldl
    (fun v n =>
      let w := vecGet v n 0
      let h := fun (j : Nat) =>
        let old := fld w (16 * j) 16
        if 4 * n + j < rows then min 0xFFFF (old + elem 32 (4 * n + j) f) else old
      vecSet v n (at' (h 3) 48 ||| at' (h 2) 32 ||| at' (h 1) 16 ||| at' (h 0) 0)) v

/-- The blocks and passes that an island of a native maximum takes a tile operation in (12 R270). -/
def Extents.passes (e : Extents) (x : Nat) : Nat := (e.gM + x - 1) / x * ((e.gN + x - 1) / x) * ((e.gK + x - 1) / x)

/-- `cr.fold` counts an operation that is performed folded (12 R270, log 120), once. -/
def FpMx.folds (f : FpMx) (op : MxOp) (x : Nat) : FpMx :=
  let n := op.ext.passes x
  if op.folded || n ≤ 1 then f
  else { f with foldOps := min (f.foldOps + 1) (2 ^ 32 - 1), foldPasses := min (f.foldPasses + n - 1) (2 ^ 32 - 1) }

/-- Perform K-group `g` with the beats of the rows of A and W (12 R281). -/
def State.mmaGroup (s : State) (c : Nat) (x : Ctx) (op : MxOp) (ty : MmaTy) (sat : Bool) (acc : Nat) (as ws : List Nat) : State :=
  let g := op.next
  let native := Config.island (s.pkg x.pk.pkg).chip
  let ks := (List.range 32).filterMap fun j => if 32 * g + j < op.ext.aK then some (32 * g + j) else none
  let rows := as.zipIdx.map fun p => (p.2, s.mmaRow x op ty sat acc ks p.1 ws p.2)
  let fl := rows.foldl (fun f r => r.2.foldl (fun f e => f.or e.2) f) ({} : Flags)
  let s := rows.foldl
    (fun s r => s.bufWrite x.pk.pkg x.core .c (accOff op.accBase op.ext acc + 4 * r.1 * op.ext.gN) (r.2.flatMap fun e => leBytes 4 e.1)) s
  let d := s.drawBits
  let s := (d.2.mxFlags c fl).updCtx c fun y =>
    { y with fx := { y.fx with idle := addIdle y.fx.idle op.ext.aM d.1 }.folds op native }
  let op := { op with next := g + 1, folded := op.folded || decide (1 < op.ext.passes native) }
  if (op.ext.aK + 31) / 32 ≤ g + 1 then s.mxEnd c op false else s.putMx c op

/-- The check of a gathered row (12 R282): 0 where its beat may be read, else why not. -/
def State.gatherWhy (s : State) (x : Ctx) (off : Nat) : Nat :=
  if bufSize (s.pkg x.pk.pkg).chip .a < off + 128 then 1 else if s.bufOk x.pk x.core .a off 128 then 0 else 2

/-- The beats of `n` rows for a K-group: none while some is not there. -/
def State.beats (s : State) (x : Ctx) (src : Src) (d : Word) (b n : Nat) : Option (List Nat) :=
  (List.range n).mapM fun r => s.beat x src (descOff d + descPitch d * r + 128 * b)

/-- Where an operand of a matrix command stands: its window is the `n`th that the command pins. -/
def MxOp.src (op : MxOp) (d : Word) (b : Buf) (n : Nat) : Src :=
  if descWin d then (match op.pins[n]? with | some p => .win p.1 | none => .buf b) else .buf b

/-- The head of queue 14 where the context's matrix commands go on (12 R284, 13 R304, R305). -/
def State.mxHead (s : State) (x : Ctx) : Option MxOp :=
  match x.fx.q14 with
  | [] => none
  | op :: _ => if op.stop.isNone && (x.live || s.draining x) then some op else none

/-- The next K-group of an `mma` (12 R281). -/
def mmaStep (s : State) (c : Nat) (x : Ctx) (op : MxOp) (ty : MmaTy) (sat : Bool) (acc : Nat) (a w : Word) : State :=
  let b := groupBeat (mmaEl ty) op.next
  match s.beats x (op.src a .a 0) a b op.ext.aM, s.beats x (op.src w .w (if descWin a then 1 else 0)) w b op.ext.aN with
  | some as, some ws => s.mmaGroup c x op ty sat acc as ws
  | _, _ => s

/-- The next K-group of an `mma.g` (12 R281, R282): a failed row check stops it. -/
def mmaGStep (s : State) (c : Nat) (x : Ctx) (op : MxOp) (ty : MmaTy) (sat : Bool) (acc : Nat) (idx : VWord) (w : Word) : State :=
  let b := groupBeat (mmaEl ty) op.next
  let off := fun i => 128 * elem 32 i idx + 128 * b
  match (List.range op.ext.aM).find? fun i => s.gatherWhy x (off i) ≠ 0 with
  | some i => (s.putMx c { op with stop := some (i, s.gatherWhy x (off i)) }).raise c 6
  | none =>
    match s.beats x (op.src w .w 0) w b op.ext.aN with
    | some ws => s.mmaGroup c x op ty sat acc ((List.range op.ext.aM).map fun i => leNat (s.bufRead x.pk.pkg x.core .a (off i) 128)) ws
    | none => s

/-- The ranges of typed buffers that a matrix command names (07 R170). -/
def MxOp.ranges (op : MxOp) : List (Buf × Nat × Nat) :=
  let rows := fun (b : Buf) (d : Word) (n beats : Nat) =>
    if descWin d then [] else (List.range n).map fun r => (b, descOff d + descPitch d * r, 128 * beats)
  let acc := fun n => [(Buf.c, accOff op.accBase op.ext n, op.ext.tile)]
  match op.kind with
  | .mma ty _ n a w =>
    let b := rowBeats (mmaEl ty) op.ext.aK
    rows .a a op.ext.aM b ++ rows .w w op.ext.aN b ++ acc n
  | .mmaG ty _ n idx w =>
    let b := rowBeats (mmaEl ty) op.ext.aK
    ((List.range op.ext.aM).map fun i => (Buf.a, 128 * elem 32 i idx, 128 * b)) ++ rows .w w op.ext.aN b ++ acc n
  | .tmov tr src dst sd dd =>
    let n := tmovDims op.ext sd
    let m := if tr then (n.2, n.1) else n
    let beats := fun (d : Word) (c : Nat) => match descTy d with | some t => rowBeats t c | none => 0
    rows src sd n.1 (beats sd n.2) ++ rows dst dd m.1 (beats dd m.2)
  | .acclr n => acc n
  | .accst n _ => acc n

/-- Whether a matrix command is held in queue 14 because a bank that it names is still on its way to its partition (07 R172). -/
def State.mxComes (s : State) (x : Ctx) (op : MxOp) : Bool := op.ranges.any fun r => s.bufComes x.pk x.core r.1 r.2.1 r.2.2

/-- Act on the head of queue 14. -/
def withMx (s : State) (f : Nat → Ctx → MxOp → State) : Out State :=
  match s.site with
  | .ctx c =>
    match s.ctxs.get? c with
    | none => .next s
    | some x =>
      match s.mxHead x with
      | none => .next s
      | some op =>
        if s.mxComes x op then .next s
        else let s' := f c x op; .next (if s' = s then s else s'.touch x.pk)
  | _ => .fault .noSite

/-- MMA_K_GROUP (12 R281): one K-group of the `mma` or `mma.g` at the head of queue 14. -/
def execMmaKGroup (s : State) : Out State :=
  withMx s fun c x op =>
    match op.kind with
    | .mma ty sat acc a w => if op.ext.aK = 0 then s.mxEnd c op false else mmaStep s c x op ty sat acc a w
    | .mmaG ty sat acc idx w => if op.ext.aK = 0 then s.mxEnd c op false else mmaGStep s c x op ty sat acc idx w
    | .tmov _ _ _ _ _ | .acclr _ | .accst _ _ => s

/-- An element of a row in a buffer, as its bits. -/
def rowElem (ty : ElTy) (row k : Nat) : Nat := row / 2 ^ (k * ElTy.width ty) % 2 ^ ElTy.width ty

/-- A row of a buffer with `c` new elements (12 R286): the bytes of the elements, and for a microscaled type the scale bytes of their
blocks from `src`; every other bit keeps its value. -/
def rowMerge (ty : ElTy) (old : Nat) (vals : List Nat) (src : Nat) : Nat :=
  let w := ElTy.width ty
  match mxOf ty with
  | none =>
    let n := w * vals.length
    old / 2 ^ n * 2 ^ n + packNat w vals
  | some m =>
    (List.range vals.length).foldl
      (fun r k =>
        let b := k / mxPerBeat m
        let i := k % mxPerBeat m
        let e := 1024 * b + (if m then 4 else 8) * i
        let sc := 1024 * b + 8 * (mxScaleAt m + i / 32)
        putBits (putBits r e (if m then 4 else 8) (src / 2 ^ e)) sc 8 (src / 2 ^ sc)) old
where
  /-- A number with `n` bits replaced at bit `lo`. -/
  putBits (r lo n v : Nat) : Nat := r - r / 2 ^ lo % 2 ^ n * 2 ^ lo + v % 2 ^ n * 2 ^ lo

/-- An element converted as `tmov` and `accst` convert it (06 R139): copied where the types are one. -/
def convElem (src dst : ElTy) (o : ROpts) (v : Nat) : Nat × Flags :=
  if src = dst then (v, {}) else convVal (ElTy.isInt src) dst o (elemVal src v)

/-- A tile move (12 R286): the whole source is read before a byte is written. -/
def tmovStep (s : State) (c : Nat) (x : Ctx) (op : MxOp) (tr : Bool) (src dst : Buf) (sd dd : Word) : State :=
  match descTy sd, descTy dd with
  | some ts, some td =>
    let n := tmovDims op.ext sd
    let m := if tr then (n.2, n.1) else n
    let rows := (List.range n.1).map fun r =>
      leNat (s.bufRead x.pk.pkg x.core src (descOff sd + descPitch sd * r) (128 * rowBeats ts n.2))
    let el := fun i j => let p := if tr then (j, i) else (i, j); convElem ts td {} (rowElem ts ((rows[p.1]?).getD 0) p.2)
    let out := (List.range m.1).map fun i => (i, (List.range m.2).map fun j => el i j)
    let fl := out.foldl (fun f r => r.2.foldl (fun f e => f.or e.2) f) ({} : Flags)
    let s := out.foldl
      (fun s r =>
        let off := descOff dd + descPitch dd * r.1
        let len := 128 * rowBeats td m.2
        let old := leNat (s.bufRead x.pk.pkg x.core dst off len)
        s.bufWrite x.pk.pkg x.core dst off (leBytes len (rowMerge td old (r.2.map Prod.fst) ((rows[r.1]?).getD 0)))) s
    (s.mxFlags c fl).mxEnd c op false
  | _, _ => s.mxEnd c op true

/-- TMOV_PERFORM (12 R286). -/
def execTmovPerform (s : State) : Out State :=
  withMx s fun c x op =>
    match op.kind with
    | .tmov tr src dst sd dd => tmovStep s c x op tr src dst sd dd
    | .mma _ _ _ _ _ | .mmaG _ _ _ _ _ | .acclr _ | .accst _ _ => s

/-- ACCLR_PERFORM (12 R278). -/
def execAcclrPerform (s : State) : Out State :=
  withMx s fun c x op =>
    match op.kind with
    | .acclr acc => (s.bufWrite x.pk.pkg x.core .c (accOff op.accBase op.ext acc) (List.replicate op.ext.tile 0)).mxEnd c op false
    | .mma _ _ _ _ _ | .mmaG _ _ _ _ _ | .tmov _ _ _ _ _ | .accst _ _ => s

/-- The row of an accumulator as a token (12 R278). -/
def accstRow (st : Word) (row : List Nat) : VWord × Flags :=
  let src := if st.getLsbD 16 then ElTy.s32 else .f32
  match ElTy.ofCode (st.extractLsb' 8 4) with
  | none => (0, {})
  | some d =>
    let mode := match fld st 12 3 with | 1 => RMode.rz | 2 => .ru | 3 => .rd | _ => .rne
    let rs := row.map fun v => convElem src d { mode := mode, sat := st.getLsbD 15 } v
    (pack (ElTy.width d) (rs.map Prod.fst), rs.foldl (fun f e => f.or e.2) {})

/-- The next row of an `accst` (12 R278): appended where its outlet's window has room for its round, and is not sealed (14 R317, log 123). -/
def accstStep (s : State) (c : Nat) (x : Ctx) (op : MxOp) (acc : Nat) (st : Word) : State :=
  if op.ext.aM ≤ op.next then s.mxEnd c op false
  else
    match x.outlet (fld st 0 5) with
    | none => s
    | some b =>
      let k := objKey x.pk b.queue
      if s.roomOf x k = 0 || s.outOfTurn k b.round || s.reachesSealed k then s
      else
        let t := accstRow st (s.accRow x (accOff op.accBase op.ext acc + 4 * op.next * op.ext.gN) op.ext.aN)
        let s := (s.outAppend c (fld st 0 5) (some t.1)).mxFlags c t.2
        let op := { op with next := op.next + 1 }
        if op.ext.aM ≤ op.next then s.mxEnd c op false else s.putMx c op

/-- ACCST_ROW_APPEND (12 R278). -/
def execAccstRowAppend (s : State) : Out State :=
  withMx s fun c x op =>
    match op.kind with
    | .accst acc st => accstStep s c x op acc st
    | .mma _ _ _ _ _ | .mmaG _ _ _ _ _ | .tmov _ _ _ _ _ | .acclr _ => s

/-- Decide a stopped gather (12 R284). -/
def State.mxprogAct (s : State) (c : Nat) (resume : Bool) : State :=
  match s.ctxs.get? c with
  | none => s
  | some x =>
    match x.fx.q14 with
    | [] => s
    | op :: _ =>
      if op.stop.isNone then s
      else if resume then s.putMx c { op with stop := none } else s.mxEnd c op true

/-- `cr.mxprog` (12 R284). -/
def FpMx.mxprog (f : FpMx) : Word :=
  match f.q14 with
  | [] => 0
  | op :: _ =>
    match op.stop with
    | none => 0
    | some (row, why) =>
      let acc := match op.kind with | .mma _ _ a _ _ => a | .mmaG _ _ a _ _ => a | .acclr a => a | .accst a _ => a | .tmov _ _ _ _ _ => 0
      at' 1 63 ||| at' acc 48 ||| at' (op.next % 4) 46 ||| at' (row % 128) 39 ||| at' why 37

/-- MXPROG_RESUME (12 R284). -/
def execMxprogResume (s : State) : Out State :=
  match s.site with | .ctx c => .next (s.mxprogAct c true) | _ => .fault .noSite

/-- MXPROG_ABANDON (12 R284). -/
def execMxprogAbandon (s : State) : Out State :=
  match s.site with | .ctx c => .next (s.mxprogAct c false) | _ => .fault .noSite

/-! ### `accrd` -/

/-- The moment at which the operand of an `accrd` arrived, remembered by its block (12 R279). -/
def State.arriveRd (s : State) (cu : Cur) (b : Blk) : Blk × State :=
  if b.rds.any fun r => r.1 = cu.slot then (b, s)
  else let t := s.stamp; let b := { b with rds := b.rds ++ [(cu.slot, t.1)] }; (b, t.2.setBlk cu.frame b)

/-- `accrd` arrives (12 R279): its checks, and the moment that it waits from; it does not perform before the store-class instructions of its block with
lower identifiers have arrived (03 R84). -/
def execAccrd (p : Pred) (id : Ident) (acc : BitVec 4) (t1 : Tgt) (s : State) : Out State :=
  loadOp (info (.accrd p id acc t1))
    (fun cu b _ l _ => withCtx s b fun x =>
      let t := s.arriveRd cu b
      if s.tileWaits x b || !b.storesBelow id.toNat then .next t.2
      else
        match x.regs.tShape with
        | none => failWith t.2 cu t.1 (slotFault 0x16 cu.slot)
        | some v =>
          let e := extentsOf v.2
          if e.gM ≤ elem 32 0 l.bits || !s.accOk x e acc.toNat then failWith t.2 cu t.1 (slotFault 0x14 cu.slot)
          else .next (t.2.setBlk cu.frame (t.1.updSlot cu.slot fun sl => { sl with st := .out }))) s

/-- Whether an `accrd` that arrived at a moment still waits (12 R279). -/
def Ctx.accrdWaits (x : Ctx) (u : Fetcher) (t : Nat) : Bool :=
  let before := fun (n : Nat) => decide (n < t) && decide (u ≠ .act n)
  (x.fx.q14.any fun o => decide (o.stamp < t) || match o.by' with | some n => before n | none => false)
    || x.acts.any fun a => decide (a.2.order < t) && decide (u ≠ .act a.1)

/-- The row that an `accrd` delivers (12 R279). -/
def State.accTok (s : State) (x : Ctx) (acc r : Nat) : Tok :=
  match x.regs.tShape with
  | none => .vec 0
  | some v =>
    let e := extentsOf v.2
    .vec (pack 32 (s.accRow x (accOff x.fx.accBase e acc + 4 * r * e.gN) e.gN))

/-- Whether an accumulator lies in a bank that is still on its way to the partition (07 R172). -/
def State.accComes (s : State) (x : Ctx) (acc : Nat) : Bool :=
  match x.regs.tShape with
  | none => false
  | some v => let e := extentsOf v.2; s.bufComes x.pk x.core .c (accOff x.fx.accBase e acc) e.tile

/-- ACCRD_DELIVER (12 R279). -/
def execAccrdDeliver (s : State) : Out State :=
  match s.site with
  | .slot cu =>
    match s.blks.get? cu.frame with
    | none => .next s
    | some b =>
      match b.slots[cu.slot]?, s.ctxs.get? b.ctx with
      | some sl, some x =>
        match decode sl.plane sl.word, sl.l, b.rds.find? fun r => r.1 = cu.slot with
        | .ok (.accrd p id acc t1), some l, some t =>
          if sl.st ≠ .out || x.accrdWaits b.u t.2 || s.accComes x acc.toNat then .next s
          else
            let v := s.accTok x acc.toNat (elem 32 0 l.bits)
            .next (s.setBlk cu.frame (b.sends cu.slot sl (info (.accrd p id acc t1)) v v))
        | _, _, _ => .next s
      | _, _ => .next s
  | _ => .fault .noSite

end Sys2Proof.Machine
end

