-- ==== Sys2Proof/Machine/Barrier.lean ====
section
/-!
DEFINITION. Barriers, signals and waits (18 R388 to R402, 13 R313, 02 R58): their instructions as they issue, their commands as they are performed, and the
end of a wait.
-/
namespace Sys2Proof.Machine

/-- The cores of a slot's placement (02 R48, 23 R483). -/
def Part.cores (p : Part) : List Nat :=
  (List.range Config.maxCores).filter fun c => ((p.area[1 + c / 64]?).getD 0).getLsbD (c % 64)

/-- Whether every core of a list gives one value. -/
def oneUnit (f : Nat → Nat) : List Nat → Bool
  | [] => true
  | a :: r => r.all fun b => f b = f a

/-- The narrowest level at which one unit holds every core of a placement (02 R48). -/
def placeLevel (p : Pkg) (cs : List Nat) : Scope :=
  if oneUnit id cs then .co else if oneUnit quadOf cs then .qd else if oneUnit p.dieOf cs then .di else .pk

/-- The breadth of a level. -/
def scopeNum : Scope → Nat
  | .ln => 0 | .co => 1 | .qd => 2 | .di => 3 | .pk => 4 | .pd => 5

/-- A scope as it acts (02 R48): one beyond the placement acts at the level of the placement. A pod scope stands, because peers reach its
barrier by remote tokens (18 R389). -/
def State.effScope (s : State) (pk : PartKey) (sc : Scope) : Scope :=
  let cs := (s.part pk).cores
  match sc with
  | .ln | .pd => sc
  | .co | .qd | .di | .pk => if cs.isEmpty || scopeNum sc ≤ scopeNum (placeLevel (s.pkg pk.pkg) cs) then sc else placeLevel (s.pkg pk.pkg) cs

/-- Whether reserved bits of a barrier token are zero (18 R388). -/
def barTokOk (t : Word) : Bool := decide (fld t 58 5 = 0) && decide (fld t 10 22 = 0)
/-- Whether reserved bits of a signal token are zero (18 R388). -/
def sigTokOk (t : Word) : Bool := decide (fld t 58 5 = 0) && decide (fld t 12 36 = 0)

/-- Whether the right operand of a `bar` command keeps R394. -/
def barRightOk (c : BarCmd) (r : Word) : Bool :=
  match c with
  | .init => decide (fld r 56 7 = 0) && decide (fld r 16 32 = 0) && (!r.getLsbD 63 || decide (fld r 0 16 = 0))
  | .arrive | .drop => decide (fld r 16 48 = 0) && decide (fld r 0 16 ≠ 0)
  | .bind => decide (fld r 0 60 = 0)

/-- Whether an issuer belongs to the unit and the bound group of a barrier (18 R389, R392). -/
def State.admits (s : State) (b : Bar) (x : Ctx) (c : Nat) (acc far : Bool) : Bool :=
  (match b.level with
    | .pd => true
    | .ln => !acc && !far && decide (b.unit = c)
    | .co | .qd | .di | .pk => !far && decide (b.unit = s.unitAt x c b.level))
    && match b.group with | none => true | some g => decide (objKey x.pk x.group = g)

/-- The subcodes 2 and 3 of R392, and 5 for a remote token: 0 where there is none. `sc` is the scope of a `bar` command. -/
def State.barSub (s : State) (x : Ctx) (c : Nat) (acc : Bool) (tok : Word) (sc : Option Scope) : Nat :=
  let far := s.tokenFar x.pk tok
  match s.barKey x.pk tok with
  | none => 5
  | some k =>
    let b := s.bar k
    if far && (match sc with | some l => decide (l ≠ .pd) | none => decide (b.st ≠ .free) && decide (b.level ≠ .pd)) then 5
    else if b.st = .free then 2
    else if !s.admits b x c acc far then 3
    else 0

/-- The subcode of a `bar` command (18 R392, R394): 0 where there is no fault. -/
def State.barCmdSub (s : State) (x : Ctx) (c : Nat) (acc : Bool) (cmd : BarCmd) (sc : Scope) (tok r : Word) : Nat :=
  let e := s.effScope x.pk sc
  if !barTokOk tok || !barRightOk cmd r then 1
  else
    match cmd with
    | .init =>
      if (s.barKey x.pk tok).isNone || (s.tokenFar x.pk tok && sc ≠ .pd) then 5
      else if (e = .ln && acc) || (r.getLsbD 63 && fld r 48 8 ≠ x.group) then 3
      else 0
    | .arrive | .bind | .drop =>
      let n := s.barSub x c acc tok (some sc)
      if n ≠ 0 then n
      else if (match s.barKey x.pk tok with | some k => decide ((s.bar k).level ≠ e) | none => false) then 4
      else if cmd = .bind && (if acc then fld r 60 4 = 14 else fld r 60 4 ≠ 14) then 6
      else 0

/-- A `bar` command issues (18 R392, R393). -/
def barIssue (i : Info) (id : Ident) (cmd : BarCmd) (sc : Scope) (s : State) : Out State :=
  storeOp i id
    (fun cu b _ l r => withCtx s b fun x =>
      let n := s.barCmdSub x b.ctx (decide (b.hdr.kind = 1)) cmd sc l.val r.val
      let e := s.effScope x.pk sc
      if n ≠ 0 then subFault s cu b 0x34 n else completeWith s cu b id (.bar cmd e (s.unitAt x b.ctx e) l.val r.val)) s

/-- `bar.init` (18 R393, R394). -/
def execBarInit (p : Pred) (id : Ident) (sc : Scope) (s : State) : Out State := barIssue (info (.barInit p id sc)) id .init sc s
/-- `bar.arrive` (18 R393, R394). -/
def execBarArrive (p : Pred) (id : Ident) (sc : Scope) (s : State) : Out State := barIssue (info (.barArrive p id sc)) id .arrive sc s
/-- `bar.bind` (18 R393, R396). -/
def execBarBind (p : Pred) (id : Ident) (sc : Scope) (s : State) : Out State := barIssue (info (.barBind p id sc)) id .bind sc s
/-- `bar.drop` (18 R393, R394). -/
def execBarDrop (p : Pred) (id : Ident) (sc : Scope) (s : State) : Out State := barIssue (info (.barDrop p id sc)) id .drop sc s

/-- The last `bar.init` of a thread in `cr.wst` (18 R401). -/
def setBres (w : Word) (done : Bool) : Word := (w &&& ~~~(3#64 <<< 58)) ||| at' (if done then 1 else 2) 58

/-- A bind awaits the next operation that the context issues into an engine queue (18 R396); `entry` is the store-path entry that performs it. -/
def State.bindNow (s : State) (c : Nat) (tok r : Word) (entry : Option (Nat × Nat)) : State :=
  match s.ctxs.get? c with
  | none => s
  | some x =>
    match s.barKey x.pk tok with
    | none => s
    | some k => s.updCtx c fun x => { x with eng := { x.eng with binds := x.eng.binds ++ [(fld r 60 4, ⟨k, tokRound tok, entry⟩)] } }

/-- A `bar` command is performed at its barrier's home, short of the end of the cycle (18 R391, R394, R396); a bind changes nothing there. -/
def State.barDo (s : State) (c : Nat) (acc : Bool) (cmd : BarCmd) (sc : Scope) (unit : Nat) (tok r : Word) : State :=
  match s.ctxs.get? c with
  | none => s
  | some x =>
    match s.barKey x.pk tok with
    | none => s
    | some k =>
      match cmd with
      | .arrive => s.arrive k (tokRound tok) (fld r 0 16)
      | .drop => s.drop k (tokRound tok) (fld r 0 16)
      | .bind => s
      | .init =>
        let t := s.barInit x.pk k sc unit tok r
        if acc then t.2.updCtx c fun x => { x with sels := { x.sels with wst := setBres x.sels.wst t.1 } } else t.2

/-- The end of the cycle in which a `bar` command is performed (18 R391). -/
def State.barSettle (s : State) (c : Nat) (tok : Word) : State :=
  match s.ctxs.get? c with
  | none => s
  | some x => match s.barKey x.pk tok with | none => s | some k => s.settle k

/-- The subcode of a signal instruction (18 R392): 0 where there is no fault. -/
def State.sigSub (s : State) (x : Ctx) (tok : Word) : Nat :=
  if !sigTokOk tok then 1 else if (s.sigKey x.pk tok).isNone then 5 else 0

/-- `sig.inc` (18 R400). -/
def execSigInc (p : Pred) (id : Ident) (sc : Scope) (s : State) : Out State :=
  storeOp (info (.sigInc p id sc)) id
    (fun cu b _ l r => withCtx s b fun x =>
      if s.sigSub x l.val ≠ 0 then subFault s cu b 0x34 (s.sigSub x l.val) else completeWith s cu b id (.sig sc l.val r.val)) s

/-- A `sig.inc` is performed at its signal's home (18 R400). -/
def State.sigDo (s : State) (c : Nat) (tok v : Word) : State :=
  match s.ctxs.get? c with
  | none => s
  | some x => match s.sigKey x.pk tok with | none => s | some k => s.sigAdd k v

/-! ### Waits -/

/-- A wait-class branch issues (02 R58). -/
def waitIssue (s : State) (cu : Cur) (b : Blk) (f : FmtB) (w : WaitKind) : Out State :=
  .next (s.setBlk cu.frame (b.setBranch cu.slot ⟨f.exit, .wait w (b.target f.off)⟩))

/-- `bar.wait` (18 R398). -/
def execBarWait (f : FmtB) (s : State) : Out State :=
  actOp (info (.barWait f)) (fun cu b _ => b.fin cu.slot)
    (fun cu b _ l r => withCtx s b fun x =>
      let n := if !barTokOk l.val || fld r.val 0 4 ≠ 0 then 1 else s.barSub x b.ctx (decide (b.hdr.kind = 1)) l.val none
      if n ≠ 0 then subFault s cu b 0x34 n else waitIssue s cu b f (.bar l.val r.val)) s

/-- `sig.wait` (18 R400). -/
def execSigWait (f : FmtB) (s : State) : Out State :=
  actOp (info (.sigWait f)) (fun cu b _ => b.fin cu.slot)
    (fun cu b _ l r => withCtx s b fun x =>
      if s.sigSub x l.val ≠ 0 then subFault s cu b 0x34 (s.sigSub x l.val) else waitIssue s cu b f (.sig l.val r.val)) s

/-- `yield` (13 R313). -/
def execYield (f : FmtB) (s : State) : Out State := branchOp (info (.yield f)) f.exit (fun b _ _ => .wait .yield (b.target f.off)) s
/-- `idle` (13 R313). -/
def execIdle (f : FmtB) (s : State) : Out State := branchOp (info (.idle f)) f.exit (fun b _ _ => .wait .idle (b.target f.off)) s

/-- Elements that blocks in flight of a context have reserved on an inlet (02 R54). -/
def State.inReserved (s : State) (c n : Nat) : Nat :=
  (s.blks.map fun e => if e.2.ctx = c && fetchExec e.2.u then ((e.2.inRes.filter fun r => r.1 = n).map Prod.snd).sum else 0).sum

/-- Tokens that an inlet's queue holds for its reader and that no block in flight has reserved (02 R54, R167). -/
def State.inHeld (s : State) (x : Ctx) (c n : Nat) : Nat :=
  match x.inlet n with
  | none => 0
  | some b =>
    let q := s.queue (objKey x.pk b.queue)
    if q.state = .frozen then 0 else q.els.length - s.inReserved c n

/-- Whether the condition of an `idle` holds (13 R313). -/
def State.idleMet (s : State) (c : Nat) (x : Ctx) (u : Fetcher) : Bool :=
  match u with
  | .thread => x.ctl.evpend != 0 || !x.ports.bq.isEmpty
  | .stream | .act _ => (List.range 32).any fun n => decide (0 < s.inHeld x c n)

/-- How a wait stands (02 R58, 18 R398, R400, 13 R313): released, ended otherwise, or still waiting. -/
def State.waitStatus (s : State) (c : Nat) (x : Ctx) (u : Fetcher) (w : Wait) : Option Bool :=
  match w.met with
  | some b => some b
  | none =>
    match w.kind with
    | .bar tok _ => match s.barKey x.pk tok with | none => some false | some k => (s.bar k).waitFor (tokRound tok)
    | .sig tok thr =>
      match s.sigKey x.pk tok with
      | none => none
      | some k => if sigMet (s.sig k) thr then some true else none
    | .yield => none
    | .idle => if s.idleMet c x u then some true else none

/-- The successor that a wait's end selects (18 R398). -/
def Wait.succ (w : Wait) (released : Bool) : Word :=
  match w.kind with
  | .bar _ poison => if released then w.next else poison
  | .sig _ _ | .yield | .idle => w.next

/-- Whether a successor ends an activation: it is the activation's own entry block (12 R288). -/
def Ctx.endsAct (x : Ctx) (u : Fetcher) (a : Word) : Bool :=
  match u with
  | .act n => (match Tab.get? x.acts n with | some t => t.entry = a | none => false)
  | .thread | .stream => false

/-- An activation ends (12 R288). -/
def Ctx.dropAct (x : Ctx) (u : Fetcher) : Ctx :=
  match u with
  | .act n => { x with acts := Tab.del x.acts n }
  | .thread | .stream => x

/-- WAIT_END (02 R58): a thread, stream or activation whose condition holds becomes ready with its successor. -/
def execWaitEnd (s : State) : Out State :=
  match s.site with
  | .ctxU c u =>
    match s.ctxs.get? c with
    | none => .next s
    | some x =>
      match (x.lane u).wait with
      | none => .next s
      | some w =>
        match s.waitStatus c x u w with
        | none => .next s
        | some r =>
          if !x.live then .next s
          else if x.endsAct u (w.succ r) then .next (s.setCtx c (x.dropAct u))
          else .next (s.setCtx c (x.setLane u { (x.lane u) with wait := none, next := w.succ r, succ := true }))
  | _ => .fault .noSite

/-- WST_CANCEL (18 R401, R402): the suspended wait ends. -/
def State.wstCancel (s : State) (c : Nat) : State := s.updCtx c fun x => { x with susp := none }

/-- WST_CANCEL as an event of its own (18 R401). -/
def execWstCancel (s : State) : Out State :=
  match s.site with | .ctx c => .next (s.wstCancel c) | _ => .fault .noSite

end Sys2Proof.Machine
end

