-- ==== Sys2Proof/Machine/Creg.lean ====
section
/-!
DEFINITION. Control registers (13 R301, R302, R311, R312, and the maps of the object chapters): which numbers there are, what each reads as, what a
write does, and `crrd` and `crwr` as they issue.
-/
namespace Sys2Proof.Machine

/-! ### Numbers -/

/-- Whether a number lies between bounds. -/
def between (lo hi n : Nat) : Bool := decide (lo ≤ n) && decide (n ≤ hi)

/-- The numbers whose write needs pm = 1 (R303, R312). -/
def crPriv (n : Nat) : Bool :=
  between 0 5 n || between 7 0xB n || n = 0x11 || between 0x101 0x105 n || n = 0x142 || between 0x144 0x14F n || n = 0x161 || between 0x170 0x174 n || n = 0x184
    || n = 0x194

/-- The marker registers (R312, 06 R145). -/
def crMarker (n : Nat) : Bool :=
  n = 0x24 || n = 0x29 || between 0x30 0x34 n || n = 0x51 || between 0x70 0x9F n

/-- The stream's registers, which an access-only context does not have (R312). -/
def crStream (n : Nat) : Bool := crMarker n || between 8 0xA n

/-- The marker registers that a program may write (R312): a `crwr` of the others changes nothing (R311). -/
def crPlaces (n : Nat) : Bool := crMarker n && n != 0x24 && n != 0x29

/-- The registers that a save image holds (R292, R312). -/
def crSaved (n : Nat) : Bool :=
  between 0 0xF n || n = 0x11 || between 0x20 0x24 n || between 0x28 0x29 n || between 0x30 0x34 n || n = 0x38 || between 0x40 0x51 n
    || between 0x60 0x9F n

/-! ### Reads -/

/-- `cr.status` (R302). -/
def Ctx.status (x : Ctx) : Word :=
  at' x.ctl.prio.toNat 8 ||| bitAt x.recs.xvalid 4 ||| bitAt x.ctl.spm 3 ||| bitAt x.ctl.hm 2 ||| bitAt x.ctl.pm 1 ||| bitAt x.ctl.aonly 0

/-- `cr.xcause` (R301). -/
def Recs.xcause (r : Recs) : Word :=
  bitAt r.xvalid 61 ||| bitAt r.xhact 60 ||| at' r.xtag.toNat 54 ||| r.xcode.setWidth 64

/-- `cr.ctxid` (R312). -/
def Ctx.ctxid (x : Ctx) : Word := at' x.core 5 ||| at' x.posn 2

/-- `cr.dctrap` (02 R65). -/
def Dec.trap (d : Dec) : Word := 0#13 ++ d.pend ++ d.thloss ++ d.thfull ++ d.thempty

/-- `cr.stall` (02 R64). -/
def Dec.stall (d : Dec) : Word := BitVec.ofBool d.lastk ++ d.lastp ++ BitVec.ofBool d.lbq ++ 0#1 ++ d.outh ++ d.inh

/-- `cr.rpt` (03 R94). -/
def Lane.rpt (l : Lane) : Word := bitAt l.rptValid 8 ||| at' (l.rptNext % 256) 0

/-- `cr.acc` (12 R277). -/
def FpMx.acc (f : FpMx) : Word := at' f.accSize 8 ||| at' f.accBase 0

/-- `cr.fold` (12 R270). -/
def FpMx.fold (f : FpMx) : Word := at' f.foldOps 32 ||| at' f.foldPasses 0

/-- `cr.lease` (10 R236); a lease whose count has reached 0 reads as expired. -/
def State.leaseWord (s : State) (l : Lease) : Word :=
  (match l.st with
    | .held n _ till => if s.leaseRuns n till then bitAt true 63 ||| at' ((till - s.homeCycle n - 1).toNat % 4096) 50 else bitAt true 62
    | .none | .waiting _ _ _ => 0) ||| bitAt l.expd 62 ||| l.line.setWidth 64

/-- `cr.th` (10 R225). -/
def handleWord (h : HReg) : Word := match h.tr with | none => h.rest | some t => bitAt true 63 ||| t.fields

/-- `cr.bkown` (07 R173). -/
def State.bkown (s : State) (pk : PartKey) (core : Nat) : Word :=
  let own := fun (b : Buf) (lo : Nat) =>
    (List.range (Config.banks (s.pkg pk.pkg).chip b)).foldl (fun v i => v ||| bitAt (s.bank ⟨pk.pkg, core, b, i⟩ = .owned pk.part) (lo + i)) (0 : Word)
  let busy := s.banks.any fun e =>
    e.1.pkg = pk.pkg && e.1.core = core && match e.2 with | .draining _ _ | .scrubbing _ => true | .unowned | .owned _ => false
  bitAt busy 48 ||| own .c 40 ||| own .a 24 ||| own .w 0

/-- `cr.qctl` (14 R320). -/
def Queue.ctl (q : Queue) : Word :=
  at' q.state.code.toNat 61 ||| at' q.prev.code.toNat 58 ||| at' q.err.toNat 52 ||| bitAt q.plane 51 ||| at' q.esize.toNat 49 ||| bitAt q.journal 48
    ||| bitAt q.spill 47 ||| bitAt q.prodk 46 ||| bitAt q.consk 45 ||| at' q.nprod 38

/-- `cr.qrnd` (14 R321, R329). -/
def Queue.rnd (q : Queue) : Word :=
  (if q.prodk then q.prnd else q.arnd) ++ BitVec.ofNat 7 q.am ++ BitVec.ofNat 7 q.cm ++ 0#2 ++ (if q.prodk then q.prnd else q.crnd) ++ q.prnd

/-- `cr.sstat` of an engine queue (15 R357). -/
def eqStat : List StrmOp → Word
  | [] => 0
  | o :: r =>
    let p : ParkRec := o.park.getD ⟨0, 0, 0⟩
    at' (if o.park.isSome then 3 else if o.running then 2 else 1) 61 ||| at' p.why 56 ||| at' r.length 48 ||| at' (p.felem % 2 ^ 48) 0

/-- `cr.scur` of an engine queue (15 R357). -/
def eqCur : List StrmOp → Word
  | [] => 0
  | o :: _ => at' (o.cursor % 2 ^ 48) 0

/-- `cr.sfad` of an engine queue (15 R357). -/
def eqFad : List StrmOp → Word
  | [] => 0
  | o :: _ => match o.park with | some p => p.addr | none => 0

/-- `cr.gid` (17 R379). -/
def State.gid (s : State) (x : Ctx) : Word :=
  match s.groups.get? (objKey x.pk x.group) with
  | none => 0
  | some g => at' g.level.toNat 62 ||| at' g.unit 48 ||| at' x.group 40 ||| at' g.members.length 16 ||| at' x.member 0

/-- `cr.gstat` (17 R379). -/
def State.gstat (s : State) (k : PKey) : Word :=
  match s.groups.get? k with
  | none => 0
  | some g =>
    at' g.st.code.toNat 61 ||| at' g.ckind.toNat 59 ||| at' g.level.toNat 57 ||| at' g.unit 48 ||| at' g.partner 40 ||| at' g.coll.length 31
      ||| at' g.members.length 22 ||| at' g.err.toNat 19

/-- `cr.bstat` (18 R401). -/
def Bar.stat (b : Bar) : Word :=
  at' b.st.code.toNat 61 ||| at' (scopeNum b.level) 58 ||| bitAt b.group.isSome 57 ||| at' (match b.group with | some g => g.n | none => 0) 49 ||| at' b.phase.toNat 16
    ||| at' (b.exp % 65536) 0

/-- `cr.lnstat` (20 R437). -/
def Link.stat (l : Link) : Word :=
  at' l.st.code.toNat 62 ||| at' l.why.toNat 59 ||| at' (min l.retries 0xFFFFFF) 32 ||| at' (min l.trains 0xFFFF) 16

/-- The link that `cr.lnsel` names (20 R437). -/
def lnKey (pkg : Nat) (sel : BitVec 7) : LinkKey :=
  ⟨pkg, (match (sel.extractLsb' 5 2).toNat with | 0 => .die | 1 => .sept | _ => .ue), (sel.extractLsb' 0 5).toNat⟩

/-- The chain of a queue that is allocated. -/
def Queue.chainOn (q : Queue) : Option Chain := if q.state = .unallocated then none else q.chain

/-- `cr.chcfg` (20 R437). -/
def Queue.chcfg (q : Queue) : Word :=
  match q.chainOn with
  | none => 0
  | some c => at' c.cls 62 ||| at' c.use 57 ||| bitAt c.conf 56 ||| at' c.unack.length 0

/-- `cr.capa` (22 R466). -/
def Pkg.capa (p : Pkg) : Word := bitAt p.cvalid 63 ||| bitAt p.evalid 62 ||| at' 4 48 ||| at' p.clen.toNat 32

/-- `cr.kctl` (16 R371). -/
def State.kctl (s : State) (x : Ctx) : Word :=
  let st := match s.kerns.get? x.kern with | some k => if k.st = .completing then 4 else 3 | none => 3
  at' st 58 ||| (s.part x.pk).fseq.setWidth 64

/-- The registers of the hub die (00 R2, 20 R437): receive contexts and chains. On a bare field die they are absent: they read as zero, and a write changes
nothing (log 132). -/
def hubReg (n : Nat) : Bool := between 0x183 0x18B n

/-- A control register of the object chapters, 0x100 to 0x1FF. -/
def State.crObj (s : State) (x : Ctx) (n : Nat) : Word :=
  if (s.pkg x.pk.pkg).bare && hubReg n then 0 else
  let q := s.queue (objKey x.pk x.sels.qsel.toNat)
  let p := s.part x.pk
  let bar := s.bar (objKey x.pk x.sels.bsel.toNat)
  if n = 0x100 then x.sels.qsel.setWidth 64
  else if n = 0x101 then q.win.bits.extractLsb' 64 64
  else if n = 0x102 then q.win.bits.extractLsb' 0 64
  else if n = 0x103 then q.ctl
  else if n = 0x104 then q.rnd
  else if n = 0x105 then at' q.caskLen 52 ||| at' q.caskBase 16
  else if n = 0x106 then at' q.cask.length 32 ||| at' q.els.length 0
  else if n = 0x107 then q.drop
  else if n = 0x13E then x.eng.sclmp
  else if between 0x110 0x11F n then eqStat (vecGet x.eng.eqs (n - 0x110) [])
  else if between 0x120 0x12F n then eqCur (vecGet x.eng.eqs (n - 0x120) [])
  else if between 0x130 0x13F n then eqFad (vecGet x.eng.eqs (n - 0x130) [])
  else if n = 0x140 then s.kctl x
  else if n = 0x141 then at' x.kern.lq 40 ||| at' x.group 32 ||| at' (x.index % 65536) 16
  else if n = 0x142 then p.kfrec
  else if n = 0x143 then at' (x.kern.seq % 2 ^ 32) 0
  else if between 0x144 0x147 n then vecGet p.lq (n - 0x144) 0
  else if between 0x148 0x14B n then vecGet p.head (n - 0x148) 0 ++ vecGet p.tail (n - 0x148) 0
  else if between 0x14C 0x14F n then (vecGet p.keep (n - 0x14C) 0).setWidth 64
  else if n = 0x150 then s.gid x
  else if n = 0x151 then x.sels.gres
  else if n = 0x152 then x.sels.gsel.setWidth 64
  else if n = 0x153 then s.gstat (objKey x.pk x.sels.gsel.toNat)
  else if n = 0x160 then x.sels.sgsel.setWidth 64
  else if n = 0x161 then s.sig (objKey x.pk x.sels.sgsel.toNat)
  else if n = 0x162 then x.sels.bsel.setWidth 64
  else if n = 0x163 then bar.stat
  else if n = 0x164 then at' (bar.ahead % 65536) 16 ||| at' (bar.arr % 65536) 0
  else if n = 0x165 then x.wst
  else if n = 0x170 then p.ptu
  else if n = 0x171 then p.ptp
  else if n = 0x172 then p.ptcfg
  else if n = 0x173 then p.ptanc
  else if n = 0x174 then p.shpool
  else if n = 0x175 then x.sels.pgres
  else if n = 0x180 then x.sels.lnsel.setWidth 64
  else if n = 0x181 then (s.link (lnKey x.pk.pkg x.sels.lnsel)).stat
  else if n = 0x182 then x.sels.lnres
  else if n = 0x183 then x.sels.rxsel.setWidth 64
  else if n = 0x184 then (s.rx (objKey x.pk x.sels.rxsel.toNat)).cfg
  else if n = 0x185 then x.sels.rxsnap.recv
  else if n = 0x186 then x.sels.rxsnap.dlv
  else if n = 0x187 then x.sels.rxsnap.full
  else if n = 0x188 then x.sels.rxsnap.int
  else if n = 0x189 then x.sels.rxsnap.key
  else if n = 0x18A then x.sels.rxsnap.ovr
  else if n = 0x18B then q.chcfg
  else if n = 0x190 then x.sels.vdsel.setWidth 64
  else if n = 0x191 then (s.part ⟨x.pk.pkg, x.sels.vdsel.toNat⟩).vdstat
  else if n = 0x192 then x.sels.vdres
  else if n = 0x193 then (s.part ⟨x.pk.pkg, x.sels.vdsel.toNat⟩).vdcfg
  else if n = 0x194 then p.vdjrn
  else if n = 0x1A0 then (s.pkg x.pk.pkg).capa
  else 0

/-- A register of the stream (R312). -/
def Ctx.crStrm (x : Ctx) (n : Nat) : Word :=
  if n = 8 then x.recs.xcause
  else if n = 9 then x.recs.xepc
  else if n = 0xA then x.recs.xinfo
  else if n = 0x24 then x.dec.stall
  else if n = 0x29 then x.str.rpt
  else if n = 0x30 then x.fx.fpst.setWidth 64
  else if n = 0x31 then x.fx.lfsr.setWidth 64
  else if n = 0x32 then x.fx.acc
  else if n = 0x33 then x.fx.fold
  else if n = 0x34 then x.fx.mxprog
  else if n = 0x51 then at' x.str.depth 0
  else if between 0x70 0x7F n then vecGet x.str.stk (n - 0x70) 0
  else if between 0x80 0x9F n then vecGet x.fx.idle (n - 0x80) 0
  else 0

/-- The repeat record as `cr.rpt` shows it (03 R94): of the oldest block of the lane in flight that is repeated, else the lane's own. -/
def Lane.showRpt (l : Lane) (fs : List (FrameKey × Blk)) : Lane :=
  match oldestOf (fs.filter fun e => e.2.hdr.rpt ≠ 0) with
  | some e => { l with rptValid := true, rptNext := e.2.firing }
  | none => l

/-- A context with the repeat records that its `cr.rpt` show (03 R94). -/
def State.shown (s : State) (c : Nat) (x : Ctx) : Ctx :=
  { x with thr := x.thr.showRpt (s.flight c .thread), str := x.str.showRpt (s.flight c .stream) }

/-- A control register as its context reads it (R311, R312); an access-only context receives zero from a stream register. -/
def State.crRead (s : State) (x : Ctx) (n : Nat) : Word :=
  if crStream n then (if x.ctl.aonly then 0 else x.crStrm n)
  else if 0x100 ≤ n then s.crObj x n
  else if n = 0 then x.status
  else if n = 1 then x.recs.dcode.setWidth 64 <<< 8 ||| x.recs.code.setWidth 64
  else if n = 2 then x.recs.epc
  else if n = 3 then x.recs.faddr
  else if n = 4 then x.recs.finfo
  else if n = 5 then x.ctl.tvec
  else if n = 6 then x.ctl.evpend.setWidth 64
  else if n = 7 then x.ctl.drain.setWidth 64
  else if n = 0xB then x.ctl.simg
  else if between 0xC 0xF n then vecGet x.ctl.scratch (n - 0xC) 0
  else if n = 0x10 then x.ctxid
  else if n = 0x11 then x.ctl.asn.setWidth 64
  else if n = 0x12 then s.cycle x.pk.pkg (s.dieN x)
  else if n = 0x20 then x.dec.empty
  else if n = 0x21 then x.dec.full
  else if n = 0x22 then x.dec.loss
  else if n = 0x23 then x.dec.trap
  else if n = 0x28 then x.thr.rpt
  else if n = 0x38 then s.leaseWord x.lease
  else if n = 0x39 then s.bkown x.pk x.core
  else if between 0x40 0x4F n then handleWord (vecGet x.regs.th (n - 0x40) {})
  else if n = 0x50 then at' x.thr.depth 0
  else if between 0x60 0x6F n then vecGet x.thr.stk (n - 0x60) 0
  else 0

/-! ### Writes to the context's own registers -/

/-- The bits of `cr.finfo` that a write sets (R301). -/
def finfoMask : Word := 0xFFFF03FFFFFF00FF

/-- A depth as `cr.rsdep` stores it (09 R218). -/
def depthOf (v : Word) : Nat := min (fld v 0 5) 16

/-- `cr.status` written (R290, R302): spm and hm. -/
def Ctx.putStatus (x : Ctx) (v : Word) : Ctx :=
  let hm := v.getLsbD 2
  { x with
    ctl := { x.ctl with spm := v.getLsbD 3, hm := hm }
    st := if x.st = .running && hm then .handling else if x.st = .handling && !hm then .running else x.st }

/-- `cr.dctrap` written (02 R65). -/
def Dec.putTrap (d : Dec) (v : Word) : Dec :=
  { d with
    pend := d.pend &&& ~~~ v.extractLsb' 48 3, thloss := v.extractLsb' 32 16, thfull := v.extractLsb' 16 16, thempty := v.extractLsb' 0 16 }

/-- `cr.acc` written (12 R277): base and size, the size at most what lies above the base. -/
def FpMx.putAcc (f : FpMx) (v : Word) : FpMx :=
  { f with accBase := fld v 0 6, accSize := if 64 < fld v 0 6 + fld v 8 7 then 64 - fld v 0 6 else fld v 8 7 }

/-- `cr.fpst` written (06 R143): the enables set, sticky flags cleared by ones. -/
def putFpst (f : BitVec 13) (v : Word) : BitVec 13 :=
  (v.extractLsb' 0 13 &&& 0x1F00) ||| (f &&& 0x3F &&& ~~~ v.extractLsb' 0 13)

/-- A context register below 0x100 written, by what stands in the context on its package (R301, R302, R312). -/
def Ctx.crPut (x : Ctx) (p : Pkg) (n : Nat) (v : Word) : Ctx :=
  if n = 0 then x.putStatus v
  else if n = 1 then { x with recs := { x.recs with code := v.extractLsb' 0 8 } }
  else if n = 2 then { x with recs := { x.recs with epc := align16 v } }
  else if n = 3 then { x with recs := { x.recs with faddr := v } }
  else if n = 4 then { x with recs := { x.recs with finfo := v &&& finfoMask } }
  else if n = 5 then { x with ctl := { x.ctl with tvec := align16 v } }
  else if n = 7 then { x with ctl := { x.ctl with drain := v.extractLsb' 0 16 } }
  else if n = 9 then { x with recs := { x.recs with xepc := align16 v } }
  else if n = 0xA then { x with recs := { x.recs with xinfo := v &&& finfoMask } }
  else if n = 0xB then (if p.inLocal (fld v 7 45 * 128) 128 then { x with ctl := { x.ctl with simg := at' (fld v 7 45) 7 } } else x)
  else if between 0xC 0xF n then { x with ctl := { x.ctl with scratch := vecSet x.ctl.scratch (n - 0xC) v } }
  else if n = 0x23 then { x with dec := x.dec.putTrap v }
  else if n = 0x38 then { x with lease := { x.lease with expd := x.lease.expd && !v.getLsbD 62 } }
  else if n = 0x50 then { x with thr := { x.thr with depth := depthOf v } }
  else if between 0x60 0x6F n then { x with thr := { x.thr with stk := vecSet x.thr.stk (n - 0x60) (align16 v) } }
  else x

/-- `cr.asn` written (10 R225, R312): every handle's valid bit clears. -/
def State.asnWrite (s : State) (c : Nat) (v : Word) : State :=
  s.updCtx c fun x =>
    { x with ctl := { x.ctl with asn := v.extractLsb' 0 16 }, regs := { x.regs with th := x.regs.th.map fun h => h.clearIf fun _ => true } }

/-- ASN_WRITE (10 R225, R312) as an event of its own. -/
def execAsnWrite (s : State) : Out State :=
  match s.site with | .ctxV c v => .next (s.asnWrite c v) | _ => .fault .noSite

/-- XCAUSE_RESUME (13 R296, R301) as an event of its own. -/
def execXcauseResume (s : State) : Out State :=
  match s.site with | .ctx c => .next (s.streamResume c) | _ => .fault .noSite

/-! ### Windows and queues -/

/-- The storage of the windows of a die other than the window of a queue, in bytes (07 R163). -/
def State.otherWindows (s : State) (k : PKey) (die : Nat) : List (Nat × Nat) :=
  { s with queues := s.queues.del k }.windowsOn k.pk.pkg die

/-- Whether a descriptor write is refused (07 R163). -/
def State.winRefused (s : State) (k : PKey) (w : Win) : Bool :=
  let m := (s.part k.pk).windowMem w.die
  let b := w.base * 128
  let l := 2 ^ w.lsize
  decide (w.kind ≠ 0) &&
    (w.kind = 2 || w.kind = 3 || decide (4 < w.kind) || decide (w.lsize < 10) || decide (26 < w.lsize) || decide (2 ^ 26 < b + l)
      || ((s.otherWindows k w.die).any fun u => overlaps u.1 u.2 b l) || !(decide (m.1 ≤ b) && decide (b + l ≤ m.1 + m.2)))

/-- A descriptor write at commit (07 R163, 14 R319): one whose check no longer holds is dropped, with err 2. -/
def State.winWrite (s : State) (k : PKey) (w : Win) : State :=
  let q := s.queue k
  if s.winRefused k w then s.setQueue k { q with err := 2 }
  else s.setQueue k { q with win := { q.win with part := w.part, kind := w.kind, lsize := w.lsize, base := w.base, die := w.die } }

/-- QWIN_DESCRIPTOR_WRITE (14 R319) as an event of its own, on the die where the window stands. -/
def execQwinDescriptorWrite (s : State) : Out State :=
  match s.site with | .objV k d => .next (s.winWrite k (Win.ofBits (s.queue k).win.die d)) | _ => .fault .noSite

/-- The outcome of a queue command that is refused. -/
def State.qErr (s : State) (k : PKey) (e : BitVec 2) : State := s.setQueue k { s.queue k with err := e }

/-- Whether the fields of a queue fail an open (14 R320, R322). -/
def Queue.openBad (q : Queue) (g : Pkg) : Bool :=
  (q.plane != (q.esize ≠ 0)) || decide (q.nprod = 0) || (q.win.kind ≠ 1 && q.win.kind ≠ 4) || (q.spill && decide (q.caskLen = 0))
    || (decide (q.caskLen ≠ 0) && !g.inHbm (q.caskBase * 65536) (q.caskLen * 65536))

/-- Command open (14 R317, R320). -/
def State.qOpen (s : State) (k : PKey) : State :=
  let q := s.queue k
  if q.state ≠ .unallocated then s.qErr k 1
  else if q.openBad (s.pkg k.pk.pkg) then s.qErr k 2
  else
    (s.setQueue k
      { q with
        state := .open, prev := .unallocated, err := 0, win := { q.win with head := 0, tail := 0 }, arnd := 0, am := 0, cm := 0, crnd := 0, prnd := 0
        drop := 0, els := [], cask := [], caskBad := false, stage := .pass, stagePar := 0, stageToks := [], chain := none
        landFrames := [] }).setJrnl k {}

/-- Command seal (14 R317, R320). -/
def State.qSeal (s : State) (k : PKey) : State :=
  let q := s.queue k
  match q.state with
  | .unallocated | .frozen => s.qErr k 1
  | .open | .spilling | .chained => s.setQueue k { q with state := .sealed, err := 0 }
  | .sealed => s.qErr k 0

/-- Whether a port is bound to a queue (14 R317, R328). -/
def State.portsBound (s : State) (k : PKey) : Bool := (s.inletOf k).isSome || s.outletsOf k != 0

/-- Command close (14 R317, R320), refused also while a stream feeds or drains the queue (15 R345). -/
def State.qClose (s : State) (k : PKey) : State :=
  let q := s.queue k
  if q.state ≠ .open && q.state ≠ .sealed then s.qErr k 1
  else if q.all ≠ [] || q.stageToks ≠ [] || s.portsBound k || q.strmProd.isSome || q.strmCons.isSome then s.qErr k 3
  else s.setQueue k { q with state := .unallocated, err := 0, win := { q.win with kind := 0 }, chain := none }

/-- QCTL_OPEN (14 R317) as an event of its own. -/
def execQctlOpen (s : State) : Out State :=
  match s.site with | .obj k => .next (s.qOpen k) | _ => .fault .noSite
/-- QCTL_SEAL (14 R317) as an event of its own. -/
def execQctlSeal (s : State) : Out State :=
  match s.site with | .obj k => .next (s.qSeal k) | _ => .fault .noSite
/-- QCTL_CLOSE (14 R317) as an event of its own. -/
def execQctlClose (s : State) : Out State :=
  match s.site with | .obj k => .next (s.qClose k) | _ => .fault .noSite

/-- `cr.qctl` written (14 R320): the fields while the queue is unallocated, then the command. -/
def State.qctlWrite (s : State) (k : PKey) (v : Word) : State :=
  let q := s.queue k
  let s :=
    if q.state = .unallocated then
      s.setQueue k
        { q with
          plane := v.getLsbD 51, esize := v.extractLsb' 49 2, journal := v.getLsbD 48, spill := v.getLsbD 47, prodk := v.getLsbD 46
          consk := v.getLsbD 45, nprod := fld v 38 7 }
    else s
  match fld v 55 3 with
  | 1 => s.qOpen k
  | 2 => s.qSeal k
  | 3 => s.qClose k
  | _ => s

/-- `cr.qrnd` written (14 R321): prnd, where producers are access threads. -/
def State.qrndWrite (s : State) (k : PKey) (v : Word) : State :=
  let q := s.queue k
  if q.prodk then s.setQueue k { q with prnd := v.extractLsb' 0 16 } else s

/-- `cr.qcask` written (14 R322): only while the queue is unallocated. -/
def State.qcaskWrite (s : State) (k : PKey) (v : Word) : State :=
  let q := s.queue k
  if q.state = .unallocated then s.setQueue k { q with caskLen := fld v 52 12, caskBase := fld v 16 36 } else s

/-! ### Kernels, signals, pages, receive contexts -/

/-- `cr.kctl` done (16 R370, R371). -/
def State.kDone (s : State) (c : Nat) : State := s.updCtx c fun x => { x with done := true }
/-- `cr.kctl` fence (16 R371, R372). -/
def State.kFence (s : State) (c : Nat) : State := match s.ctxs.get? c with | some x => s.reqFence x.pk | none => s
/-- `cr.kctl` fault (16 R366, R371): status 2, faulted by its program. -/
def State.kFault (s : State) (c : Nat) (code : BitVec 9) : State :=
  match s.ctxs.get? c with | some x => s.kernFault x.kern 2 code | none => s

/-- KCTL_DONE (16 R370) as an event of its own. -/
def execKctlDone (s : State) : Out State :=
  match s.site with | .ctx c => .next (s.kDone c) | _ => .fault .noSite
/-- KCTL_FENCE (16 R372) as an event of its own. -/
def execKctlFence (s : State) : Out State :=
  match s.site with | .ctx c => .next (s.kFence c) | _ => .fault .noSite
/-- KCTL_FAULT (16 R366) as an event of its own. -/
def execKctlFault (s : State) : Out State :=
  match s.site with | .ctxV c v => .next (s.kFault c (v.extractLsb' 0 9)) | _ => .fault .noSite

/-- `cr.kctl` written (16 R371). -/
def State.kctlWrite (s : State) (c : Nat) (v : Word) : State :=
  match fld v 61 3 with
  | 1 => s.kDone c
  | 2 => s.kFence c
  | 3 => s.kFault c (v.extractLsb' 32 9)
  | _ => s

/-- `cr.lq` written (16 R362): ignored while the journal holds an entry still needed, or where a field is not legal. -/
def Part.lqWrite (p : Part) (g : Pkg) (n : Nat) (v : Word) : Part :=
  let z := fld v 58 6
  let b := fld v 4 48 * 16
  if vecGet p.keep n 0 ≠ vecGet p.tail n 0 then p
  else if (z = 0 || (decide (6 ≤ z) && decide (z ≤ 16))) && decide (b % (16 * 2 ^ z) = 0) && g.inLocal b (16 * 2 ^ z) then
    { p with lq := vecSet p.lq n (at' z 58 ||| at' (fld v 4 48) 4), rings := p.rings.filter fun e => e.1.1 ≠ n }
  else p

/-- SGVAL_WRITE (18 R401) as an event of its own. -/
def execSgvalWrite (s : State) : Out State :=
  match s.site with | .objV k v => .next (s.sigPut k (v.extractLsb' 0 64)) | _ => .fault .noSite

/-- `cr.ptu` or `cr.ptp` as a write leaves it (19 R405). -/
def ptWrite (g : Pkg) (old v : Word) : Word :=
  let n := fld v 58 6
  let b := fld v 7 45 * 128
  let w := at' n 58 ||| at' (fld v 7 45) 7
  if n = 0 then w
  else if decide (8 ≤ n) && decide (n ≤ 28) && decide (b % (128 * 2 ^ n) = 0) && g.inHbm b (128 * 2 ^ n) then w
  else old

/-- `cr.ptanc` as a write leaves it (19 R409). -/
def ancWrite (g : Pkg) (old v : Word) : Word :=
  let n := fld v 58 6
  let b := fld v 2 50 * 4
  let w := at' n 58 ||| at' (fld v 2 50) 2
  if n = 0 then w
  else if decide (8 ≤ n) && decide (n ≤ 24) && decide (b % (4 * 2 ^ n) = 0) && g.inHbm b (4 * 2 ^ n) then w
  else old

/-- `cr.ptcfg` as a write leaves it (19 R406). -/
def cfgWord (v : Word) : Word :=
  at' (fld v 59 5) 59 ||| at' (if fld v 57 2 = 3 then 0 else fld v 57 2) 57 ||| at' (fld v 54 3) 54

/-- `cr.ptcfg` written (19 R406): a change of mode or sizes shoots every page of the partition down. -/
def State.ptcfgWrite (s : State) (pk : PartKey) (v : Word) : State :=
  let p := s.part pk
  let n := cfgWord v
  let s := s.setPart pk { p with ptcfg := n }
  if p.ptcfg.getLsbD 63 != n.getLsbD 63 || fld p.ptcfg 54 3 ≠ fld n 54 3 then s.shoot pk none none none else s

/-- PTCFG_WRITE (19 R406) as an event of its own. -/
def execPtcfgWrite (s : State) : Out State :=
  match s.site with | .partV pk v => .next (s.ptcfgWrite pk v) | _ => .fault .noSite

/-- Whether the checks of `cr.rxcfg` refuse a write (20 R437): only those of a context that is not enabled. -/
def State.rxRefused (s : State) (k : PKey) (v : Word) : Bool :=
  let q := s.queue (objKey k.pk (fld v 30 12))
  !(s.pkg k.pk.pkg).bare && !(s.rx k).cfg.getLsbD 63
    && (fld v 61 2 = 3 || fld v 59 2 = 3 || (fld v 59 2 = 0 && fld v 61 2 ≠ 0) || q.state ≠ .open || q.win.kind ≠ 4)

/-- `cr.rxcfg` written (20 R436, R437): while en is 1 it changes en only; en turned on clears the counters. -/
def State.rxWrite (s : State) (k : PKey) (v : Word) : State :=
  let r := s.rx k
  if (s.pkg k.pk.pkg).bare || s.rxRefused k v then s
  else if r.cfg.getLsbD 63 then s.setRx k { r with cfg := at' (fld r.cfg 0 63) 0 ||| bitAt (v.getLsbD 63) 63 }
  else s.setRx k { cfg := at' (fld v 30 34) 30, cnt := if v.getLsbD 63 then {} else r.cnt }

/-- RXCFG_WRITE (20 R437) as an event of its own. -/
def execRxcfgWrite (s : State) : Out State :=
  match s.site with | .objV k v => .next (s.rxWrite k (v.extractLsb' 0 64)) | _ => .fault .noSite

/-- `cr.rxsel` written (20 R437): it also takes a snapshot of the six counters. -/
def State.rxselWrite (s : State) (c : Nat) (v : Word) : State :=
  match s.ctxs.get? c with
  | none => s
  | some x =>
    if (s.pkg x.pk.pkg).bare then s else
    s.setCtx c { x with
      sels := { x.sels with rxsel := v.extractLsb' 0 8, rxsnap := (s.rx (objKey x.pk (fld v 0 8))).cnt } }

/-- RXSEL_SNAPSHOT (20 R437) as an event of its own. -/
def execRxselSnapshot (s : State) : Out State :=
  match s.site with | .ctxV c v => .next (s.rxselWrite c v) | _ => .fault .noSite

/-- Whether a kernel of a partition is accepted and not ended (21 R444). -/
def State.hasKern (s : State) (pk : PartKey) : Bool :=
  s.kerns.any fun e => e.1.pk = pk && e.2.st ≠ .complete && e.2.st ≠ .faulted

/-- A selector of the context written. -/
def Sels.put (t : Sels) (n : Nat) (v : Word) : Sels :=
  if n = 0x100 then { t with qsel := v.extractLsb' 0 12 }
  else if n = 0x101 then { t with qwinh := v }
  else if n = 0x152 then { t with gsel := v.extractLsb' 0 8 }
  else if n = 0x160 then { t with sgsel := v.extractLsb' 0 12 }
  else if n = 0x162 then { t with bsel := v.extractLsb' 0 10 }
  else if n = 0x180 then { t with lnsel := v.extractLsb' 0 7 }
  else if n = 0x190 then { t with vdsel := v.extractLsb' 0 5 }
  else t

/-- The descriptor that a write of `cr.qwinl` completes (14 R319). -/
def State.winOf (s : State) (x : Ctx) (t : Sels) (v : Word) : Win := Win.ofBits (s.dieN x) (t.qwinh ++ v)

/-- A control register of the object chapters written (14 R319 to R322, 15 R357, 16 R371, 18 R401, 19 R405, R406, R416, 20 R437, 21 R444). -/
def State.crObjPut (s : State) (c : Nat) (x : Ctx) (n : Nat) (v : Word) : State :=
  let k := objKey x.pk x.sels.qsel.toNat
  let p := s.part x.pk
  if (s.pkg x.pk.pkg).bare && hubReg n then s
  else if n = 0x102 then s.winWrite k (s.winOf x x.sels v)
  else if n = 0x103 then s.qctlWrite k v
  else if n = 0x104 then s.qrndWrite k v
  else if n = 0x105 then s.qcaskWrite k v
  else if n = 0x13E then s.setCtx c { x with eng := { x.eng with sclmp := x.eng.sclmp &&& ~~~v } }
  else if between 0x110 0x11F n then
    (if fld v 59 2 = 1 then s.sstatAct c (n - 0x110) true else if fld v 59 2 = 2 then s.sstatAct c (n - 0x110) false else s)
  else if n = 0x140 then s.kctlWrite c v
  else if n = 0x142 then s.setPart x.pk (if p.fencing || p.ending ≠ [] then { p with kfnext := some (at' (fld v 16 48) 16) } else { p with kfrec := at' (fld v 16 48) 16 })
  else if between 0x144 0x147 n then s.setPart x.pk (p.lqWrite (s.pkg x.pk.pkg) (n - 0x144) v)
  else if between 0x148 0x14F n then s
  else if n = 0x161 then s.sigPut (objKey x.pk x.sels.sgsel.toNat) v
  else if n = 0x165 then (if fld v 60 2 = 1 then s.wstCancel c else s)
  else if n = 0x170 then s.setPart x.pk { p with ptu := ptWrite (s.pkg x.pk.pkg) p.ptu v }
  else if n = 0x171 then s.setPart x.pk { p with ptp := ptWrite (s.pkg x.pk.pkg) p.ptp v }
  else if n = 0x172 then s.ptcfgWrite x.pk v
  else if n = 0x173 then s.setPart x.pk { p with ptanc := ancWrite (s.pkg x.pk.pkg) p.ptanc v }
  else if n = 0x174 then s.setPart x.pk { p with shpool := v }
  else if n = 0x183 then s.rxselWrite c v
  else if n = 0x184 then s.rxWrite (objKey x.pk x.sels.rxsel.toNat) v
  else if n = 0x194 then (if s.hasKern x.pk then s else s.setPart x.pk { p with vdjrn := at' (fld v 16 48) 16 })
  else s.setCtx c { x with sels := x.sels.put n v }

/-- A marker register written at its marker (06 R145, R312). -/
def Ctx.crMark (x : Ctx) (n : Nat) (v : Word) : Ctx :=
  if n = 0x30 then { x with fx := { x.fx with fpst := putFpst x.fx.fpst v } }
  else if n = 0x31 then { x with fx := { x.fx with lfsr := if v.extractLsb' 0 32 = 0 then 1 else v.extractLsb' 0 32 } }
  else if n = 0x32 then { x with fx := x.fx.putAcc v }
  else if n = 0x51 then { x with str := { x.str with depth := depthOf v } }
  else if between 0x70 0x7F n then { x with str := { x.str with stk := vecSet x.str.stk (n - 0x70) (align16 v) } }
  else if between 0x80 0x9F n then { x with fx := { x.fx with idle := vecSet x.fx.idle (n - 0x80) v } }
  else x

/-- The stream applies a control-register marker (06 R145). -/
def State.cregApply (s : State) (c n : Nat) (v : Word) : State :=
  if n = 0x34 then (if fld v 61 2 = 1 then s.mxprogAct c true else if fld v 61 2 = 2 then s.mxprogAct c false else s)
  else s.updCtx c fun x => x.crMark n v

/-- A `crwr` in its block's commit cycle (R311, R312). -/
def State.crWrite (s : State) (c n : Nat) (v : Word) : State :=
  match s.ctxs.get? c with
  | none => s
  | some x =>
    if crStream n && x.ctl.aonly then s
    else if crPlaces n then s.setCtx c { x with ports := { x.ports with cmdq := x.ports.cmdq ++ [{ kind := .creg n, v := v }] } }
    else if 0x100 ≤ n then s.crObjPut c x n v
    else if n = 8 then (if fld v 62 2 = 1 then s.streamResume c else s)
    else if n = 0x11 then s.asnWrite c v
    else s.setCtx c (x.crPut (s.pkg x.pk.pkg) n v)

/-! ### The instructions -/

/-- `crrd` (R311): it waits for every older block, and at a marker register for `cmdq` to be adopted (06 R145). -/
def execCrrd (p : Pred) (id : Ident) (num : BitVec 9) (t1 : Tgt) (s : State) : Out State :=
  let i := info (.crrd p id num t1)
  loadOp i
    (fun cu b sl _ _ => withCtx s b fun x =>
      if !s.isOldest b || !b.storesBelow id.toNat || (crMarker num.toNat && !x.ctl.aonly && x.ports.cmdq ≠ []) then .next s
      else
        let t := Tok.ofWord (s.crRead (s.shown b.ctx x) num.toNat)
        .next (s.setBlk cu.frame (b.sends cu.slot sl i t t))) s

/-- The selectors that a `crwr` of a block finds: what older blocks left, with the `crwr`s of its block below it (14 R319, 20 R437). -/
def Blk.selsFor (b : Blk) (x : Ctx) (id : Nat) : Sels :=
  (b.sortedEffs.filter fun e => e.1 < id).foldl
    (fun t e => match e.2 with
      | .crwr n v => if n = 0x183 then { t with rxsel := v.extractLsb' 0 8 } else t.put n v
      | _ => t) x.sels

/-- The fault of a `crwr` whose value is checked as it arrives (14 R319, 20 R437): code and subcode. -/
def State.crwrFault (s : State) (b : Blk) (x : Ctx) (id n : Nat) (v : Word) : Option (Nat × Nat) :=
  let t := b.selsFor x id
  if n = 0x102 then (if s.winRefused (objKey x.pk t.qsel.toNat) (s.winOf x t v) then some (0x30, 1) else none)
  else if n = 0x184 then (if s.rxRefused (objKey x.pk t.rxsel.toNat) v then some (0x36, 4) else none)
  else none

/-- `crwr` (R311): a marker register reserves an entry of `cmdq`. -/
def execCrwr (p : Pred) (id : Ident) (num : BitVec 9) (s : State) : Out State :=
  storeOp (info (.crwr p id num)) id
    (fun cu b _ l _ => withCtx s b fun x =>
      let n := num.toNat
      if crPlaces n && !x.ctl.aonly then
        (if s.cmdqRoom b.ctx x = 0 then holdFor s cu b .cmdq
         else completeWith s cu { b with cmdqRes := b.cmdqRes + 1 } id (.crwr n l.val))
      else if (n = 0x102 || n = 0x184) && (!s.isOldest b || !b.storesBelow id.toNat) then .next s
      else
        match s.crwrFault b x id.toNat n l.val with
        | some f => subFault s cu b f.1 f.2
        | none => completeWith s cu b id (.crwr n l.val)) s

/-! ### Reloading a saved register -/

/-- A stream register reloaded by a restore (R294, R312). -/
def Ctx.crLoadStrm (x : Ctx) (p : Pkg) (n : Nat) (v : Word) : Ctx :=
  if n = 8 then
    { x with recs := { x.recs with
        xvalid := v.getLsbD 61, xhact := v.getLsbD 60, xtag := v.extractLsb' 54 6, xcode := v.extractLsb' 0 8 } }
  else if n = 0x24 then
    { x with dec := { x.dec with
        lastk := v.getLsbD 63, lastp := v.extractLsb' 58 5, lbq := v.getLsbD 57, outh := v.extractLsb' 28 28, inh := v.extractLsb' 0 28 } }
  else if n = 0x29 then { x with str := { x.str with rptValid := v.getLsbD 8, rptNext := fld v 0 8 } }
  else if n = 0x30 then { x with fx := { x.fx with fpst := v.extractLsb' 0 13 &&& 0x1F3F } }
  else if n = 0x33 then { x with fx := { x.fx with foldOps := fld v 32 32, foldPasses := fld v 0 32 } }
  else if n = 9 || n = 0xA then x.crPut p n v
  else x.crMark n v

/-- A context register reloaded by a restore (R294, R312): the handles' valid bits are cleared, the lease keeps expd only. -/
def Ctx.crLoad (x : Ctx) (p : Pkg) (n : Nat) (v : Word) : Ctx :=
  if crStream n then x.crLoadStrm p n v
  else if n = 0 then { x with ctl := { x.ctl with spm := v.getLsbD 3, hm := v.getLsbD 2, pm := v.getLsbD 1, aonly := v.getLsbD 0 } }
  else if n = 1 then { x with recs := { x.recs with dcode := v.extractLsb' 8 8, code := v.extractLsb' 0 8 } }
  else if n = 6 then { x with ctl := { x.ctl with evpend := x.ctl.evpend ||| v.extractLsb' 0 8 } }
  else if n = 0x11 then { x with ctl := { x.ctl with asn := v.extractLsb' 0 16 } }
  else if n = 0x20 then { x with dec := { x.dec with empty := v } }
  else if n = 0x21 then { x with dec := { x.dec with full := v } }
  else if n = 0x22 then { x with dec := { x.dec with loss := v } }
  else if n = 0x23 then
    { x with dec := { x.dec with
        pend := v.extractLsb' 48 3, thloss := v.extractLsb' 32 16, thfull := v.extractLsb' 16 16, thempty := v.extractLsb' 0 16 } }
  else if n = 0x28 then { x with thr := { x.thr with rptValid := v.getLsbD 8, rptNext := fld v 0 8 } }
  else if n = 0x38 then { x with lease := { expd := v.getLsbD 62 } }
  else if between 0x40 0x4F n then { x with regs := { x.regs with th := vecSet x.regs.th (n - 0x40) { rest := v &&& 0x79FFFFFFFFFFFFFF } } }
  else x.crPut p n v

end Sys2Proof.Machine
end

