-- ==== Sys2Proof/Machine/Trap.lean ====
section
/-!
DEFINITION. `trap`, `svc`, `brk` and `rfe` as they issue (13 R308 to R310). What the first two and `rfe` do, they do in their block's commit.
-/
namespace Sys2Proof.Machine

/-- `trap` (13 R308). -/
def execTrap (p : Pred) (code : BitVec 9) (s : State) : Out State := branchOp (info (.trap p code)) 0 (fun _ _ _ => .trap code) s

/-- `svc` (13 R308). -/
def execSvc (p : Pred) (code : BitVec 9) (s : State) : Out State := branchOp (info (.svc p code)) 0 (fun _ _ _ => .svc code) s

/-- `brk` (13 R308): its block is discarded when the fault is taken; as a second branch it is a multiple-exit fault (03 R83). -/
def execBrk (p : Pred) (code : BitVec 9) (s : State) : Out State :=
  actOp (info (.brk p code)) (fun cu b _ => b.fin cu.slot)
    (fun cu b _ _ _ =>
      if b.branch.isSome then failWith s cu b (slotFault 0x06 cu.slot)
      else failWith s cu b { slotFault 0x22 cu.slot with tcode := code }) s

/-- `rfe` (13 R308, R310). -/
def execRfe (p : Pred) (s : State) : Out State := branchOp (info (.rfe p)) 0 (fun _ _ _ => .rfe) s

end Sys2Proof.Machine
end

