-- ==== Sys2Proof/Machine/Place.lean ====
section
/-!
DEFINITION. Groups and contexts take positions (17 R374 to R376, 16 R368, R369): units, free positions, accumulator shares, new contexts; and what device units
read in a kernel's address space.
-/
namespace Sys2Proof.Machine

/-- The levels of groups (17 R375): their units on a die. -/
def unitsOf (k : Chip) (lvl : BitVec 2) (die : Nat) : List Nat :=
  match lvl.toNat with
  | 1 => (List.range (Config.coresPerDie k)).map (Config.coresPerDie k * die + ·)
  | 2 => (List.range (Config.quadsPerDie k)).map (Config.quadsPerDie k * die + ·)
  | _ => [die]

/-- The cores of a unit. -/
def unitCores (k : Chip) (lvl : BitVec 2) (u : Nat) : List Nat :=
  match lvl.toNat with
  | 1 => [u]
  | 2 => (List.range 4).map (4 * u + ·)
  | _ => (List.range (Config.coresPerDie k)).map (Config.coresPerDie k * u + ·)

/-- Whether a level may hold members (17 R375). -/
def levelFits (lvl : BitVec 2) (pairs accs : Nat) : Bool :=
  match lvl.toNat with
  | 0 => false
  | 1 => decide (pairs ≤ 4) && decide (accs ≤ 4)
  | 2 => decide (pairs ≤ 16) && decide (accs ≤ 16)
  | _ => decide (pairs ≤ 255) && decide (accs ≤ 255)

/-- The free positions of a core for a partition (17 R375, R376): pair positions 0 to 3, or threads 4 to 7. -/
def State.freePos (s : State) (pk : PartKey) (core : Nat) (acc : Bool) : List (Nat × Nat) :=
  if (s.part pk).cores.contains core && !(s.pkg pk.pkg).coreAbsent core then
    ((if acc then [4, 5, 6, 7] else [0, 1, 2, 3]).filter fun p =>
      !s.ctxs.any fun e => e.2.pk.pkg = pk.pkg && e.2.pos = some (core, p)).map fun p => (core, p)
  else []

/-- The shares of C that resident pairs hold on a core: core, base and size in 4 KiB units (12 R277). -/
def State.shares (s : State) (pkg : Nat) : List (Nat × Nat × Nat) :=
  s.ctxs.filterMap fun e =>
    match e.2.pos with
    | some p => if e.2.pk.pkg = pkg && !e.2.ctl.aonly then some (p.1, e.2.fx.accBase, e.2.fx.accSize) else none
    | none => none

/-- Whether a share of C is free for a partition on a core (17 R376). -/
def State.shareFree (s : State) (pk : PartKey) (core : Nat) (used : List (Nat × Nat × Nat)) (base size : Nat) : Bool :=
  decide (base + size ≤ 64) && ((List.range size).all fun i => s.bank ⟨pk.pkg, core, .c, (base + i) / 8⟩ = .owned pk.part)
    && used.all fun u => u.1 ≠ core || !overlaps u.2.1 u.2.2 base size

/-- The base of a share of `size` units (12 R277, 17 R376): the one that a saved context has kept, where it is free (log 128); for a new context the
lowest that is free. -/
def State.shareBase (s : State) (pk : PartKey) (core : Nat) (used : List (Nat × Nat × Nat)) (size : Nat) : Option Nat → Option Nat
  | some b => if size = 0 || s.shareFree pk core used b size then some b else none
  | none => if size = 0 then some 0 else (List.range 64).find? fun b => s.shareFree pk core used b size

/-- Give pairs their shares: positions with sizes, and the bases that saved ones have kept (17 R376). -/
def State.giveShares (s : State) (pk : PartKey) :
    List ((Nat × Nat) × Nat × Option Nat) → List (Nat × Nat × Nat) → Option (List ((Nat × Nat) × Nat))
  | [], _ => some []
  | (p, size, pref) :: r, used =>
    match s.shareBase pk p.1 used size pref with
    | none => none
    | some b =>
      match s.giveShares pk r ((p.1, b, size) :: used) with
      | none => none
      | some l => some ((p, b) :: l)

/-- Where a group goes: its unit, the positions and share bases of its pairs, the threads of its access-only contexts. -/
structure Seats where
  unit : Nat
  pairs : List ((Nat × Nat) × Nat)
  accs : List (Nat × Nat)
  deriving DecidableEq, Repr

/-- The seats of a group in a unit (17 R376): `pairs` are the size of each pair's share, and its base where a saved pair has one. -/
def State.seatsIn (s : State) (pk : PartKey) (lvl : BitVec 2) (u : Nat) (pairs : List (Nat × Option Nat)) (accs : Nat) : Option Seats :=
  let cs := unitCores (s.pkg pk.pkg).chip lvl u
  let fp := (cs.flatMap fun c => s.freePos pk c false).take pairs.length
  let ft := (cs.flatMap fun c => s.freePos pk c true).take accs
  if fp.length < pairs.length || ft.length < accs then none
  else (s.giveShares pk (fp.zip pairs) (s.shares pk.pkg)).map fun l => ⟨u, l, ft⟩

/-- The seats of a group on a die (17 R376): the first unit, in ascending number, that has room. -/
def State.seats (s : State) (pk : PartKey) (lvl : BitVec 2) (die : Nat) (pairs : List (Nat × Option Nat)) (accs : Nat) : Option Seats :=
  if ((s.pkg pk.pkg).die die).present && !((s.pkg pk.pkg).die die).lost then (unitsOf (s.pkg pk.pkg).chip lvl die).findSome? fun u => s.seatsIn pk lvl u pairs accs else none

/-- The lowest group number of a partition that is free (17 R374). -/
def State.freeGroup (s : State) (pk : PartKey) : Option Nat :=
  (List.range 256).find? fun n => (s.groups.get? (objKey pk n)).isNone

/-! ### Reading a kernel's memory -/

/-- A device unit as it accesses a partition's memory: it stands on no core. -/
def unitWho (pk : PartKey) (asn : BitVec 16) (pm : Bool) : Who := ⟨pk, Config.maxCores, asn, pm⟩

/-- The translation of an address for a device unit's read, or for the check that a write may be made (10 R221). -/
def State.vtrans (s : State) (w : Who) (va : Word) (wr : Bool) : Except Fail Trans :=
  if !canonical va w.pm then .error { code := 0x12, step := 2 }
  else
    match (s.grade w.pk va w.asn (!wr) wr false ((s.walk w.pk w.asn va.toNat).map Prod.snd)).1 with
    | .error f => .error f
    | .ok t => if s.targetOk w (t.frame + (va.toNat - t.vbase)) 1 wr false false then .ok t else .error { code := 0x12, step := 5 }

/-- One byte of a kernel's memory as a device unit reads it; a value whose check fails is not delivered (01 R36). -/
def State.vbyte (s : State) (w : Who) (va : Word) : Except Fail Byte :=
  match s.vtrans w va false with
  | .error f => .error f
  | .ok t =>
    let p : Part' := ⟨t.frame + (va.toNat - t.vbase), 1, t.key, {}⟩
    if s.memFails w.pk p then .error { code := 0, step := 0, broken := true } else .ok ((s.readEv w.pk p).headD 0)

/-- Bytes of a kernel's memory. -/
def State.vread (s : State) (w : Who) (va : Word) : Nat → Except Fail (List Byte)
  | 0 => .ok []
  | n + 1 =>
    match s.vbyte w va, s.vread w (va + 1) n with
    | .ok b, .ok l => .ok (b :: l)
    | .error f, _ => .error f
    | _, .error f => .error f

/-- Bytes as dwords. -/
def dwordsOf (l : List Byte) : Nat → List Word
  | 0 => []
  | n + 1 => bytesW (l.take 8) :: dwordsOf (l.drop 8) n

/-- Dwords of a kernel's memory. -/
def State.vdwords (s : State) (w : Who) (va : Word) (n : Nat) : Except Fail (List Word) :=
  match s.vread w va (8 * n) with
  | .error f => .error f
  | .ok l => .ok (dwordsOf l n)

/-- Write a dword of a kernel's memory (16 R371): nothing where the address cannot be written. -/
def State.vput (s : State) (w : Who) (va v : Word) : State :=
  match s.access w va 8 8 false true false none with
  | (.error _, s) => s
  | (.ok ps, s) => engWrite s w.pk ps (leBytes 8 v.toNat)

/-! ### Contexts -/

/-- A dword of a kernel's descriptor (16 R364). -/
def Kern.dw (k : Kern) (n : Nat) : Word := vecGet k.desc n 0
/-- Whether a kernel's contexts start privileged (16 R364). -/
def Kern.priv (k : Kern) : Bool := (k.dw 0).getLsbD 8
/-- The share of C of each pair of a kernel (16 R364). -/
def Kern.accSize (k : Kern) : Nat := fld (k.dw 0) 48 7
/-- The device's view of a kernel's memory. -/
def Kern.who (k : Kern) (pk : PartKey) : Who := unitWho pk k.asn k.priv

/-- The physical address of a context's image (16 R369): zero where it cannot be translated. -/
def State.simgOf (s : State) (pk : PartKey) (k : Kern) (idx : Nat) : Word :=
  let va := k.dw 7 + BitVec.ofNat 64 idx * k.dw 8
  match s.vtrans (k.who pk) va true with
  | .ok t => at' ((t.frame + (va.toNat - t.vbase)) / 128 % 2 ^ 45) 7
  | .error _ => 0

/-- A new context at its kernel's entry blocks (16 R369, 17 R382). -/
def State.newCtx (s : State) (kk : KernKey) (k : Kern) (idx grp mem : Nat) (pos : Nat × Nat) (aonly : Bool) (base : Nat) (g3 : Nat)
    (g4 : Word) : Ctx :=
  let r : Regs := {}
  { pk := kk.pk, kern := kk, index := idx, group := grp, member := mem, pos := some pos
    regs := (((r.writeG 1 (BitVec.ofNat 64 idx) none).writeG 2 k.va none).writeG 3 (BitVec.ofNat 64 g3) none).writeG 4 g4 none
    ctl := { prio := BitVec.ofNat 2 kk.lq, pm := k.priv, aonly := aonly, tvec := align16 (k.dw 6), simg := s.simgOf kk.pk k idx, asn := k.asn }
    fx := { accBase := base, accSize := if aonly then 0 else k.accSize }
    thr := { next := k.dw 1 }
    str := { next := if aonly then 0 else k.dw 2, off := aonly || k.dw 2 = 0 } }

/-- Put contexts where their seats say, the share of each pair zeroed (16 R369): the state and the new context numbers. -/
def State.seatCtxs (s : State) (kk : KernKey) (k : Kern) (grp g3 : Nat) (g4 : Word) :
    List ((Nat × Nat) × Bool × Nat) → Nat → Nat → State × List Nat
  | [], _, _ => (s, [])
  | (pos, aonly, base) :: r, idx, mem =>
    let t := s.stamp
    let s := t.2.setCtx t.1 (t.2.newCtx kk k idx grp mem pos aonly base g3 g4)
    let s := if aonly || k.accSize = 0 then s else s.bufWrite kk.pk.pkg pos.1 .c (4096 * base) (List.replicate (4096 * k.accSize) 0)
    let u := s.seatCtxs kk k grp g3 g4 r (idx + 1) (mem + 1)
    (u.1, t.1 :: u.2)

/-- Create a group in its seats (17 R374, R382). -/
def State.addGroup (s : State) (kk : KernKey) (k : Kern) (gnum : Nat) (lvl : BitVec 2) (die : Nat) (t : Seats) (idx g3 : Nat) (g4 : Word) : State :=
  let l := t.pairs.map (fun p => (p.1, false, p.2)) ++ t.accs.map fun p => (p, true, 0)
  let u := s.seatCtxs kk k gnum g3 g4 l idx 0
  let o := u.1.stamp
  let g : Group := { level := lvl, unit := t.unit, die := die, kern := kk, members := u.2, order := o.1 }
  ({ o.2 with groups := o.2.groups.put (objKey kk.pk gnum) g }).updKern kk fun k => { k with nctx := idx + l.length }

/-! ### Scores -/

/-- The bytes of one page of a range that lie in resident pages of a die's stacks (16 R368). -/
def State.pageScore (s : State) (pk : PartKey) (asn : BitVec 16) (die va len : Nat) : Nat :=
  match s.walk pk asn va with
  | none => 0
  | some (_, e) =>
    let pa := s.liveFrame pk e + (va - va / e.len * e.len)
    if e.state = 1 || e.state = 2 || e.state = 3 || e.state = 5 then
      (match (s.pkg pk.pkg).space pa with | .hbm d _ => if d = die then len else 0 | .lpddr | .remote _ _ | .regs _ | .hole => 0)
    else 0

/-- The score of a die for a range (16 R368). -/
def State.rangeScore (s : State) (pk : PartKey) (asn : BitVec 16) (die : Nat) (r : Word × Word) : Nat :=
  let b := r.1.toNat
  let e := b + r.2.toNat
  ((List.range (if r.2 = 0 then 0 else (e - 1) / 65536 - b / 65536 + 1)).map fun i =>
    let lo := max b ((b / 65536 + i) * 65536)
    let hi := min e ((b / 65536 + i + 1) * 65536)
    s.pageScore pk asn die lo (hi - lo)).sum

/-- Dies in descending order of score, ties to the lower number (16 R368). -/
def State.dieOrder (s : State) (pk : PartKey) (asn : BitVec 16) (rs : List (Word × Word)) : List Nat :=
  ((List.range Config.dies).map fun d => (d, (rs.map (s.rangeScore pk asn d)).sum)).foldl ins [] |>.map Prod.fst
where
  /-- Insert after every entry of at least its score. -/
  ins (l : List (Nat × Nat)) (x : Nat × Nat) : List (Nat × Nat) :=
    match l with
    | [] => [x]
    | a :: r => if a.2 < x.2 then x :: a :: r else a :: ins r x

end Sys2Proof.Machine
end

