-- ==== Sys2Proof/Machine/Kernel.lean ====
section
/-!
DEFINITION. Launch queues, placement and fences (16 R360 to R373, 19 R419): `launch`, the acceptance of entries, the checks of a descriptor, the placement of
a kernel, and the fence of a partition with its record.
-/
namespace Sys2Proof.Machine

/-! ### Acceptance -/

/-- The number of entries that a launch queue's ring and journal hold (16 R362): none where lsz is 0. -/
def Part.lqCap (p : Part) (n : Nat) : Nat := if fld (vecGet p.lq n 0) 58 6 = 0 then 0 else 2 ^ fld (vecGet p.lq n 0) 58 6

/-- Entries of a launch journal that `launch`es of blocks in flight reserve (16 R363). -/
def State.lqReserved (s : State) (pk : PartKey) (n : Nat) : Nat :=
  (s.blks.map fun e =>
    match s.ctxs.get? e.2.ctx with
    | some x => if x.pk = pk then (e.2.effs.filter fun f => match f.2 with | .launch lq _ _ => decide (lq = n) | _ => false).length else 0
    | none => 0).sum

/-- Free entries of a launch journal (16 R361, R363). -/
def State.lqRoom (s : State) (pk : PartKey) (n : Nat) : Nat :=
  let p := s.part pk
  p.lqCap n - (vecGet p.tail n 0 - vecGet p.keep n 0).toNat - s.lqReserved pk n

/-- The tail of a launch queue passes host entries that a replay has kept (21 R450 step 5). -/
def State.tailOn (s : State) (pk : PartKey) (n : Nat) : Nat → State
  | 0 => s
  | fuel + 1 =>
    let p := s.part pk
    let t := vecGet p.tail n 0
    match s.kerns.get? ⟨pk, n, t.toNat⟩ with
    | some k => if k.host && k.st = .accepted then (s.setPart pk { p with tail := vecSet p.tail n (t + 1) }).tailOn pk n fuel else s
    | none => s

/-- Accept a kernel at the tail of its launch queue (16 R360, R366). -/
def State.accept (s : State) (pk : PartKey) (n : Nat) (k : Kern) : State :=
  let p := s.part pk
  let t := vecGet p.tail n 0
  let s := s.setPart pk { p with tail := vecSet p.tail n (t + 1) }
  { s with kerns := s.kerns.put ⟨pk, n, t.toNat⟩ k }.tailOn pk n (p.lqCap n)

/-- The physical address of a ring slot (16 R361). -/
def Part.ringAddr (p : Part) (n slot : Nat) : Nat := fld (vecGet p.lq n 0) 4 48 * 16 + 16 * slot

/-- The host entry at the tail of a launch queue (16 R361): its slot's record, where its write is complete and its words are legal. -/
def State.hostEntry (s : State) (pk : PartKey) (n : Nat) : Option RingSlot :=
  let p := s.part pk
  let t := vecGet p.tail n 0
  let slot := if p.lqCap n = 0 then 0 else t.toNat % p.lqCap n
  let a := p.ringAddr n slot
  let d0 := s.peekW pk.pkg a
  let d1 := s.peekW pk.pkg (a + 8)
  let got := p.rings.getD (n, slot) {}
  if 4 ≤ n || p.lqCap n = 0 || got.bytes ≠ 0xFFFF || d1.extractLsb' 32 32 ≠ t || d1.extractLsb' 0 32 ≠ 0 || fld d0 52 12 ≠ 0 || fld d0 0 7 ≠ 0 then none
  else some got

/-- Whether a `launch` that waits for a launch queue, or a host entry, has reached the queue before a time (16 R363). -/
def State.lqBefore (s : State) (pk : PartKey) (n t : Nat) : Bool :=
  (match s.hostEntry pk n with | some g => decide (g.at' < t) | none => false)
    || s.blks.any fun e => (match s.ctxs.get? e.2.ctx with | some x => decide (x.pk = pk) | none => false)
      && e.2.slots.any fun sl => (sl.st = .held || sl.st = .waiting) && match sl.why with | some (.launch m u) => decide (m = n) && decide (u < t) | _ => false

/-- When a `launch` has reached its queue (16 R363): at its first try. -/
def Slot.launchTime (sl : Slot) (s : State) : Nat := match sl.why with | some (.launch _ t) => t | _ => s.stamp.1

/-- `launch` (16 R363): it holds its slot while the journal is full, or something that reached the queue before it waits. -/
def execLaunch (p : Pred) (id : Ident) (lq : BitVec 2) (s : State) : Out State :=
  storeOp (info (.launch p id lq)) id
    (fun cu b sl l _ => withCtx s b fun x =>
      checked s cu b x l.val 8 8 true false false (b.handleOf x l) fun s b ps =>
        let n := lq.toNat
        if l.val.toNat % 128 ≠ 0 || (s.part x.pk).lqCap n = 0 then subFault s cu b 0x32 1
        else if !b.pm && decide (n < x.ctl.prio.toNat) then subFault s cu b 0x32 2
        else if s.lqRoom x.pk n = 0 || s.lqBefore x.pk n (sl.launchTime s) then
          let st := s.stamp
          holdFor st.2 cu b (.launch n (sl.launchTime s))
        else
          match ps with
          | [] => .next s
          | q :: _ => completeWith s cu b id (.launch n l.val q.pa)) s

/-- A `launch` at commit (16 R363). -/
def State.launchDo (s : State) (c : Nat) (pm : Bool) (n : Nat) (va : Word) (pa : Nat) : State :=
  match s.ctxs.get? c with
  | none => s
  | some x => s.accept x.pk n { pa := pa, va := va, srcPriv := pm, host := false }

/-- LAUNCH_ACCEPT (16 R361): a host entry whose write is complete and whose sequence is the tail. An entry holds no virtual address for `g2` (16 R369), which
is then free (log 62). -/
def execLaunchAccept (s : State) : Out State :=
  match s.site with
  | .partLq pk n =>
    let p := s.part pk
    let slot := (vecGet p.tail n 0).toNat % p.lqCap n
    match s.hostEntry pk n with
    | none => .next s
    | some got =>
      if s.lqRoom pk n = 0 || !p.st.runs || s.lqBefore pk n got.at' then .next s
      else
        let d := s.drawBits
        let s := d.2
        .next ((s.setPart pk { s.part pk with rings := p.rings.del (n, slot) }).accept pk n
          { pa := fld (s.peekW pk.pkg (p.ringAddr n slot)) 7 45 * 128, va := d.1.extractLsb' 0 64, srcPriv := got.pf, host := true })
  | _ => .fault .noSite

/-! ### Checks of a descriptor -/

/-- What a placement comes to (16 R366): it waits, it has met a detected error (01 R36), it is refused with
a status, or it goes on. -/
inductive Placed (α : Type) where
  | wait (s : State)
  | broken
  | refused (status : Nat)
  | ok (a : α)

/-- Go on with what a device unit read; a page in transit is asked for (16 R367). -/
def Placed.of {α β : Type} (s : State) (pk : PartKey) (r : Except Fail α) (f : α → Placed β) : Placed β :=
  match r with
  | .ok a => f a
  | .error e =>
    match e.pull with
    | some pg => if s.sourceLost pk then .refused 3 else .wait (s.askPage pk pg)
    | none => if e.broken then .broken else .refused 3

/-- Whether the fixed part of a descriptor breaks R364. -/
def Kern.bad (k : Kern) : Bool :=
  let d := k.dw 0
  fld d 0 8 ≠ 1 || fld d 55 9 ≠ 0 || fld d 10 6 ≠ 0 || fld d 16 8 = 0 || decide (64 < fld d 16 8) || decide (64 < fld d 48 7)
    || fld (k.dw 8) 0 7 ≠ 0 || fld (k.dw 12) 16 48 ≠ 0 || decide (4096 < fld (k.dw 12) 0 16) || fld (k.dw 13) 0 3 ≠ 0 || k.dw 14 ≠ 0 || k.dw 15 ≠ 0

/-- An entry of the ephemeris (16 R368). -/
structure Ephem where
  level : BitVec 2
  pairs : Nat
  accs : Nat
  ranges : List (Word × Word)
  deriving DecidableEq, Repr

/-- The entry that eight dwords give; none where they break R368. -/
def Ephem.of (d : List Word) : Option Ephem :=
  let w := fun i => (d[i]?).getD 0
  if fld (w 0) 0 2 = 0 || fld (w 0) 2 6 ≠ 0 || fld (w 0) 26 38 ≠ 0 || w 1 ≠ 0 || (fld (w 0) 8 8 = 0 && fld (w 0) 16 8 = 0)
      || !levelFits ((w 0).extractLsb' 0 2) (fld (w 0) 8 8) (fld (w 0) 16 8) then none
  else
    some { level := (w 0).extractLsb' 0 2, pairs := fld (w 0) 8 8, accs := fld (w 0) 16 8
           ranges := (List.range (fld (w 0) 24 2)).map fun i => (w (2 + 2 * i), w (3 + 2 * i)) }

/-- Entries of `n` dwords. -/
def entriesOf (n : Nat) : Nat → List Word → List (List Word)
  | 0, _ => []
  | k + 1, l => l.take n :: entriesOf n k (l.drop n)

/-- Every entry, or none where one is refused. -/
def allSome {α : Type} : List (Option α) → Option (List α)
  | [] => some []
  | none :: _ => none
  | some a :: r => (allSome r).map fun l => a :: l

/-- A queue of a queue table (16 R365): its number, and its record with a window not yet based; none where a zero field is set. -/
def tableQueue (d : List Word) : Option (Nat × Queue) :=
  let a := (d[0]?).getD 0
  let c := (d[1]?).getD 0
  let v := a <<< 21
  if fld a 31 33 ≠ 0 || fld a 12 5 < 10 || 26 < fld a 12 5 then none
  else
    some (fld a 0 12,
      { win := { kind := 1, lsize := fld a 12 5 }, plane := v.getLsbD 51, esize := v.extractLsb' 49 2, journal := v.getLsbD 48
        spill := v.getLsbD 47, prodk := v.getLsbD 46, consk := v.getLsbD 45, nprod := fld v 38 7, caskLen := fld c 52 12, caskBase := fld c 16 36 })

/-- Whether a queue table may open (16 R365, R367): each queue as open would, each unallocated, each named once. -/
def State.tableOk (s : State) (pk : PartKey) : List (Nat × Queue) → Bool
  | [] => true
  | (n, q) :: r =>
    (s.queue (objKey pk n)).state = .unallocated && !q.openBad (s.pkg pk.pkg) && !(r.any fun e => e.1 = n) && s.tableOk pk r

/-- The 64 KiB pages of a range. -/
def pagesOf (base len : Word) : List Nat :=
  let b := base.toNat
  let e := b + len.toNat
  (List.range (if len = 0 then 0 else (e - 1) / 65536 - b / 65536 + 1)).map fun i => (b / 65536 + i) * 65536

/-- Whether a page may become a fenced output (19 R419); one in transit is waited for, as without a migration it would be in its state there (08 R189). -/
def State.fenceable (s : State) (pk : PartKey) (asn : BitVec 16) (va : Nat) : Except Fail Unit :=
  match s.walk pk asn va with
  | some (_, e) =>
    if e.state = 4 && e.size = 0 then .error { code := 0x10, step := 3, pull := some (asn, va / 65536 * 65536) }
    else if e.size = 0 && (e.state = 1 || e.state = 2) then .ok () else .error { code := 0x11, step := 4 }
  | none => .error { code := 0x10, step := 3 }

/-- Whether a page may hold execute code (19 R419); one in transit is waited for. -/
def State.codePage (s : State) (pk : PartKey) (asn : BitVec 16) (va : Nat) : Except Fail Unit :=
  match s.walk pk asn va with
  | some (_, e) =>
    if e.state = 4 then .error { code := 0x10, step := 3, pull := some (asn, va / e.len * e.len) }
    else if e.x && (e.state = 1 || e.state = 5) then .ok () else .error { code := 0x11, step := 4 }
  | none => .error { code := 0x10, step := 3 }

/-- The first error of a list of checks. -/
def firstError : List (Except Fail Unit) → Except Fail Unit
  | [] => .ok ()
  | .ok _ :: r => firstError r
  | .error f :: _ => .error f

/-- The pages of the image area of a kernel, one stride for each context (16 R367): each is translated for a write, and one in transit is waited for. -/
def State.imagePages (s : State) (pk : PartKey) (k : Kern) (n : Nat) : List (Except Fail Unit) :=
  (List.range n).flatMap fun i =>
    let a := k.dw 7 + BitVec.ofNat 64 i * k.dw 8
    (pagesOf a (BitVec.ofNat 64 (max (k.dw 8).toNat 128))).map fun p => (s.vtrans (k.who pk) (BitVec.ofNat 64 (max p a.toNat)) true).map fun _ => ()

/-- Whether the image area holds one stride for each context (16 R367): each stride in contiguous local memory that may be written. -/
def State.imageOk (s : State) (pk : PartKey) (k : Kern) (n : Nat) : Bool :=
  (List.range n).all fun i =>
    let a := k.dw 7 + BitVec.ofNat 64 i * k.dw 8
    let len := max (k.dw 8).toNat 128
    match s.vtrans (k.who pk) a true with
    | .error _ => false
    | .ok t =>
      let pa := t.frame + (a.toNat - t.vbase)
      (s.pkg pk.pkg).inLocal pa len && (pagesOf a (BitVec.ofNat 64 len)).all fun p =>
        let v := max p a.toNat
        match s.vtrans (k.who pk) (BitVec.ofNat 64 v) true with
        | .ok u => decide (u.frame + (v - u.vbase) = pa + (v - a.toNat))
        | .error _ => false

/-- What the checks of a descriptor find: its queues, its groups, its fenced pages and the pages of its code. -/
structure Plan where
  queues : List (Nat × Queue)
  groups : List Ephem
  fenced : List Nat
  code : List Nat
  deriving DecidableEq, Repr

/-- The checks of a descriptor once its tables are read (16 R365, R367, R368, 19 R419). -/
def State.planOf (s : State) (pk : PartKey) (k : Kern) (qt ep ft : List Word) : Placed Plan :=
  let d := k.dw 0
  match allSome ((entriesOf 2 (fld d 24 8) qt).map tableQueue), allSome ((entriesOf 8 (fld d 16 8) ep).map Ephem.of) with
  | some qs, some gs =>
    let fs := (entriesOf 2 (fld (k.dw 12) 0 16) ft).map fun e => ((e[0]?).getD 0, (e[1]?).getD 0)
    let fp := fs.flatMap fun r => pagesOf r.1 r.2
    let cp := pagesOf (k.dw 4) (k.dw 5)
    let n := (gs.map fun g => g.pairs + g.accs).sum
    if !s.tableOk pk qs || fs.any (fun r => fld r.1 0 16 ≠ 0 || fld r.2 0 16 ≠ 0)
        || (fld (s.part pk).kfrec 52 12 = 0 && (fs ≠ [] || qs.any fun q => q.2.journal)) then .refused 3
    else
      .of s pk (firstError (fp.map (s.fenceable pk k.asn) ++ s.imagePages pk k n)) fun _ =>
        if !s.imageOk pk k n then .refused 3
        else .of s pk (firstError (cp.map (s.codePage pk k.asn))) fun _ => .ok ⟨qs, gs, fp, cp⟩
  | _, _ => .refused 3

/-- The checks of a descriptor (16 R367). -/
def State.plan (s : State) (pk : PartKey) (k : Kern) : Placed Plan :=
  let d := k.dw 0
  if k.bad then .refused 3
  else if k.priv && !k.srcPriv then .refused 4
  else
    .of s pk (s.vdwords (k.who pk) (k.dw 9) (2 * fld d 24 8)) fun qt =>
      .of s pk (s.vdwords (k.who pk) (k.dw 10) (8 * fld d 16 8)) fun ep =>
        .of s pk (s.vdwords (k.who pk) (k.dw 11) (2 * fld (k.dw 12) 0 16)) fun ft =>
          s.planOf pk k qt ep ft

/-! ### Placement -/

/-- Place the groups of a kernel (16 R368): none where one of them fits on no die or no group number is free. -/
def State.placeGroups (s : State) (kk : KernKey) (k : Kern) : List Ephem → Nat → Nat → Option State
  | [], _, _ => some s
  | e :: r, gi, idx =>
    match s.freeGroup kk.pk with
    | none => none
    | some n =>
      match (s.dieOrder kk.pk k.asn e.ranges).findSome? fun d =>
          (s.seats kk.pk e.level d (List.replicate e.pairs (k.accSize, none)) e.accs).map fun t => (d, t) with
      | none => none
      | some t => (s.addGroup kk k n e.level t.1 t.2 idx gi 0).placeGroups kk k r (gi + 1) (idx + e.pairs + e.accs)

/-- Open the queues of a kernel (16 R365), with windows in the slot's window memory; none where one has no room. -/
def State.openQueues (s : State) (pk : PartKey) (die : Nat) : List (Nat × Queue) → Option State
  | [] => some s
  | (n, q) :: r =>
    match s.windowRoom pk die (2 ^ q.win.lsize) with
    | none => none
    | some b =>
      let k := objKey pk n
      let q := { q with win := { q.win with part := pk.part, base := b, die := die } }
      ((s.setQueue k q).qOpen k).openQueues pk die r

/-- Fence a kernel's output pages (19 R403): each resident one, with a shoot-down. -/
def State.fencePages (s : State) (pk : PartKey) (asn : BitVec 16) (l : List Nat) : State :=
  l.foldl
    (fun s va =>
      match s.walk pk asn va with
      | some (l, e) => if e.state = 1 then s.setPageState pk l e 2 0 else s
      | none => s) s

/-- Pin the pages of a kernel's execute code (19 R403, R419). -/
def State.pinPages (s : State) (pk : PartKey) (asn : BitVec 16) (l : List Nat) : State :=
  l.foldl
    (fun s va =>
      match s.walk pk asn va with
      | some (l, e) => if e.state = 1 then s.setPte pk.pkg l { e with state := 5 } else s
      | none => s) s

/-- The consumer position of each journalled queue (16 R373). -/
def State.cutsNow (s : State) (pk : PartKey) : List (Nat × Nat) :=
  s.queues.filterMap fun e => if e.1.pk = pk && e.2.journal && e.2.state ≠ .unallocated then some (e.1.n, (s.jrnl e.1).taken) else none

/-- Advance the head of a launch queue (16 R362, R366). -/
def State.headOn (s : State) (kk : KernKey) : State :=
  let p := s.part kk.pk
  s.setPart kk.pk { p with head := vecSet p.head kk.lq (vecGet p.head kk.lq 0 + 1) }

/-- A kernel is placed (16 R366 to R369), or waits in placing: the whole kernel or nothing. -/
def State.place (s : State) (kk : KernKey) (k : Kern) (p : Plan) : State :=
  let k := { k with st := .placing }
  let wait := { s with kerns := s.kerns.put kk k }
  match wait.placeGroups kk k p.groups 0 0 with
  | none => wait
  | some t =>
    let die := match (t.groups.filter fun e => e.2.kern = kk).map fun e => e.2.die with | d :: _ => d | [] => 0
    match t.openQueues kk.pk die p.queues with
    | none => ((wait.kernFault kk 3 0).headOn kk)
    | some u =>
      let u := (u.fencePages kk.pk k.asn p.fenced).pinPages kk.pk k.asn p.code
      ((u.updKern kk fun k => { k with st := .running, fenced := p.fenced, pinned := p.code, cuts := u.cutsNow kk.pk }).headOn kk).touch kk.pk

/-- The descriptor as memory holds it (16 R364). -/
def State.descOf (s : State) (pk : PartKey) (pa : Nat) : Vector Word 16 :=
  let l := dwordsOf (s.readEv pk ⟨pa, 128, 0, {}⟩) 16
  Vector.ofFn fun i => (l[i.val]?).getD 0

/-- Whether an earlier kernel of the launch queue has not ended (16 R364). -/
def State.earlierRuns (s : State) (kk : KernKey) : Bool :=
  s.kerns.any fun e => e.1.pk = kk.pk && e.1.lq = kk.lq && e.1.seq ≠ kk.seq && e.2.st ≠ .accepted && !e.2.ended

/-- What placement does with the head of a launch queue (16 R366 to R369). A head that a replay moved back passes kernels that have ended. -/
def State.placeHead (s : State) (pk : PartKey) (n : Nat) : State :=
  let p := s.part pk
  let kk : KernKey := ⟨pk, n, (vecGet p.head n 0).toNat⟩
  match s.kerns.get? kk with
  | none => s
  | some k =>
    if !p.st.runs || vecGet p.head n 0 = vecGet p.tail n 0 then s
    else if k.st = .complete || k.st = .faulted then s.headOn kk
    else if k.st ≠ .accepted && k.st ≠ .placing then s
    else if (s.pkg pk.pkg).inLocal k.pa 128 && (p.movingAt k.pa).isSome then
      (match p.movingAt k.pa with | some m => s.askPage pk (m.asn, m.va) | none => s)
    else if !s.targetOk (unitWho pk 0 false) k.pa 128 false false false then (s.kernFault kk 3 0).headOn kk
    else if s.evFails pk k.pa 0 && !(match (s.pkg pk.pkg).space k.pa with | .regs _ => true | .hbm _ _ | .lpddr | .remote _ _ | .hole => false) then
      s.detected pk
    else
      let k := { k with desc := s.descOf pk k.pa }
      if (k.dw 0).getLsbD 9 && s.earlierRuns kk then s
      else
        match s.plan pk k with
        | .wait s => { s with kerns := s.kerns.put kk { k with st := .placing } }
        | .broken => s.detected pk
        | .refused st => ({ s with kerns := s.kerns.put kk { k with st := .placing } }.kernFault kk st 0).headOn kk
        | .ok pl => s.place kk k pl

/-- Whether the head of a launch queue can be placed now, or be refused (16 R366). -/
def State.headMoves (s : State) (pk : PartKey) (n : Nat) : Bool :=
  decide (vecGet ((s.placeHead pk n).part pk).head n 0 ≠ vecGet (s.part pk).head n 0)

/-- KERNEL_PLACEMENT (16 R366): placement takes the launch queues in order, `lq0` first; a head that cannot yet be placed holds back its own queue only. -/
def execKernelPlacement (s : State) : Out State :=
  match s.site with
  | .partLq pk n => if (List.range (min n 4)).any (s.headMoves pk) then .next s else .next (s.placeHead pk n)
  | _ => .fault .noSite

/-! ### The fence -/

/-- Write a kernel's completion word (16 R371). -/
def State.putDone (s : State) (kk : KernKey) (k : Kern) (status : Nat) : State :=
  s.vput (k.who kk.pk) (k.dw 13) (at' (kk.seq % 2 ^ 32) 32 ||| at' status 0)

/-- A completing kernel becomes complete (16 R366, R372): its shadows are promoted, its completion word is written, and it ends. -/
def State.finish (s : State) (kk : KernKey) : State :=
  match s.kerns.get? kk with
  | none => s
  | some k =>
    if k.st = .completing then
      let s := s.updKern kk fun k => { k with st := .complete, status := 1, ended := true }
      (((s.promoteAll kk k).unpinCode kk k).putDone kk k 1).endKern kk
    else if k.st = .faulted && !k.ended then
      (s.updKern kk fun k => { k with ended := true }).putDone kk k k.status
    else s

/-- What the completion word of a kernel waits for (16 R371, R372, 08 R179): the page that holds it, in transit, or stores of the kernel not yet performed. -/
def State.doneWaits (s : State) (kk : KernKey) (k : Kern) : Bool × Option (BitVec 16 × Nat) :=
  let stores := (s.ctxs.any fun e => e.2.pk = kk.pk && e.2.kern = kk && !e.2.path.isEmpty)
    || s.amos.any fun a => a.srcs.any fun z => match s.ctxs.get? z.ctx with | some x => x.pk = kk.pk && decide (x.kern = kk) | none => false
  let pg := match s.vtrans (k.who kk.pk) (k.dw 13) true with | .ok _ => none | .error e => if s.sourceLost kk.pk then none else e.pull
  (stores || pg.isSome, pg)

/-- A kernel that a fence has recorded as ended ends, once its completion word can be written; a page in transit is asked for. -/
def State.finishOr (s : State) (kk : KernKey) : Bool × State :=
  match s.kerns.get? kk with
  | none => (true, s)
  | some k =>
    let w := s.doneWaits kk k
    if (k.st = .completing || (k.st = .faulted && !k.ended)) && w.1 then
      (false, match w.2 with | some pg => s.askPage kk.pk pg | none => s)
    else (true, s.finish kk)

/-- Advance keep past leading entries whose kernel has reached its end state (16 R362, R372). -/
def State.keepOn (s : State) (pk : PartKey) (n : Nat) : Nat → State
  | 0 => s
  | fuel + 1 =>
    let p := s.part pk
    let q := vecGet p.keep n 0
    match s.kerns.get? ⟨pk, n, q.toNat⟩ with
    | some k =>
      if q ≠ vecGet p.tail n 0 && k.ended then (s.setPart pk { p with keep := vecSet p.keep n (q + 1) }).keepOn pk n fuel else s
    | none => s

/-- The start cuts of a kernel that count (16 R373): of the journalled queues it has taken from. -/
def Kern.cutsTaken (k : Kern) : List (Nat × Nat) := k.cuts.filter fun c => k.takes.contains c.1

/-- The oldest position of a journalled queue that is still needed (16 R373). -/
def oldestNeeded (n taken : Nat) (ks : List RecKern) : Nat :=
  (ks.flatMap RecKern.cuts).foldl (fun m c => if c.1 = n then min m c.2 else m) taken

/-- The record that a fence writes (16 R373, log 11). -/
def State.recordOf (s : State) (pk : PartKey) (seq : BitVec 32) : FenceRec :=
  let p := s.part pk
  { seq := seq, head := p.head, tail := p.tail, keep := p.keep
    kerns := s.kerns.filterMap fun e =>
      if e.1.pk = pk && !e.2.ended then some { lq := e.1.lq, seq := e.1.seq, st := e.2.st, cuts := e.2.cutsTaken } else none
    queues := s.queues.filterMap fun e =>
      if e.1.pk = pk && e.2.journal && e.2.state ≠ .unallocated then
        some { n := e.1.n, q := { e.2 with els := [], cask := [] }, taken := (s.jrnl e.1).taken, upto := (s.jrnl e.1).taken + e.2.all.length }
      else none }

/-- The bytes that a record takes in its slot (16 R373). -/
def FenceRec.size (r : FenceRec) : Nat := 0xC0 + 32 * r.kerns.length + 64 * r.queues.length + 64

/-- The header and the launch queues of a record as its slot holds them (16 R373). -/
def FenceRec.front (r : FenceRec) (pk : PartKey) : List Word :=
  [r.seq.setWidth 64, 1, BitVec.ofNat 64 pk.part] ++ List.replicate 13 0
    ++ ((List.range 12).map fun i =>
        let v := fun j => vecGet (if j % 3 = 0 then r.head else if j % 3 = 1 then r.tail else r.keep) (j / 3) 0
        if i < 6 then v (2 * i + 1) ++ v (2 * i) else 0).take 8

/-- Drop the journal entries that no recorded cut needs (16 R373, 21 R445). -/
def State.trimJournals (s : State) (pk : PartKey) (r : FenceRec) : State :=
  r.queues.foldl
    (fun s q =>
      let j := s.jrnl (objKey pk q.n)
      let o := oldestNeeded q.n q.taken r.kerns
      s.setJrnl (objKey pk q.n) { j with base := max j.base o, ents := j.ents.drop (o - j.base) }) s

/-- The bytes of a record (16 R373): the header and the launch queues, the entries of kernels and of queues, whose layout is the device's own (log 11),
and the positions in the launch journals. -/
def State.recordBytes (s : State) (pk : PartKey) (r : FenceRec) : List Byte × State :=
  let n := 32 * r.kerns.length + 64 * r.queues.length
  let d := s.freeBytes ((n + 127) / 128)
  (dwBytes (r.front pk) ++ d.1.take n ++ dwBytes (r.journ.toList ++ [0, 0, 0, 0]), d.2)

/-- Write a fence record into its slot (16 R372 step 2, R373). -/
def State.writeRecord (s : State) (pk : PartKey) (r : FenceRec) : State :=
  let j := s.drawBits
  let r := { r with journ := Vector.ofFn fun i => j.1.extractLsb' (64 * i.val) 64 }
  let p := s.part pk
  let a := p.slotAddr (r.seq.toNat % 2)
  let b := j.2.recordBytes pk r
  let s := (b.2.unitWrite pk a b.1).freshen pk.pkg a b.1.length
  (s.setPart pk { s.part pk with recd := some r, recAt := a }).trimJournals pk r

/-- The kernels that a record shows as ended (16 R372 step 4). -/
def FenceRec.ends (r : FenceRec) : List (Nat × Nat) := (r.kerns.filter fun k => !k.returns).map fun k => (k.lq, k.seq)

/-- Kernels end, and those that have to wait are left. -/
def State.finishAll (s : State) (pk : PartKey) : List (Nat × Nat) → List (Nat × Nat) × State
  | [] => ([], s)
  | e :: r =>
    let f := s.finishOr ⟨pk, e.1, e.2⟩
    let g := f.2.finishAll pk r
    (if f.1 then g.1 else e :: g.1, g.2)

/-- Step 4 of a fence (16 R372), for the kernels that it records. Once it is done keep advances, and a write to `cr.kfrec` that waited takes effect (R371). -/
def State.fenceEnd (s : State) (pk : PartKey) (l : List (Nat × Nat)) : State :=
  let f := s.finishAll pk l
  let s := f.2.setPart pk { f.2.part pk with ending := f.1 }
  if f.1 ≠ [] then s
  else
    let p := s.part pk
    let s := s.setPart pk { p with kfrec := p.kfnext.getD p.kfrec, kfnext := none }
    (List.range 4).foldl (fun s n => s.keepOn pk n 65536) s

/-- Steps 3 and 4 of a fence that has written its flag (16 R372). -/
def State.fenceDone (s : State) (pk : PartKey) : State :=
  let p := s.part pk
  let s := s.setPart pk { p with fencing := false }
  match p.recd with | some r => s.fenceEnd pk r.ends | none => s

/-- Steps 1 and 2 of a fence (16 R372): without a record area it writes no record and goes on to step 4; one that would overflow its slot is abandoned. -/
def State.fenceBegin (s : State) (pk : PartKey) : State :=
  let p := s.part pk
  let r := s.recordOf pk (p.fseq + 1)
  let s := s.setPart pk { p with fenceReq := false }
  if fld p.kfrec 52 12 = 0 then (s.setPart pk { s.part pk with fseq := p.fseq + 1 }).fenceEnd pk r.ends
  else if fld p.kfrec 52 12 * 65536 < r.size then s.failPart pk
  else (s.setPart pk { s.part pk with fseq := p.fseq + 1, fencing := true }).writeRecord pk r

/-- PARTITION_FENCE (16 R372): a fence begins and writes its record, and then, at the next such event, ends; between the two a reset may come (R373).
A completion word that has to wait keeps the fence in its step 4. -/
def execPartitionFence (s : State) : Out State :=
  match s.site with
  | .part pk =>
    let p := s.part pk
    match p.st with
    | .vacant | .replaying | .failed | .inTransit => .next s
    | .resident | .quiescing | .quiesced | .pulling | .settled =>
      if p.fencing then .next (s.fenceDone pk)
      else if p.ending ≠ [] then .next (s.fenceEnd pk p.ending)
      else if p.fenceReq then .next (s.fenceBegin pk) else .next s
  | _ => .fault .noSite

end Sys2Proof.Machine
end

