-- ==== Sys2Proof/Machine/Fetch.lean ====
section
/-!
DEFINITION. The fetch of a block (03 R70 to R73, R90, R93, R94, 09 R212): its address, its translation, and the checks of its header and
configuration words.
-/
namespace Sys2Proof.Machine

/-- The block kind that a fetcher runs (02 R40). -/
def fetchKind : Fetcher → Nat
  | .thread => 1 | .stream => 2 | .act _ => 3

/-- Why a fetch fails: a block-fetch fault, a page fault with its address and subcode, or a page in transit (03 R71, 10 R223). -/
inductive FetchErr where
  | block
  | page (va : Word) (sub : Nat)
  | pull (pg : BitVec 16 × Nat)
  deriving DecidableEq, Repr

/-- A page that a fetch may read: the physical address of a byte of it, and how many bytes of the page stand from there on. -/
structure CodeAt where
  pa : Nat
  room : Nat
  key : Nat
  deriving DecidableEq, Repr

/-- What a walk says of a fetch (03 R71, 19 R408): only an access thread meets page faults and pages in transit. -/
def State.gradeCode (s : State) (w : Who) (u : Fetcher) (va : Word) (e : Option Pte) : Except FetchErr CodeAt :=
  match e with
  | none => .error (if u = .thread then .page va 0 else .block)
  | some e =>
    if e.state = 6 then .error (if u = .thread then .page va 2 else .block)
    else if e.state = 4 then .error (if u = .thread then .pull (w.asn, va.toNat / e.len * e.len) else .block)
    else if !e.x || !(s.pkg w.pk.pkg).keyOk w.pk.part e.key.toNat then .error .block
    else
      let pa := s.liveFrame w.pk e + va.toNat % e.len
      match (s.pkg w.pk.pkg).space pa with
      | .regs _ | .hole => .error .block
      | .hbm _ _ | .lpddr | .remote _ _ =>
        if s.targetOk w pa 1 false true true then .ok ⟨pa, e.len - va.toNat % e.len, e.key.toNat⟩ else .error .block

/-- Translate the address of a fetch (03 R71). -/
def State.code (s : State) (w : Who) (u : Fetcher) (va : Word) : Except FetchErr CodeAt × State :=
  if !canonical va w.pm then (.error .block, s)
  else
    let r := s.lookup w.pk w.core w.asn va.toNat
    (r.2.gradeCode w u va r.1, r.2)

/-- The bytes of a fetch, page by page (03 R71); a block meets two pages at most. -/
def State.codeBytes (s : State) (w : Who) (u : Fetcher) (va : Word) (len : Nat) : Nat → Except FetchErr (List Part') × State
  | 0 => (.ok [], s)
  | fuel + 1 =>
    if len = 0 then (.ok [], s)
    else
      match s.code w u va with
      | (.error e, s) => (.error e, s)
      | (.ok c, s) =>
        let n := min len c.room
        match s.codeBytes w u (va + BitVec.ofNat 64 n) (len - n) fuel with
        | (.error e, s) => (.error e, s)
        | (.ok l, s) => (.ok (⟨c.pa, n, c.key, {}⟩ :: l), s)

/-- Whether a granule of fetched code fails its check value (01 R36). -/
def State.codeFails (s : State) (pk : PartKey) (p : Part') : Bool :=
  (List.range (p.len / 128 + 2)).any fun i =>
    decide (i * 128 < p.pa % 128 + p.len) && s.evFails pk (p.pa / 128 * 128 + i * 128) p.key

/-- The checks of a header (03 R72). -/
def Header.ok (h : Header) (u : Fetcher) : Bool :=
  decide (h.kind = fetchKind u) && decide (h.cwords ≠ 3) && h.zero = 0
    && (h.kind = 1 || h.rwmask.extractLsb' 40 24 = 0)

/-- A bit of configuration word `n`, zero where the block has no such word (03 R73). -/
def cfgBit (h : Header) (bytes : List Byte) (n slot : Nat) : Bool :=
  decide (n < h.cwords) && ((bytes[16 * (n + 1) + slot / 8]?).getD 0).getLsbD (slot % 8)

/-- The instruction word of a slot (03 R70). -/
def slotWord (h : Header) (bytes : List Byte) (slot : Nat) : IWord :=
  BitVec.ofNat 32 (leNat ((bytes.drop (16 * (h.cwords + 1) + 4 * slot)).take 4))

/-- The slots of a fetched block (03 R70, R73); an access block ignores its replicate bits. -/
def slotsOf (h : Header) (bytes : List Byte) : List Slot :=
  (List.range (h.count + 1)).map fun i =>
    { word := slotWord h bytes i, plane := if cfgBit h bytes 0 i then .dat else .ctl, rep := decide (h.kind ≠ 1) && cfgBit h bytes 1 i }

/-- A block image out of its bytes; none where an access block has a plane bit set (03 R73). -/
def imageOf (addr : Word) (h : Header) (bytes : List Byte) : Option Image :=
  let l := slotsOf h bytes
  if h.kind = 1 && l.any (fun sl => sl.plane = .dat) then none else some { addr := addr, hdr := h, slots := l }

/-- What a fetch finds: an image, a failed check, a check value that fails, or a home that it does not reach now (20 R426). -/
inductive Fetched where
  | image (i : Image)
  | fails (e : FetchErr)
  | error
  | waits
  deriving DecidableEq, Repr

/-- Whether a die reaches the code that a fetch reads (20 R426). -/
def State.codeUp (s : State) (w : Who) (ps : List Part') : Bool := ps.all fun p => s.homeUp w.pk ((s.pkg w.pk.pkg).dieOf w.core) p.pa

/-- Fetch the block at an address (03 R71 to R73). -/
def State.fetchAt (s : State) (w : Who) (u : Fetcher) (va : Word) : Fetched × State :=
  if va.toNat % 16 ≠ 0 then (.fails .block, s)
  else
    match s.codeBytes w u va 16 2 with
    | (.error e, s) => (.fails e, s)
    | (.ok hp, s) =>
      if !s.codeUp w hp then (.waits, s)
      else if hp.any (s.codeFails w.pk) then (.error, s)
      else
        let h := Header.ofBits (BitVec.ofNat 128 (leNat (hp.flatMap (s.readEv w.pk))))
        if !h.ok u then (.fails .block, s)
        else
          match s.codeBytes w u va h.len 2 with
          | (.error e, s) => (.fails e, s)
          | (.ok ps, s) =>
            if !s.codeUp w ps then (.waits, s)
            else if ps.any (s.codeFails w.pk) then (.error, s)
            else
              match imageOf va h (ps.flatMap (s.readEv w.pk)) with
              | some i => (.image i, s)
              | none => (.fails .block, s)

/-- Where a fetcher's next block stands (02 R51, 03 R93, 09 R212). -/
inductive NextAt where
  /-- Nothing is in flight: the address that the last commit left. -/
  | settled (a : Word)
  /-- The next firing of the youngest block in flight. -/
  | firing (a : Word) (n : Nat)
  /-- A block in flight has not named its successor: the device predicts one. -/
  | predicted
  deriving DecidableEq, Repr

/-- Where the next block stands. -/
def State.nextAt (s : State) (c : Nat) (u : Fetcher) (l : Lane) : NextAt :=
  match youngestOf (s.flight c u) with
  | none => .settled l.next
  | some e => if e.2.firing < e.2.hdr.rpt then .firing e.2.addr (e.2.firing + 1) else .predicted

/-- The firing at which a fetched block starts, and whether it is the first that the record awaits (03 R94): the record's firing where the record names
this block. At hm 1 only a handler's own record counts, and an interrupted block's stands. -/
def Lane.startAt (l : Lane) (a : Word) (hm : Bool) : Nat × Bool :=
  if l.rptDue && l.rptValid && (!hm || l.rptHm) then (if l.rptAddr = a then l.rptNext else 0, true) else (0, false)

/-- The first block that the record awaits has come to be the next of its lane (03 R94): a record that names another block is void. -/
def Lane.meetRpt (l : Lane) (first : Bool) (a : Word) : Lane :=
  if !(first && l.rptDue) then l
  else if l.rptAddr = a then { l with rptDue := false }
  else { l with rptDue := false, rptValid := false, rptNext := 0, rptHm := false }

/-- The record of a fault of a fetch (03 R71, 09 R212, 13 R301). -/
def Lane.fetchRec (l : Lane) (a : Word) (e : FetchErr) : FaultRec :=
  let r : FaultRec :=
    match e with
    | .block | .pull _ => { code := 0x01, faddr := a }
    | .page va sub => { code := 0x10, faddr := va, sub := BitVec.ofNat 8 sub, step := 3 }
  if l.succ then { r with faddr := l.from', exit := l.exit, succ := true } else r

/-- Whether a fetcher is one that may have a next block (02 R59, 13 R296, 16 R364, R370). -/
def Ctx.mayRun (x : Ctx) (u : Fetcher) : Bool :=
  x.live && !(x.lane u).off && (x.lane u).wait.isNone
    && match u with
      | .thread => !x.done
      | .stream => !x.recs.xvalid && !x.ctl.aonly
      | .act n => !x.recs.xvalid && (Tab.get? x.acts n).isSome

/-- A fetch on the settled path fails (03 R71): the thread's fault waits for its boundary, the stream stops, a page in transit is pulled. -/
def State.fetchFails (s : State) (c : Nat) (u : Fetcher) (x : Ctx) (a : Word) (e : FetchErr) : State :=
  let l := x.lane u
  match e, u with
  | .pull pg, .thread =>
    if s.sourceLost x.pk then s.updCtx c fun x => x.setLane u { l with fetchFault := some (l.fetchRec a (.page a 0)) }
    else s.askPage x.pk pg
  | e, .thread => s.updCtx c fun x => x.setLane u { l with fetchFault := some (l.fetchRec a e) }
  | e, .stream => s.streamStop c u (l.fetchRec a e) a
  | e, .act _ => s.streamStop c u (l.fetchRec a e) a

/-- A block that the lane has fetched, with the firing at which it starts. -/
def Lane.load (l : Lane) (i : Image) (st : Nat × Bool) : Lane := { l with img := some { i with first := st.2 }, firing := st.1 }

/-- Fetch on the settled path. -/
def fetchSettled (s : State) (c : Nat) (u : Fetcher) (x : Ctx) (a : Word) : State :=
  match s.fetchAt ⟨x.pk, x.core, x.ctl.asn, x.ctl.pm⟩ u a with
  | (.image i, s) =>
    s.updCtx c fun x =>
      let st := (x.lane u).startAt a (decide (u = .thread) && x.ctl.hm)
      x.setLane u (((x.lane u).load i st).meetRpt st.2 a)
  | (.fails e, s) => s.fetchFails c u x a e
  | (.waits, _) => s
  | (.error, s) => s.detected x.pk

/-- Fetch on a path that an older block has not settled: a failure has no effect. `firing` is the next firing of a repeated block, or 0. -/
def fetchAhead (s : State) (c : Nat) (u : Fetcher) (x : Ctx) (a : Word) (firing : Nat) : State :=
  match s.fetchAt ⟨x.pk, x.core, x.ctl.asn, x.ctl.pm⟩ u a with
  | (.image i, s) =>
    let one := (s.flight c u).any fun e => e.2.first
    s.updCtx c fun x =>
      x.setLane u ((x.lane u).load i
        (if firing ≠ 0 || one then (firing, false) else (x.lane u).startAt a (decide (u = .thread) && x.ctl.hm)))
  | (.fails _, s) => s
  | (.waits, _) => s
  | (.error, s) => s

/-- BLOCK_FETCH (03 R90): the sequencer fetches the next block of a thread, stream or activation. -/
def execBlockFetch (s : State) : Out State :=
  match s.site with
  | .ctxU c u =>
    match s.ctxs.get? c with
    | none => .next s
    | some x =>
      let l := x.lane u
      if !x.mayRun u || l.img.isSome || l.fetchFault.isSome then .next s
      else
        match s.nextAt c u l with
        | .settled a => .next (fetchSettled s c u x a)
        | .firing a n => .next (fetchAhead s c u x a n)
        | .predicted => let d := s.drawBits; .next (fetchAhead d.2 c u x (d.1.extractLsb' 0 64) 0)
  | _ => .fault .noSite

end Sys2Proof.Machine
end

