-- ==== Sys2Proof/Machine/Fire.lean ====
section
/-!
DEFINITION. Dispatch: the rates and the firing of execute blocks (02 R53 to R55), the checks of a block (03 R74, R78 to R80, 04 R108, R109), the
dispatch decision (02 R57 to R63), held slots (R56) and blocks that cannot complete (03 R89).
-/
namespace Sys2Proof.Machine

/-! ### Rates -/

/-- The pop rate of an inlet (02 R53). -/
def popRate (l : List (Nat × Slot × Instr)) (n : Nat) : Nat :=
  (l.filter fun e => (inletTake n e.2.2).isSome || (inletPeek n e.2.2).isSome).length

/-- Whether an instruction appends through an outlet (02 R53). -/
def appendsTo (o : Nat) : Instr → Bool
  | .push _ _ n => decide (n.toNat = o)
  | .pushV _ _ n => decide (n.toNat = o)
  | .pushm _ _ n => decide (n.toNat = o)
  | .steer _ _ _ f t => decide (f.toNat = o) || decide (t.toNat = o)
  | _ => false

/-- The push rate of an outlet (02 R53). -/
def pushRate (l : List (Nat × Slot × Instr)) (o : Nat) : Nat := (l.filter fun e => appendsTo o e.2.2).length

/-- The push rate of `bq` (02 R53). -/
def bqRate (l : List (Nat × Slot × Instr)) : Nat :=
  (l.filter fun e => match e.2.2 with | .pushBq _ _ => true | _ => false).length

/-- Entries that an outlet counts for the releases of a delay line (14 R330). -/
def Ctx.dlExtra (x : Ctx) (l : List (Nat × Slot × Instr)) (o : Nat) : Nat :=
  match x.outlet o with
  | some b => if b.flag then 2 * ((x.rins.map (popRate l)).sum) else 0
  | none => 0

/-- The entries that a block reserves on an outlet. -/
def Ctx.outRate (x : Ctx) (l : List (Nat × Slot × Instr)) (o : Nat) : Nat := pushRate l o + x.dlExtra l o

/-- Whether an inlet is short for a block (02 R54, 07 R167); a queue that is sealed and empty holds as many tokens as a block needs (14 R317). -/
def State.inShort (s : State) (c : Nat) (x : Ctx) (l : List (Nat × Slot × Instr)) (n : Nat) : Bool :=
  let r := popRate l n
  decide (0 < r)
    && match x.inlet n with
      | none => true
      | some b =>
        let q := s.queue (objKey x.pk b.queue)
        !(q.state = .sealed && q.all.isEmpty) && (decide (s.inHeld x c n < r) || !s.queueUp x (objKey x.pk b.queue))

/-- Whether an `accst` to an outlet stands in queue 14 (12 R278). -/
def Ctx.accstTo (x : Ctx) (o : Nat) : Bool :=
  x.fx.q14.any fun m => match m.kind with | .accst _ t => decide (fld t 0 5 = o) | _ => false

/-- Entries that a block reserves on the queue of an outlet, by every outlet bound to it. -/
def Ctx.queueRate (x : Ctx) (l : List (Nat × Slot × Instr)) (q : Nat) : Nat :=
  ((List.range 32).map fun o => match x.outlet o with | some b => if b.queue = q then x.outRate l o else 0 | none => 0).sum

/-- Whether an instruction appends a marker through an outlet (14 R335). -/
def marksOut (o : Nat) : Instr → Bool
  | .pushm _ _ n => decide (n.toNat = o)
  | _ => false

/-- The appends of a block through an outlet, in the order of their identifiers: whether each is a marker (14 R329). -/
def outTurns (l : List (Nat × Slot × Instr)) (o : Nat) : List Bool :=
  ((l.filter fun e => appendsTo o e.2.2).foldl (fun l e => put (match (info e.2.2).id with | some n => n.toNat | none => 0) (marksOut o e.2.2) l) []).map Prod.snd
where
  /-- Insert an append by its identifier. -/
  put (id : Nat) (m : Bool) : List (Nat × Bool) → List (Nat × Bool)
    | [] => [(id, m)]
    | a :: r => if id < a.1 then (id, m) :: a :: r else a :: put id m r

/-- Whether a marker of a block in flight of a context's stream, through an outlet, has not been appended (14 R329). -/
def State.markAhead (s : State) (c o : Nat) : Bool :=
  s.blks.any fun e => e.2.ctx = c && e.2.u ≠ .thread && e.2.instrs.any fun i => marksOut o i.2.2 && i.2.1.st ≠ .quenched

/-- Whether an outlet is short for a block (02 R54, 07 R167, 12 R278, 14 R324, R329). -/
def State.outShort (s : State) (c : Nat) (x : Ctx) (l : List (Nat × Slot × Instr)) (o : Nat) : Bool :=
  decide (0 < x.outRate l o)
    && match x.outlet o with
      | none => true
      | some b =>
        let k := objKey x.pk b.queue
        x.accstTo o || s.outOfTurn k b.round || s.markAhead c o || !s.allInTurn k b.round (outTurns l o) || decide (s.roomOf x k < x.queueRate l b.queue)

/-- Entries of `bq` that blocks in flight reserve. -/
def State.bqReserved (s : State) (c : Nat) : Nat := (s.blks.map fun e => if e.2.ctx = c then e.2.bqRes else 0).sum

/-- A port that keeps a block from firing (02 R54): an inlet, an outlet of the lowest number, or `bq` as outlet 32. -/
inductive Short where
  | inlet (n : Nat)
  | outlet (n : Nat)
  deriving DecidableEq, Repr

/-- The port that keeps a block of a stream from firing, inlets first (02 R54, R63, R64). -/
def State.short (s : State) (c : Nat) (x : Ctx) (l : List (Nat × Slot × Instr)) : Option Short :=
  match (List.range 32).find? (s.inShort c x l) with
  | some n => some (.inlet n)
  | none =>
    match (List.range 32).find? (s.outShort c x l) with
    | some n => some (.outlet n)
    | none =>
      if 0 < bqRate l ∧ 32 - x.ports.bq.length - s.bqReserved c < bqRate l then some (.outlet 32) else none

/-! ### The checks of a dispatched block -/

/-- Whether a register number is legal in a slot (04 R100). -/
def regLegal (kind : Nat) (plane : Plane) (n : Nat) (wr : Bool) : Bool :=
  if kind = 1 then plane = .ctl && decide (n < if wr then 72 else 80)
  else if n < 48 then plane = .dat
  else !wr && ((plane = .ctl && decide (n < 56)) || (decide (64 ≤ n) && decide (n < 96)))

/-- Forms that a block with a non-zero repeat field may not hold (03 R93, 13 R308). -/
def noRepeat : Instr → Bool
  | .call _ | .callr _ _ | .ret _ _ | .barWait _ | .sigWait _ | .yield _ | .idle _ | .trap _ _ | .svc _ _ | .brk _ _ | .rfe _ => true
  | _ => false

/-- Whether an instruction uses an operand (03 R78). -/
def Info.uses (i : Info) : TKind → Bool
  | .none => false
  | .left => i.usesL
  | .right => i.usesR
  | .pred => i.p != .always

/-- The words that differ from a word in a predicate field of 01, a type code, an aux field or its lowest bits (log 127). -/
def nearWords (pl : Plane) (w : IWord) : List IWord :=
  let types := if pl = .dat && decide (0x58 ≤ (fMaj w).toNat) then (List.range 16).map fun t => (w &&& 0xFF83FFFF#32) ||| (BitVec.ofNat 32 t <<< 18) else []
  let fields := w :: types
  let l := fields ++ (fields.map fun v => v &&& 0xFFFE01FF#32) ++ (fields.map fun v => v &&& 0xFFFC01FF#32)
    ++ (List.range 10).map fun k => (w >>> (9 + k)) <<< (9 + k)
  l ++ l.map fun v => v ||| 0x01000000#32

/-- The operands and the targets of a slot as the checks of other slots see them (03 R78): those of its instruction, and where only a field value is
illegal, those of the first near word that has a meaning (log 127). A word whose opcode has no meaning has none. -/
def Slot.shape (sl : Slot) : Option Info :=
  match (match sl.plane with | .ctl => rawCtl sl.word | .dat => rawDat sl.word) with
  | .ok i => some (info i)
  | .error _ =>
    (nearWords sl.plane sl.word).findSome? fun w =>
      match (match sl.plane with | .ctl => rawCtl w | .dat => rawDat w) with | .ok i => some (info i) | .error _ => none

/-- Whether a target breaks R78 in its own fields or at its consumer; a consumer whose opcode has no meaning has a breach of its own alone (log 127). -/
def badTarget (slots : List Slot) (n : Nat) (t : Tgt) : Bool :=
  t.kind != .none
    && (decide (t.slot.toNat ≤ n)
      || match slots[t.slot.toNat]? with
        | none => true
        | some d => match d.shape with | some i => !i.uses t.kind | none => false)

/-- Whether a target breaks the plane rules of R74. -/
def badPlane (slots : List Slot) (src : Slot) (t : Tgt) : Bool :=
  match slots[t.slot.toNat]? with
  | none => false
  | some d =>
    match t.kind with
    | .none => false
    | .pred => src.plane = .dat
    | .left | .right => src.plane != d.plane && !(src.plane = .ctl && src.rep)

/-- Whether a target in the block names an operand of slot `n` (03 R78 point 5). -/
def named (slots : List Slot) (n : Nat) (k : TKind) : Bool :=
  slots.any fun sl =>
    match sl.shape with
    | some i => [i.t1, i.t2].any fun t => t.kind = k && decide (t.slot.toNat = n)
    | none => false

/-- Whether some operand that an instruction uses has no producer (03 R78 point 5). -/
def unfed (slots : List Slot) (n : Nat) (i : Info) : Bool :=
  [TKind.left, TKind.right, TKind.pred].any fun k => i.uses k && !named slots n k

/-- Whether an instruction needs privilege (04 R108, 13 R303, R311). -/
def needsPriv (i : Instr) : Bool :=
  (info i).priv || match i with | .crwr _ _ n => crPriv n.toNat | _ => false

/-- Whether a part lacks an instruction (04 R108, 00 R2): on a bare field die a `lnk` of a class of the hub die, or an `rtcfg` of a queue that is chained to a
Septermoon link. -/
def State.gone (s : State) (pk : PartKey) (i : Instr) : Bool :=
  (s.pkg pk.pkg).bare
    && match i with
      | .lnkUp _ _ c | .lnkDown _ _ c | .lnkRetrain _ _ c | .lnkChain _ _ c | .lnkUnchain _ _ c => c != .die
      | .rtcfg _ _ _ q => (match (s.queue (objKey pk q.toNat)).chain with | some h => h.cls = 1 | none => false)
      | _ => false

/-- The fault of a slot by the checks of R109, in their order: its code, 0 where there is none. `gone` says which instructions the part lacks. R109's list
does not place the forms that a bare field die lacks (R108) and the forms that a repeated block may not hold (03 R93, 13 R308): the model checks the first
with step 1 and the second after step 3, at the slot of the instruction (log 127, a design choice). -/
def slotBreach (h : Header) (slots : List Slot) (gone : Instr → Bool) (pm : Bool) (n : Nat) (sl : Slot) : Nat :=
  match decode sl.plane sl.word with
  | .error _ => 0x02
  | .ok i =>
    let f := info i
    if (if h.kind = 1 then !f.acc else !f.exe) || gone i then 0x02
    else if match i with
      | .read r _ _ => !regLegal h.kind sl.plane r.toNat false
      | .write _ r => !regLegal h.kind sl.plane r.toNat true
      | _ => false
    then 0x02
    else if h.rpt ≠ 0 && noRepeat i then 0x02
    else if badTarget slots n f.t1 || badTarget slots n f.t2 || (f.t1.kind != .none && f.t1 = f.t2) || unfed slots n f then 0x02
    else if badPlane slots sl f.t1 || badPlane slots sl f.t2 then 0x03
    else if !pm && needsPriv i then 0x04
    else 0

/-- Whether an instruction breaks R79 by itself. -/
def ownBreach (h : Header) (i : Instr) : Bool :=
  match (info i).cls, (info i).id with
  | .ld, some n => h.smask.getLsbD n.toNat
  | .st, some n => !h.smask.getLsbD n.toNat
  | .stRes, some n => !h.smask.getLsbD n.toNat
  | .reg, _ => match i with | .write _ r => !h.names r.toNat | _ => false
  | _, _ => false

/-- Whether a block breaks R79 as a whole: a mask bit that nothing names, or no branch. -/
def blockBreach (h : Header) (l : List (Nat × Slot × Instr)) : Bool :=
  ((List.range 32).any fun n =>
      h.smask.getLsbD n && !l.any fun e => (info e.2.2).cls.stores && (info e.2.2).id = some (BitVec.ofNat 5 n))
    || ((List.range 64).any fun n =>
      h.rwmask.getLsbD n && !l.any fun e => match e.2.2 with | .write _ r => writeBit h.kind r.toNat = (false, n) | _ => false)
    || ((List.range 8).any fun n =>
      h.pwmask.getLsbD n && !l.any fun e => match e.2.2 with | .write _ r => writeBit h.kind r.toNat = (true, n) | _ => false)
    || !l.any fun e => (info e.2.2).cls = .br

/-- A pop of an inlet, its identifier. -/
def popOf (n : Nat) : Instr → Option Nat
  | .pop _ id i _ => if i.toNat = n then some id.toNat else none
  | .popV _ id i _ => if i.toNat = n then some id.toNat else none
  | _ => none

/-- Whether an instruction reads an inlet. -/
def readsInlet (n : Nat) : Instr → Bool
  | .read r _ _ => decide (r.toNat = 64 + n)
  | _ => false

/-- The lowest slot of a list. -/
def lowest : List Nat → Option Nat
  | [] => none
  | a :: r => match lowest r with | none => some a | some b => some (min a b)

/-- The breach of R101 or of R334 at an inlet: the lowest slot among its reads, pops and peeks, or among its pops and peeks. -/
def inletBreach (l : List (Nat × Slot × Instr)) (n : Nat) : Option Nat :=
  let reads := (l.filter fun e => readsInlet n e.2.2).map Prod.fst
  let pops := l.filter fun e => (popOf n e.2.2).isSome
  let peeks := l.filter fun e => (inletPeek n e.2.2).isSome
  let both := (pops ++ peeks).map Prod.fst
  if reads ≠ [] && both ≠ [] then lowest (reads ++ both)
  else if pops.any fun p => peeks.any fun k =>
      match popOf n p.2.2, inletPeek n k.2.2 with | some a, some b => decide (b ≤ a) | _, _ => false
  then lowest both
  else none

/-- The fault with which dispatch discards a block (03 R80, 04 R109). -/
def dispatchFault (h : Header) (slots : List Slot) (gone : Instr → Bool) (pm : Bool) : Option FaultRec :=
  match slots.zipIdx.find? fun e => slotBreach h slots gone pm e.2 e.1 ≠ 0 with
  | some e => some (slotFault (slotBreach h slots gone pm e.2 e.1) e.2)
  | none =>
    let l := instrsOf slots
    let own := (l.filter fun e => ownBreach h e.2.2).map Prod.fst
    let ports := if h.kind = 1 then [] else (List.range 32).filterMap (inletBreach l)
    match lowest (own ++ ports) with
    | some n => some (slotFault 0x02 n)
    | none => if blockBreach h l then some { code := 0x02, blk := true } else none

/-! ### Readiness -/

/-- The status of a result register (17 R379, 19 R422, 20 R437, 21 R460). -/
def resSt (v : Word) : Nat := fld v 61 3

/-- Whether an instruction is a command of a family, or reads one of its result registers: `grp` 0, `pg` 1, `lnk` 2, `vd` 3. -/
def inFamily (f : Nat) : Instr → Bool
  | .grpMake _ _ | .grpSplit _ _ | .grpJoin _ _ | .grpFree _ _ => f = 0
  | .pgMap _ _ _ | .pgUnmap _ _ _ | .pgPin _ _ _ | .pgUnpin _ _ _ | .pgPoison _ _ _ | .pgPromote _ _ _ => f = 1
  | .lnkUp _ _ _ | .lnkDown _ _ _ | .lnkRetrain _ _ _ | .lnkChain _ _ _ | .lnkUnchain _ _ _ => f = 2
  | .vdQuiesce _ _ | .vdSend _ _ | .vdResume _ _ | .vdRelease _ _ | .vdReplay _ _ => f = 3
  | .crrd _ _ n _ =>
    (f = 0 && (n.toNat = 0x150 || n.toNat = 0x151)) || (f = 1 && n.toNat = 0x175) || (f = 2 && n.toNat = 0x182)
      || (f = 3 && n.toNat = 0x192)
  | _ => false

/-- Whether a family's command of the thread is pending. -/
def Sels.pending (t : Sels) (f : Nat) : Bool :=
  decide (resSt (if f = 0 then t.gres else if f = 1 then t.pgres else if f = 2 then t.lnres else t.vdres) = 1)

/-- Whether a block of a thread must wait for a command (17 R380, 19 R422, 20 R441, 21 R464), one of an older block in flight included. -/
def State.cmdPending (s : State) (c : Nat) (x : Ctx) (l : List (Nat × Slot × Instr)) : Bool :=
  (List.range 4).any fun f =>
    (l.any fun e => inFamily f e.2.2)
      && (x.sels.pending f
        || (s.flight c .thread).any fun b =>
          b.2.instrs.any fun e => inFamily f e.2.2 && (info e.2.2).cls = .st)

/-- Whether a lane stands between firings of one repeated block, with none in flight (08 R188). One that has resumed does not, until it dispatches
(28_program_rowsum_trap R527, whose stream adopts a marker before the firing that stopped it runs again; log 107). -/
def Lane.midRepeat (l : Lane) : Bool :=
  !l.fresh && (if l.img.isSome then decide (l.firing ≠ 0) else l.rptValid && decide (l.rptNext ≠ 0) && l.rptAddr = l.next)

/-- Whether the stream has an entry of `cmdq` to adopt (08 R188): none of its blocks is in flight; a marker, none of whose kinds is a binding or a start
notice, it does not adopt between firings of a repeated block. -/
def State.adoptable (s : State) (c : Nat) (x : Ctx) : Bool :=
  x.live && !x.recs.xvalid && !(s.blks.any fun e => e.2.ctx = c && fetchExec e.2.u)
    && match x.ports.cmdq with
      | [] => false
      | e :: _ => !e.isMarker || !(x.str.midRepeat || x.acts.any fun a => a.2.lane.midRepeat)

/-- A candidate of a dispatcher (02 R60): its number, its priority, the order of an activation, its context and fetcher. -/
structure Cand where
  num : Nat
  prio : Nat
  order : Nat
  c : Nat
  u : Fetcher
  deriving DecidableEq, Repr

/-- The candidates of a dispatcher (02 R60, 12 R288). -/
def State.cands (s : State) (d : DispKey) : List Cand :=
  s.ctxs.flatMap fun e =>
    let x := e.2
    if x.pk.pkg = d.pkg && x.pos.isSome && decide (x.core = d.core) then
      (if d.acc then [⟨x.posn, x.priority, 0, e.1, .thread⟩]
       else if x.ctl.aonly then []
       else ⟨x.posn, x.priority, 0, e.1, .stream⟩ :: x.acts.map fun a => ⟨4, x.priority, a.2.order, e.1, .act a.1⟩)
    else []

/-- Whether a fetcher has a next block that only its ports may keep from firing (02 R59, R66, R68, 12 R288). -/
def State.fetched (s : State) (c : Nat) (x : Ctx) (u : Fetcher) : Bool :=
  x.mayRun u && (x.lane u).img.isSome && (x.lane u).fetchFault.isNone
    && match u with
      | .thread => (x.ctl.evpend = 0 || x.ctl.hm)
      | .stream | .act _ => !s.adoptable c x

/-- The instructions of a fetcher's fetched block. -/
def Lane.fetchedInstrs (l : Lane) : List (Nat × Slot × Instr) := match l.img with | some i => instrsOf i.slots | none => []

/-- Whether a candidate is ready (02 R59). -/
def State.readyCand (s : State) (k : Cand) : Bool :=
  match s.ctxs.get? k.c with
  | none => false
  | some x =>
    let l := (x.lane k.u).fetchedInstrs
    s.fetched k.c x k.u && (if fetchExec k.u then (s.short k.c x l).isNone else !s.cmdPending k.c x l)

/-! ### The decision -/

/-- Begin a hold episode (02 R63, R64). -/
def State.beginHold (s : State) (c : Nat) (u : Fetcher) (h : Short) : State :=
  let sat := fun (v : BitVec 28) => if v = BitVec.allOnes 28 then v else v + 1
  let s := s.updCtx c fun x =>
    let d := { x.dec with hold := x.dec.hold ++ [u] }
    { x with
      dec := match h with
        | .inlet n => { d with lastk := false, lastp := BitVec.ofNat 5 n, lbq := false, inh := sat d.inh }
        | .outlet n => { d with lastk := true, lastp := if n = 32 then 0 else BitVec.ofNat 5 n, lbq := decide (n = 32), outh := sat d.outh } }
  match h with
  | .inlet _ => s.countHold c 0
  | .outlet _ => s

/-- A decision finds a stream's next block unable to fire (02 R63): an episode is counted once. -/
def State.episode (s : State) (k : Cand) : State :=
  match s.ctxs.get? k.c with
  | none => s
  | some x =>
    if fetchExec k.u && s.fetched k.c x k.u && !x.dec.hold.contains k.u then
      match s.short k.c x (x.lane k.u).fetchedInstrs with
      | some h => s.beginHold k.c k.u h
      | none => s
    else s

/-- A decision has been made for those of a dispatcher that wait in `yield` (13 R313). -/
def Lane.yielded (l : Lane) : Lane :=
  match l.wait with
  | some w => if w.kind = .yield then { l with wait := some { w with met := some true } } else l
  | none => l

/-- A decision of a dispatcher is made, whether or not it takes a candidate (02 R60, 13 R313). -/
def State.decided (s : State) (d : DispKey) : State :=
  { s with
    ctxs := s.ctxs.map fun e =>
      let x := e.2
      if x.pk.pkg = d.pkg && x.pos.isSome && decide (x.core = d.core) then
        (e.1, if d.acc then { x with thr := x.thr.yielded }
              else { x with str := x.str.yielded, acts := x.acts.map fun a => (a.1, { a.2 with lane := a.2.lane.yielded }) })
      else e }

/-- The first candidate by a measure. -/
def leastBy (f : Cand → Nat) : List Cand → Option Cand
  | [] => none
  | a :: r => match leastBy f r with | none => some a | some b => if f b < f a then some b else some a

/-- How often a candidate has been passed over in succession (02 R61). -/
def Disp.passes (p : Disp) (k : Cand) : Nat := match p.passed.find? fun e => e.1 = (k.c, k.u) with | some e => e.2 | none => 0

/-- The candidate that a decision takes among those that are ready (02 R60, R61). -/
def Disp.choose (p : Disp) (acc : Bool) (l : List Cand) : Option Cand :=
  let m := if acc then 8 else 5
  let late := l.filter fun k => decide (256 ≤ p.passes k)
  let rank := fun (k : Cand) => (k.num + m - 1 - vecGet p.last k.prio 0) % m * 2 ^ 64 + k.order
  if late ≠ [] then leastBy (fun k => k.num * 2 ^ 64 + k.order) late
  else
    match leastBy Cand.prio l with
    | none => none
    | some t => leastBy rank (l.filter fun k => k.prio = t.prio)

/-- A dispatcher's memory once a decision has taken a candidate (02 R60, R61): every other candidate that was ready has been passed over. -/
def Disp.took (p : Disp) (ready : List Cand) (k : Cand) : Disp :=
  { last := vecSet p.last k.prio k.num
    passed := (ready.filter fun t => (t.c, t.u) ≠ (k.c, k.u)).map fun t => ((t.c, t.u), p.passes t + 1) }

/-- The repeat record of a lane whose oldest block is a firing of a repeated block (03 R94). -/
def Lane.takeRpt (l : Lane) (b : Blk) (hm : Bool) : Lane :=
  if b.hdr.rpt = 0 then l else { l with rptValid := true, rptNext := b.firing, rptAddr := b.addr, rptHm := hm, rptDue := false }

/-- The block that a fetched image becomes (02 R54, 03 R90). -/
def Ctx.newBlk (x : Ctx) (c : Nat) (u : Fetcher) (im : Image) (firing seq : Nat) : Blk :=
  let l := instrsOf im.slots
  let b : Blk := { ctx := c, u := u, addr := im.addr, hdr := im.hdr, firing := firing, first := im.first, seq := seq, slots := im.slots, pm := x.ctl.pm }
  if fetchExec u then
    { b with
      inRes := ((List.range 32).map fun n => (n, popRate l n)).filter fun e => e.2 ≠ 0
      outRes := ((List.range 32).map fun n => (n, x.outRate l n)).filter fun e => e.2 ≠ 0
      bqRes := bqRate l }
  else b

/-- A lane once a firing of its fetched block has been dispatched (03 R93). -/
def Lane.dispatched (l : Lane) (im : Image) : Lane :=
  let l := { l with fresh := false }
  if l.firing < im.hdr.rpt then { l with img := some { im with first := false }, firing := l.firing + 1 } else { l with img := none, firing := 0 }

/-- Dispatch the fetched block of a candidate (02 R50, R54, 03 R90, R93): into a frame; one that fails a check is discarded in the same cycle, and its fault
waits for every older block (03 R80, R92). -/
def State.dispatch (s : State) (f : FrameKey) (c : Nat) (u : Fetcher) : State :=
  match s.ctxs.get? c with
  | none => s
  | some x =>
    let l := x.lane u
    match l.img with
    | none => s
    | some im =>
      let x := { x with dec := { x.dec with hold := x.dec.hold.filter fun h => h ≠ u } }
      match dispatchFault im.hdr im.slots (s.gone x.pk) x.ctl.pm with
      | some r => s.setCtx c (x.setLane u { l with fetchFault := some r })
      | none =>
        let st := s.stamp
        let b := x.newBlk c u im l.firing st.1
        let m := if (s.flight c u).isEmpty then (l.dispatched im).takeRpt b (decide (u = .thread) && x.ctl.hm) else l.dispatched im
        (st.2.setBlk f b).setCtx c
          (match u with
            | .act n => let x := x.setLane u m; { x with acts := Tab.upd x.acts n fun a => { a with queued := false } }
            | .thread | .stream => x.setLane u m)

/-- A decision into a free frame (02 R60): it takes one of the ready candidates among those of `l`, and passes the other ready ones over. -/
def State.decideIn (s : State) (f : FrameKey) (l : List Cand) : State :=
  let d := f.disp
  let all := s.cands d
  let ready := all.filter s.readyCand
  let s := (all.foldl State.episode s).decided d
  match (s.disp d).choose d.acc (ready.filter fun k => l.contains k) with
  | none => s.setDisp d { s.disp d with passed := [] }
  | some k => (s.setDisp d ((s.disp d).took ready k)).dispatch f k.c k.u

/-- A free frame of a dispatcher (02 R50). -/
def State.freeFrame (s : State) (d : DispKey) : Option FrameKey :=
  ((List.range 4).map fun i => (⟨d, i⟩ : FrameKey)).find? fun f => (s.blks.get? f).isNone

/-- Whether a block holds a slot on a queue (02 R56). -/
def Blk.holds (b : Blk) : Bool := b.slots.any fun sl => sl.st = .held

/-- The access grid takes back the frame of its youngest held block for a ready thread that holds no frame (02 R57). -/
def State.reclaim (s : State) (d : DispKey) : State :=
  let here := s.blks.filter fun e => e.1.disp = d
  let poor := (s.cands d).filter fun k => (s.flight k.c k.u).isEmpty
  if (here.all fun e => e.2.holds) && poor.any s.readyCand then
    match youngestOf here with
    | none => s
    | some e => (s.discardFrom e.2).decideIn e.1 poor
  else s

/-- DISPATCH_DECISION (02 R60): a lattice or an access grid with a free frame takes a ready candidate, or none. -/
def execDispatchDecision (s : State) : Out State :=
  match s.site with
  | .disp d =>
    match s.freeFrame d with
    | some f => .next (s.decideIn f (s.cands d))
    | none => .next (if d.acc then s.reclaim d else s)
  | _ => .fault .noSite

/-! ### Held slots -/

/-- Whether what a held slot waits for has come (02 R56). -/
def State.unheld (s : State) (b : Blk) (x : Ctx) (sl : Slot) : Bool :=
  match sl.why with
  | none => true
  | some (.token q) =>
    (match decode sl.plane sl.word with
      | .ok i => s.popFind b x q (match (info i).id with | some n => n.toNat | none => 0) ≠ .wait
      | .error _ => false)
  | some (.entry k) => s.roomOf x k ≠ 0 || decide (s.qpushFault k ≠ 0)
  | some .cmdq => s.cmdqRoom b.ctx x ≠ 0
  | some (.engine q) => s.engRoom b.ctx x q ≠ 0
  | some (.launch n t) => s.lqRoom x.pk n ≠ 0 && !s.lqBefore x.pk n t

/-- HELD_SLOT_RESUME (02 R56): the slot may issue again; a `launch` keeps the time at which it reached its queue (16 R363). -/
def execHeldSlotResume (s : State) : Out State :=
  match s.site with
  | .slot cu =>
    match s.blks.get? cu.frame with
    | none => .next s
    | some b =>
      match b.slots[cu.slot]?, s.ctxs.get? b.ctx with
      | some sl, some x =>
        if sl.st = .held && s.unheld b x sl then
          .next (s.setBlk cu.frame (b.updSlot cu.slot fun sl => { sl with st := .waiting, why := sl.why.filter HoldWhy.isLaunch }))
        else .next s
      | _, _ => .next s
  | _ => .fault .noSite

/-! ### Commit rule and blocks that cannot complete -/

/-- Whether the operands of a slot have arrived. -/
def arrived (i : Instr) (sl : Slot) : Bool :=
  match gate (info i) sl with | .missing => false | .null | .predFault _ | .go _ _ => true

/-- Whether an instruction orders itself after the store-class instructions of its block with lower identifiers (03 R84, 13 R311, 15 R341). -/
def waitsStores : Instr → Bool
  | .strmGo _ _ => true
  | .crwr _ _ n => n.toNat = 0x102 || n.toNat = 0x184
  | i => (info i).cls = .ld

/-- Whether an instruction whose operands have arrived waits for another instruction of its own block that has neither issued nor been
quenched (03 R84, R89, 06 R137, 08 R185, 12 R272, 14 R334). -/
def Blk.stuck (b : Blk) (e : Nat × Slot × Instr) : Bool :=
  let id := match (info e.2.2).id with | some n => n.toNat | none => 0
  (waitsStores e.2.2 && !b.storesBelow id)
    || (match e.2.2 with
      | .fenceAcq _ _ _ | .fenceAr _ _ _ => !b.loadsBelow id
      | .shstep _ _ sh _ | .shstepV _ _ sh _ =>
        b.instrs.any fun o =>
          match o.2.2 with
          | .shstep _ j k _ | .shstepV _ j k _ => k = sh && decide (j.toNat < id) && !o.2.1.isOver
          | _ => false
      | _ => false)
    || (usesRs e.2.2 && b.instrs.any fun o => decide (o.1 < e.1) && usesRs o.2.2 && !o.2.1.isOver)
    || (List.range 32).any fun n =>
      let isRead := readsInlet n e.2.2
      ((inletTake n e.2.2).isSome || (inletPeek n e.2.2).isSome)
        && b.instrs.any fun o =>
          match inletTake n o.2.2 with
          | some j => o.1 ≠ e.1 && takeBefore isRead j o.1 id e.1 && !o.2.1.isOver
          | none => false

/-- Whether a pop of a thread waits for a lower pop of its block that is not decided (03 R84). -/
def Blk.popStuck (b : Blk) (x : Ctx) (e : Nat × Slot × Instr) : Bool :=
  match popQueue x e.2.1 e.2.2 with
  | some (some q) =>
    b.instrs.any fun o =>
      (match (info o.2.2).id, (info e.2.2).id with | some i, some j => decide (i.toNat < j.toNat) | _, _ => false) && openPop x q o
  | _ => false

/-- Whether an instruction of a block can still issue: its operands have arrived, and it waits for none of its own block. -/
def Blk.canIssue (b : Blk) (x : Ctx) (e : Nat × Slot × Instr) : Bool :=
  e.2.1.st = .waiting && arrived e.2.2 e.2.1 && !b.stuck e && !b.popStuck x e

/-- Whether every register that the header names has completed (03 R86). -/
def Blk.regsDone (b : Blk) : Bool :=
  ((List.range 64).all fun n => !b.hdr.rwmask.getLsbD n || b.regs.any fun r => writeBit b.hdr.kind r.1 = (false, n))
    && (List.range 8).all fun n => !b.hdr.pwmask.getLsbD n || b.regs.any fun r => writeBit b.hdr.kind r.1 = (true, n)

/-- The commit rule, but for the block's age (03 R86). -/
def Blk.ruleMet (b : Blk) : Bool :=
  b.hdr.smask &&& ~~~ b.idDone = 0 && b.regsDone && b.branch.isSome && b.faults.isEmpty
    && !(b.slots.any fun sl => sl.st = .out || sl.st = .held)

/-- The record of an incomplete-block fault (03 R89). -/
def Blk.incomplete (b : Blk) : FaultRec :=
  match b.slots.zipIdx.find? fun e => !e.1.isOver with
  | some e => slotFault 0x07 e.2
  | none => { code := 0x07, blk := true }

/-- INCOMPLETE_BLOCK_FAULT (03 R89): the oldest block of a fetcher cannot complete. -/
def execIncompleteBlockFault (s : State) : Out State :=
  match s.site with
  | .frame f =>
    match s.blks.get? f with
    | none => .next s
    | some b =>
      match s.ctxs.get? b.ctx with
      | none => .next s
      | some x =>
        if !s.isOldest b || !b.faults.isEmpty || b.ruleMet || b.instrs.any (b.canIssue x)
            || b.slots.any (fun sl => sl.st = .out || sl.st = .held) then .next s
        else .next (s.setBlk f (b.raise b.incomplete))
  | _ => .fault .noSite

end Sys2Proof.Machine
end

