-- ==== Sys2Proof/Machine/Commit.lean ====
section
/-!
DEFINITION. The commit of a block (03 R86 to R94, 09 R212 to R217, 13 R308 to R310, 10 R230): its effects in the order of their identifiers, its takes, its
branch; and the boundaries at which a held fault and pending events are taken (03 R92, 13 R295 to R298).
-/
namespace Sys2Proof.Machine

/-! ### When a block may commit -/

/-- The queue of an outlet of a context. -/
def Ctx.outKey (x : Ctx) (o : Nat) : List PKey := match x.outlet o with | some b => [objKey x.pk b.queue] | none => []

/-- The queues that a block takes from. -/
def Blk.takenFrom (b : Blk) : List PKey := b.takes.filterMap fun t => match t.2 with | .part k => some k | .bq => none

/-- The queues that a block appends to. -/
def Blk.appendsOn (b : Blk) (x : Ctx) : List PKey :=
  b.effs.flatMap fun e =>
    match e.2 with
    | .qpush q _ => [objKey x.pk q]
    | .out o _ => x.outKey o
    | .outMark o => x.outKey o
    | _ => []

/-- The queues whose windows the matrix commands of a block pin (07 R166). -/
def Blk.pinsOn (b : Blk) (x : Ctx) : List PKey := b.effs.flatMap fun e => match e.2 with | .mx m => m.pinned x | _ => []

/-- Whether a shoot-down that an `xshoot` of a thread asks for has not completed (19 R415). -/
def State.shooting (s : State) (c : Nat) (x : Ctx) : Bool :=
  (x.path.any fun e => match e.eff with | .cmd (.xshoot _ _ _) => true | _ => false) || s.shoots.any fun h => h.thr = some c

/-- Whether a releasing fence in the store path still waits for an entry before it (08 R185). -/
def Ctx.relPending (x : Ctx) : Bool :=
  x.path.any fun f => match f.eff with | .fence below => x.eventsUnder below | _ => false

/-- Whether the commit cycle of a thread's block makes an append, a launch or a marker that others may act on. -/
def Blk.publishes (b : Blk) : Bool := b.effs.any fun e => match e.2 with | .qpush _ _ | .cmdq _ | .launch _ _ _ | .shape _ _ _ => true | _ => false

/-- Whether the commit of a block waits for something outside it: a frozen queue (14 R317), a pinned window (07 R166), a shoot-down (19 R415),
a fence or a `qfence` before its appends (08 R177, R187). -/
def State.commitWaits (s : State) (b : Blk) (x : Ctx) : Bool :=
  (b.takenFrom ++ b.appendsOn x).any (fun k => (s.queue k).state = .frozen)
    || (b.takenFrom.any fun k => (s.queue k).win.pins ≠ 0)
    || ((b.pinsOn x).any fun k => decide (255 < (s.queue k).win.pins + ((b.pinsOn x).filter fun q => q = k).length))
    || (b.u = .thread && (s.shooting b.ctx x || (x.relPending && b.publishes) || (x.qfenced && (b.publishes || !b.takes.isEmpty))))

/-- Whether the commit of a block would append to a queue that has been sealed (14 R317, R331): by its own appends, or by the release of a delay line
(R330). -/
def State.commitSealed (s : State) (b : Blk) (x : Ctx) : Bool :=
  ((b.appendsOn x).any fun k => ((s.queue k).dests k).any fun d => (s.queue d).state = .sealed)
    || (b.u ≠ .thread
      && let t := b.takes.foldl (fun s e => match e.2 with | .part k => s.takeHead k | .bq => s) s
         (List.range 8).any fun o =>
           match x.outlet o with
           | some bd =>
             let k := objKey x.pk bd.queue
             t.dlDue x bd && ((s.queue k).dests k).any fun d => (s.queue d).state = .sealed
           | none => false)

/-! ### Registers -/

/-- A handle that a block loads (10 R224); one whose page was in transit keeps its contents. -/
def Regs.loadHandle (r : Regs) (h : Nat × Option Trans) : Regs :=
  match h.2 with | some t => { r with th := vecSet r.th h.1 { tr := some t } } | none => r

/-- The registers, handles, flags and generator that a block commits (03 R87, 06 R137, R144). -/
def Ctx.commitRegs (x : Ctx) (b : Blk) : Ctx :=
  { x with
    regs := b.handles.foldl Regs.loadHandle (b.regs.foldl (fun r w => r.commit b.hdr.kind w) x.regs)
    fx := { x.fx with fpst := stick x.fx.fpst b.fl, lfsr := match b.lfsr with | some l => l | none => x.fx.lfsr } }

/-! ### Effects -/

/-- An effect that comes after the takes of its block: a matrix command, which counts its window from the new head (12 R276), a bind of queue 14, and the
writes of the queue registers, whose commands follow appends and takes (14 R318), in their order (13 R311). -/
inductive Late where
  | mx (m : MxKind)
  | bind (l r : Word)
  | qreg (n : Nat) (v : Word)
  deriving DecidableEq, Repr

/-- Put an entry into a thread's store path (10 R230). -/
def State.pushPath (s : State) (c : Nat) (e : PathEff) : State :=
  let st := s.stamp
  st.2.updCtx c fun x => { x with path := x.path ++ [{ stamp := st.1, eff := e }] }

/-- A command of a family becomes pending in its block's commit cycle (17 R381, 19 R422, 20 R441, 21 R462). -/
def Sels.begin' (t : Sels) : Eff → Sels
  | .grp _ _ _ => { t with gres := withSt t.gres 1 }
  | .pg _ _ _ _ => { t with pgres := withSt t.pgres 1 }
  | .lnk _ _ _ => { t with lnres := withSt t.lnres 1 }
  | .vd _ _ => { t with vdres := withSt t.vdres 1 }
  | _ => t

/-- The operations that a `qfence` names (08 R187): those in the queues of its set. -/
def Ctx.opsIn (x : Ctx) (set : BitVec 16) : List (Nat × Nat) :=
  (List.range 16).flatMap fun q =>
    if set.getLsbD q then
      (if q = 14 then x.fx.q14.map fun o => (q, o.stamp) else (vecGet x.eng.eqs q []).map fun o => (q, o.stamp))
    else []

/-- A step of a shape register commits (12 R268). -/
def Regs.step (r : Regs) (acc : Bool) (k rem : Nat) : Regs :=
  if acc then { r with shA := vecSet r.shA k (setRem (vecGet r.shA k 0) rem) } else { r with shE := vecSet r.shE k (setRem (vecGet r.shE k 0) rem) }

/-- One effect of a block in its commit cycle (03 R87); the effects that come late are set aside. -/
def State.commitEff (b : Blk) (t : State × List Late) (e : Eff) : State × List Late :=
  let s := t.1
  let c := b.ctx
  let acc := decide (b.hdr.kind = 1)
  let now := fun (s : State) => (s, t.2)
  match e with
  | .store evs => now (s.pushPath c (.store evs))
  | .amo op pa key vp wide v sc ord => now (s.pushPath c (.amo op pa key vp wide v sc ord false))
  | .lease pa tr va cyc => now (s.pushPath c (.lease pa tr va cyc))
  | .unlease pa => now (s.pushPath c (.unlease pa))
  | .fence _ _ _ | .qfence _ => t
  | .qpush q v => now (match s.ctxs.get? c with | some x => s.qAppend x (objKey x.pk q) v | none => s)
  | .cmdq v => now (s.updCtx c fun x => { x with ports := { x.ports with cmdq := x.ports.cmdq ++ [{ kind := .binding, v := v }] } })
  | .bq v => now (s.updCtx c fun x => { x with ports := { x.ports with bq := x.ports.bq ++ [v] } })
  | .out o k => now (s.outAppend c o (some k.bits))
  | .outMark o => now (s.outAppend c o none)
  | .strm cmd l r => now (s.strmCommit c b.pm cmd l r)
  | .sph isOr tree q l r => now (s.issueOp c 15 (.sph isOr tree q l r) true b.pm)
  | .rtcfg stg q v =>
    now (match s.ctxs.get? c with
      | some x => let k := objKey x.pk q; s.setQueue k { s.queue k with stage := stg, stagePar := v }
      | none => s)
  | .bar cmd sc unit l r =>
    if acc then now (let t := s.pushPath c (.cmd e); if cmd = .bind then t.bindNow c l r (some (c, s.seq)) else t)
    else
      (match cmd with
        | .bind => (s, t.2 ++ [.bind l r])
        | .init => t
        | .arrive | .drop => now (s.barDo c acc cmd sc unit l r))
  | .sig _ l r => now (if acc then s.pushPath c (.cmd e) else s.sigDo c l r)
  | .shape tile k v => now (s.shapeCommit c tile k v)
  | .shstep k rem => now (s.updCtx c fun x => { x with regs := x.regs.step acc k rem })
  | .mx m => (s, t.2 ++ [.mx m])
  | .crwr n v => if 0x100 ≤ n && n ≤ 0x107 then (s, t.2 ++ [.qreg n v]) else now (s.crWrite c n v)
  | .launch lq va pa => now (s.launchDo c b.pm lq va pa)
  | .grp _ _ _ | .pg _ _ _ _ | .lnk _ _ _ | .vd _ _ => now ((s.pushPath c (.cmd e)).updCtx c fun x => { x with sels := x.sels.begin' e })
  | .xshoot _ _ _ => now (s.pushPath c (.cmd e))

/-- The takes of a block (03 R87, 14 R317): each the head of its queue. -/
def State.commitTake (x : Ctx) (c : Nat) (s : State) (t : Nat × QRef) : State :=
  match t.2 with
  | .part k => (s.takeHead k).noteTake x.kern k
  | .bq => s.updCtx c fun x => { x with ports := { x.ports with bq := x.ports.bq.drop 1 } }

/-- An effect set aside. `x` is the context before its block. -/
def State.commitLate (b : Blk) (x : Ctx) (s : State) : Late → State
  | .mx m => s.mxCommit b.ctx x (match b.u with | .act n => some n | .thread | .stream => none) m
  | .bind l r => s.bindNow b.ctx l r none
  | .qreg n v => s.crWrite b.ctx n v

/-- A fence of a block enters the store path behind the block's own entries (08 R177, R185, R187). -/
def State.commitFence (b : Blk) (x : Ctx) (below : Nat) (s : State) (e : Eff) : State :=
  match e with
  | .fence _ rel _ => if rel then s.pushPath b.ctx (.fence below) else s
  | .qfence set => s.pushPath b.ctx (.qfence (x.opsIn set))
  | _ => s

/-- The initialisations of an execute block come last of its barrier commands (18 R391). -/
def State.commitInit (b : Blk) (s : State) (e : Eff) : State :=
  match e with
  | .bar .init sc unit l r => if b.hdr.kind = 1 then s else s.barDo b.ctx false .init sc unit l r
  | _ => s

/-- The end of the cycle at the barriers that an execute block acted on (18 R391). -/
def State.commitSettle (b : Blk) (s : State) (e : Eff) : State :=
  match e with
  | .bar cmd _ _ l _ => if b.hdr.kind = 1 || cmd = .bind then s else s.barSettle b.ctx l
  | _ => s

/-- Every effect of a block in its commit cycle, but for its branch (03 R87). `x` is its context before the cycle. -/
def State.commitAll (s : State) (b : Blk) (x : Ctx) : State :=
  let below := s.seq
  let es := b.sortedEffs.map Prod.snd
  let s := s.updCtx b.ctx fun x => x.commitRegs b
  let t := es.foldl (State.commitEff b) (s, [])
  let s := b.takes.foldl (State.commitTake x b.ctx) t.1
  let s := t.2.foldl (State.commitLate b x) s
  let s := (es.foldl (State.commitFence b x below) s).updCtx b.ctx fun y =>
    { y with path := y.path.map fun e => if below ≤ e.stamp then { e with below := below } else e }
  let s := es.foldl (State.commitInit b) s
  let s := es.foldl (State.commitSettle b) s
  (if b.hdr.kind = 1 then s else s.dlReleases b.ctx).touch x.pk

/-! ### The branch -/

/-- The return address of a block (09 R215). -/
def Blk.returnAddr (b : Blk) : Word := b.addr + BitVec.ofNat 64 ((b.hdr.len + 15) / 16 * 16)

/-- Push a return address (09 R216); onto a stack that a `crwr` of the same block has filled, the top entry is then free (log 6). -/
def State.pushRet (s : State) (l : Lane) (a : Word) : Lane × State :=
  if l.depth < 16 then ({ l with stk := vecSet l.stk l.depth (align16 a), depth := l.depth + 1 }, s)
  else let d := s.drawBits; ({ l with stk := vecSet l.stk 15 (align16 (d.1.extractLsb' 0 64)) }, d.2)

/-- Pop a return address (09 R217); from a stack that a `crwr` of the same block has emptied, it is free (log 6). -/
def State.popRet (s : State) (l : Lane) : Word × Lane × State :=
  if l.depth = 0 then let d := s.drawBits; (align16 (d.1.extractLsb' 0 64), l, d.2)
  else (vecGet l.stk (l.depth - 1) 0, { l with depth := l.depth - 1 }, s)

/-- The record of a `trap` or an `svc` (13 R301, R308). -/
def trapRec (code : Nat) (t : BitVec 9) : FaultRec := { code := code, tcode := t }

/-- The blocks in flight that do not lie at a successor are discarded, and so is a fetched block at another address (02 R51, 09 R212), with its hold
episode (02 R63). -/
def State.follow (s : State) (c : Nat) (u : Fetcher) (a : Word) : State :=
  match s.oldest c u with
  | some e => if e.2.addr = a then s else s.discardLane c u
  | none =>
    match s.ctxs.get? c with
    | none => s
    | some x =>
      match (x.lane u).img with
      | some i => if i.addr = a then s else s.discardLane c u
      | none => s

/-- The lane goes on at a successor that a branch names. -/
def Lane.goOn (l : Lane) (b : Blk) (exit : BitVec 3) (a : Word) : Lane := { l with next := a, succ := true, from' := b.addr, exit := exit }

/-- A successor is current (09 R212); an activation whose own entry it is ends (12 R288). -/
def State.succeed (s : State) (b : Blk) (l : Lane) (exit : BitVec 3) (a : Word) : State :=
  match s.ctxs.get? b.ctx with
  | none => s
  | some x =>
    if x.endsAct b.u a then (s.discardLane b.ctx b.u).updCtx b.ctx fun x => x.dropAct b.u
    else (s.setCtx b.ctx (x.setLane b.u (l.goOn b exit a))).follow b.ctx b.u a

/-- How a wait on a barrier or a signal stands at its commit (18 R398, R400): one whose condition holds then ends by it. -/
def State.metNow (s : State) (c : Nat) (x : Ctx) (u : Fetcher) (w : WaitKind) (a : Word) : Option Bool :=
  match w with
  | .bar _ _ | .sig _ _ => s.waitStatus c x u { kind := w, next := a }
  | .yield | .idle => none

/-- A wait-class branch commits (02 R58): it waits, with its successor. -/
def State.await (s : State) (b : Blk) (l : Lane) (exit : BitVec 3) (w : WaitKind) (a : Word) : State :=
  match s.ctxs.get? b.ctx with
  | none => s
  | some x =>
    if x.endsAct b.u a && (match w with | .bar _ _ => false | .sig _ _ | .yield | .idle => true) then
      (s.discardLane b.ctx b.u).updCtx b.ctx fun x => x.dropAct b.u
    else
      (s.discardLane b.ctx b.u).updCtx b.ctx fun x =>
        x.setLane b.u { ((l.goOn b exit a).refetch) with wait := some { kind := w, next := a, met := s.metNow b.ctx x b.u w a } }

/-- The branch of a block takes effect (09 R212 to R217, 13 R308 to R310). -/
def State.branchTo (s : State) (b : Blk) (br : Branch) : State :=
  match s.ctxs.get? b.ctx with
  | none => s
  | some x =>
    let l := x.lane b.u
    match br.kind with
    | .jump a => s.succeed b l br.exit a
    | .call a => let t := s.pushRet l b.returnAddr; t.2.succeed b t.1 br.exit a
    | .ret k => let t := s.popRet l; t.2.2.succeed b t.2.1 br.exit (t.1 + (k <<< 4))
    | .wait w a => s.await b l br.exit w a
    | .trap code => s.takeFault b.ctx b.u (trapRec 0x20 code) b.returnAddr
    | .svc code => s.takeFault b.ctx b.u (trapRec 0x21 code) b.returnAddr
    | .rfe => s.returnFrom b.ctx

/-! ### Firings -/

/-- The repeat record once a firing has committed (03 R94). -/
def Lane.fired (l : Lane) (b : Blk) (hm : Bool) : Lane :=
  if b.hdr.rpt = 0 then l
  else if b.firing < b.hdr.rpt then { l with rptValid := true, rptNext := b.firing + 1, rptAddr := b.addr, rptHm := hm, rptDue := false }
  else { l with rptValid := false, rptNext := 0, rptHm := false, rptDue := false }

/-- The lane's next block is now known (03 R94): the record meets it, and where it is in flight it takes the record. -/
def State.nextRpt (s : State) (c : Nat) (u : Fetcher) : State :=
  match s.oldest c u with
  | some e => s.updCtx c fun x => x.setLane u (((x.lane u).meetRpt e.2.first e.2.addr).takeRpt e.2 (decide (u = .thread) && x.ctl.hm))
  | none =>
    s.updCtx c fun x =>
      match (x.lane u).img with
      | some i => x.setLane u ((x.lane u).meetRpt i.first i.addr)
      | none => x

/-- A block commits (03 R87, R93): only its last firing has a successor. -/
def State.commit (s : State) (f : FrameKey) (b : Blk) (x : Ctx) (br : Branch) : State :=
  let s := { s with blks := s.blks.del f }
  let s := s.commitAll b x
  let s := s.updCtx b.ctx fun y => y.setLane b.u ((y.lane b.u).fired b (decide (b.u = .thread) && x.ctl.hm))
  let s := if b.firing < b.hdr.rpt then s else s.branchTo b br
  (s.nextRpt b.ctx b.u).stackCheck b.ctx b.u

/-- Whether events fall due at the boundary at which a thread stands (13 R297). -/
def Ctx.eventsDue (x : Ctx) : Bool := x.ctl.evpend ≠ 0 && !x.ctl.hm && !x.done

/-- BLOCK_COMMIT (03 R86, R87): the oldest block of a fetcher, once the commit rule is met; no block of a thread commits while events are due at the
boundary before it (02 R66, 13 R297). -/
def execBlockCommit (s : State) : Out State :=
  match s.site with
  | .frame f =>
    match s.blks.get? f with
    | none => .next s
    | some b =>
      match s.ctxs.get? b.ctx, b.branch with
      | some x, some br =>
        if !x.live || !s.isOldest b || !b.ruleMet || s.commitWaits b x || (if b.u = .thread then x.eventsDue else x.recs.xvalid) then .next s
        else
          match b.stackFault (x.lane b.u) with
          | some r => .next (s.setBlk f (b.raise r))
          | none => .next (if s.commitSealed b x then s.setBlk f (b.raise { code := 0x30, sub := 4 }) else s.commit f b x br)
      | _, _ => .next s
  | _ => .fault .noSite

/-! ### Boundaries -/

/-- The repeat record that a fault of a dispatch check leaves: the firing that it strikes (03 R90, R94). -/
def Ctx.strikeFetched (x : Ctx) (u : Fetcher) : Ctx :=
  let l := x.lane u
  match l.img with
  | some i =>
    if i.hdr.rpt = 0 then x
    else x.setLane u { l with rptValid := true, rptNext := l.firing, rptAddr := i.addr, rptHm := decide (u = .thread) && x.ctl.hm }
  | none => x

/-- TRAP_ENTRY (03 R92, 13 R295, R297, R298): at a boundary of a thread its oldest block's fault is taken, else the fault of its fetch or of a dispatch check,
else its pending events. -/
def execTrapEntry (s : State) : Out State :=
  match s.site with
  | .ctx c =>
    match s.ctxs.get? c with
    | none => .next s
    | some x =>
      if !x.live then .next s
      else
        match s.oldest c .thread with
        | some ⟨_, { faults := r :: _, addr := a, .. }⟩ => .next (s.trapEntry c r a)
        | some _ => .next (if x.eventsDue then s.deliverEvents c else s)
        | none =>
          match x.thr.fetchFault with
          | some r => .next ((s.updCtx c fun x => x.strikeFetched .thread).trapEntry c r x.thr.next)
          | none => .next (if x.eventsDue then s.deliverEvents c else s)
  | _ => .fault .noSite

/-- STREAM_FAULT (03 R92, 13 R296): the oldest block of a stream or an activation holds a fault, or, at the site of the fetcher, its next block has failed a
dispatch check and every older one has committed. -/
def execStreamFault (s : State) : Out State :=
  match s.site with
  | .frame f =>
    match s.blks.get? f with
    | none => .next s
    | some b =>
      match s.ctxs.get? b.ctx, b.faults with
      | some x, r :: _ =>
        if !x.live || x.recs.xvalid || !fetchExec b.u || !s.isOldest b then .next s else .next (s.streamStop b.ctx b.u r b.addr)
      | _, _ => .next s
  | .ctxU c u =>
    match s.ctxs.get? c with
    | none => .next s
    | some x =>
      match (x.lane u).fetchFault with
      | some r =>
        if !x.live || x.recs.xvalid || !fetchExec u || !(s.flight c u).isEmpty then .next s
        else .next ((s.updCtx c fun x => x.strikeFetched u).streamStop c u r (x.lane u).next)
      | none => .next s
  | _ => .fault .noSite

end Sys2Proof.Machine
end

