-- ==== Sys2Proof/Machine/Save.lean ====
section
/-!
DEFINITION. Pre-emption and the save image (13 R291 to R294, R304 to R307, 15 R358): a sparge, its drain, a kiln, the image in memory, and a restore.
-/
namespace Sys2Proof.Machine

/-! ### The image -/

/-- The physical address of a context's image (13 R302). -/
def Ctx.image (x : Ctx) : Nat := fld x.ctl.simg 7 45 * 128

/-- The length of an image without its kiln section (13 R292). -/
def Ctx.imageLen (x : Ctx) : Nat := if x.ctl.aonly then 0x1000 else 0x6400 + 4096 * x.fx.accSize

/-- The address of a fetcher's next block as an image holds it (13 R293). -/
def Lane.resumeAt (l : Lane) : Word := match l.wait with | some w => w.next | none => l.next

/-- The header of an image (13 R293). -/
def Ctx.imgHead (x : Ctx) (kiln : Bool) (klen : Nat) : List Word :=
  [ 1 ||| bitAt kiln 8 ||| bitAt x.ctl.aonly 9 ||| bitAt x.ctl.hm 10 ||| at' klen 16,
    x.thr.resumeAt, if x.ctl.aonly then 0 else x.str.resumeAt, x.regs.p.setWidth 64, x.ctl.evpend.setWidth 64,
    if x.thr.rptValid then x.thr.rptAddr else 0, if x.str.rptValid && !x.ctl.aonly then x.str.rptAddr else 0 ] ++ List.replicate 9 0

/-- The byte that holds a register's handle (13 R292). -/
def handleByte : Option (BitVec 4) → Byte
  | none => 0
  | some h => 0x10 ||| h.setWidth 8

/-- An entry of `cmdq` as 16 bytes (14 R327). -/
def CmdEnt.bytes (e : CmdEnt) : List Byte :=
  let t : Nat × Nat := match e.kind with | .start => (0, 0) | .binding => (1, 0) | .shape k => (2, k) | .creg n => (3, n)
  leBytes 8 e.v.toNat ++ [BitVec.ofNat 8 t.1] ++ leBytes 2 t.2 ++ List.replicate 5 0

/-- Bytes followed by zeros up to a length. -/
def padTo (n : Nat) (l : List Byte) : List Byte := l ++ List.replicate (n - l.length) 0

/-- The sections of an image from its header to `bq` (13 R292). -/
def State.imgFront (s : State) (x : Ctx) (kiln : Bool) (klen : Nat) : List Byte :=
  dwBytes (x.imgHead kiln klen) ++ dwBytes ((0 : Word) :: x.regs.g.toList.drop 1) ++ x.regs.gh.toList.map handleByte ++ List.replicate 64 0
    ++ dwBytes ((List.range 256).map fun n => if crSaved n then s.crRead x n else 0)
    ++ dwBytes ((List.range 16).map fun n => if n % 2 = 0 then vecGet x.regs.shA (n / 2) 0 else vecGet x.regs.shE (n / 2) 0)
    ++ (x.ports.ins.toList ++ x.ports.outs.toList).flatMap (fun b => leBytes 4 (bindWord b).toNat)
    ++ padTo 512 (x.ports.cmdq.flatMap CmdEnt.bytes) ++ padTo 256 (dwBytes x.ports.bq) ++ List.replicate 128 0

/-- The stream's sections of an image (13 R292). -/
def State.imgBack (s : State) (x : Ctx) : List Byte :=
  x.regs.v.toList.flatMap (fun v => leBytes 512 v.toNat) ++ x.regs.m.toList.flatMap (fun m => leBytes 128 m.toNat)
    ++ x.regs.dl.toList.flatMap (fun v => leBytes 512 v.toNat)
    ++ s.bufRead x.pk.pkg x.core .c (4096 * x.fx.accBase) (4096 * x.fx.accSize)

/-- Write a context's image (13 R292): each granule takes a check value. -/
def State.writeImage (s : State) (x : Ctx) (kiln : Bool) : State :=
  let d := s.drawNat
  let klen := if kiln then d.1 % 513 else 0
  let kb := (if kiln then d.2 else s).freeBytes klen
  let l := s.imgFront x kiln klen ++ (if x.ctl.aonly then [] else s.imgBack x) ++ kb.1
  (kb.2.unitWrite x.pk x.image l).freshen x.pk.pkg x.image l.length

/-! ### Stopping -/

/-- Pre-emption has begun (13 R290, R304): blocks in flight are discarded, the lease ends (10 R235). -/
def State.preempt (s : State) (c : Nat) : State :=
  (s.discardCtx c).updCtx c fun x =>
    { x with
      st := .sparging
      lease := { x.lease with st := .none }
      pre := { start := s.cycle x.pk.pkg (s.dieN x), active := true, kiln := false } }

/-- PREEMPT_BEGIN (13 R291, R304): a member of a group that is to be saved. -/
def execPreemptBegin (s : State) : Out State :=
  match s.site with
  | .ctx c =>
    match s.ctxs.get? c with
    | none => .next s
    | some x =>
      match s.groups.get? (objKey x.pk x.group) with
      | some g => if x.live && g.st = .saving then .next (s.preempt c) else .next s
      | none => .next s
  | _ => .fault .noSite

/-- Whether the next item of an operation waits for a pull (13 R306), or did when the budget was spent. -/
def State.opPulls (s : State) (x : Ctx) (op : StrmOp) : Bool :=
  match op.pull with
  | some pg => s.budgetSpent x || (s.part x.pk).pulls.contains pg
  | none => false

/-- Whether the drain still waits for an operation (13 R304, 15 R358): a write or an update whose queue holds an element, or an item in progress. -/
def State.opDrains (s : State) (x : Ctx) (op : StrmOp) : Bool :=
  op.running && op.park.isNone
    && (s.opPulls x op
      || match op.kind with
        | .go w _ _ => (goDir w = 1 || goDir w = 4) && (op.packed ≠ [] || (s.drainHead (goQueue x.pk w)).isSome)
        | .sph _ _ _ _ _ => false)

/-- Whether the drain of a sparge is complete (13 R304); a stopped gather is committed state. -/
def State.drained (s : State) (x : Ctx) : Bool :=
  !(x.eng.eqs.toList.any fun l => match l with | o :: _ => s.opDrains x o | [] => false)
    && (match x.fx.q14 with | [] => true | m :: _ => m.stop.isSome)

/-- An operation that pre-emption stops (15 R354, R358): a sparge takes it back to its cursor, and a kiln keeps every counter. Its staging window stays open;
a parked or waiting operation stays as it is. -/
def StrmOp.stopped (o : StrmOp) (kiln : Bool) : StrmOp :=
  if !o.running then o
  else
    let o := { o with running := false }
    if kiln then o
    else
      match o.kind with
      | .sph _ _ _ _ _ => { o with swin := o.swin.map StgWin.clear }
      | .go w _ _ => if goDir w = 1 || goDir w = 4 then o else o.rewind false

/-- The engine queues of a saved context. -/
def Engines.stopped (e : Engines) (kiln : Bool) : Engines := { e with eqs := e.eqs.map fun l => l.map fun o => o.stopped kiln }

/-- A group is saved once every member that has not ended is (17 R377). -/
def State.groupSaved (s : State) (k : PKey) : State :=
  match s.groups.get? k with
  | none => s
  | some g =>
    if g.st = .saving && g.members.all fun m =>
        match s.ctxs.get? m with | some y => y.st = .saved || y.st = .ended || y.st = .faulted | none => true
    then
      let st := s.stamp
      let s := g.members.foldl (fun s m => s.updCtx m fun y => { y with pos := none }) st.2
      (s.updGroup k fun g => { g with st := .saved, saved := st.1 }).consider k.pk
    else s

/-- A context is saved (13 R290, R292): its image is written, and what is raised from now on is kept apart. -/
def State.saveCtx (s : State) (c : Nat) (x : Ctx) (kiln : Bool) : State :=
  ((s.writeImage x kiln).updCtx c fun y =>
    { y with
      st := .saved
      ctl := { y.ctl with evpend := 0 }
      eng := y.eng.stopped kiln
      pre := { y.pre with active := false, kiln := kiln, gen := Config.kilnGen x.pk.pkg, core := y.core } }).groupSaved (objKey x.pk x.group)

/-- DRAIN_COMPLETE (13 R304); a budget of 0 kilns at once (13 R302). -/
def execDrainComplete (s : State) : Out State :=
  match s.site with
  | .ctx c =>
    match s.ctxs.get? c with
    | none => .next s
    | some x => if x.st = .sparging && x.ctl.drain ≠ 0 && s.drained x then .next (s.saveCtx c x false) else .next s
  | _ => .fault .noSite

/-- KILN_START (13 R302, R305): the drain budget is spent before the drain is complete, or is 0. -/
def execKilnStart (s : State) : Out State :=
  match s.site with
  | .ctx c =>
    match s.ctxs.get? c with
    | none => .next s
    | some x =>
      if x.st = .sparging && s.budgetSpent x && (x.ctl.drain = 0 || !s.drained x) then
        .next (s.setCtx c { x with st := .kilning, pre := { x.pre with kiln := true } })
      else .next s
  | _ => .fault .noSite

/-- KILN_SCAN_COMPLETE (13 R305). -/
def execKilnScanComplete (s : State) : Out State :=
  match s.site with
  | .ctx c =>
    match s.ctxs.get? c with
    | none => .next s
    | some x => if x.st = .kilning then .next (s.saveCtx c x true) else .next s
  | _ => .fault .noSite

/-! ### Restoring -/

/-- The refusal of an image (13 R294, 17 R379): 0 where it is accepted, 1 a format, a zero field or an entry of `cmdq`, 2 the generation of the
kiln section, 3 a check value. -/
def State.imageErr (s : State) (x : Ctx) : Nat :=
  let k := x.pk.pkg
  let a := x.image
  let d := fun n => s.peekW k (a + 8 * n)
  let len := x.imageLen + 128 * fld (d 0) 16 16
  if (List.range (len / 128)).any fun i => s.checkFails k (a + 128 * i) none then 3
  else if fld (d 0) 0 8 ≠ 1 || fld (d 0) 11 5 ≠ 0 || fld (d 0) 32 32 ≠ 0 || ((List.range 9).any fun i => d (7 + i) ≠ 0)
      || ((List.range 32).any fun i => decide (4 ≤ (s.peek k (a + 0xC80 + 16 * i + 8)).toNat)) then 1
  else if (d 0).getLsbD 8 && x.pre.gen ≠ Config.kilnGen k then 2
  else 0

/-- A binding as an image holds it (14 R328). -/
def bindOfWord (v : BitVec 32) : Option Bind :=
  if v.getLsbD 31 then
    some { plane := v.getLsbD 30, flag := v.getLsbD 29, queue := (v.extractLsb' 16 12).toNat, round := v.extractLsb' 0 16 }
  else none

/-- Some bytes of local memory as a number. -/
def State.peekN (s : State) (k a n : Nat) : Nat := leNat (s.peeks k a n)

/-- An entry of `cmdq` as an image holds it (14 R327). -/
def State.cmdAt (s : State) (k a : Nat) : CmdEnt :=
  let v := s.peekW k a
  let n := s.peekN k (a + 9) 2
  match (s.peek k (a + 8)).toNat with
  | 0 => { kind := .start, v := v, eq := fld v 60 4 }
  | 1 => { kind := .binding, v := v }
  | 2 => { kind := .shape (n % 8), v := v }
  | _ => { kind := .creg (n % 512), v := v }

/-- A handle byte of an image (13 R292). -/
def handleOf' (b : Byte) : Option (BitVec 4) := if b.getLsbD 4 then some (b.extractLsb' 0 4) else none

/-- The registers that an image holds (13 R292), the handles apart, which are control registers. -/
def State.imgRegs (s : State) (k a : Nat) (aonly : Bool) (r : Regs) : Regs :=
  let r := { r with
    g := Vector.ofFn fun i => if i.val = 0 then 0 else s.peekW k (a + 0x80 + 8 * i.val)
    gh := Vector.ofFn fun i => if i.val = 0 then none else handleOf' (s.peek k (a + 0x280 + i.val))
    p := s.peek k (a + 24)
    shA := Vector.ofFn fun i => s.peekW k (a + 0xB00 + 16 * i.val)
    shE := Vector.ofFn fun i => s.peekW k (a + 0xB00 + 16 * i.val + 8) }
  if aonly then r
  else
    { r with
      v := Vector.ofFn fun i => BitVec.ofNat 4096 (s.peekN k (a + 0x1000 + 512 * i.val) 512)
      m := Vector.ofFn fun i => BitVec.ofNat 1024 (s.peekN k (a + 0x5000 + 128 * i.val) 128)
      dl := Vector.ofFn fun i => BitVec.ofNat 4096 (s.peekN k (a + 0x5400 + 512 * i.val) 512) }

/-- The ports and queues that an image holds (13 R292); how many entries `cmdq` and `bq` hold, and which
operation a start notice stands for, is kept by the device. -/
def State.imgPorts (s : State) (k a : Nat) (t : Ports) : Ports :=
  { ins := Vector.ofFn fun i => bindOfWord (BitVec.ofNat 32 (s.peekN k (a + 0xB80 + 4 * i.val) 4))
    outs := Vector.ofFn fun i => bindOfWord (BitVec.ofNat 32 (s.peekN k (a + 0xC00 + 4 * i.val) 4))
    cmdq := t.cmdq.zipIdx.map fun e => { s.cmdAt k (a + 0xC80 + 16 * e.2) with op := e.1.op }
    bq := (List.range t.bq.length).map fun i => s.peekW k (a + 0xE80 + 8 * i) }

/-- A lane as a restore leaves it (13 R294, R313, 18 R402): a wait on a barrier or a signal goes on, one in `yield` or `idle` is over. -/
def Lane.restored (l : Lane) (next rptAddr : Word) : Lane :=
  let l := { l with next := next, rptAddr := rptAddr, succ := false, img := none, firing := 0, rptDue := l.rptValid, fetchFault := none }
  match l.wait with
  | some w => (match w.kind with | .yield | .idle => { l with wait := none } | .bar _ _ | .sig _ _ => l)
  | none => l

/-- An activation as a restore leaves it (13 R307). -/
def Activation.restored (a : Activation) : Activation := { a with lane := a.lane.restored a.lane.resumeAt a.lane.rptAddr }

/-- A context reloaded from its image (13 R294) at a position, with its share of C at a base. -/
def State.reload (s : State) (x : Ctx) (pos : Nat × Nat) (base : Nat) : Ctx :=
  let k := x.pk.pkg
  let a := x.image
  let d := fun n => s.peekW k (a + 8 * n)
  let hm := (d 0).getLsbD 10
  let y := { x with regs := s.imgRegs k a x.ctl.aonly x.regs, ports := s.imgPorts k a x.ports }
  let y := ((List.range 256).filter crSaved).foldl (fun y n => y.crLoad (s.pkg k) n (s.peekW k (a + 0x300 + 8 * n))) y
  { y with
    st := if hm then .handling else .running
    pos := some pos
    ctl := { y.ctl with hm := hm, aonly := x.ctl.aonly, prio := BitVec.ofNat 2 x.kern.lq, evpend := y.ctl.evpend ||| (d 4).extractLsb' 0 8 }
    fx := { y.fx with accBase := base, accSize := x.fx.accSize }
    thr := y.thr.restored (d 1) (d 5)
    str := y.str.restored (if x.ctl.aonly then x.str.next else d 2) (d 6)
    acts := y.acts.map fun a => (a.1, a.2.restored)
    sels := { qsel := 0, wst := y.sels.wst, gres := y.sels.gres }
    pre := {} }

/-- Put a saved context back at a position (13 R294): the share of C is reloaded. -/
def State.restoreCtx (s : State) (c : Nat) (x : Ctx) (pos : Nat × Nat) (base : Nat) : State :=
  let acc := s.peeks x.pk.pkg (x.image + 0x6400) (4096 * x.fx.accSize)
  let y := s.reload x pos base
  let s := s.setCtx c y
  if x.ctl.aonly then s else s.bufWrite x.pk.pkg pos.1 .c (4096 * base) acc

/-- A group whose every member is restored (17 R377): resident, or collecting where a collection was kept. -/
def State.groupBack (s : State) (k : PKey) : State :=
  match s.groups.get? k with
  | none => s
  | some g =>
    if g.st = .saved && g.members.all fun m => match s.ctxs.get? m with | some y => y.st ≠ .saved | none => true then
      s.updGroup k fun g =>
        { g with st := if g.freed then .freeing else if g.ckind = 0 then .resident else .collecting, err := 0, preFor := none, freed := false }
    else s

end Sys2Proof.Machine
end

