-- ==== Sys2Proof/Machine/Groups.lean ====
section
/-!
DEFINITION. Groups and kernels as a whole (17 R374 to R386, 16 R370): `grp` as it issues and as it is performed, collections, the group scheduler, members that
end, and the quiet of a kernel.
-/
namespace Sys2Proof.Machine

/-! ### The instructions -/

/-- The subcode of a `grp` command (17 R381): 0 where there is no fault. -/
def State.grpSub (s : State) (x : Ctx) (c : GrpCmd) (l r : Word) : Nat :=
  let other := fun (n : Nat) => match s.groups.get? (objKey x.pk n) with | some g => decide (g.kern ≠ x.kern) | none => true
  match c with
  | .make => if fld l 18 46 ≠ 0 || fld l 16 2 = 0 then 1 else 0
  | .split => if (s.groups.get? (objKey x.pk x.group)).isNone then 3 else 0
  | .join =>
    if fld l 8 56 ≠ 0 then 1
    else if other (fld l 0 8) then 2
    else if (s.groups.get? (objKey x.pk x.group)).isNone then 3
    else 0
  | .free => if fld l 8 56 ≠ 0 || fld r 1 63 ≠ 0 then 1 else if other (fld l 0 8) then 2 else 0

/-- A `grp` command issues (17 R381). -/
def grpIssue (i : Info) (id : Ident) (c : GrpCmd) (s : State) : Out State :=
  storeOp i id
    (fun cu b _ l r => withCtx s b fun x =>
      let n := s.grpSub x c l.val r.val
      if n ≠ 0 then subFault s cu b 0x33 n else completeWith s cu b id (.grp c l.val r.val)) s

/-- `grp.make` (17 R381, R382). -/
def execGrpMake (p : Pred) (id : Ident) (s : State) : Out State := grpIssue (info (.grpMake p id)) id .make s
/-- `grp.split` (17 R381, R383). -/
def execGrpSplit (p : Pred) (id : Ident) (s : State) : Out State := grpIssue (info (.grpSplit p id)) id .split s
/-- `grp.join` (17 R381, R385). -/
def execGrpJoin (p : Pred) (id : Ident) (s : State) : Out State := grpIssue (info (.grpJoin p id)) id .join s
/-- `grp.free` (17 R381, R386). -/
def execGrpFree (p : Pred) (id : Ident) (s : State) : Out State := grpIssue (info (.grpFree p id)) id .free s

/-! ### Performance -/

/-- The outcome of a thread's `grp` command in `cr.gres` (17 R379). -/
def State.gresPut (s : State) (c st gnum : Nat) : State :=
  s.updCtx c fun x => { x with sels := { x.sels with gres := at' (x.outcome 0 st) 61 ||| at' gnum 48 } }

/-- The core that a member holds, or held when it was saved. -/
def State.memberCore (s : State) (c : Nat) : Nat :=
  match s.ctxs.get? c with
  | some x => (match x.pos with | some p => p.1 | none => x.pre.core)
  | none => 0

/-- The smallest level whose unit holds every core of a list, and that unit (17 R383, R385). -/
def levelOf (p : Pkg) (cs : List Nat) : BitVec 2 × Nat :=
  let c := cs.headD 0
  if oneUnit id cs then (1, c) else if oneUnit quadOf cs then (2, quadOf c) else (3, p.dieOf c)

/-- The die that a context's group stands on. -/
def State.dieOfGroup (s : State) (x : Ctx) : Nat :=
  match s.groups.get? (objKey x.pk x.group) with | some g => g.die | none => s.dieN x

/-- `grp.make` is performed (17 R382): no room, and no free number, give st 3. -/
def State.grpMake (s : State) (c : Nat) (x : Ctx) (l r : Word) : State :=
  let lvl := l.extractLsb' 16 2
  let pairs := fld l 0 8
  let accs := fld l 8 8
  match s.kerns.get? x.kern with
  | none => s.gresPut c 6 0
  | some k =>
    if !levelFits lvl pairs accs || pairs + accs = 0 then s.gresPut c 6 0
    else
      let die := s.dieOfGroup x
      match s.freeGroup x.pk, s.seats x.pk lvl die (List.replicate pairs (k.accSize, none)) accs with
      | some n, some t => (s.addGroup x.kern k n lvl die t k.nctx n r).gresPut c 2 n
      | _, _ => s.gresPut c 3 0

/-- Give every member of a collection an outcome, and end the collection (17 R383 to R385). -/
def State.endCollection (s : State) (k : PKey) (st : Nat) : State :=
  match s.groups.get? k with
  | none => s
  | some g =>
    let s := g.coll.foldl (fun s e => s.gresPut e.ctx st k.n) s
    s.updGroup k fun g => { g with st := if g.st = .collecting then .resident else g.st, ckind := 0, partner := 0, coll := [] }

/-- A group has completed a collection or enters freeing: joins that name it as their partner end with st 5 (17 R384). -/
def State.endJoins (s : State) (k : PKey) : State :=
  (s.groups.filter fun e => e.1.pk = k.pk && e.1 ≠ k && e.2.ckind = 2 && decide (e.2.partner = k.n)).foldl
    (fun s e => s.endCollection e.1 5) s

/-- Whether a barrier bound to a group is armed (17 R383, R385). -/
def State.boundArmed (s : State) (k : PKey) : Bool := s.bars.any fun e => e.2.group = some k && e.2.st = .armed

/-- The barriers bound to a group take its new member count (18 R391). -/
def State.bindCount (s : State) (k : PKey) (n : Nat) : State :=
  { s with bars := s.bars.map fun e => if e.2.group = some k then (e.1, { e.2 with exp := n }) else e }

/-- Insert a command by key, then by what comes first for equal keys (17 R383, R385): `rank` is the old group and index. -/
def insertKey (rank : Nat → Nat) (e : Collected) : List Collected → List Collected
  | [] => [e]
  | a :: r =>
    if e.key.slt a.key || (e.key = a.key && decide (rank e.ctx < rank a.ctx)) then e :: a :: r else a :: insertKey rank e r

/-- The members of a new group in their order. -/
def byKey (rank : Nat → Nat) (l : List Collected) : List Nat := (l.foldl (fun r e => insertKey rank e r) []).map Collected.ctx

/-- The member index of a context. -/
def State.indexOf (s : State) (c : Nat) : Nat := match s.ctxs.get? c with | some x => x.member | none => 0

/-- Number the members of a group and give each thread its outcome. -/
def State.numberMembers (s : State) (n : Nat) : List Nat → Nat → State
  | [], _ => s
  | c :: r, i => ((s.updCtx c fun x => { x with group := n, member := i }).gresPut c 2 n).numberMembers n r (i + 1)

/-- Put members into a group with a number (17 R383, R385). -/
def State.formGroup (s : State) (k : PKey) (g : Group) (ms : List Nat) : State :=
  let u := levelOf (s.pkg k.pk.pkg) (ms.map s.memberCore)
  let g := { g with level := u.1, unit := u.2, members := ms, ckind := 0, partner := 0, coll := []
                    st := if g.st = .collecting then .resident else g.st }
  (({ s with groups := s.groups.put k g }.numberMembers k.n ms 0).bindCount k ms.length).groupSaved k

/-- The distinct colours of a collection in ascending order (17 R383). -/
def coloursOf (l : List Collected) : List Word := l.foldl (fun r e => ins e.colour r) []
where
  /-- Insert once, in ascending order. -/
  ins (w : Word) : List Word → List Word
    | [] => [w]
    | a :: r => if w < a then w :: a :: r else if w = a then a :: r else a :: ins w r

/-- The free group numbers of a partition in ascending order (17 R374). -/
def State.freeGroups (s : State) (pk : PartKey) : List Nat := (List.range 256).filter fun n => (s.groups.get? (objKey pk n)).isNone

/-- Every member has commanded a split: the group is replaced by one for each colour (17 R383). -/
def State.formSplit (s : State) (k : PKey) (g : Group) : State :=
  let cs := coloursOf g.coll
  let ns := k.n :: s.freeGroups k.pk
  if s.boundArmed k || decide (ns.length < cs.length) then (s.endCollection k 4).endJoins k
  else
    let s := (cs.zip ns).foldl
      (fun t e => t.formGroup (objKey k.pk e.2) g (byKey s.indexOf (g.coll.filter fun m => m.colour = e.1))) s
    s.endJoins k

/-- The pairs and access-only contexts among some contexts. -/
def State.kinds (s : State) (ms : List Nat) : Nat × Nat :=
  let a := ms.filter fun c => match s.ctxs.get? c with | some x => x.ctl.aonly | none => false
  (ms.length - a.length, a.length)

/-- A group leaves every state (17 R377): its number is free, and so are the barriers bound to it (18 R391). -/
def State.dropGroup (s : State) (k : PKey) : State :=
  let s := s.freeGroupBars k
  { s with groups := s.groups.del k }

/-- Every member of two groups has commanded their join (17 R385). One of the two that is saved or being saved makes the joined group one that
is being saved. -/
def State.formJoin (s : State) (k o : PKey) (g h : Group) : State :=
  let lo := if k.n < o.n then k else o
  let hi := if k.n < o.n then o else k
  let gl := if k.n < o.n then g else h
  let all := g.members ++ h.members
  let n := s.kinds all
  let lvl := levelOf (s.pkg k.pk.pkg) (all.map s.memberCore)
  if g.die ≠ h.die || !levelFits lvl.1 n.1 n.2 then (((s.endCollection k 6).endCollection o 6).endJoins k).endJoins o
  else if s.boundArmed k || s.boundArmed o then (((s.endCollection k 4).endCollection o 4).endJoins k).endJoins o
  else
    let rank := fun c => (if (if k.n < o.n then g else h).members.contains c then 0 else 512) + s.indexOf c
    let away := fun (a : Group) => a.st = .saving || a.st = .saved
    let gl := { gl with
      st := if away g && away h then .saving else if away g || away h then .saving else gl.st
      hold := g.hold || h.hold, preFor := if g.preFor.isSome then g.preFor else h.preFor }
    let ms := byKey rank (g.coll ++ h.coll)
    ((s.dropGroup hi).formGroup lo gl ms).endJoins lo |>.endJoins hi

/-- A command is collected (17 R384): the first fixes the kind and the partner. -/
def State.collect (s : State) (k : PKey) (kind : BitVec 2) (partner : Nat) (e : Collected) : State :=
  s.updGroup k fun g =>
    { g with st := if g.st = .resident then .collecting else g.st, ckind := kind, partner := partner, coll := g.coll ++ [e] }

/-- Whether a command counts in a group's collection (17 R384). -/
def Group.takes (g : Group) (kind : BitVec 2) (partner c : Nat) : Bool :=
  g.st ≠ .freeing && (g.ckind = 0 || (g.ckind = kind && decide (g.partner = partner))) && !g.coll.any fun e => e.ctx = c

/-- Whether every member of a group has been collected. -/
def Group.full (g : Group) : Bool := decide (g.members.length ≤ g.coll.length)

/-- `grp.split` is performed (17 R383, R384). -/
def State.grpSplit (s : State) (c : Nat) (x : Ctx) (l r : Word) : State :=
  let k := objKey x.pk x.group
  match s.groups.get? k with
  | none => s.gresPut c 5 x.group
  | some g =>
    if !g.takes 1 0 c then s.gresPut c 5 x.group
    else
      let s := s.collect k 1 0 ⟨c, l, r⟩
      match s.groups.get? k with
      | some g => if g.full then s.formSplit k g else s
      | none => s

/-- `grp.join` is performed (17 R384, R385). -/
def State.grpJoin (s : State) (c : Nat) (x : Ctx) (l r : Word) : State :=
  let k := objKey x.pk x.group
  let o := objKey x.pk (fld l 0 8)
  match s.groups.get? k, s.groups.get? o with
  | some g, some h =>
    if k = o then s.gresPut c 6 x.group
    else if h.kern ≠ x.kern || h.st = .freeing || !g.takes 2 o.n c then s.gresPut c 5 x.group
    else
      let s := s.collect k 2 o.n ⟨c, 0, r⟩
      match s.groups.get? k with
      | some g => if g.full && h.full && h.ckind = 2 && decide (h.partner = k.n) then s.formJoin k o g h else s
      | none => s
  | _, _ => s.gresPut c 5 x.group

/-- A freeing group whose every member has ended leaves every state (17 R386). -/
def State.groupFreed (s : State) (k : PKey) : State :=
  match s.groups.get? k with
  | none => s
  | some g =>
    if g.st = .freeing && g.members.all fun m => match s.ctxs.get? m with | some y => y.st = .ended || y.st = .faulted | none => true then
      s.dropGroup k
    else s

/-- `grp.free` is performed (17 R386): on a group that is saved, or being saved, it is busy. -/
def State.grpFree (s : State) (c : Nat) (x : Ctx) (l r : Word) : State :=
  let k := objKey x.pk (fld l 0 8)
  match s.groups.get? k with
  | none => s.gresPut c 6 k.n
  | some g =>
    if g.kern ≠ x.kern then s.gresPut c 6 k.n
    else
      match g.st with
      | .freeing => s.gresPut c 2 k.n
      | .saving | .saved => s.gresPut c 4 k.n
      | .resident | .collecting =>
        let s := ((s.endCollection k 5).endJoins k).updGroup k fun g => { g with st := .freeing }
        let s := s.gresPut c 2 k.n
        if r.getLsbD 0 then (g.members.foldl State.endCtx s).groupFreed k else s

/-- A `grp` command is performed (17 R381). -/
def State.grpDo (s : State) (c : Nat) (cmd : GrpCmd) (l r : Word) : State :=
  match s.ctxs.get? c with
  | none => s
  | some x =>
    match cmd with
    | .make => s.grpMake c x l r
    | .split => s.grpSplit c x l r
    | .join => s.grpJoin c x l r
    | .free => s.grpFree c x l r

/-! ### Quiet -/

/-- Whether a context is quiet (16 R370): its next block may not fire under 02 R54, or waits under R58. A stopped stream does not fire (log 64). -/
def State.quiet (s : State) (c : Nat) (x : Ctx) : Bool :=
  let stopped := x.ctl.aonly || x.str.off || x.recs.xvalid || x.str.wait.isSome
  x.done && !(s.blks.any fun e => e.2.ctx = c && e.2.u ≠ .thread)
    && !(x.acts.any fun a => a.2.queued)
    && (stopped || (x.str.img.isSome && !s.adoptable c x && (s.short c x x.str.fetchedInstrs).isSome))
    && x.eng.eqs.toList.all (fun l => l.isEmpty) && x.fx.q14.isEmpty

/-- GROUP_MEMBER_END (17 R386): a member of a freeing group that is done and quiet. -/
def execGroupMemberEnd (s : State) : Out State :=
  match s.site with
  | .ctx c =>
    match s.ctxs.get? c with
    | none => .next s
    | some x =>
      match s.groups.get? (objKey x.pk x.group) with
      | some g =>
        if g.st = .freeing && g.members.contains c && x.live && s.quiet c x then .next ((s.endCtx c).groupFreed (objKey x.pk x.group)) else .next s
      | none => .next s
  | _ => .fault .noSite

/-- KERNEL_QUIET (16 R366, R370): every context of a running kernel that has not ended is quiet. -/
def execKernelQuiet (s : State) : Out State :=
  match s.site with
  | .kern kk =>
    match s.kerns.get? kk with
    | none => .next s
    | some k =>
      if k.st = .running && s.ctxs.all fun e => e.2.kern ≠ kk || e.2.st = .ended || s.quiet e.1 e.2 then
        .next ((s.updKern kk fun k => { k with st := .completing }).reqFence kk.pk)
      else .next s
  | _ => .fault .noSite

/-! ### The group scheduler -/

/-- The state without the positions of groups that are being saved for a kernel. -/
def State.cleared (s : State) (kk : KernKey) : State :=
  (s.groups.filter fun e => e.2.preFor = some kk && e.2.st = .saving).foldl
    (fun s e => e.2.members.foldl (fun s m => s.updCtx m fun y => { y with pos := none }) s) s

/-- The first group of a kernel that fits on no die once those before it are placed (16 R368). -/
def State.unfit (s : State) (kk : KernKey) (k : Kern) : List Ephem → Nat → Nat → Option Ephem
  | [], _, _ => none
  | e :: r, gi, idx =>
    match s.placeGroups kk k [e] gi idx with
    | none => some e
    | some t => t.unfit kk k r (gi + 1) (idx + e.pairs + e.accs)

/-- The groups of a partition that a kernel may pre-empt on a die (17 R378). -/
def State.victimsOn (s : State) (kk : KernKey) (die : Nat) : List (PKey × Group) :=
  s.groups.filter fun e =>
    e.1.pk = kk.pk && decide (e.2.die = die) && (e.2.st = .resident || e.2.st = .collecting) && decide (kk.lq < e.2.kern.lq)

/-- Whether a group is pre-empted before another (17 R378): the higher priority number, then the later placement. -/
def Group.sooner (g h : Group) : Bool :=
  decide (h.kern.lq < g.kern.lq) || (decide (h.kern.lq = g.kern.lq) && decide (h.order < g.order))

/-- The group that is pre-empted first among some. -/
def firstVictim : List (PKey × Group) → Option (PKey × Group)
  | [] => none
  | e :: r => match firstVictim r with | none => some e | some o => if o.2.sooner e.2 then some o else some e

/-- The group that the scheduler pre-empts next for a kernel in placing (17 R378). -/
def State.victim (s : State) (kk : KernKey) (k : Kern) : Option PKey :=
  if k.st ≠ .placing then none
  else
    match s.plan kk.pk k with
    | .wait _ | .broken | .refused _ => none
    | .ok p =>
      match (s.cleared kk).unfit kk k p.groups 0 0 with
      | none => none
      | some e => (s.dieOrder kk.pk k.asn e.ranges).findSome? fun d => (firstVictim (s.victimsOn kk d)).map Prod.fst

/-- A group is to be saved (17 R377). -/
def State.saveGroup (s : State) (k : PKey) (hold : Bool) (for' : Option KernKey) : State :=
  (s.updGroup k fun g => { g with st := .saving, hold := g.hold || hold, preFor := for' }).groupSaved k

/-- GROUP_PREEMPT (17 R378): the scheduler takes the group for a kernel in placing. -/
def execGroupPreempt (s : State) : Out State :=
  match s.site with
  | .obj k =>
    match s.kerns.find? fun e => e.1.pk = k.pk && s.victim e.1 e.2 = some k with
    | some e => .next (s.saveGroup k false (some e.1))
    | none => .next s
  | _ => .fault .noSite

/-- The members of a group that are saved, in member order. -/
def State.savedMembers (s : State) (g : Group) : List (Nat × Ctx) :=
  g.members.filterMap fun m => match s.ctxs.get? m with | some y => if y.st = .saved then some (m, y) else none | none => none

/-- The die and the seats of a saved group (17 R376, R378). -/
def State.groupSeats (s : State) (k : PKey) (g : Group) : Option (Nat × Seats) :=
  let ms := s.savedMembers g
  let ps := (ms.filter fun m => !m.2.ctl.aonly).map fun m => (m.2.fx.accSize, some m.2.fx.accBase)
  let n := (ms.filter fun m => m.2.ctl.aonly).length
  (List.range Config.dies).findSome? fun d => (s.seats k.pk g.level d ps n).map fun t => (d, t)

/-- The refusal of a group's images (13 R294): the first member's that is refused. -/
def State.groupErr (s : State) (g : Group) : Nat :=
  match (s.savedMembers g).find? fun m => s.imageErr m.2 ≠ 0 with | some m => s.imageErr m.2 | none => 0

/-- Restore the members of a group to its seats in member order (17 R376). -/
def State.seatMembers (s : State) : List (Nat × Ctx) → List ((Nat × Nat) × Nat) → List (Nat × Nat) → State
  | [], _, _ => s
  | (c, x) :: r, ps, ts =>
    if x.ctl.aonly then
      (match ts with | [] => s | t :: ts => (s.restoreCtx c x t 0).seatMembers r ps ts)
    else (match ps with | [] => s | p :: ps => (s.restoreCtx c x p.1 p.2).seatMembers r ps ts)

/-- A saved group is restored, or stays saved with its error (17 R378). -/
def State.restoreGroup (s : State) (k : PKey) (g : Group) : State :=
  if s.groupErr g ≠ 0 then s.updGroup k fun g => { g with err := BitVec.ofNat 3 (s.groupErr g) }
  else
    match s.groupSeats k g with
    | none => s.updGroup k fun g => { g with err := 4 }
    | some (d, t) =>
      let s := s.seatMembers (s.savedMembers g) t.pairs t.accs
      let st := s.stamp
      (st.2.updGroup k fun g => { g with die := d, unit := t.unit, order := st.1 }).groupBack k

/-- Whether one saved group comes before another (17 R378): by priority number, then by the time of its save. -/
def Group.before (g h : Group) : Bool :=
  decide (g.kern.lq < h.kern.lq) || (decide (g.kern.lq = h.kern.lq) && decide (g.saved < h.saved))

/-- The scheduler takes a group that it considers (17 R378): once no eligible group before it is to be considered, it is restored or stays saved. -/
def State.takeGroup (s : State) (k : PKey) (g : Group) : State :=
  let p := s.part k.pk
  if !p.look.contains k.n || !s.eligible k g || s.groups.any fun e => e.1.pk = k.pk && p.look.contains e.1.n && s.eligible e.1 e.2 && e.2.before g then s
  else (s.setPart k.pk { p with look := p.look.filter fun n => n ≠ k.n }).restoreGroup k g

/-- GROUP_RESTORE (17 R378): a group that the scheduler considers. -/
def execGroupRestore (s : State) : Out State :=
  match s.site with
  | .obj k =>
    match s.groups.get? k with
    | none => .next s
    | some g => .next (s.takeGroup k g)
  | _ => .fault .noSite

/-- CONTEXT_RESTORE (13 R294, 17 R377): a saved context into a free position of a core, or refused. Its group is restored as a whole, where that gives the
member this position. -/
def execContextRestore (s : State) : Out State :=
  match s.site with
  | .ctxAt c core pos =>
    match s.ctxs.get? c with
    | none => .next s
    | some x =>
      match s.groups.get? (objKey x.pk x.group) with
      | none => .next s
      | some g =>
        let t := s.takeGroup (objKey x.pk x.group) g
        if x.st = .saved && (s.imageErr x ≠ 0 || match t.ctxs.get? c with | some y => y.pos = some (core, pos) | none => false) then .next t else .next s
  | _ => .fault .noSite

end Sys2Proof.Machine
end

