-- ==== Sys2Proof/Machine/Pages.lean ====
section
/-!
DEFINITION. The `pg` commands and `xshoot` (19 R413 to R415, R420 to R423): as they issue, as they are performed, and the end of a shoot-down.
-/
namespace Sys2Proof.Machine

/-! ### The instructions -/

/-- The virtual address that a `pg` command names (19 R420). -/
def pgVa (l : Word) : Word := l.extractLsb' 16 48 ++ 0#16
/-- The address-space number that a `pg` command names (19 R420). -/
def pgAsn (l : Word) : BitVec 16 := l.extractLsb' 0 16

/-- Whether a page starts at an address. -/
def pageStarts (z : PgSize) (va : Word) : Bool := decide (va.toNat % pgBytes z = 0)

/-- The subcode of a `pg` command (19 R420, R421): 0 where there is no fault. -/
def State.pgSub (s : State) (x : Ctx) (c : PgCmd) (z : PgSize) (l r : Word) : Nat :=
  let p := s.part x.pk
  let fr := fld r 0 36
  if (if c = .map then r.getLsbD 63 || fld r 49 11 ≠ 0 else decide (r ≠ 0)) then 1
  else if !canonical (pgVa l) true || !pageStarts z (pgVa l) then 2
  else if c = .map && (decide (fr * 65536 % pgBytes z ≠ 0) || (s.pkg x.pk.pkg).space (fr * 65536) = .hole) then 3
  else if !p.sizes.contains (pgNum z) || (p.inv && z ≠ .k64) || (c = .promote && (z = .k64 || p.inv)) then 4
  else 0

/-- A `pg` command issues (19 R420). -/
def pgIssue (i : Info) (id : Ident) (c : PgCmd) (z : PgSize) (s : State) : Out State :=
  storeOp i id
    (fun cu b _ l r => withCtx s b fun x =>
      let n := s.pgSub x c z l.val r.val
      if n ≠ 0 then subFault s cu b 0x35 n else completeWith s cu b id (.pg c z l.val r.val)) s

/-- `pg.map` (19 R420, R421). -/
def execPgMap (p : Pred) (id : Ident) (z : PgSize) (s : State) : Out State := pgIssue (info (.pgMap p id z)) id .map z s
/-- `pg.unmap` (19 R420, R421). -/
def execPgUnmap (p : Pred) (id : Ident) (z : PgSize) (s : State) : Out State := pgIssue (info (.pgUnmap p id z)) id .unmap z s
/-- `pg.pin` (19 R420, R421). -/
def execPgPin (p : Pred) (id : Ident) (z : PgSize) (s : State) : Out State := pgIssue (info (.pgPin p id z)) id .pin z s
/-- `pg.unpin` (19 R420, R421). -/
def execPgUnpin (p : Pred) (id : Ident) (z : PgSize) (s : State) : Out State := pgIssue (info (.pgUnpin p id z)) id .unpin z s
/-- `pg.poison` (19 R420, R421). -/
def execPgPoison (p : Pred) (id : Ident) (z : PgSize) (s : State) : Out State := pgIssue (info (.pgPoison p id z)) id .poison z s
/-- `pg.promote` (19 R420, R421). -/
def execPgPromote (p : Pred) (id : Ident) (z : PgSize) (s : State) : Out State := pgIssue (info (.pgPromote p id z)) id .promote z s

/-- `xshoot` (19 R413): its address is checked first. -/
def execXshoot (p : Pred) (id : Ident) (z : PgSize) (s : State) : Out State :=
  storeOp (info (.xshoot p id z)) id
    (fun cu b _ l r =>
      if !canonical l.val b.pm then failWith s cu b { slotFault 0x12 cu.slot with step := 2, faddr := l.val }
      else if fld r.val 16 48 ≠ 0 then subFault s cu b 0x35 1
      else completeWith s cu b id (.xshoot z l.val r.val)) s

/-! ### Entries -/

/-- The entry of a page of one size (19 R407, R410): where it stands, and the entry. -/
def State.entryOf (s : State) (pk : PartKey) (asn : BitVec 16) (va z : Nat) : Option (PteLoc × Pte) :=
  let p := s.part pk
  if p.inv then (if z = 0 then s.walk pk asn va else none)
  else
    let t := p.table va
    if t.1 = 0 || !p.sizes.contains z then none
    else s.probe pk.pkg t.2 (2 ^ t.1) z asn va (hashOf z asn va % 2 ^ t.1) (fld p.ptcfg 59 4 + 1)

/-- Whether an entry maps a page that overlaps a page of the same address space (19 R421). -/
def State.mapped (s : State) (pk : PartKey) (asn : BitVec 16) (va z : Nat) : Bool :=
  (s.part pk).sizes.any fun y =>
    if z ≤ y then (s.entryOf pk asn va y).isSome
    else (List.range (2 ^ (psz z - psz y))).any fun i => (s.entryOf pk asn (va + i * 2 ^ psz y) y).isSome

/-- The first entry that is empty, deleted or illegal along a probe path from bucket `b` (19 R408, R421). -/
def State.freeEntry (s : State) (k base nb b : Nat) : Nat → Option Nat
  | 0 => none
  | n + 1 =>
    match (s.bucket k (base + 128 * (b % nb)) 8).find? fun e => !e.2.maps with
    | some e => some e.1
    | none => s.freeEntry k base nb (b + 1) n

/-- The first free entry of the probe path of a page (19 R421). -/
def State.freeFor (s : State) (pk : PartKey) (asn : BitVec 16) (va z : Nat) : Option Nat :=
  let p := s.part pk
  let t := p.table va
  if t.1 = 0 then none else s.freeEntry pk.pkg t.2 (2 ^ t.1) (hashOf z asn va % 2 ^ t.1) (fld p.ptcfg 59 4 + 1)

/-- The resident entry that a `pg.map` writes (19 R404, R421). -/
def mapEntry (asn : BitVec 16) (va z : Nat) (r : Word) : Pte :=
  { tag := BitVec.ofNat 40 (tagOf z va), asn := asn, frame := r.extractLsb' 0 36, key := r.extractLsb' 36 13, sidx := 0, state := 1,
    size := BitVec.ofNat 2 z, x := r.getLsbD 62, w := r.getLsbD 61, r := r.getLsbD 60 }

/-- Whether a frame lies in local HBM outside the inverted tables (19 R409, R421). -/
def invFrame (p : Pkg) (fr : Nat) : Bool := p.inHbm (fr * 65536) 65536 && decide (fr % 2 ^ 20 < 2 ^ 20 - 256)

/-! ### Performance -/

/-- `pg.map` in mode 0 (19 R421): the outcome. -/
def State.mapHashed (s : State) (pk : PartKey) (asn : BitVec 16) (va z : Nat) (r : Word) : Nat × State :=
  if s.mapped pk asn va z then (3, s)
  else
    match s.freeFor pk asn va z with
    | none => (6, s)
    | some pa => (2, s.setPte pk.pkg (.hashed pa) (mapEntry asn va z r))

/-- `pg.map` in mode 1 (19 R409, R421): the entry of the frame comes to the head of its anchor chain. -/
def State.mapInverted (s : State) (pk : PartKey) (asn : BitVec 16) (va : Nat) (r : Word) : Nat × State :=
  let fr := fld r 0 36
  let t := fr / 2 ^ 20
  let i := fr % 2 ^ 20
  if !invFrame (s.pkg pk.pkg) fr then (6, s)
  else if (invOfBits t i (s.peek128 pk.pkg (invAddr t i))).1.maps || (s.walk pk asn va).isSome then (3, s)
  else
    match s.anchor pk.pkg (s.part pk) asn va with
    | none => (6, s)
    | some a => (2, (s.poke128 pk.pkg (invAddr t i) ((mapEntry asn va 0 r).invBits a.2)).setAnchor pk.pkg a.1 (some (t, i)))

/-- An entry becomes deleted (19 R403, R421). -/
def State.deleteEntry (s : State) (pk : PartKey) (l : PteLoc) (e : Pte) : State :=
  match l with
  | .hashed _ => s.setPte pk.pkg l { e with state := 7 }
  | .inverted t i =>
    (s.unchain pk e (t, i) (s.invNext pk.pkg t i)).poke128 pk.pkg (invAddr t i) ({ e with state := 7 }.invBits none)

/-- Whether the execute code of a running kernel covers a page (19 R419, R421). -/
def State.codeCovers (s : State) (pk : PartKey) (asn : BitVec 16) (va len : Nat) : Bool :=
  s.kerns.any fun e =>
    e.1.pk = pk && e.2.runs && e.2.asn = asn && e.2.pinned.any fun p => decide (va ≤ p % 2 ^ 57) && decide (p % 2 ^ 57 < va + len)

/-- The entries that tile a page with pages of the next smaller size (19 R421), as far as they are there. -/
def State.tiles (s : State) (pk : PartKey) (asn : BitVec 16) (va z : Nat) : List (Option (PteLoc × Pte)) :=
  (List.range (2 ^ (psz z - psz (z - 1)))).map fun i => s.entryOf pk asn (va + i * 2 ^ psz (z - 1)) (z - 1)

/-- Whether tiles meet the conditions of `pg.promote` (19 R421). -/
def tilesOk (z : Nat) (l : List Pte) : Bool :=
  match l with
  | [] => false
  | a :: _ =>
    decide (a.frame.toNat % 2 ^ (psz z - 16) = 0)
      && l.zipIdx.all fun e =>
        e.1.state = 1 && e.1.x = a.x && e.1.w = a.w && e.1.r = a.r && e.1.key = a.key
          && decide (e.1.frame.toNat = a.frame.toNat + e.2 * 2 ^ (psz (z - 1) - 16))

/-- `pg.promote` (19 R421): the large entry is written before the small ones are deleted. -/
def State.pgPromote (s : State) (pk : PartKey) (asn : BitVec 16) (va z : Nat) : Nat × State :=
  let ts := s.tiles pk asn va z
  let es := ts.filterMap id
  if es.length < ts.length then (4, s)
  else if !tilesOk z (es.map Prod.snd) then (5, s)
  else
    match es, s.freeFor pk asn va z with
    | (_, a) :: _, some pa =>
      let s := s.setPte pk.pkg (.hashed pa) { a with tag := BitVec.ofNat 40 (tagOf z va), size := BitVec.ofNat 2 z }
      (2, es.foldl (fun s e => s.deleteEntry pk e.1 e.2) s)
    | _, _ => (6, s)

/-- A `pg` command on a page that an entry maps (19 R403, R421). -/
def State.pgOn (s : State) (pk : PartKey) (c : PgCmd) (va : Nat) (l : PteLoc) (e : Pte) : Nat × State :=
  match c with
  | .unmap => if e.state = 1 || e.state = 6 then (2, s.deleteEntry pk l e) else (5, s)
  | .pin => if e.state = 1 then (2, s.setPte pk.pkg l { e with state := 5 }) else (5, s)
  | .unpin => if e.state = 5 && !s.codeCovers pk e.asn (va % 2 ^ 57) e.len then (2, s.setPte pk.pkg l { e with state := 1 }) else (5, s)
  | .poison => if e.state = 1 then (2, s.setPageState pk l e 6 0) else (5, s)
  | .map | .promote => (5, s)

/-- A `pg` command at the home of its bucket (19 R421 to R423): its outcome. A page that no entry maps is unmapped: `pg.unmap` finds no entry, and
for the others R403 has no row. The capability frame may be mapped for reading only (22 R465). -/
def State.pgRun (s : State) (pk : PartKey) (c : PgCmd) (z : PgSize) (l r : Word) : Nat × State :=
  let va := (pgVa l).toNat
  let asn := pgAsn l
  match c with
  | .map => if decide (fld r 0 36 = 0) && (r.getLsbD 62 || r.getLsbD 61) then (5, s) else if (s.part pk).inv then s.mapInverted pk asn va r else s.mapHashed pk asn va (pgNum z) r
  | .promote => s.pgPromote pk asn va (pgNum z)
  | .unmap | .pin | .unpin | .poison =>
    match s.entryOf pk asn va (pgNum z) with
    | some e => s.pgOn pk c va e.1 e.2
    | none => (if c = .unmap then 4 else 5, s)

/-- A `pg` command of a thread is performed (19 R415, R421, R422). -/
def State.pgDo (s : State) (c : Nat) (cmd : PgCmd) (z : PgSize) (l r : Word) : State :=
  match s.ctxs.get? c with
  | none => s
  | some x =>
    let t := s.pgRun x.pk cmd z l r
    t.2.updCtx c fun x => { x with sels := { x.sels with pgres := withSt x.sels.pgres (x.outcome 1 t.1) } }

/-- An `xshoot` of a thread is performed (19 R413 to R415): the shoot-down begins. -/
def State.xshootDo (s : State) (c : Nat) (z : PgSize) (l r : Word) : State :=
  match s.ctxs.get? c with
  | none => s
  | some x =>
    let n := pgBytes z
    s.shoot x.pk (some (r.extractLsb' 0 16, l.toNat % 2 ^ 57 / n * n, n)) (some c) none

/-! ### The end of a shoot-down -/

/-- A mailbox command ends (23 R481, R487): done, or refused with a reason. -/
def State.mbEnd (s : State) (k why : Nat) : State :=
  (s.setPkg k { s.pkg k with mbState := if why = 0 then 2 else 3, mbWhy := BitVec.ofNat 8 why }).report k .done

/-- Whether every event that a shoot-down waits for has been performed (19 R414). -/
def State.acknowledged (s : State) (h : Shoot) : Bool :=
  h.waits.all fun w => match s.ctxs.get? w.1 with | some x => !x.path.any fun e => decide (e.stamp = w.2) | none => true

/-- A key entry becomes invalid once its shoot-down has completed (23 R486), and its mailbox command is done. -/
def State.endKey (s : State) (k i : Nat) : State :=
  let p := s.pkg k
  (s.setPkg k { p with keys := p.keys.put i { p.key i with valid := false } }).mbEnd k 0

/-- SHOOT_DOWN_COMPLETE (19 R414): every core has acknowledged. -/
def execShootDownComplete (s : State) : Out State :=
  match s.site with
  | .num n =>
    match s.shoots[n]? with
    | none => .next s
    | some h =>
      if !s.acknowledged h then .next s
      else
        let s := { s with shoots := s.shoots.eraseIdx n }
        match h.key with
        | none => .next s
        | some i => .next (s.endKey h.pk.pkg i)
  | _ => .fault .noSite

end Sys2Proof.Machine
end

