-- ==== Sys2Proof/Machine/Loss.lean ====
section
/-!
DEFINITION. The entries of a slot's page tables (19 R404, R409), a slot made vacant (21 R446, R458, 23 R482), and the loss of a part (01 R30, R31,
20 R426, 21 R453, R459).
-/
namespace Sys2Proof.Machine

/-! ### Every entry of a table -/

/-- The 16-byte places of a range of local memory that hold something, in ascending order. -/
def State.places (s : State) (k lo hi : Nat) : List Nat :=
  (s.mem.filter fun c => decide (memKey k lo ≤ c.1) && decide (c.1 < memKey k hi)).foldl
    (fun l c => let a := (c.1 - memKey k 0) / 16 * 16; match l with | b :: _ => if a = b then l else a :: l | [] => [a]) [] |>.reverse

/-- The entries of a hashed table (19 R404, R405). -/
def State.hashEntries (s : State) (k : Nat) (t : Word) : List (PteLoc × Pte) :=
  if fld t 58 6 = 0 then []
  else
    let b := fld t 7 45 * 128
    ((s.places k b (b + 128 * 2 ^ fld t 58 6)).map fun a => (PteLoc.hashed a, Pte.ofBits (s.peek128 k a))).filter fun e => e.2.maps

/-- The entries of the inverted tables that describe frames of a slot (19 R409, 23 R483). -/
def State.invEntries (s : State) (pk : PartKey) : List (PteLoc × Pte) :=
  (List.range 8).flatMap fun t =>
    ((s.places pk.pkg (invAddr t 0) (invAddr t (2 ^ 20))).map fun a =>
        let i := (a - invAddr t 0) / 16
        (PteLoc.inverted t i, (invOfBits t i (s.peek128 pk.pkg a)).1)).filter fun e =>
      e.2.maps && (s.part pk).inRanges (e.2.frame.toNat * 65536) 65536

/-- Every entry of a slot's tables (19 R406). -/
def State.entries (s : State) (pk : PartKey) : List (PteLoc × Pte) :=
  let p := s.part pk
  if p.inv then s.invEntries pk else s.hashEntries pk.pkg p.ptu ++ s.hashEntries pk.pkg p.ptp

/-- Poison the pages of a slot whose entry meets a condition (19 R403). -/
def State.poisonPages (s : State) (pk : PartKey) (f : Pte → Bool) : State :=
  (s.entries pk).foldl (fun s e => if f e.2 then s.setPageState pk e.1 e.2 6 0 else s) s

/-- Pages that have not arrived are lost with their source (19 R403, 21 R459): poisoned, where they meet a condition on the frame at the source. -/
def State.poisonMoving (s : State) (pk : PartKey) (f : Moving → Bool) : State :=
  let ms := (s.part pk).transit.filter f
  let s := s.poisonPages pk fun e => e.state = 4 && ms.any fun m => m.asn = e.asn && decide (m.va = e.vbase)
  let p := s.part pk
  let left := p.transit.filter fun m => !f m
  s.setPart pk { p with transit := left, left := BitVec.ofNat 32 left.length }

/-! ### A slot becomes vacant -/

/-- Banks that a slot owns begin to drain (07 R172). -/
def State.releaseBanks (s : State) (pk : PartKey) : State :=
  { s with banks := s.banks.map fun e => if e.1.pkg = pk.pkg && e.2 = .owned pk.part then (e.1, .draining pk.part none) else e }

/-- The keys of a slot become invalid (23 R482, R486). -/
def Pkg.dropKeys (p : Pkg) (slot : Nat) : Pkg :=
  { p with keys := p.keys.map fun e => if e.2.owner = slot then (e.1, { e.2 with valid := false }) else e }

/-- A slot becomes vacant (21 R446, R458, 23 R482): its banks are scrubbed, its windows freed, its keys invalid, and nothing of it is left. -/
def State.vacate (s : State) (pk : PartKey) : State :=
  let s := ((s.wipePart pk).releaseBanks pk).dropVd pk
  let s := s.setPkg pk.pkg ((s.pkg pk.pkg).dropKeys pk.part)
  let s := { s with
    ctxs := s.ctxs.filter fun e => e.2.pk ≠ pk
    kerns := s.kerns.filter fun e => e.1.pk ≠ pk
    jrnls := s.jrnls.filter fun e => e.1.pk ≠ pk
    rxs := s.rxs.filter fun e => e.1.pk ≠ pk
    queues := s.queues.filter fun e => e.1.pk ≠ pk
    walks := s.walks.filter fun e => !(e.pkg = pk.pkg && e.part = pk.part) }
  s.setPart pk { linkadm := (s.part pk).linkadm }

/-! ### What a loss does to a slot -/

/-- Whether frames of a range are protected for a slot (21 R443). -/
def State.protectedIn (s : State) (pk : PartKey) (lo len : Nat) : Bool :=
  let p := s.part pk
  overlaps (fld p.kfrec 16 36 * 65536) (2 * fld p.kfrec 52 12 * 65536) lo len
    || overlaps (fld p.vdjrn 16 36 * 65536) (fld p.vdjrn 52 12 * 65536) lo len
    || (decide (0 < p.pool.2) && overlaps p.pool.1 (8 * p.pool.2) lo len)
    || ((List.range p.pool.2).any fun n =>
      (s.peekW pk.pkg (p.pool.1 + 8 * n)).getLsbD 63 && overlaps (s.poolFrame pk n * 65536) 65536 lo len)
    || (s.entries pk).any fun e => (e.2.state = 2 || e.2.state = 3) && overlaps (e.2.frame.toNat * 65536) 65536 lo len

/-- Whether a slot has a context on a die. -/
def State.standsOn (s : State) (pk : PartKey) (d : Nat) : Bool :=
  s.ctxs.any fun e => e.2.pk = pk && e.2.pos.isSome && decide (s.dieN e.2 = d)

/-- Whether an entry's page has its only copy in a range (21 R443, R453): a page in use that has no twin. -/
def Pte.onlyIn (e : Pte) (lo len : Nat) : Bool := (e.state = 1 || e.state = 5) && overlaps (e.frame.toNat * 65536) e.len lo len

/-- A loss strikes a slot (01 R31, 21 R446, R448): it fails where its class does not cover the loss, and at a second loss before recovery from the first
has completed; else it resets. -/
def State.strike (s : State) (pk : PartKey) (covered : Bool) : State :=
  let p := s.part pk
  if p.st = .vacant || p.st = .failed then s
  else if !covered || p.tbad || (p.st = .replaying && p.lossy) then s.failPart pk
  else let s := s.partReset pk; s.setPart pk { s.part pk with lossy := true }

/-- The slots of a package that are not vacant. -/
def State.slotsOf (s : State) (k : Nat) : List PartKey :=
  (s.parts.filter fun e => e.1.pkg = k && e.2.st ≠ .vacant).map Prod.fst

/-- The loss of a range of local HBM and, with it, of a die's cores (21 R453). A replaying slot whose tables stood there walks the inverted tables
from then on (R452). -/
def State.loseRange (s : State) (k : Nat) (die : Option Nat) (lo len : Nat) : State :=
  (s.slotsOf k).foldl
    (fun s pk =>
      let p := s.part pk
      let on := match die with | some d => s.standsOn pk d | none => false
      let only := (s.entries pk).any fun e => e.2.onlyIn lo len
      let hit := on || s.protectedIn pk lo len
      let cls := fld p.vdcfg 62 2
      let tables := !p.inv
        && (overlaps (fld p.ptu 7 45 * 128) (if fld p.ptu 58 6 = 0 then 0 else 128 * 2 ^ fld p.ptu 58 6) lo len
          || overlaps (fld p.ptp 7 45 * 128) (if fld p.ptp 58 6 = 0 then 0 else 128 * 2 ^ fld p.ptp 58 6) lo len)
      let s := s.poisonPages pk fun e => e.onlyIn lo len
      let s := if hit || (cls = 0 && only) then s.strike pk (decide (cls ≠ 0)) else s
      if tables && (s.part pk).st = .replaying then s.setPart pk { s.part pk with ptcfg := (s.part pk).ptcfg ||| (1#64 <<< 63) } else s) s

/-- Pages of devices that have moved away from a package, and whose frames at it lie in a lost range (21 R459). -/
def State.loseMoving (s : State) (k lo len : Nat) : State :=
  (s.parts.filter fun e => e.2.movedIn && s.pkgOfNum e.2.opkg.toNat = k).foldl
    (fun s e => s.poisonMoving e.1 fun m => overlaps (m.src * 65536) (2 ^ psz m.size) lo len) s

/-- The loss of a die (21 R453). -/
def State.loseDie (s : State) (k d : Nat) : State :=
  let s := s.setPkg k ((s.pkg k).setDie d fun t => { t with lost := true })
  (s.loseRange k (some d) (d * 2 ^ 37) (2 ^ 37)).loseMoving k (d * 2 ^ 37) (2 ^ 37)

/-- The loss of an HBM stack (21 R453), by its number twice the die plus the stack of the die (19 R409). -/
def State.loseStack (s : State) (k t : Nat) : State :=
  let s := s.setPkg k ((s.pkg k).setDie (t / 2) fun d => if t % 2 = 0 then { d with lost0 := true } else { d with lost1 := true })
  (s.loseRange k none (stackBase t) (2 ^ 36)).loseMoving k (stackBase t) (2 ^ 36)

/-- The other slot of a migration, on the package of a number (21 R461). -/
def State.otherSlot (s : State) (p : Part) : PartKey := ⟨s.pkgOfNum p.opkg.toNat, p.opart.toNat⟩

/-- What the loss of a package does to one of its slots (21 R453, R459): without a partner the device fails, and a source that it was moving from is
released. -/
def State.loseSlot (s : State) (pk : PartKey) (other : PartKey) : State :=
  let p := s.part pk
  let covered := decide (fld p.vdcfg 62 2 = 2) && !p.tbad && p.st ≠ .inTransit && !(p.st = .replaying && p.lossy)
  let s := s.wipePart pk
  if covered then s.setPart pk { p with st := .replaying, lossy := true, wasPull := p.movedIn, vdBy := none }
  else
    let s := (s.setPart pk { p with st := .failed, vdBy := none }).report pk.pkg (.failed pk.part)
    if p.movedIn && (s.part other).st = .inTransit then s.vacate other else s

/-- What the loss of a source package does to the target of a migration (21 R459). -/
def State.loseSource (s : State) (pk : PartKey) : State := (s.poisonMoving pk fun _ => true).strike pk true

/-- The loss of a package (20 R426, 21 R453, R459). -/
def State.losePackage (s : State) (k : Nat) : State :=
  if (s.pkg k).lost then s
  else
    let sources := (s.parts.filter fun e => e.1.pkg ≠ k && e.2.movedIn && e.2.transit ≠ [] && s.pkgOfNum e.2.opkg.toNat = k).map Prod.fst
    let slots := (s.slotsOf k).map fun pk => (pk, s.otherSlot (s.part pk))
    let s := s.setPkg k { s.pkg k with lost := true }
    let s := slots.foldl (fun s e => s.loseSlot e.1 e.2) s
    sources.foldl State.loseSource s

end Sys2Proof.Machine
end

