-- ==== Sys2Proof/Machine/Links.lean ====
section
/-!
DEFINITION. Links (20 R424 to R428, R437 to R441), chains (R429 to R431), landing queues (R432 to R436), casks (14 R323) and typed-buffer banks that change
owner (07 R172).
-/
namespace Sys2Proof.Machine

/-! ### The instructions -/

/-- The links of a class (20 R424). -/
def lnkCount : LnkCls → Nat
  | .die => 6 | .sept => 18 | .ue => 8

/-- The local queue that a link word names (20 R439). -/
def lnkQueue (pk : PartKey) (v : Word) : PKey := objKey pk (fld v 52 12)

/-- Whether a link word keeps its layout (20 R439, R440). -/
def lnkWordOk (c : LnkCmd) (cls : LnkCls) (v : Word) : Bool :=
  match c, cls with
  | .up, _ | .down, _ | .retrain, _ => decide (fld v 5 59 = 0) && decide (fld v 0 5 < lnkCount cls)
  | .chain, .sept => decide (fld v 5 25 = 0) && (decide (fld v 0 5 < 18) || decide (fld v 0 5 = 31))
  | .chain, .ue => decide (fld v 5 13 = 0) && decide (fld v 0 5 < 8)
  | .chain, .die => true
  | .unchain, _ => decide (fld v 0 52 = 0)

/-- The code of a class (20 R424). -/
def clsNum : LnkCls → Nat
  | .die => 0 | .sept => 1 | .ue => 2

/-- Whether a queue may be chained (20 R440, R441): open and empty. -/
def Queue.chainable (q : Queue) : Bool := q.state = .open && q.els = [] && q.cask = []

/-- The subcode of a `lnk` command (20 R440): 0 where there is no fault. -/
def State.lnkSub (s : State) (x : Ctx) (c : LnkCmd) (cls : LnkCls) (v : Word) : Nat :=
  let k := lnkQueue x.pk v
  let q := s.queue k
  if !lnkWordOk c cls v then 1
  else
    match c with
    | .up | .down | .retrain => 0
    | .chain =>
      if cls = .die then 2
      else if !q.chainable || (s.inletOf k).isSome || q.win.kind = 4 then 3
      else 0
    | .unchain =>
      if cls = .die then 2
      else
        match q.state, q.chain with
        | .chained, some h => if h.cls = clsNum cls then 0 else 2
        | _, _ => 3

/-- A `lnk` command issues (20 R438, R440). -/
def lnkIssue (i : Info) (id : Ident) (c : LnkCmd) (cls : LnkCls) (s : State) : Out State :=
  storeOp i id
    (fun cu b _ l _ => withCtx s b fun x =>
      let n := s.lnkSub x c cls l.val
      if n ≠ 0 then subFault s cu b 0x36 n else completeWith s cu b id (.lnk c cls l.val)) s

/-- `lnk.up` (20 R438). -/
def execLnkUp (p : Pred) (id : Ident) (cls : LnkCls) (s : State) : Out State := lnkIssue (info (.lnkUp p id cls)) id .up cls s
/-- `lnk.down` (20 R438). -/
def execLnkDown (p : Pred) (id : Ident) (cls : LnkCls) (s : State) : Out State := lnkIssue (info (.lnkDown p id cls)) id .down cls s
/-- `lnk.retrain` (20 R438). -/
def execLnkRetrain (p : Pred) (id : Ident) (cls : LnkCls) (s : State) : Out State := lnkIssue (info (.lnkRetrain p id cls)) id .retrain cls s
/-- `lnk.chain` (20 R438). -/
def execLnkChain (p : Pred) (id : Ident) (cls : LnkCls) (s : State) : Out State := lnkIssue (info (.lnkChain p id cls)) id .chain cls s
/-- `lnk.unchain` (20 R438). -/
def execLnkUnchain (p : Pred) (id : Ident) (cls : LnkCls) (s : State) : Out State := lnkIssue (info (.lnkUnchain p id cls)) id .unchain cls s

/-! ### Routes -/

/-- The dies that some dies reach over one boundary more of the ring, the boundary `w` taken as down. -/
def State.ringStep (s : State) (k w : Nat) (l : List Nat) : List Nat :=
  (List.range 4).foldl
    (fun l i =>
      let a := (ringDies[i]?).getD 0
      let b := (ringDies[(i + 1) % 4]?).getD 0
      if i = w || !s.boundary k i || !(s.pkg k).dieHere a || !(s.pkg k).dieHere b then l
      else if l.contains a && !l.contains b then b :: l
      else if l.contains b && !l.contains a then a :: l
      else l) l

/-- Whether every die still has a route to every other, and the hub to them (01 R18, 20 R441), with a boundary down. -/
def State.routed (s : State) (k w : Nat) : Bool :=
  let ds := ringDies.filter fun d => (s.pkg k).dieHere d
  let l := s.ringStep k w (s.ringStep k w (s.ringStep k w (ds.take 1)))
  ds.all (fun d => l.contains d)
    && (ds = [] || (w ≠ 4 && s.boundary k 4 && (s.pkg k).dieHere 0) || (w ≠ 5 && s.boundary k 5 && (s.pkg k).dieHere 3))

/-- The Septermoon links of a package that are up. -/
def State.upLinks (s : State) (k : Nat) : List Nat := (List.range 18).filter fun n => (s.link ⟨k, .sept, n⟩).st = .up

/-- The link that a chain uses (20 R428, R439): with link field 31 any that is up; which is free. -/
def State.chooseLink (s : State) (k : PKey) : State :=
  let q := s.queue k
  match q.chain with
  | none => s
  | some c =>
    let l := s.upLinks k.pk.pkg
    if c.cls = 1 && c.link = 31 && !l.contains c.use && l ≠ [] then
      let d := s.drawNat
      d.2.setQueue k { q with chain := some { c with use := (l[d.1 % l.length]?).getD 31 } }
    else s

/-- Traffic is rerouted (20 R428): a chain that may use any link moves to another that is up. -/
def State.reroute (s : State) (k : LinkKey) : State :=
  if k.cls = .sept then ((s.queues.filter fun e => e.1.pk.pkg = k.pkg).map Prod.fst).foldl State.chooseLink s else s

/-- A link goes down (20 R425, R426, R428): with both hub boundaries down the package is lost; a bare field die is no package. -/
def State.goDown (s : State) (k : LinkKey) (why : BitVec 3) : State :=
  let s := (s.setLink k { s.link k with st := .down, why := why }).reroute k
  if k.cls = .die && !(s.pkg k.pkg).bare && !s.boundary k.pkg 4 && !s.boundary k.pkg 5 then s.losePackage k.pkg else s

/-- A link starts to train (20 R425): its budget starts. -/
def State.train (s : State) (k : LinkKey) (st : LState) : State :=
  s.setLink k { s.link k with st := st, start := s.cycle k.pkg 0, fails := 0 }

/-! ### The commands -/

/-- The outcome of a thread's `lnk` command (20 R437). -/
def State.lnresPut (s : State) (c st : Nat) : State :=
  s.updCtx c fun x => { x with sels := { x.sels with lnres := withSt x.sels.lnres (x.outcome 2 st) } }

/-- `lnk.up`, `lnk.down` and `lnk.retrain` are performed (20 R441). -/
def State.lnkState (s : State) (c : Nat) (x : Ctx) (cmd : LnkCmd) (k : LinkKey) : State :=
  let l := s.link k
  if !(s.part x.pk).linkadm then s.lnresPut c 6
  else
    match cmd with
    | .up => if l.st = .down then (s.train k .training).lnresPut c 2 else s.lnresPut c 5
    | .retrain => if l.st = .up then (s.train k .retraining).lnresPut c 2 else s.lnresPut c 5
    | .down =>
      if l.st = .down then s.lnresPut c 5
      else if k.cls = .die && !s.routed k.pkg k.n then s.lnresPut c 4
      else (s.goDown k 1).lnresPut c 2
    | .chain | .unchain => s

/-- `lnk.chain` is performed (20 R441): the queue is chained and waits for the remote end. -/
def State.lnkChain (s : State) (c : Nat) (x : Ctx) (cls : LnkCls) (v : Word) : State :=
  let k := lnkQueue x.pk v
  let q := s.queue k
  if !q.chainable then s.lnresPut c 5
  else
    let h : Chain :=
      if cls = .sept then { cls := 1, link := fld v 0 5, use := fld v 0 5, remQ := fld v 40 12, remPkg := fld v 30 10, asker := c, cm := q.cm }
      else { cls := 2, link := fld v 0 5, use := fld v 0 5, remQ := fld v 28 24, remPkg := fld v 18 10, asker := c }
    (s.setQueue k { q with state := .chained, chain := some h }).chooseLink k

/-- A chain is over (20 R441): the queue returns to open. -/
def Queue.unchained (q : Queue) : Queue :=
  { q with
    chain := none
    state := if q.state = .chained then .open else q.state
    prev := if q.state = .frozen && q.prev = .chained then .open else q.prev }

/-- A chain that is to end does so once everything it sent has been acknowledged (20 R441). -/
def State.endChain (s : State) (k : PKey) : State :=
  let q := s.queue k
  match q.chain with
  | some h => if h.ending && h.conf && h.unack = [] then s.setQueue k q.unchained else s
  | none => s

/-- `lnk.unchain` is performed (20 R441). -/
def State.lnkUnchain (s : State) (c : Nat) (x : Ctx) (v : Word) : State :=
  let k := lnkQueue x.pk v
  let q := s.queue k
  let s := match q.chain with | some h => (s.setQueue k { q with chain := some { h with ending := true } }).endChain k | none => s
  s.lnresPut c 2

/-- A `lnk` command is performed (20 R441). -/
def State.lnkDo (s : State) (c : Nat) (cmd : LnkCmd) (cls : LnkCls) (v : Word) : State :=
  match s.ctxs.get? c with
  | none => s
  | some x =>
    match cmd with
    | .up | .down | .retrain => s.lnkState c x cmd ⟨x.pk.pkg, cls, fld v 0 5⟩
    | .chain => s.lnkChain c x cls v
    | .unchain => s.lnkUnchain c x v

/-! ### Link events -/

/-- LINK_TRAINING_COMPLETE (20 R425). -/
def execLinkTrainingComplete (s : State) : Out State :=
  match s.site with
  | .link k =>
    let l := s.link k
    if l.st = .training || l.st = .retraining then .next (s.setLink k { l with st := .up, trains := l.trains + 1, fails := 0 }) else .next s
  | _ => .fault .noSite

/-- LINK_BUDGET_EXPIRY (20 R425): 2^20 cycles of die 0. -/
def execLinkBudgetExpiry (s : State) : Out State :=
  match s.site with
  | .link k =>
    let l := s.link k
    let spent := decide (2 ^ 20 ≤ (s.cycle k.pkg 0 - l.start).toNat)
    match l.st with
    | .training => .next (if spent then s.goDown k 2 else s)
    | .retraining => .next (if spent then s.goDown k 3 else s)
    | .down | .up => .next s
  | _ => .fault .noSite

/-- FLIT_REPLAY (20 R425): whether it is the same flit again is free; at its eighth failure in succession the link retrains. -/
def execFlitReplay (s : State) : Out State :=
  match s.site with
  | .link k =>
    if (s.link k).st ≠ .up then .next s
    else
      let d := s.drawBool
      let s := d.2
      let l := s.link k
      let n := if d.1 then l.fails + 1 else 1
      let s := s.setLink k { l with retries := l.retries + 1, fails := n }
      .next (if 8 ≤ n then s.train k .retraining else s)
  | _ => .fault .noSite

/-- FAR_END_LOSS (20 R425). -/
def execFarEndLoss (s : State) : Out State :=
  match s.site with
  | .link k => let l := s.link k; .next (if l.st = .up || l.st = .retraining then s.goDown k 4 else s)
  | _ => .fault .noSite

/-- PART_LOSS (01 R30, R31, 21 R453). -/
def execPartLoss (s : State) : Out State :=
  match s.site with
  | .lost w =>
    match w with
    | .link k => let l := s.link k; .next (if l.st = .up || l.st = .retraining then s.goDown k 4 else s)
    | .die k d => .next (if (s.pkg k).dieHere d then s.loseDie k d else s)
    | .stack k t => .next (if (s.pkg k).stackHere (t / 2) (t % 2) then s.loseStack k t else s)
    | .package k => .next (s.losePackage k)
  | _ => .fault .noSite

/-! ### Chains -/

/-- Whether a chain's link is up (20 R428). -/
def State.chainUp (s : State) (k : PKey) (c : Chain) : Bool :=
  (s.link ⟨k.pk.pkg, if c.cls = 1 then .sept else .ue, c.use⟩).st = .up

/-- The producers that a queue has: the outlets bound to it, the stream that feeds it, and chains (20 R429). -/
def State.producerCount (s : State) (k : PKey) : Nat :=
  s.outletsOf k + (if (s.queue k).strmProd.isSome then 1 else 0)

/-- The confirmed chains that feed a queue (20 R429). -/
def State.chainsInto (s : State) (d : PKey) : Nat :=
  (s.queues.filter fun e => match e.2.chain with | some c => c.conf && decide (s.chainDest e.1 c = some d) | none => false).length

/-- Whether a remote queue meets R429 for a chain. -/
def State.chainMeets (s : State) (q : Queue) (d : PKey) : Bool :=
  let r := s.queue d
  r.state = .open && !r.prodk && decide (s.producerCount d + s.chainsInto d < r.nprod) && r.plane = q.plane && r.esize = q.esize && r.journal = q.journal

/-- CHAIN_CONFIRM (20 R429, R441): the remote end decides. A queue of the pod decides by R429; what a device beyond it answers is the site's. -/
def execChainConfirm (s : State) : Out State :=
  match s.site with
  | .objOk k ok =>
    let s := s.chooseLink k
    let q := s.queue k
    match q.chainOn with
    | none => .next s
    | some c =>
      if c.conf || !s.chainUp k c then .next s
      else
        let yes := match s.chainDest k c with | some d => s.chainMeets q d | none => ok
        if yes then .next (((s.setQueue k { q with chain := some { c with conf := true } }).endChain k).lnresPut c.asker 2)
        else .next ((s.setQueue k q.unchained).lnresPut c.asker 3)
  | _ => .fault .noSite

/-- CHAIN_ELEMENT_SEND (20 R430, R431): the oldest element not yet sent, against an entry reserved at the remote queue in its round's turn (14 R329). -/
def execChainElementSend (s : State) : Out State :=
  match s.site with
  | .obj k =>
    let s := s.chooseLink k
    let q := s.queue k
    match q.chainOn with
    | none => .next s
    | some c =>
      match q.els[c.unack.length]? with
      | none => .next s
      | some e =>
        let room := match s.chainDest k c with
          | some d => decide (0 < s.roomFor d .chain) && (s.queue d).state ≠ .sealed && (q.prodk || !s.outOfTurn d e.round)
          | none => true
        if !c.conf || c.ending || q.state = .frozen || !s.chainUp k c || !room then .next s
        else .next (s.setQueue k { q with chain := some { c with sent := c.sent + 1, unack := c.unack ++ [(c.sent, e)] } })
  | _ => .fault .noSite

/-- A granule reaches the remote queue (20 R430): it is appended, but the markers of a round are those of one producer there, so that the round's last
one alone is (R431). -/
def State.chainLand (s : State) (k : PKey) (c : Chain) (e : QElem) : State × Chain :=
  match s.chainDest k c with
  | none => (s, c)
  | some d =>
    if e.marker && decide (c.cm + 1 < (s.queue k).consMarkers) then (s, { c with cm := c.cm + 1 })
    else (s.append d (chainId k) .chain e, if e.marker then { c with cm := 0 } else c)

/-- Deliver what the receiver holds, as far as no gap is left (20 R427). -/
def State.chainFill (s : State) (k : PKey) (c : Chain) : Nat → State × Chain
  | 0 => (s, c)
  | n + 1 =>
    match c.held.find? fun h => h.1 = c.expected with
    | none => (s, c)
    | some h =>
      let t := s.chainLand k c h.2
      t.1.chainFill k { t.2 with expected := c.expected + 1, held := c.held.filter fun g => g.1 ≠ h.1 } n

/-- GRANULE_RECEIVE (20 R427): delivered, discarded as a duplicate, or held; a frozen remote queue holds the append (R431). -/
def execGranuleReceive (s : State) : Out State :=
  match s.site with
  | .objN k n =>
    match (s.queue k).chainOn with
    | none => .next s
    | some c =>
      match c.unack[n]? with
      | none => .next s
      | some g =>
        let gap := (g.1 - c.expected).toNat
        let frozen := match s.chainDest k c with
          | some d => (s.queue d).state ≠ .open && (s.queue d).state ≠ .spilling && (s.queue d).state ≠ .chained
          | none => false
        if !s.chainUp k c || frozen || 2 ^ 31 ≤ gap then .next s
        else
          let c := if c.held.any fun h => h.1 = g.1 then c else { c with held := c.held ++ [g] }
          let t := s.chainFill k c (c.held.length + 1)
          .next (t.1.setQueue k { t.1.queue k with chain := some t.2 })
  | _ => .fault .noSite

/-- GRANULE_ACK (20 R427, R430): the acknowledgement of the oldest element that was sent frees it, and it leaves the local tail. -/
def execGranuleAck (s : State) : Out State :=
  match s.site with
  | .objN k n =>
    let q := s.queue k
    match q.chainOn with
    | none => .next s
    | some c =>
      match c.unack with
      | [] => .next s
      | g :: r =>
        if n ≠ 0 || (g.1 - c.expected).toNat < 2 ^ 31 || !s.chainUp k c || q.state = .frozen || q.win.pins ≠ 0 then .next s
        else .next (((s.setQueue k { q with chain := some { c with unack := r } }).takeHead k).endChain k)
  | _ => .fault .noSite

/-! ### Landing queues -/

/-- How a frame is counted (20 R433). -/
inductive Landed where
  | key | integrity | oversize | full | delivered
  deriving DecidableEq, Repr

/-- The counters after a frame (20 R433). -/
def RxCnt.count (c : RxCnt) (w : Landed) : RxCnt :=
  let c := { c with recv := c.recv + 1 }
  match w with
  | .key => { c with key := c.key + 1 }
  | .integrity => { c with int := c.int + 1 }
  | .oversize => { c with ovr := c.ovr + 1 }
  | .full => { c with full := c.full + 1 }
  | .delivered => { c with dlv := c.dlv + 1 }

/-- Elements of a queue that blocks in flight have reserved or hold a tentative take of (02 R54, 03 R88). -/
def State.tailHeld (s : State) (k : PKey) : Bool :=
  s.blks.any fun e =>
    decide (0 < e.2.took (.part k)) ||
      match s.ctxs.get? e.2.ctx with
      | some x => x.pk = k.pk && e.2.inRes.any fun r =>
          decide (0 < r.2) && match x.inlet r.1 with | some b => decide (b.queue = k.n) | none => false
      | none => false

/-- Evict the oldest whole frame of a landing queue (20 R435): none where it cannot be. A journal records it as takes. -/
def State.evict (s : State) (k rk : PKey) : Option State :=
  let q := s.queue k
  match q.landFrames with
  | [] => none
  | (n, left) :: r =>
    if n ≠ left || q.els.length < n || s.tailHeld k || q.win.pins ≠ 0 then none
    else
      let q := { q with els := q.els.drop n, landFrames := r, win := { q.win with tail := q.win.tail + BitVec.ofNat 32 (n * q.size) } }
      let s := s.setQueue k q
      let s := if q.journal then s.setJrnl k { s.jrnl k with taken := (s.jrnl k).taken + n } else s
      let x := s.rx rk
      some (s.setRx rk { x with cnt := { x.cnt with dlv := x.cnt.dlv - 1, full := x.cnt.full + 1 } })

/-- Evict frames until a number of elements fits (20 R435). -/
def State.evictFor (s : State) (k rk : PKey) (n : Nat) : Nat → State
  | 0 => s
  | fuel + 1 =>
    if n ≤ s.room k then s
    else match s.evict k rk with | some s => s.evictFor k rk n fuel | none => s

/-- The header and the payload of a delivered frame as elements (20 R434). -/
def landElems (fr : Frame) (n size recv : Nat) (round : BitVec 16) : List QElem :=
  let h := leBytes 2 fr.payload.length ++ leBytes 2 n ++ leBytes 4 recv ++ leBytes 4 fr.source.toNat ++ leBytes 4 0
  let l := h ++ fr.payload
  (List.range n).map fun i => { bits := BitVec.ofNat 4096 (leNat ((l.drop (i * size)).take size)), round := round }

/-- Whether a frame fails step 1 of R433. -/
def State.keyFails (s : State) (rk : PKey) (cfg : Word) (fr : Frame) : Bool :=
  let e := (s.pkg rk.pk.pkg).key (fld cfg 43 13)
  !(e.valid && decide (e.owner = rk.pk.part) && e.kind = 2) || (cfg.getLsbD 42 && !fr.secured) || (fr.secured && !fr.cipherGcm)

/-- Whether the landing queue admits a frame's elements once room has been made (20 R433 step 4, R435). Under `block` the port withholds credit exactly while the elements do not fit, so a frame without credit is one that does not fit. -/
def State.landFits (s : State) (k : PKey) (p : Producer) (n : Nat) : Bool :=
  let q := s.queue k
  (q.state = .open || q.state = .spilling) && q.win.kind = 4 && decide (n ≤ s.roomFor k p)

/-- A frame that a receive context classifies (20 R433 to R435). While its partition does not run, it is dropped and counted full (21 R450). -/
def State.classify (s : State) (rk : PKey) (fr : Frame) : State :=
  let x := s.rx rk
  let k := objKey rk.pk (fld x.cfg 30 12)
  let q := s.queue k
  let n := (fr.payload.length + 16 + q.size - 1) / q.size
  let put := fun (s : State) (w : Landed) => let x := s.rx rk; s.setRx rk { x with cnt := x.cnt.count w }
  if s.keyFails rk x.cfg fr then put s .key
  else if !fr.tagOk || !fr.headerOk || !fr.seqOk then put s .integrity
  else if q.state ≠ .unallocated && (64 < n || q.capacity < n) then put s .oversize
  else if !(s.part rk.pk).st.runs then put s .full
  else
    let s := if fld x.cfg 59 2 = 2 && (q.state = .open || q.state = .spilling) then s.evictFor k rk n (q.landFrames.length + 1) else s
    if !s.landFits k (.port (fld x.cfg 56 3) rk.n) n then put s .full
    else
      let s := put s .delivered
      let els := landElems fr n q.size (s.rx rk).cnt.recv.toNat (s.queue k).prnd
      let j0 := (s.jrnl k).ents.length
      let s := els.foldl (fun s e => s.append k 0 (.port (fld x.cfg 56 3) rk.n) e) s
      let s := if q.journal then s.setJrnl k { s.jrnl k with ents := (s.jrnl k).ents.modify j0 fun e => { e with fr := n } } else s
      let q := s.queue k
      s.setQueue k { q with landFrames := q.landFrames ++ [(n, n)] }

/-- The entry of a port's map that a destination context matches (20 R432, 23 R484). -/
def Pkg.portEntry (p : Pkg) (port : Nat) (dst : BitVec 32) : Option Word :=
  (p.portmap.find? fun e => decide (e.1 / 1024 = port) && e.2.getLsbD 63 && decide (fld e.2 32 24 = dst.toNat)).map Prod.snd

/-- FRAME_RECEIVE (20 R432, R433). A frame of a context that is not enabled, or that another port feeds, maps to no receive context. -/
def execFrameReceive (s : State) : Out State :=
  match s.site with
  | .frameIn k port fr =>
    let p := s.pkg k
    if p.bare then .next s
    else
    let miss := s.setPkg k { p with unmatched := vecSet p.unmatched port (vecGet p.unmatched port 0 + 1) }
    match p.portEntry port fr.dst with
    | none => .next miss
    | some e =>
      let rk : PKey := ⟨⟨k, fld e 8 5⟩, fld e 0 8⟩
      let cfg := (s.rx rk).cfg
      if !cfg.getLsbD 63 || fld cfg 56 3 ≠ port then .next miss else .next (s.classify rk fr)
  | _ => .fault .noSite

/-! ### Casks and banks -/

/-- CASK_MOVE (14 R317, R323): the oldest element of a cask enters the window. The check value of one that software has changed fails (01 R36). -/
def execCaskMove (s : State) : Out State :=
  match s.site with
  | .obj k =>
    let q := s.queue k
    match q.cask with
    | [] => .next s
    | e :: r =>
      if q.state = .frozen || q.capacity ≤ q.els.length then .next s
      else if q.caskBad then .next (s.detected k.pk)
      else
        .next (s.setQueue k
          { q with
            els := q.els ++ [e], cask := r, state := if r = [] && q.state = .spilling then .open else q.state
            win := { q.win with head := q.win.head + BitVec.ofNat 32 q.size } })
  | _ => .fault .noSite

/-- BANK_DRAIN_DONE (07 R172): the matrix commands of the old owner's contexts on the core have been performed; a copy that reaches the bank
parks (15 R355). -/
def execBankDrainDone (s : State) : Out State :=
  match s.site with
  | .bank k =>
    match s.bank k with
    | .draining p q =>
      if s.ctxs.any fun e => e.2.pk = ⟨k.pkg, p⟩ && e.2.pos.isSome && decide (e.2.core = k.core) && !e.2.fx.q14.isEmpty then .next s
      else .next (s.setBank k (.scrubbing q))
    | .unowned | .owned _ | .scrubbing _ => .next s
  | _ => .fault .noSite

/-- BANK_SCRUB_DONE (07 R172): every byte of the bank is zero, and it is its new owner's. -/
def execBankScrubDone (s : State) : Out State :=
  match s.site with
  | .bank k =>
    match s.bank k with
    | .scrubbing q =>
      let a := bufKey k.pkg k.core k.buf (32768 * k.bank)
      let s := { s with bufs := s.bufs.clear a (a + 32768) }
      .next (s.setBank k (match q with | some p => .owned p | none => .unowned))
    | .unowned | .owned _ | .draining _ _ => .next s
  | _ => .fault .noSite

end Sys2Proof.Machine
end

