-- ==== Sys2Proof/Machine/Vd.lean ====
section
/-!
DEFINITION. Virtual devices (21 R442 to R464): the `vd` commands, quiesce, transfer, the sweep and the arrival of pages, redirects, hangs, detected errors,
and the end of a replay.
-/
namespace Sys2Proof.Machine

/-! ### The instructions -/

/-- Whether a device word keeps its layout (21 R463). -/
def vdWordOk (c : VdCmd) (v : Word) : Bool :=
  let wide := decide (fld v 5 27 = 0) && decide (fld v 37 3 = 0)
  match c with
  | .quiesce | .resume | .release => decide (fld v 5 59 = 0)
  | .send => wide && decide (fld v 50 14 = 0)
  | .replay => if v.getLsbD 63 then wide && decide (fld v 50 13 = 0) else decide (fld v 5 58 = 0)

/-- Whether some slot of a package has a valid pairing with a package number (21 R463). -/
def Pkg.pairedAny (p : Pkg) (num : Nat) : Bool := (List.range 32).any fun slot => p.paired slot num

/-- The subcode of a `vd` command (21 R463): 0 where there is no fault. -/
def State.vdSub (s : State) (x : Ctx) (c : VdCmd) (v : Word) : Nat :=
  let p := s.pkg x.pk.pkg
  let num := fld v 40 10
  if !vdWordOk c v then 1
  else if (c = .send || (c = .replay && v.getLsbD 63)) && (decide (num = p.num.toNat) || !p.pairedAny num) then 2
  else 0

/-- A `vd` command issues (21 R462, R463). -/
def vdIssue (i : Info) (id : Ident) (c : VdCmd) (s : State) : Out State :=
  storeOp i id
    (fun cu b _ l _ => withCtx s b fun x =>
      let n := s.vdSub x c l.val
      if n ≠ 0 then subFault s cu b 0x37 n else completeWith s cu b id (.vd c l.val)) s

/-- `vd.quiesce` (21 R462). -/
def execVdQuiesce (p : Pred) (id : Ident) (s : State) : Out State := vdIssue (info (.vdQuiesce p id)) id .quiesce s
/-- `vd.send` (21 R462). -/
def execVdSend (p : Pred) (id : Ident) (s : State) : Out State := vdIssue (info (.vdSend p id)) id .send s
/-- `vd.resume` (21 R462). -/
def execVdResume (p : Pred) (id : Ident) (s : State) : Out State := vdIssue (info (.vdResume p id)) id .resume s
/-- `vd.release` (21 R462). -/
def execVdRelease (p : Pred) (id : Ident) (s : State) : Out State := vdIssue (info (.vdRelease p id)) id .release s
/-- `vd.replay` (21 R462). -/
def execVdReplay (p : Pred) (id : Ident) (s : State) : Out State := vdIssue (info (.vdReplay p id)) id .replay s

/-! ### Resources of a slot -/

/-- A dword of an argument area of `assign` (23 R483). -/
def areaW (a : Vector Word 32) (n : Nat) : Word := (a[n]?).getD 0

/-- The cores that an area names (23 R483). -/
def areaCores (a : Vector Word 32) : List Nat := (List.range 384).filter fun c => (areaW a (1 + c / 64)).getLsbD (c % 64)

/-- The banks that an area names on every core (23 R483, 07 R173). -/
def areaBanks (a : Vector Word 32) : List (Buf × Nat) :=
  ((List.range 48).filter fun i => (areaW a 7).getLsbD i).map fun i =>
    if i < 24 then (.w, i) else if i < 40 then (.a, i - 24) else (.c, i - 40)

/-- The bank keys of an area on a package. -/
def areaBankKeys (k : Nat) (a : Vector Word 32) : List BankKey :=
  (areaCores a).flatMap fun c => (areaBanks a).map fun b => ⟨k, c, b.1, b.2⟩

/-- The slot that a bank belongs to, or will when it has been scrubbed (07 R172). -/
def BankSt.owner : BankSt → Option Nat
  | .unowned => none
  | .owned p => some p
  | .draining _ q | .scrubbing q => q

/-- A bank is assigned to a slot (07 R172): at once where it is unowned, else when it has been scrubbed. -/
def BankSt.give (b : BankSt) (p : Nat) : BankSt :=
  match b with
  | .unowned => .owned p
  | .owned o => if o = p then .owned p else .draining o (some p)
  | .draining o _ => .draining o (some p)
  | .scrubbing _ => .scrubbing (some p)

/-- Give a slot the banks of an area (23 R482). -/
def State.giveBanks (s : State) (pk : PartKey) (a : Vector Word 32) : State :=
  (areaBankKeys pk.pkg a).foldl (fun s k => s.setBank k ((s.bank k).give pk.part)) s

/-- The window memory of an area on a die: base and length in 64 KiB units (23 R483). -/
def areaWin (a : Vector Word 32) (d : Nat) : Nat × Nat := (fld (areaW a (8 + d)) 0 16, fld (areaW a (8 + d)) 32 16)

/-- A memory range of an area: base and length (23 R483). -/
def areaMem (a : Vector Word 32) (i : Nat) : Nat × Nat := ((areaW a (12 + 2 * i)).toNat, (areaW a (13 + 2 * i)).toNat)

/-- Whether two areas share window memory, a memory range or a VF (23 R483). -/
def areasMeet (a b : Vector Word 32) : Bool :=
  (List.range 4).any (fun d => overlaps (areaWin a d).1 (areaWin a d).2 (areaWin b d).1 (areaWin b d).2)
    || ((List.range 8).any fun i => (List.range 8).any fun j =>
      overlaps (areaMem a i).1 (areaMem a i).2 (areaMem b j).1 (areaMem b j).2)
    || ((areaW a 28).getLsbD 7 && (areaW b 28).getLsbD 7 && decide (fld (areaW a 28) 0 6 = fld (areaW b 28) 0 6))

/-- Whether a resource of an area belongs to another slot of a package (23 R483). -/
def State.areaTaken (s : State) (pk : PartKey) (a : Vector Word 32) : Bool :=
  ((areaBankKeys pk.pkg a).any fun k => match (s.bank k).owner with | some o => decide (o ≠ pk.part) | none => false)
    || s.parts.any fun e => e.1.pkg = pk.pkg && decide (e.1.part ≠ pk.part) && e.2.st ≠ .vacant && areasMeet a e.2.area

/-- Whether a slot of a package can hold the device of an area: it is vacant, the package is there, its cores are present and have the banks, and no
resource is taken. -/
def State.canHost (s : State) (pk : PartKey) (a : Vector Word 32) : Bool :=
  (s.pkgs.get? pk.pkg).isSome && !(s.pkg pk.pkg).lost && !(s.pkg pk.pkg).held && (s.part pk).st = .vacant
    && (areaCores a).all (fun c => !(s.pkg pk.pkg).coreAbsent c)
    && (areaBanks a).all (fun b => decide (b.2 < Config.banks (s.pkg pk.pkg).chip b.1)) && !s.areaTaken pk a

/-! ### A device changes its slot -/

/-- The slot of a device once it has moved. -/
def movePk (a b k : PartKey) : PartKey := if k = a then b else k
/-- The key of an object once its device has moved. -/
def movePKey (a b : PartKey) (k : PKey) : PKey := ⟨movePk a b k.pk, k.n⟩
/-- The key of a kernel once its device has moved. -/
def moveKern (a b : PartKey) (k : KernKey) : KernKey := ⟨movePk a b k.pk, k.lq, k.seq⟩
/-- Binds of a barrier follow its device. -/
def moveBinds (a b : PartKey) (l : List BindRec) : List BindRec := l.map fun r => { r with bar := movePKey a b r.bar }

/-- An operation once its device has moved (15 R339, R358): its staging window has no place on the new die yet, and it waits for no pull of the old slot. -/
def StrmOp.moved (o : StrmOp) : StrmOp := { o with pull := none, swin := o.swin.map fun w => { w with win := { w.win with kind := 0 } } }

/-- A context once a device has moved. -/
def Ctx.moved (x : Ctx) (a b : PartKey) : Ctx :=
  { x with
    pk := movePk a b x.pk
    kern := moveKern a b x.kern
    eng := { x.eng with
      eqs := x.eng.eqs.map fun l => l.map fun o => { (if x.pk = a then o.moved else o) with binds := moveBinds a b o.binds }
      binds := x.eng.binds.map fun e => (e.1, { e.2 with bar := movePKey a b e.2.bar }) }
    fx := { x.fx with
      q14 := x.fx.q14.map fun m => { m with pins := m.pins.map fun p => (movePKey a b p.1, p.2), binds := moveBinds a b m.binds } } }

/-- A table of objects once a device has moved; nothing of the new slot is left in it. -/
def moveTab {α : Type} (a b : PartKey) (f : α → α) (t : Tab PKey α) : Tab PKey α :=
  (t.filter fun e => e.1.pk ≠ b).map fun e => (movePKey a b e.1, if e.1.pk = a then f e.2 else e.2)

/-- The queues, journals, barriers, signals, groups, kernels, receive contexts and contexts of a slot move to another (21 R455). -/
def State.rekey (s : State) (a b : PartKey) : State :=
  { s with
    ctxs := s.ctxs.map fun e => (e.1, e.2.moved a b)
    queues := moveTab a b (fun q => { q with win := { q.win with part := b.part } }) s.queues
    jrnls := moveTab a b id s.jrnls
    bars := (moveTab a b id s.bars).map fun e => (e.1, { e.2 with group := e.2.group.map (movePKey a b) })
    sigs := moveTab a b id s.sigs
    rxs := moveTab a b id s.rxs
    groups := moveTab a b (fun g => { g with kern := moveKern a b g.kern, preFor := g.preFor.map (moveKern a b) }) s.groups
    kerns := (s.kerns.filter fun e => e.1.pk ≠ b).map fun e => (moveKern a b e.1, e.2)
    shoots := s.shoots.map fun h => if h.key = none then { h with pk := movePk a b h.pk } else h }

/-- The frames of a range of local memory, as the largest form has it. -/
def framesOf (lo len : Nat) : List Nat :=
  if len = 0 || !({} : Pkg).inLocal lo len then [] else (List.range ((lo + len - 1) / 65536 - lo / 65536 + 1)).map fun i => lo / 65536 + i

/-- The frames of the page of an entry. -/
def Pte.frames (e : Pte) : List Nat := framesOf (e.frame.toNat * 65536) e.len

/-- The protected frames of a slot that its registers name (21 R443). -/
def State.ownFrames (s : State) (pk : PartKey) : List Nat :=
  let p := s.part pk
  framesOf (fld p.kfrec 16 36 * 65536) (2 * fld p.kfrec 52 12 * 65536)
    ++ framesOf (fld p.vdjrn 16 36 * 65536) (fld p.vdjrn 52 12 * 65536) ++ framesOf p.pool.1 (8 * p.pool.2)
    ++ ((List.range p.pool.2).filter fun n => (s.peekW pk.pkg (p.pool.1 + 8 * n)).getLsbD 63).map (s.poolFrame pk)

/-- The frames of a slot's page tables and anchors. -/
def Part.tableFrames (p : Part) : List Nat :=
  let t := fun (w : Word) => framesOf (fld w 7 45 * 128) (if fld w 58 6 = 0 then 0 else 128 * 2 ^ fld w 58 6)
  t p.ptu ++ t p.ptp ++ framesOf (fld p.ptanc 2 50 * 4) (if fld p.ptanc 58 6 = 0 then 0 else 4 * 2 ^ fld p.ptanc 58 6)

/-- The frames that device units of a slot use (21 R443, R455): its own protected ones, page tables, launch rings, and context images with their kiln
sections. -/
def State.unitFrames (s : State) (pk : PartKey) : List Nat :=
  let p := s.part pk
  let rings := (List.range 4).flatMap fun n => framesOf (p.ringAddr n 0) (16 * p.lqCap n)
  let images := s.ctxs.flatMap fun e =>
    if e.2.pk = pk && e.2.st = .saved then
      framesOf e.2.image (e.2.imageLen + 128 * fld (s.peekW pk.pkg e.2.image) 16 16)
    else []
  (s.ownFrames pk ++ p.tableFrames ++ rings ++ images).eraseDups

/-- The frames that a transfer carries (21 R455): those that device units use, and those of fenced, shadowed and pinned pages. -/
def State.carried (s : State) (pk : PartKey) : List Nat :=
  let pages := (s.entries pk).flatMap fun e => if e.2.state = 2 || e.2.state = 3 || e.2.state = 5 then e.2.frames else []
  (s.unitFrames pk ++ pages).eraseDups

/-- Carry frames to another package. -/
def State.carryFrames (s : State) (a b : Nat) (l : List Nat) : State := l.foldl (fun s f => s.carry a (f * 65536) b (f * 65536) 65536) s

/-- Carry the entries of the inverted tables that describe a slot's frames. -/
def State.carryInv (s : State) (a : PartKey) (b : Nat) : State :=
  (s.invEntries a).foldl
    (fun s e => match e.1 with | .inverted t i => s.poke128 b (invAddr t i) (s.peek128 a.pkg (invAddr t i)) | .hashed _ => s) s

/-- The pages that move (19 R403, 21 R455): each local page but poisoned and pinned ones. Frames that device units use are at the target from the
transfer on. -/
def State.movers (s : State) (pk : PartKey) : List (PteLoc × Pte × Moving) :=
  let units := s.unitFrames pk
  (s.entries pk).filterMap fun e =>
    let fs := e.2.frames
    if e.2.state ≠ 5 && e.2.state ≠ 6 && fs ≠ [] then
      some (e.1, e.2, { asn := e.2.asn, va := e.2.vbase, size := e.2.size.toNat, st := e.2.state, src := e.2.frame.toNat, dst := e.2.frame.toNat
                        held := fs.filter units.contains })
    else none

/-- Copy the banks that a slot owns on cores where it has a context (21 R455). -/
def State.carryBanks (s : State) (a b : PartKey) : State :=
  (s.banks.filter fun e => e.1.pkg = a.pkg && e.2 = .owned a.part
      && s.ctxs.any fun x => x.2.pk = a && x.2.st = .saved && decide (x.2.pre.core = e.1.core)).foldl
    (fun s e => s.bufWrite b.pkg e.1.core e.1.buf (32768 * e.1.bank) (s.bufRead a.pkg e.1.core e.1.buf (32768 * e.1.bank) 32768)) s

/-- The memory of a device goes across (21 R455): its frames, its tables with the moving pages in transit, and its banks. -/
def State.carryDevice (s : State) (a b : PartKey) (sent : List Nat) (ms : List (PteLoc × Pte × Moving)) : State :=
  let s := ((s.carryFrames a.pkg b.pkg sent).carryInv a b.pkg).giveBanks b (s.part a).area
  ms.foldl (fun s e => s.setPte b.pkg e.1 { e.2.1 with state := 4 }) (s.carryBanks a b)

/-- The queues of a slot return to the states that they had when they were frozen (14 R317, 21 R446). -/
def State.unfreeze (s : State) (pk : PartKey) : State :=
  { s with
    queues := s.queues.map fun e => if e.1.pk = pk && e.2.state = .frozen then (e.1, { e.2 with state := e.2.prev, prev := .unallocated }) else e }

/-- The transfer of a quiesced device (21 R455): the target is pulling, or settled where no page moves. Frames keep their addresses (log 30). -/
def State.transfer (s : State) (a b : PartKey) : State :=
  let p := s.part a
  let sent := s.carried a
  let ms := s.movers a
  let moving := ms.map fun e => e.2.2
  let left := BitVec.ofNat 32 moving.length
  let aliases := (sent ++ moving.flatMap fun m => framesOf (m.src * 65536) (2 ^ psz m.size)).eraseDups.map fun f => (f, f)
  let s := (s.carryDevice a b sent ms).rekey a b
  let t : Part := { p with
    st := if moving = [] then .settled else .pulling, opkg := (s.pkg a.pkg).num, opart := BitVec.ofNat 5 a.part, left := left
    linkadm := (s.part b).linkadm, aliases := aliases, transit := moving, pulls := [], vdBy := none }
  let old : Part := { area := p.area, vdcfg := p.vdcfg, linkadm := p.linkadm, tbad := p.tbad
                      st := .inTransit, opkg := (s.pkg b.pkg).num, opart := BitVec.ofNat 5 b.part, left := left }
  let s := (((s.setPart b t).setPart a old).unfreeze b).consider b
  { s with
    walks := s.walks.filter fun w => !(w.pkg = a.pkg && w.part = a.part) }

/-! ### Performance -/

/-- A `vd` command of a thread ends at once. -/
def State.vdOut (s : State) (c st : Nat) : State := s.vdresPut c st

/-- `vd.quiesce` begins (21 R446): every group is pre-empted, queues freeze, leases end. -/
def State.vdQuiesce (s : State) (c : Nat) (pk : PartKey) : State :=
  if (s.part pk).st ≠ .resident then s.vdOut c 5
  else
    let s := s.setPart pk { s.part pk with st := .quiescing, vdBy := some c }
    let s : State := { s with
      groups := s.groups.map fun e => if e.1.pk = pk && e.2.st = .freeing then (e.1, { e.2 with freed := true }) else e
      queues := s.queues.map fun e =>
        if e.1.pk = pk && e.2.state ≠ .unallocated && e.2.state ≠ .frozen then (e.1, { e.2 with prev := e.2.state, state := .frozen }) else e
      ctxs := s.ctxs.map fun e => if e.2.pk = pk then (e.1, { e.2 with lease := { e.2.lease with st := .none } }) else e }
    (s.groups.filter fun e => e.1.pk = pk && (e.2.st = .resident || e.2.st = .collecting || e.2.st = .freeing)).foldl
      (fun s e => s.saveGroup e.1 false none) s

/-- `vd.send` begins (21 R446, R464): a target that is not vacant or not there refuses. -/
def State.vdSend (s : State) (c : Nat) (pk : PartKey) (v : Word) : State :=
  let p := s.part pk
  let b : PartKey := ⟨s.pkgOfNum (fld v 40 10), fld v 32 5⟩
  if p.st ≠ .quiesced then s.vdOut c 5
  else if !(s.pkgs.get? b.pkg).isSome || (s.pkg b.pkg).lost || (s.part b).st ≠ .vacant then s.vdOut c 3
  else s.setPart pk { p with vdBy := some c, opkg := BitVec.ofNat 10 (fld v 40 10), opart := BitVec.ofNat 5 b.part }

/-- `vd.resume` (21 R446): queues return to their states; groups restore when they are eligible. -/
def State.vdResume (s : State) (c : Nat) (pk : PartKey) : State :=
  let p := s.part pk
  if p.st ≠ .quiesced then s.vdOut c 5
  else
    (((s.setPart pk { p with st := .resident }).unfreeze pk).consider pk).vdOut c 2

/-- `vd.release` (21 R446, R458): the source becomes vacant, the target resident. -/
def State.vdRelease (s : State) (c : Nat) (pk : PartKey) : State :=
  let p := s.part pk
  let b := s.otherSlot p
  if p.st ≠ .inTransit || (s.part b).st ≠ .settled then s.vdOut c 5
  else ((s.vacate pk).setPart b { s.part b with st := .resident, opkg := 0, opart := 0, left := 0 }).vdOut c 2

/-- Whether the twin of the newest complete record of a lost slot can be read on a package (21 R464). -/
def State.twinReadable (s : State) (k : Nat) (p : Part) : Bool :=
  match p.recd with
  | none => false
  | some r => p.recAt = p.slotAddr (r.seq.toNat % 2) && !s.checkFails k (p.slotAddr (r.seq.toNat % 2)) none && (s.pkg k).hbmHere (p.slotAddr (r.seq.toNat % 2))

/-- Build the device of a lost slot from its twins (21 R453, R464): its tables are kept, and pages other than protected frames are poisoned. A source that
the device was moving from serves the new slot (R459). -/
def State.rebuild (s : State) (c : Nat) (a b : PartKey) : State :=
  let p := s.part a
  let s := ((s.carryFrames a.pkg b.pkg p.tableFrames).carryInv a b.pkg).giveBanks b p.area
  let s := s.rekey a b
  let s := s.setPart b { p with
    st := .replaying, vdcfg := BitVec.ofNat 64 (p.vdcfg.toNat % 2 ^ 62), linkadm := (s.part b).linkadm, lossy := true, vdBy := some c }
  let s := s.poisonPages b fun e => e.state ≠ 2 && e.state ≠ 3 && e.state ≠ 4 && e.state ≠ 6 && e.frames ≠ []
  let o := s.otherSlot p
  let s := if p.wasPull then s.setPart o { s.part o with opkg := (s.pkg b.pkg).num, opart := BitVec.ofNat 5 b.part } else s
  (s.vacate a).setPart a {}

/-- `vd.replay` (21 R448, R464). -/
def State.vdReplay (s : State) (c : Nat) (pk : PartKey) (v : Word) : State :=
  let p := s.part pk
  if v.getLsbD 63 then
    let a : PartKey := ⟨(s.pkgs.find? fun e => decide (e.2.num.toNat = fld v 40 10)).elim (fld v 40 10) Prod.fst, fld v 32 5⟩
    let l := s.part a
    if p.st ≠ .vacant || !(s.pkg a.pkg).lost || fld l.vdcfg 62 2 ≠ 2 || fld l.vdcfg 48 10 ≠ (s.pkg pk.pkg).num.toNat
        || fld l.vdcfg 43 5 ≠ pk.part then s.vdOut c 5
    else if l.st ≠ .replaying || !s.twinReadable pk.pkg l then s.vdOut c 4
    else s.rebuild c a pk
  else
    match p.st with
    | .resident | .quiesced | .pulling | .settled =>
      let s := s.partReset pk
      if (s.part pk).st = .replaying then s.setPart pk { s.part pk with vdBy := some c } else s.vdOut c 4
    | .vacant | .quiescing | .inTransit | .replaying | .failed => s.vdOut c 5

/-- A `vd` command of a thread is performed (21 R464). -/
def State.vdDo (s : State) (c : Nat) (cmd : VdCmd) (v : Word) : State :=
  match s.ctxs.get? c with
  | none => s
  | some x =>
    let pk : PartKey := ⟨x.pk.pkg, fld v 0 5⟩
    if !s.vadm x.pk then s.vdOut c 6
    else if pk = x.pk || (s.part pk).vdBy.isSome then s.vdOut c 5
    else
      match cmd with
      | .quiesce => s.vdQuiesce c pk
      | .send => s.vdSend c pk v
      | .resume => s.vdResume c pk
      | .release => s.vdRelease c pk
      | .replay => s.vdReplay c pk v

/-! ### The events of a migration -/

/-- Whether the store path of a context holds nothing more that a quiesce waits for: a `qfence` may wait for operations that have stopped. -/
def Ctx.pathQuiet (x : Ctx) : Bool := x.path.all fun e => e.eff.isQfence || x.fencedOff e

/-- QUIESCE_COMPLETE (21 R446): the transit point. -/
def execQuiesceComplete (s : State) : Out State :=
  match s.site with
  | .part pk =>
    let p := s.part pk
    let still := s.ctxs.all fun e => e.2.pk ≠ pk || ((e.2.st = .saved || e.2.st = .ended || e.2.st = .faulted) && e.2.pathQuiet)
    if p.st = .quiescing && still && !s.amos.any (fun a => a.pk = pk) then .next ((s.setPart pk { p with st := .quiesced }).vdEnd pk 2)
    else .next s
  | _ => .fault .noSite

/-- Whether every group of a device finds seats on the package that it has come to (21 R455). -/
def State.groupsFit (s : State) (b : PartKey) : Bool := s.groups.all fun e => e.1.pk ≠ b || e.2.st ≠ .saved || (s.groupSeats e.1 e.2).isSome

/-- TRANSFER_COMPLETE (21 R446, R455): the target of a `vd.send` accepts, or refuses and leaves the source quiesced. -/
def execTransferComplete (s : State) : Out State :=
  match s.site with
  | .partOk a ok =>
    let p := s.part a
    if p.st ≠ .quiesced || p.vdBy.isNone then .next s
    else
      let b := s.otherSlot p
      let t := s.transfer a b
      let none' := s.vdEnd a 3
      if ok && s.canHost b p.area && t.groupsFit b then
        .next (match p.vdBy with | some c => t.vdresPut c 2 | none => t)
      else .next (none'.setPart a { none'.part a with opkg := 0, opart := 0 })
  | _ => .fault .noSite

/-- The page of an address space that moves next (21 R457): its lowest. -/
def nextMover (l : List Moving) (asn : BitVec 16) : Option Moving :=
  (l.filter fun m => m.asn = asn).foldl
    (fun o m => match o with | none => some m | some b => if m.va < b.va then some m else some b) none

/-- SWEEP_SEND (21 R457): the source of a device sends a page that no pull has asked for; which address space is swept next is free. -/
def execSweepSend (s : State) : Out State :=
  match s.site with
  | .part a =>
    let p := s.part a
    let b := s.otherSlot p
    let t := s.part b
    if p.st ≠ .inTransit || !t.movedIn || t.pulls ≠ [] || t.transit = [] then .next s
    else
      let asns := (t.transit.map fun m => m.asn).eraseDups
      let d := s.drawNat
      match (asns[d.1 % asns.length]?).bind (nextMover t.transit) with
      | none => .next s
      | some m => .next (d.2.setPart b { d.2.part b with pulls := [(m.asn, m.va)] })
  | _ => .fault .noSite

/-- Whether a page that moves has been asked for. -/
def Part.asked (p : Part) (m : Moving) : Bool := p.pulls.any fun g => g.1 = m.asn && decide (g.2 % 2 ^ 56 = m.va % 2 ^ 56)

/-- Whether an update that is on its way names a page that has not left its source (21 R457). -/
def State.updatesIn (s : State) (b : PartKey) (src : Nat) (m : Moving) : Bool :=
  s.amos.any fun a =>
    (a.pk = b && decide (m.dst ≤ a.pa / 65536) && decide (a.pa / 65536 < m.dst + 2 ^ (psz m.size - 16)))
      || (let r := s.reach a.pk a.pa
          decide (r.1 = src) && decide (m.src ≤ r.2 / 65536) && decide (r.2 / 65536 < m.src + 2 ^ (psz m.size - 16)))

/-- Whether a granule of the page at its source fails its check value (21 R457). -/
def State.pageBad (s : State) (src : Nat) (m : Moving) : Bool :=
  s.bad.any fun g =>
    decide (granule (memKey src (m.src * 65536)) ≤ g) && decide (g < granule (memKey src (m.src * 65536 + 2 ^ psz m.size)))
      && !m.held.contains ((g * 128 - memKey src 0) / 65536)

/-- A page arrives (21 R456, R457): its granules, its state at the source, a shoot-down. -/
def State.arrivePage (s : State) (b : PartKey) (src : Nat) (m : Moving) : State :=
  let fs := (framesOf (m.src * 65536) (2 ^ psz m.size)).filter fun f => !m.held.contains f
  let s := fs.foldl (fun s f => s.carry src (f * 65536) b.pkg ((f - m.src + m.dst) * 65536) 65536) s
  let s := match (s.entries b).find? fun e => e.2.state = 4 && e.2.asn = m.asn && decide (e.2.vbase = m.va) && decide (e.2.frame.toNat = m.dst) with
    | some e => (s.setPte b.pkg e.1 { e.2 with state := m.st }).shootPte b e.1 e.2
    | none => s
  let p := s.part b
  let left := p.transit.filter fun t => t ≠ m
  let n := BitVec.ofNat 32 left.length
  let s := s.setPart b { p with
    transit := left, left := n, st := if left = [] && p.st = .pulling then .settled else p.st
    pulls := p.pulls.filter fun g => !(g.1 = m.asn && decide (g.2 % 2 ^ 56 = m.va % 2 ^ 56)) }
  let a := s.otherSlot p
  s.setPart a { s.part a with left := n }

/-- PAGE_ARRIVAL (21 R457): a page that was pulled or swept arrives at the target, named by its frame there. An error in what the source
owns resets the target's device. -/
def execPageArrival (s : State) : Out State :=
  match s.site with
  | .partV b v =>
    let p := s.part b
    let src := (s.otherSlot p).pkg
    match p.transit.find? fun m => m.dst * 65536 = v.toNat with
    | none => .next s
    | some m =>
      if !p.movedIn || !p.asked m || (s.pkg src).lost || s.updatesIn b src m then .next s
      else if s.pageBad src m then .next (s.detected b)
      else .next (s.arrivePage b src m)
  | _ => .fault .noSite

/-- REDIRECT (21 R458): an access of a slot to a remote address whose page has arrived elsewhere is sent on. -/
def execRedirect (s : State) : Out State :=
  match s.site with
  | .partV k v => .next (s.redirected k v.toNat)
  | _ => .fault .noSite

/-! ### Resets -/

/-- HANG_DETECT (21 R449). -/
def execHangDetect (s : State) : Out State :=
  match s.site with
  | .part pk =>
    let p := s.part pk
    let n := fld p.vdcfg 0 16
    let run := s.kerns.any fun e => e.1.pk = pk && e.2.runs
    if decide (n ≠ 0) && run && decide (n * 65536 ≤ (s.cycle pk.pkg 0 - p.stamp).toNat) then .next (s.partReset pk) else .next s
  | _ => .fault .noSite

/-- DETECTED_ERROR (01 R36, 21 R457): in what the source of a migration still owns, it resets the target's device. -/
def execDetectedError (s : State) : Out State :=
  match s.site with
  | .part pk =>
    let p := s.part pk
    match p.st with
    | .vacant => .next s
    | .inTransit => .next (s.detected (s.otherSlot p))
    | .resident | .quiescing | .quiesced | .pulling | .settled | .replaying | .failed => .next (s.detected pk)
  | _ => .fault .noSite

/-! ### The end of a replay -/

/-- A kernel that returns to accepted: what its run left is forgotten. -/
def Kern.again (k : Kern) : Kern :=
  { pa := k.pa, va := k.va, srcPriv := k.srcPriv, host := k.host }

/-- A kernel of a record returns to accepted, with its shadows discarded and its code unpinned (21 R450 step 5). -/
def State.returnKern (s : State) (kk : KernKey) : State :=
  match s.kerns.get? kk with
  | none => s
  | some k => ((s.updKern kk Kern.again).dropShadows kk k).unpinCode kk k

/-- How far a sequence number lies past keep. -/
def seqPast (keep : BitVec 32) (n : Nat) : Nat := (BitVec.ofNat 32 n - keep).toNat

/-- Whether a kernel was accepted after a record was made (16 R362, R373). -/
def FenceRec.late (r : FenceRec) (lq seq : Nat) : Bool :=
  let keep := vecGet r.keep lq 0
  decide (seqPast keep (vecGet r.tail lq 0).toNat ≤ seqPast keep seq) && decide (seqPast keep seq < 2 ^ 31)

/-- A launch queue as a replay restores it (21 R450 step 5): kernels after the record leave nothing behind and are forgotten, but for host entries, which
are accepted again. -/
def State.restoreLq (s : State) (pk : PartKey) (r : FenceRec) (n : Nat) : State :=
  let keep := vecGet r.keep n 0
  let backs := (r.kerns.filter fun k => k.lq = n && k.returns).map fun k => seqPast keep k.seq
  let head := keep + BitVec.ofNat 32 (backs.foldl min (vecGet r.head n 0 - keep).toNat)
  let late := fun (e : KernKey × Kern) => e.1.pk = pk && e.1.lq = n && r.late n e.1.seq
  let s := ((s.kerns.filter late).map Prod.fst).foldl State.returnKern s
  let s : State := { s with kerns := s.kerns.filter fun e => !late e || e.2.host }
  let p := s.part pk
  let s := s.setPart pk { p with head := vecSet p.head n head, tail := vecSet p.tail n (vecGet r.tail n 0), keep := vecSet p.keep n keep }
  (s.tailOn pk n (p.lqCap n)).keepOn pk n 65536

/-- Markers taken since a position are taken back (14 R329). -/
def Queue.untake (q : Queue) (m : Nat) : Queue :=
  if m ≤ q.cm then { q with cm := q.cm - m }
  else
    let n := if q.consMarkers = 0 then 1 else q.consMarkers
    let b := (m - q.cm + n - 1) / n
    { q with cm := q.cm + b * n - m, crnd := q.crnd - BitVec.ofNat 16 b }

/-- Markers appended since a record are counted (14 R329). -/
def Queue.remark (q : Queue) : Nat → Queue
  | 0 => q
  | n + 1 => (q.countMarker q.nprod).remark n

/-- The number of entries of a journal that are markers. -/
def marks (l : List JEnt) : Nat := (l.filter fun e => e.el.marker).length

/-- The frames that journal entries make up (20 R434), the youngest first: their sizes (0 for one whose beginning is gone) and their entries. -/
def frameRuns (l : List JEnt) : List (Nat × Nat) :=
  l.foldl
    (fun acc e =>
      if e.fr ≠ 0 then (e.fr, 1) :: acc
      else match acc with | [] => [(0, 1)] | (n, c) :: r => (n, c + 1) :: r) []

/-- What is left of frames, the oldest first, once some elements have been taken. -/
def framesLeft : Nat → List (Nat × Nat) → List (Nat × Nat)
  | _, [] => []
  | k, (n, c) :: r => if c ≤ k then framesLeft (k - c) r else (n, c - k) :: r

/-- Where a queue's window lies after a loss (21 R450 step 4): on its die, or on one that survives. -/
def State.rewindow (s : State) (pk : PartKey) (w : Win) : Win :=
  if (s.pkg pk.pkg).dieHere w.die then w
  else
    match (List.range 4).findSome? fun d =>
        if (s.pkg pk.pkg).dieHere d then (s.windowRoom pk d (2 ^ w.lsize)).map fun b => (d, b) else none with
    | some t => { w with die := t.1, base := t.2 }
    | none => w

/-- The queue that a record entry and its journal give (21 R450 step 4), from a position: what its window does not hold (07 R164) stands in its cask, or
without one waits in the journal for the window to gain room (log 67). -/
def RecQueue.reopen (r : RecQueue) (j : Jrnl) (pos : Nat) (old : Queue) : Queue :=
  let es := j.ents.drop (pos - j.base)
  let bytes := fun (l : List JEnt) => BitVec.ofNat 32 (l.length * r.q.size)
  let back := (j.ents.take (r.taken - j.base)).drop (pos - j.base)
  let cut := min r.q.capacity es.length
  let st := if r.q.state = .frozen then r.q.prev else r.q.state
  let st := if st = .open || st = .spilling then (if r.q.spill && decide (cut < es.length) then .spilling else .open) else st
  let tail := r.q.win.tail - bytes back
  let q := (r.q.untake (marks back)).remark (if r.q.prodk then 0 else marks (j.ents.drop (r.upto - j.base)))
  { q with
    state := st, prev := .unallocated, els := (es.take cut).map JEnt.el, cask := (es.drop cut).map JEnt.el, caskBad := false
    win := { q.win with pins := 0, tail := tail, head := tail + bytes (es.take cut) }
    stageToks := [], strmProd := none, strmCons := none
    landFrames := if r.q.win.kind = 4 then framesLeft (pos - j.base) (frameRuns j.ents).reverse else []
    chain := q.chain.map fun c =>
      { c with sent := c.sent - BitVec.ofNat 32 (c.unack.length + back.length), unack := [], held := []
               expected := match old.chain with | some o => o.expected | none => c.expected
               cm := match old.chain with | some o => o.cm | none => c.cm } }

/-- Reopen a journalled queue (21 R450 steps 4 and 6): its producers that run again, those accepted after the record among them, count from 0 (R451). -/
def State.reopen (s : State) (pk : PartKey) (f : FenceRec) (ks : List RecKern) (r : RecQueue) : State :=
  let k := objKey pk r.n
  let j := s.jrnl k
  let pos := oldestNeeded r.n r.taken ks
  let again := fun (p : Producer) => match p with | .ctx lq seq _ => f.late lq seq || ks.any fun n => n.lq = lq && n.seq = seq | .port _ _ | .chain => false
  let q := r.reopen j pos (s.queue k)
  let s := s.setQueue k { q with win := s.rewindow pk { q.win with part := pk.part } }
  s.setJrnl k { j with taken := pos, ords := j.ords.filter fun o => !again o.1 }

/-- Steps 4 to 6 of a replay (21 R450). -/
def State.replayEnd (s : State) (pk : PartKey) (r : FenceRec) : State :=
  let back := r.kerns.filter RecKern.returns
  let s := (s.finishAll pk r.ends).2
  let s := back.foldl (fun s k => s.returnKern ⟨pk, k.lq, k.seq⟩) s
  let s := (List.range 4).foldl (fun s n => s.restoreLq pk r n) s
  let old := s
  let s : State := { s with queues := s.queues.filter fun e => e.1.pk ≠ pk || r.queues.any fun q => decide (q.n = e.1.n) }
  let s := r.queues.foldl (fun s q => s.reopen pk r back q) s
  let s : State := { s with jrnls := s.jrnls.filter fun e => e.1.pk ≠ pk || r.queues.any fun q => decide (q.n = e.1.n) }
  let p := s.part pk
  let st : VState := if !p.wasPull then .resident else if p.transit = [] then .settled else .pulling
  (s.setPart pk { p with
    st := st, lossy := false, wasPull := false, stamp := old.cycle pk.pkg 0, kfrec := p.kfnext.getD p.kfrec, kfnext := none }).vdEnd pk 2

/-- The kernels of a record as it gives them (16 R366). -/
def State.asRecorded (s : State) (pk : PartKey) (r : FenceRec) : State :=
  r.kerns.foldl (fun s k => s.updKern ⟨pk, k.lq, k.seq⟩ fun n => if n.st = .replaying then { n with st := k.st } else n) s

/-- REPLAY_COMPLETE (21 R446, R450). A device whose package is lost waits for its rebuild (R464), and a completion word of the record for its page in
transit (R450 step 4). -/
def execReplayComplete (s : State) : Out State :=
  match s.site with
  | .part pk =>
    let p := s.part pk
    match p.recd with
    | some r =>
      if p.st = .replaying && !(s.pkg pk.pkg).lost then
        let t := s.asRecorded pk r
        let f := t.finishAll pk r.ends
        if f.1 = [] then .next (t.replayEnd pk r)
        else .next (s.setPart pk { s.part pk with pulls := (f.2.part pk).pulls })
      else .next s
    | none => .next s
  | _ => .fault .noSite

end Sys2Proof.Machine
end

