-- ==== Sys2Proof/Machine/Path.lean ====
section
/-!
DEFINITION. The store path of a thread (10 R230, R234 to R236, 08 R185, R187): its stores, updates, leases, fences and commands as they are performed; and the
adoption of `cmdq` (08 R188, 14 R327, R328).
-/
namespace Sys2Proof.Machine

/-! ### Leases -/

/-- A lease takes hold (10 R235). -/
def State.leaseHold (s : State) (c line : Nat) (tr : Trans) (cycles : Nat) : State :=
  let till := s.homeCycle line + BitVec.ofNat 64 cycles
  s.updCtx c fun x => { x with lease := { x.lease with st := .held line tr till } }

/-- The count of a thread's lease has reached 0 (10 R235, R236): expd is set, and a lease-expiry event is raised. -/
def State.leaseTick (s : State) (c : Nat) : State :=
  match s.ctxs.get? c with
  | none => s
  | some x =>
    match x.lease.st with
    | .held line _ till =>
      if s.leaseRuns line till then s
      else (s.updCtx c fun x => { x with lease := { x.lease with st := .none, expd := true } }).raise c 3
    | .none | .waiting _ _ _ => s

/-- A `lease` is performed (10 R235, R236). -/
def State.leaseDo (s : State) (c : Nat) (x : Ctx) (line : Nat) (tr : Trans) (va : Word) (cycles : Nat) : State :=
  if !x.live then s
  else
    let s := (s.leaseTick c).updCtx c fun x => { x with lease := { x.lease with line := va.extractLsb' 7 50 } }
    match (s.ctxs.get? c).map fun x => x.lease.st with
    | none => s
    | some st =>
      let again := match st with | .held l _ _ => decide (l = line) | .none | .waiting _ _ _ => false
      let keeps := match st with | .waiting l _ _ => decide (l = line) | .none | .held _ _ _ => false
      let s := if again || keeps then s else s.updCtx c fun x => { x with lease := { x.lease with st := .none } }
      if again || (!s.leasedFrom (some c) line && s.firstAt (.lease c) line) then s.leaseHold c line tr cycles
      else
        (s.updCtx c fun x => { x with lease := { x.lease with st := .waiting line tr cycles } }).arriveAt (.lease c) line

/-- An `unlease` is performed (10 R235). -/
def State.unleaseDo (s : State) (c line : Nat) : State :=
  (s.leaseTick c).updCtx c fun x =>
    match x.lease.st with
    | .held l _ _ | .waiting l _ _ => if l = line then { x with lease := { x.lease with st := .none } } else x
    | .none => x

/-- LEASE_HOLD (10 R235): the line has fallen free, and this request is first. -/
def execLeaseHold (s : State) : Out State :=
  match s.site with
  | .ctx c =>
    match s.ctxs.get? c with
    | none => .next s
    | some x =>
      match x.lease.st with
      | .waiting line tr cycles =>
        if !s.leasedFrom (some c) line && s.firstAt (.lease c) line then .next (s.leaseHold c line tr cycles) else .next s
      | .none | .held _ _ _ => .next s
  | _ => .fault .noSite

/-- LEASE_EXPIRY (10 R235, R236): the count has reached 0. -/
def execLeaseExpiry (s : State) : Out State :=
  match s.site with
  | .ctx c => .next (s.leaseTick c)
  | _ => .fault .noSite

/-! ### What an entry waits for -/

/-- Whether an entry touches a range of physical addresses. -/
def PathEff.touches (pa len : Nat) : PathEff → Bool
  | .store evs => evsTouch evs pa len
  | .amo _ a _ _ wide _ _ _ _ => overlaps a (amoLen wide) pa len
  | .lease _ _ _ _ | .unlease _ | .fence _ | .qfence _ | .cmd _ | .bound _ _ _ => false

/-- Whether a context's core reaches the home of an address now (20 R426). -/
def State.homeOff (s : State) (x : Ctx) (pa : Nat) : Bool := !s.homeUp x.pk (s.dieN x) pa

/-- Whether a requested lease of a thread keeps its own access to the line waiting (10 R235). -/
def State.lineWaits (s : State) (x : Ctx) (e : PathEnt) (line : Nat) : Bool :=
  (match x.lease.st with | .waiting l _ _ => decide (l = line) | .none | .held _ _ _ => false)
    || (x.before e).any fun g => match g.eff with | .lease pa _ _ _ => decide (s.lineOf x.pk pa = line) | _ => false

/-- Whether a store's event waits (10 R230, R234, R235). -/
def State.storeWaits (s : State) (x : Ctx) (e : PathEnt) (v : StEvent) : Bool :=
  x.fencedOff e || s.homeOff x v.pa || ((x.before e).any fun g => g.eff.touches v.pa v.bytes.length) || s.lineWaits x e (s.lineOf x.pk v.pa)

/-- Whether an update waits in the store path (10 R234, 08 R179): two updates without `.ord` are not ordered. -/
def State.amoHeld (s : State) (x : Ctx) (e : PathEnt) (pa : Nat) (wide ord : Bool) : Bool :=
  x.fencedOff e || s.homeOff x pa
    || ((x.before e).any fun g =>
      match g.eff with
      | .amo _ a _ _ w _ _ o _ => overlaps a (amoLen w) pa (amoLen wide) && (ord || o)
      | .store evs => evsTouch evs pa (amoLen wide)
      | .lease _ _ _ _ | .unlease _ | .fence _ | .qfence _ | .cmd _ | .bound _ _ _ => false)
    || (match x.lease.st with | .waiting l _ _ => decide (l = s.lineOf x.pk pa) | .none | .held _ _ _ => false)
    || (x.before e).any fun g => match g.eff with | .lease a _ _ _ => decide (s.lineOf x.pk a = s.lineOf x.pk pa) | _ => false

/-- Whether a `lease` or an `unlease` waits (10 R235): for every earlier entry of the thread on its line, and for every earlier one of the two. -/
def State.leaseWaits (s : State) (x : Ctx) (e : PathEnt) (pa : Nat) : Bool :=
  let line := s.lineOf x.pk pa
  x.fencedOff e || s.homeOff x pa
    || (x.before e).any fun g =>
      match g.eff with
      | .store evs => evs.any fun v => decide (s.lineOf x.pk v.pa = line)
      | .amo _ a _ _ _ _ _ _ _ => decide (s.lineOf x.pk a = line)
      | .lease _ _ _ _ | .unlease _ => true
      | .fence _ | .qfence _ | .cmd _ | .bound _ _ _ => false

/-- Whether a `vd` command of a thread has begun and not ended (21 R464). -/
def State.vdRunning (s : State) (c : Nat) : Bool := s.parts.any fun e => e.2.vdBy = some c

/-- Whether a command waits (18 R393, 19 R415, 21 R464): a barrier or a signal command for earlier blocks and for earlier commands; the others for every
earlier entry. -/
def State.cmdWaits (s : State) (c : Nat) (x : Ctx) (e : PathEnt) (f : Eff) : Bool :=
  s.vdRunning c || x.fencedOff e
    || match f with
      | .bar _ _ _ _ _ | .sig _ _ _ => (x.before e).any fun g => (decide (g.stamp < e.below) && !g.eff.isQfence) || (match g.eff with | .cmd _ | .bound _ _ _ => true | _ => false)
      | _ => !(x.before e).all fun g => g.eff.isQfence

/-! ### Performance -/

/-- An entry leaves the store path. -/
def State.dropEnt (s : State) (c stamp : Nat) : State := s.updCtx c fun x => { x with path := x.path.filter fun e => e.stamp ≠ stamp }

/-- Change an entry of the store path. -/
def State.setEnt (s : State) (c stamp : Nat) (f : PathEff) : State :=
  s.updCtx c fun x => { x with path := x.path.map fun e => if e.stamp = stamp then { e with eff := f } else e }

/-- The page in transit that holds a local physical address of a slot (21 R456). -/
def State.movingOf (s : State) (pk : PartKey) (pa : Nat) : Option Moving :=
  match (s.pkg pk.pkg).space pa with
  | .hbm _ _ | .lpddr => (s.part pk).movingAt pa
  | .remote _ _ | .regs _ | .hole => none

/-- The lowest event of a committed store (10 R230, 07 R160). -/
def State.storeStep (s : State) (c : Nat) (x : Ctx) (e : PathEnt) (evs : List StEvent) : State :=
  match evs with
  | [] => s.dropEnt c e.stamp
  | v :: rest =>
    if s.storeWaits x e v then s
    else
      match s.waitAt (.path c e.stamp) (some c) [s.lineOf x.pk v.pa] with
      | some s => s
      | none =>
        match s.movingOf x.pk v.pa with
        | some m => s.askPage x.pk (m.asn, m.va)
        | none =>
          let s := s.redirected x.pk v.pa
          match s.writeEv x.pk v.pa v.key v.bytes with
          | none => s.detected x.pk
          | some t => if rest = [] then t.dropEnt c e.stamp else t.setEnt c e.stamp (.store rest)

/-- A command of a thread is performed (17 R381, 18 R393, R400, 19 R415, 20 R441, 21 R464). -/
def State.cmdDo (s : State) (c : Nat) (f : Eff) : State :=
  match f with
  | .bar cmd sc unit l r => if cmd = .bind then s else (s.barDo c true cmd sc unit l r).barSettle c l
  | .sig _ l r => s.sigDo c l r
  | .grp cmd l r => s.grpDo c cmd l r
  | .pg cmd z l r => s.pgDo c cmd z l r
  | .xshoot z l r => s.xshootDo c z l r
  | .lnk cmd cls v => s.lnkDo c cmd cls v
  | .vd cmd v => s.vdDo c cmd v
  | _ => s

/-- An entry of a store path takes its next step, or waits. -/
def State.pathStep (s : State) (c : Nat) (x : Ctx) (e : PathEnt) : State :=
  match e.eff with
  | .store evs => s.storeStep c x e evs
  | .amo op pa key vp wide v sc ord sent =>
    if sent || s.amoHeld x e pa wide ord then s
    else
      let s := s.setEnt c e.stamp (.amo op pa key vp wide v sc ord true)
      s.sendAmo { srcs := [⟨c, e.stamp, x.core, sc⟩], op := op, pk := x.pk, pa := pa, key := key, wide := wide, v := v, ord := ord }
  | .lease pa tr va cycles =>
    if s.leaseWaits x e pa then s
    else
      match s.movingOf x.pk pa with
      | some m => s.askPage x.pk (m.asn, m.va)
      | none => (s.dropEnt c e.stamp).leaseDo c x (s.lineOf x.pk pa) tr va cycles
  | .unlease pa => if s.leaseWaits x e pa then s else (s.dropEnt c e.stamp).unleaseDo c (s.lineOf x.pk pa)
  | .fence below => if x.eventsUnder below then s else s.dropEnt c e.stamp
  | .qfence ops => if ops.any x.opHere then s else s.dropEnt c e.stamp
  | .cmd f => if s.cmdWaits c x e f then s else (s.dropEnt c e.stamp).cmdDo c f
  | .bound k r ok =>
    if s.cmdWaits c x e (.sig .co 0 0) then s
    else let s := s.dropEnt c e.stamp; if ok then s.arriveNow k r 1 else s.poison k

/-- STORE_PATH_PERFORM (10 R230): the entry with a stamp. -/
def execStorePathPerform (s : State) : Out State :=
  match s.site with
  | .ctxQ c n =>
    match s.ctxs.get? c with
    | none => .next s
    | some x =>
      match x.path.find? fun e => e.stamp = n with
      | none => .next s
      | some e => .next (s.pathStep c x e)
  | _ => .fault .noSite

/-! ### The adoption of cmdq -/

/-- Whether a bind is refused at its adoption (14 R328, 15 R345, 20 R429). -/
def State.bindRefused (s : State) (k : PKey) (inlet : Bool) : Bool :=
  let q := s.queue k
  if q.state = .unallocated then true
  else if inlet then q.consk || (s.inletOf k).isSome || q.strmCons.isSome || q.chain.isSome
  else q.prodk || q.win.kind = 4 || q.strmProd.isSome || decide (q.nprod ≤ s.outletsOf k + s.chainsInto k)

/-- Bind a port (14 R328): a new outlet starts at the queue's arnd. -/
def State.bindPort (s : State) (x : Ctx) (inlet : Bool) (v : Word) : Option Bind :=
  let q := s.queue (objKey x.pk (fld v 0 12))
  some { plane := q.plane, flag := v.getLsbD 38, queue := fld v 0 12, round := if inlet then 0 else q.arnd }

/-- Put a binding at a port. -/
def Ports.put (p : Ports) (inlet : Bool) (n : Nat) (b : Option Bind) : Ports :=
  if inlet then { p with ins := vecSet p.ins n b } else { p with outs := vecSet p.outs n b }

/-- A binding command is adopted (14 R327, R328): a refused bind leaves the port unbound and stops the stream. -/
def State.adoptBind (s : State) (c : Nat) (x : Ctx) (v : Word) : State :=
  let op := fld v 60 4
  let inlet := decide (op = 1) || decide (op = 3)
  let n := fld v 40 5
  if 3 ≤ op then s.setCtx c { x with ports := x.ports.put inlet n none }
  else
    let refused := s.bindRefused (objKey x.pk (fld v 0 12)) inlet
    let s := s.setCtx c { x with ports := x.ports.put inlet n none }
    if refused then s.streamStop c .stream { code := 0x30, sub := 8 } x.str.next
    else s.setCtx c { x with ports := x.ports.put inlet n (s.bindPort x inlet v) }

/-- The operation of a start notice may start (15 R349); one that a `halt` has ended is gone. -/
def noticeOp (stamp : Nat) (l : List StrmOp) : List StrmOp := l.map fun o => if o.stamp = stamp then { o with noticed := true } else o

/-- A shape marker is adopted (12 R264, R268). -/
def Regs.adoptShape (r : Regs) (k : Nat) (v : Word) : Regs :=
  { r with
    shE := vecSet r.shE k v
    actV := if viewKind v = 1 then some k else r.actV
    actT := if viewKind v = 2 then some k else r.actT }

/-- CMDQ_ADOPT (08 R188, 14 R327): the stream adopts the entry at the head of `cmdq`. -/
def execCmdqAdopt (s : State) : Out State :=
  match s.site with
  | .ctx c =>
    match s.ctxs.get? c with
    | none => .next s
    | some x =>
      match x.ports.cmdq with
      | [] => .next s
      | e :: r =>
        if !s.adoptable c x then .next s
        else
          let x := { x with ports := { x.ports with cmdq := r } }
          match e.kind with
          | .start => .next (s.setCtx c { x with eng := { x.eng with eqs := vecSet x.eng.eqs e.eq (noticeOp e.op (vecGet x.eng.eqs e.eq [])) } })
          | .binding => .next (s.adoptBind c x e.v)
          | .shape k => .next (s.setCtx c { x with regs := x.regs.adoptShape k e.v })
          | .creg n => .next ((s.setCtx c x).cregApply c n e.v)
  | _ => .fault .noSite

end Sys2Proof.Machine
end

