-- ==== Sys2Proof/Machine/Package.lean ====
section
/-!
DEFINITION. The package (23 R478 to R489): device reset, host writes, the mailbox commands, and the power limits.
-/
namespace Sys2Proof.Machine

/-! ### Device reset -/

/-- A die as bring-up finds it (23 R478 step 2): what trains, and the cores that firmware withdraws, are free (log 6). -/
def State.trainDie (s : State) : Die × State :=
  let a := s.drawBool
  let b := a.2.drawBool
  let c := b.2.drawBool
  let d := c.2.drawBits
  ({ present := a.1, stack0 := b.1, stack1 := c.1, absent := d.1.extractLsb' 0 96 }, d.2)

/-- The package after bring-up (23 R478, 22 R472): whether the controller's firmware, the ROM part and the firmware part pass their checks is free, and
without a firmware part the device runs on its ROM records. A bare field die checks no signature. Its part, form and LPDDR stay what they are. -/
def State.bringUp (s : State) (p : Pkg) : Pkg × State :=
  let fw := s.drawBool
  let rom := fw.2.drawBool
  let part := rom.2.drawNat
  let base : Pkg := { chip := p.chip, form := p.form, lpddr := p.lpddr }
  if !p.bare && (!fw.1 || !rom.1) then
    ({ base with held := true, cvalid := false, reports := [if fw.1 then .rom else .firmware] }, rom.2)
  else if part.1 % 3 = 2 then
    let d0 := part.2.trainDie
    let d1 := d0.2.trainDie
    let d2 := d1.2.trainDie
    let d3 := d2.2.trainDie
    ({ base with dies := #v[d0.1, d1.1, d2.1, d3.1], evalid := true, clen := 7 }, d3.2)
  else ({ base with reports := if part.1 % 3 = 1 && !p.bare then [.firmware] else [] }, part.2)

/-- Everything that a package holds is gone (23 R478). -/
def State.clearPkg (s : State) (k : Nat) : State :=
  let pk := fun (p : PKey) => p.pk.pkg ≠ k
  { s with
    mem := s.mem.clear (memKey k 0) (memKey (k + 1) 0)
    bufs := s.bufs.clear (bufKey k 0 .w 0) (bufKey (k + 1) 0 .w 0)
    bad := s.bad.filter fun g => !(granule (memKey k 0) ≤ g && g < granule (memKey (k + 1) 0))
    encs := s.encs.filter fun e => !(granule (memKey k 0) ≤ e.1 && e.1 < granule (memKey (k + 1) 0))
    banks := s.banks.filter fun e => e.1.pkg ≠ k
    disps := s.disps.filter fun e => e.1.pkg ≠ k
    blks := s.blks.filter fun e => e.1.disp.pkg ≠ k
    ctxs := s.ctxs.filter fun e => e.2.pk.pkg ≠ k
    parts := s.parts.filter fun e => e.1.pkg ≠ k
    queues := s.queues.filter fun e => pk e.1
    jrnls := s.jrnls.filter fun e => pk e.1
    bars := s.bars.filter fun e => pk e.1
    sigs := s.sigs.filter fun e => pk e.1
    groups := s.groups.filter fun e => pk e.1
    kerns := s.kerns.filter fun e => e.1.pk.pkg ≠ k
    rxs := s.rxs.filter fun e => pk e.1
    links := s.links.filter fun e => e.1.pkg ≠ k
    walks := s.walks.filter fun w => w.pkg ≠ k
    shoots := s.shoots.filter fun h => h.pk.pkg ≠ k
    amos := s.amos.filter fun a => a.pk.pkg ≠ k
    lineQ := s.lineQ.filter fun e => e.1 < memKey k 0 / 128 || memKey (k + 1) 0 / 128 ≤ e.1
    late := s.late.filter fun w => w.1 ≠ k }

/-- DEVICE_RESET (23 R478). To devices that move to or from the package it is the loss of that end (21 R459). -/
def execDeviceReset (s : State) : Out State :=
  match s.site with
  | .pkg k =>
    if (s.pkgs.get? k).isNone then .next s
    else
      let t := s.losePackage k
      let u := ((t.slotsOf k).foldl (fun s pk => if (s.part pk).movedIn then s.vacate (s.otherSlot (s.part pk)) else s) t).clearPkg k
      let b := u.bringUp (s.pkg k)
      .next (b.2.setPkg k b.1)
  | _ => .fault .noSite

/-! ### Host writes -/

/-- The slot to which a virtual function is bound (23 R483, R487). -/
def State.vfSlot (s : State) (k n : Nat) : Option PartKey :=
  (s.parts.find? fun e =>
    e.1.pkg = k && e.2.st ≠ .vacant && (areaW e.2.area 28).getLsbD 7 && decide (fld (areaW e.2.area 28) 0 6 = n)).map Prod.fst

/-- Whether a slot of a package has a fenced or shadowed page whose frame a range touches (19 R418). -/
def State.fencedAt (s : State) (k pa len : Nat) : Bool :=
  (s.slotsOf k).any fun pk =>
    (s.entries pk).any fun e => (e.2.state = 2 || e.2.state = 3) && overlaps (e.2.frame.toNat * 65536) e.2.len pa len

/-- Whether a host write is discarded and reported (19 R418, 22 R465, 23 R487): it names the capability frame, a fenced frame, or a frame protected for
a slot that is not the writer's. -/
def State.hostDiscards (s : State) (k : Nat) (own : Option PartKey) (pa len : Nat) : Bool :=
  inCap pa || s.fencedAt k pa len || (s.slotsOf k).any fun pk => some pk ≠ own && s.protectedIn pk pa len

/-- The ring slots that a host write completes bytes of (16 R361): `pf` says that it comes from the physical function. -/
def Part.ringBytes (p : Part) (pf : Bool) (stamp pa len : Nat) : Part :=
  (List.range 4).foldl
    (fun p n =>
      let b := p.ringAddr n 0
      let lo := max pa b
      let hi := min (pa + len) (b + 16 * p.lqCap n)
      (List.range (hi - lo)).foldl
        (fun p i =>
          let o := lo + i - b
          let old := (p.rings.getD (n, o / 16) {}).bytes
          { p with rings := p.rings.put (n, o / 16) { bytes := old ||| (1#16 <<< (o % 16)), pf := pf, at' := stamp } }) p) p

/-- A host-link write is performed (01 R33, 23 R487): each granule that it writes takes a fresh check value. -/
def State.hostPut (s : State) (k : Nat) (own : Option PartKey) (pa : Nat) (l : List Byte) : State :=
  let lo := pa / 128 * 128
  let s := match own with | some pk => (s.poke k pa l).twin pk pa l | none => s.poke k pa l
  let s := (s.freshen k lo (pa + l.length - lo)).hitCasks k pa l.length
  let st := s.stamp
  { st.2 with
    parts := st.2.parts.map fun e =>
      if e.1.pkg = k && e.2.st ≠ .vacant then (e.1, e.2.ringBytes own.isNone st.1 pa l.length) else e }

/-- The 128-byte lines that a range of a package touches. -/
def hostLines (k pa len : Nat) : List Nat := (List.range ((pa + len + 127) / 128 - pa / 128)).map fun i => memKey k 0 / 128 + pa / 128 + i

/-- A host-link write to local memory, which stands for the write of an event: it is discarded and reported, or is performed; it waits for a lease of its
line and for host writes before it (10 R235); at a hole or across the end of a space it changes nothing. -/
def State.hostStore (s : State) (w : Nat × HostWr) (k : Nat) (own : Option PartKey) (pa : Nat) (l : List Byte) : State :=
  let here := match (s.pkg k).space pa with | .hbm _ _ | .lpddr => true | .remote _ _ | .regs _ | .hole => false
  let t := { s with late := s.late.erase w }
  if !here || !(s.pkg k).inLocal pa l.length || (s.pkg k).lost then t
  else if s.hostDiscards k own pa l.length then t.report k .discarded
  else
    let behind := match s.late with | [] => false | v :: _ => decide (v ≠ w)
    let shut := (hostLines k pa l.length).filter (s.lineShut .host none)
    if behind || shut ≠ [] then
      shut.foldl (fun s n => s.arriveAt .host n) (if s.late.contains w then s else { s with late := s.late ++ [w] })
    else t.hostPut k own pa l

/-- A write to a virtual function's window (23 R487). A page of a slot in transit that has arrived at the target is written there (21 R456). -/
def State.vfStore (s : State) (k n off : Nat) (l : List Byte) : State :=
  let w := (k, HostWr.vf n off l)
  let gone := { s with late := s.late.erase w }
  match s.vfSlot k n with
  | none => gone
  | some pk =>
    let p := s.part pk
    let pa := (areaW p.area 29).toNat + off
    if (s.pkg k).held || (areaW p.area 30).toNat < off + l.length then gone
    else
      let t := s.otherSlot p
      match if p.st = .inTransit then (s.part t).arrived (pa / 65536) else none with
      | some f => s.hostStore w t.pkg (some t) (f * 65536 + pa % 65536) l
      | none => s.hostStore w k (some pk) pa l

/-- A write of eight bytes through PF BAR0 (23 R479, R480): to a block that the host may only read it is discarded. -/
def State.pfStore (s : State) (k off : Nat) (v : Word) : State :=
  match regBlk off with
  | none => s
  | some b =>
    if off % 8 ≠ 0 || (s.pkg k).lost then s
    else if b.writable true then s.setPkg k ((s.pkg k).regWrite off v (BitVec.allOnes 64))
    else s.report k .discarded

/-- HOST_WRITE (23 R487). -/
def execHostWrite (s : State) : Out State :=
  match s.site with
  | .host k w =>
    match w with
    | .pf off v => .next (s.pfStore k off v)
    | .vf n off l => .next (s.vfStore k n off l)
    | .mem pa l => .next (s.hostStore (k, w) k none pa l)
  | _ => .fault .noSite

/-! ### The mailbox -/

/-- A mailbox command under way (23 R481): its slot and its argument. -/
structure MbCmd where
  pk : PartKey
  arg : Nat
  deriving DecidableEq, Repr

/-- Act on the command of a code, where the mailbox of the package has one under way. -/
def mbDo (s : State) (code : Nat) (f : Nat → MbCmd → State) : Out State :=
  match s.site with
  | .pkg k =>
    let p := s.pkg k
    if p.mbState = 1 && decide (fld p.mbCmd 56 8 = code) && !p.lost then .next (f k ⟨⟨k, fld p.mbCmd 51 5⟩, fld p.mbCmd 0 51⟩) else .next s
  | _ => .fault .noSite

/-- Bits `lo + n - 1 : lo` of an argument. -/
def argF (a lo n : Nat) : Nat := a / 2 ^ lo % 2 ^ n

/-- A dword of the argument area (23 R480). -/
def Pkg.argW (p : Pkg) (n : Nat) : Word := (p.arg[n]?).getD 0

/-- The first 256 bytes of the argument area (23 R483, R485). -/
def Pkg.argArea (p : Pkg) : Vector Word 32 := Vector.ofFn fun i => p.argW i.val

/-- Whether one memory range of an area holds a range wholly. -/
def areaHolds (a : Vector Word 32) (lo len : Nat) : Bool :=
  (List.range 8).any fun i => let m := areaMem a i; decide (0 < m.2) && decide (m.1 ≤ lo) && decide (lo + len ≤ m.1 + m.2)

/-- Whether a memory range lies in local HBM or in LPDDR (23 R483). -/
def rangeOk (p : Pkg) (m : Nat × Nat) : Bool := decide (m.1 % 65536 = 0) && decide (m.2 % 65536 = 0) && (decide (m.2 = 0) || p.inLocal m.1 m.2)

/-- Whether an argument area breaks R483. -/
def Pkg.areaBad (p : Pkg) (a : Vector Word 32) : Bool :=
  let cfg := areaW a 0
  (decide (fld cfg 58 2 ≠ 0) || decide (fld cfg 16 26 ≠ 0) || decide (fld cfg 62 2 = 3) || (decide (fld cfg 62 2 = 1) && decide (fld cfg 60 2 = 0)))
    || decide (fld (areaW a 7) 48 16 ≠ 0) || (areaBanks a).any (fun b => decide (Config.banks p.chip b.1 ≤ b.2))
    || ((List.range 4).any fun d =>
      decide (fld (areaW a (8 + d)) 16 16 ≠ 0) || decide (fld (areaW a (8 + d)) 48 16 ≠ 0) || decide (1024 < (areaWin a d).1 + (areaWin a d).2))
    || !((List.range 8).all fun i => rangeOk p (areaMem a i))
    || decide (fld (areaW a 28) 6 1 ≠ 0) || decide (fld (areaW a 28) 8 56 ≠ 0) || decide (areaW a 31 ≠ 0)
    || ((areaCores a).any fun c => p.coreAbsent c)
    || decide ((areaW a 29).toNat % 4096 ≠ 0) || decide ((areaW a 30).toNat % 4096 ≠ 0)
    || ((areaW a 28).getLsbD 7 && !areaHolds a (areaW a 29).toNat (areaW a 30).toNat)

/-- `assign` (23 R482, R483): the rest of the argument area, which no row names, is zero. -/
def State.mbAssign (s : State) (k : Nat) (c : MbCmd) : State :=
  let a := (s.pkg k).argArea
  if (s.part c.pk).st ≠ .vacant then s.mbEnd k 2
  else if (s.pkg k).areaBad a || (List.range 480).any (fun i => (s.pkg k).argW (32 + i) ≠ 0) then s.mbEnd k 1
  else if s.areaTaken c.pk a then s.mbEnd k 3
  else
    (((s.giveBanks c.pk a).setPart c.pk { st := .resident, area := a, vdcfg := areaW a 0, linkadm := (s.part c.pk).linkadm }).touch c.pk).mbEnd k 0

/-- MB_ASSIGN (23 R482, R483). -/
def execMbAssign (s : State) : Out State := mbDo s 1 s.mbAssign

/-- `clear` (23 R482). -/
def State.mbClear (s : State) (k : Nat) (c : MbCmd) : State :=
  match (s.part c.pk).st with
  | .failed => (s.vacate c.pk).mbEnd k 0
  | .resident => if s.hasKern c.pk then s.mbEnd k 2 else (s.vacate c.pk).mbEnd k 0
  | .vacant | .quiescing | .quiesced | .inTransit | .pulling | .settled | .replaying => s.mbEnd k 2

/-- MB_CLEAR (23 R482). -/
def execMbClear (s : State) : Out State := mbDo s 2 s.mbClear

/-- `preempt` (23 R482, R484). -/
def State.mbPreempt (s : State) (k : Nat) (c : MbCmd) : State :=
  let g := objKey c.pk (argF c.arg 0 8)
  if argF c.arg 9 42 ≠ 0 then s.mbEnd k 1
  else
    match s.groups.get? g with
    | none => s.mbEnd k 2
    | some q =>
      if argF c.arg 8 1 = 1 then
        (if q.hold then ((s.updGroup g fun q => { q with hold := false }).consider c.pk).mbEnd k 0 else s.mbEnd k 2)
      else if q.st = .resident || q.st = .collecting then (s.saveGroup g true none).mbEnd k 0
      else s.mbEnd k 2

/-- MB_PREEMPT (23 R482, R484). -/
def execMbPreempt (s : State) : Out State := mbDo s 3 s.mbPreempt

/-- A word of four bytes of the argument area (23 R484). -/
def Pkg.argQ (p : Pkg) (q : Nat) : BitVec 32 := (p.argW (q / 2)).extractLsb' (32 * (q % 2)) 32

/-- `podmap` (23 R484). -/
def State.mbPodmap (s : State) (k : Nat) (c : MbCmd) : State :=
  let p := s.pkg k
  if argF c.arg 50 1 = 1 then
    (if argF c.arg 10 40 ≠ 0 then s.mbEnd k 1 else (s.setPkg k { p with num := BitVec.ofNat 10 c.arg }).mbEnd k 0)
  else
    let ws := (List.range 1024).map fun q => (q, p.argQ q)
    let bad := ws.any fun w => decide (w.2.extractLsb' 5 26 ≠ 0) || (w.2.getLsbD 31 && decide (w.1 = p.num.toNat))
    if c.arg ≠ 0 || bad then s.mbEnd k 1
    else
      let slot := c.pk.part
      let put := (ws.filter fun w => w.2 ≠ 0).map fun w => (1024 * slot + w.1, w.2)
      (s.setPkg k { p with
        podmap := (p.podmap.filter fun e => e.1 / 1024 ≠ slot) ++ put
        redirs := p.redirs.filter fun e => e.1 / 1024 ≠ slot }).mbEnd k 0

/-- MB_PODMAP (23 R484). -/
def execMbPodmap (s : State) : Out State := mbDo s 4 s.mbPodmap

/-- `portmap` (23 R484). -/
def State.mbPortmap (s : State) (k : Nat) (c : MbCmd) : State :=
  let p := s.pkg k
  let port := argF c.arg 48 3
  let n := 1024 * port + argF c.arg 38 10
  let dst := argF c.arg 14 24
  let valid := argF c.arg 13 1 = 1
  let twice := p.portmap.any fun e => decide (e.1 ≠ n) && decide (e.1 / 1024 = port) && e.2.getLsbD 63 && decide (fld e.2 32 24 = dst)
  if argF c.arg 8 5 ≠ 0 then s.mbEnd k 1
  else if valid && twice then s.mbEnd k 3
  else
    let w := bitAt (decide valid) 63 ||| at' dst 32 ||| at' c.pk.part 8 ||| at' (argF c.arg 0 8) 0
    (s.setPkg k { p with portmap := p.portmap.put n w }).mbEnd k 0

/-- MB_PORTMAP (23 R484). -/
def execMbPortmap (s : State) : Out State := mbDo s 5 s.mbPortmap

/-- Whether a chain uses an entry of a port's peer table (20 R439). -/
def State.peerUsed (s : State) (k port index : Nat) : Bool :=
  s.queues.any fun e =>
    decide (e.1.pk.pkg = k) && match e.2.chainOn with
      | some c => decide (c.cls = 2) && decide (c.use = port) && decide (c.remPkg = index)
      | none => false

/-- `peer` (23 R484). -/
def State.mbPeer (s : State) (k : Nat) (c : MbCmd) : State :=
  let p := s.pkg k
  let port := argF c.arg 48 3
  let index := argF c.arg 0 10
  let valid := argF c.arg 10 1 = 1
  if argF c.arg 11 37 ≠ 0 then s.mbEnd k 1
  else if !valid && s.peerUsed k port index then s.mbEnd k 3
  else
    (s.setPkg k { p with
      peers := p.peers.put (1024 * port + index)
        { valid := valid, addrLo := p.argW 0, addrHi := p.argW 1, ident := (p.argW 2).extractLsb' 0 32 } }).mbEnd k 0

/-- MB_PEER (23 R484). -/
def execMbPeer (s : State) : Out State := mbDo s 6 s.mbPeer

/-- `linkadm` (23 R484). -/
def State.mbLinkadm (s : State) (k : Nat) (c : MbCmd) : State :=
  if argF c.arg 1 50 ≠ 0 then s.mbEnd k 1
  else (s.setPart c.pk { s.part c.pk with linkadm := argF c.arg 0 1 = 1 }).mbEnd k 0

/-- MB_LINKADM (23 R484). -/
def execMbLinkadm (s : State) : Out State := mbDo s 7 s.mbLinkadm

/-- `keyset` (23 R484, R486): the key material leaves the argument area. -/
def State.mbKeyset (s : State) (k : Nat) (c : MbCmd) : State :=
  let p := s.pkg k
  let i := argF c.arg 16 13
  let kind := argF c.arg 0 2
  if argF c.arg 2 14 ≠ 0 || argF c.arg 29 22 ≠ 0 || kind = 3 then s.mbEnd k 1
  else if (s.part c.pk).st = .vacant then s.mbEnd k 2
  else if (p.key i).valid then s.mbEnd k 3
  else
    let mat : Vector Word 8 := Vector.ofFn fun n => p.argW n.val
    (s.setPkg k { p with
      keys := p.keys.put i { valid := true, owner := c.pk.part, kind := BitVec.ofNat 2 kind, mat := mat }
      arg := (List.range 8).foldl (fun a n => a.setIfInBounds n 0) p.arg }).mbEnd k 0

/-- MB_KEYSET (23 R484, R486). -/
def execMbKeyset (s : State) : Out State := mbDo s 8 s.mbKeyset

/-- `keyinv` (23 R484, R486): a shoot-down of every page of the owner begins; the command ends with it. -/
def State.mbKeyinv (s : State) (k : Nat) (c : MbCmd) : State :=
  let i := argF c.arg 16 13
  let e := (s.pkg k).key i
  if argF c.arg 0 16 ≠ 0 || argF c.arg 29 22 ≠ 0 then s.mbEnd k 1
  else if !e.valid || e.owner ≠ c.pk.part then s.mbEnd k 2
  else if s.shoots.any fun h => decide (h.pk.pkg = k) && h.key.isSome then s
  else s.shoot c.pk none none (some i)

/-- MB_KEYINV (23 R484, R486). -/
def execMbKeyinv (s : State) : Out State := mbDo s 9 s.mbKeyinv

/-- The bytes of a digest or a signature, most significant first. -/
def bytesOf (n : Nat) (v : Nat) : List Byte := (leBytes n v).reverse

/-- The report of an attestation (23 R488) and the certificate that follows it, as the argument area holds them. -/
def State.attested (s : State) (k : Nat) (pk : PartKey) : List Byte :=
  let p := s.pkg k
  let digest := fun (l : List Byte) => bytesOf 32 (Config.sm3 l).toNat
  let rom := dwBytes ((capTable p k).take 64)
  let fw := if p.evalid then digest (dwBytes ((capTable p k).drop 64)) else List.replicate 32 0
  let cfg := dwBytes (if (s.part pk).st = .vacant then List.replicate 32 0 else (s.part pk).area.toList)
  let body := dwBytes ((List.range 4).map p.argW) ++ digest rom ++ fw ++ bytesOf 32 Config.firmware.toNat ++ digest cfg
    ++ leBytes 8 (Config.serial k).toNat ++ List.replicate 24 0
  body ++ bytesOf 64 (Config.sm2 (Config.sm3 body)).toNat ++ (List.range (4096 - 256)).map Config.certificate

/-- `attest` (23 R488). -/
def State.mbAttest (s : State) (k : Nat) (c : MbCmd) : State :=
  if c.arg ≠ 0 then s.mbEnd k 1
  else
    let l := s.attested k c.pk
    (s.setPkg k { s.pkg k with arg := Vector.ofFn fun i => bytesW ((l.drop (8 * i.val)).take 8) }).mbEnd k 0

/-- MB_ATTEST (23 R488). -/
def execMbAttest (s : State) : Out State := mbDo s 10 s.mbAttest

/-! ### Power -/

/-- CURRENT_LIMIT_TRIP (23 R489): the core-rail estimate has exceeded the limit for 1 us. -/
def execCurrentLimitTrip (s : State) : Out State :=
  match s.site with
  | .pkg k => .next (if (s.pkgs.get? k).isSome then s.setPkg k { s.pkg k with tripped := true } else s)
  | _ => .fault .noSite

/-- CURRENT_LIMIT_RELEASE (23 R489): the estimate has stayed below the limit for 1 ms. -/
def execCurrentLimitRelease (s : State) : Out State :=
  match s.site with
  | .pkg k => .next (if (s.pkgs.get? k).isSome then s.setPkg k { s.pkg k with tripped := false } else s)
  | _ => .fault .noSite

/-- The idle cycles in eight that are inserted (01 R27, 23 R489): at least four once the current limit has tripped. -/
def Pkg.idleLevel (p : Pkg) : Nat := if p.tripped then max 4 p.idleStep else p.idleStep

/-- POWER_IDLE_ADJUST (01 R27): the die counts the idle cycles inserted since the last adjustment, none at level 0; the level then moves by
one step at most, which way is free. -/
def execPowerIdleAdjust (s : State) : Out State :=
  match s.site with
  | .dieN k d n =>
    if (s.pkgs.get? k).isNone then .next s
    else
      let w := s.drawNat
      let s := w.2
      let p := s.pkg k
      let step := if w.1 % 3 = 0 then p.idleStep - 1 else if w.1 % 3 = 1 then p.idleStep else if p.idleStep < 7 then p.idleStep + 1 else p.idleStep
      let p := if p.idleLevel = 0 then p else p.setDie d fun t => { t with idle := t.idle + BitVec.ofNat 64 n }
      .next (s.setPkg k { p with idleStep := step })
  | _ => .fault .noSite

end Sys2Proof.Machine
end

