-- ==== Sys2Proof/Machine/Vector.lean ====
section
/-!
DEFINITION. The vector instructions (11 R242 to R260): each issues with the operations of Machine/Vec.lean.
-/
namespace Sys2Proof.Machine

/-- A governed element-wise form of a type (11 R241). -/
def govVec (i : Info) (f : VCtx → VWord → VWord → BitVec 32 → VRes) (s : State) : Out State :=
  vecOp i true false false (fun _ c l r lf => f c l r lf) s

/-- A binary integer or floating form (11 R244, R246). -/
def binVec (op : BinOp) (i : Info) (v : FmtV) (s : State) : Out State := govVec i (vBin op v.ty v.md) s

/-- A form given by a function of the two elements (11 R244, R245). -/
def map2Vec (i : Info) (v : FmtV) (f : Nat → Nat → Nat) (s : State) : Out State :=
  govVec i (vMap2 v.ty fun x y => (f x y, {})) s

/-- A form whose elements no mask governs (11 R241). -/
def freeVec (i : Info) (f : VCtx → VWord → VWord → BitVec 32 → VRes) (s : State) : Out State :=
  vecOp i false false false (fun _ c l r lf => f c l r lf) s

/-- A mask form (11 R259): the operation on bits [1,023:0]. -/
def maskVec (i : Info) (f : MWord → MWord → MWord) (s : State) : Out State :=
  plainVec i (fun _ l r => ofMask (f (maskOf l) (maskOf r))) s

/-- A transcendental (11 R253). -/
def transVec (f : TFun) (i : Info) (ftz : Bool) (s : State) : Out State := govVec i (fun c l _ lf => vTrans f ftz c l lf) s

/-- `add` (11 R244, R246). -/
def execVadd (v : FmtV) (s : State) : Out State := binVec .add (info (.vadd v)) v s

/-- `sub` (11 R244, R246). -/
def execVsub (v : FmtV) (s : State) : Out State := binVec .sub (info (.vsub v)) v s

/-- `mul` (11 R244, R246). -/
def execVmul (v : FmtV) (s : State) : Out State := binVec .mul (info (.vmul v)) v s

/-- `min` (11 R244, R246). -/
def execVmin (v : FmtV) (s : State) : Out State := binVec .min (info (.vmin v)) v s

/-- `max` (11 R244, R246). -/
def execVmax (v : FmtV) (s : State) : Out State := binVec .max (info (.vmax v)) v s

/-- `and` (11 R244, R246). -/
def execVand (v : FmtV) (s : State) : Out State := binVec .and (info (.vand v)) v s

/-- `or` (11 R244, R246). -/
def execVor (v : FmtV) (s : State) : Out State := binVec .or (info (.vor v)) v s

/-- `xor` (11 R244, R246). -/
def execVxor (v : FmtV) (s : State) : Out State := binVec .xor (info (.vxor v)) v s

/-- `mulh` (11 R244). -/
def execVmulh (v : FmtV) (s : State) : Out State := govVec (info (.vmulh v)) (vMap2 v.ty (elemMulh v.ty)) s

/-- `abs` (11 R244, R246). -/
def execVabs (v : FmtV) (s : State) : Out State := govVec (info (.vabs v)) (fun c l _ lf => vMap1 v.ty (elemAbs v.ty v.md) c l lf) s

/-- `neg` (11 R244, R246). -/
def execVneg (v : FmtV) (s : State) : Out State := govVec (info (.vneg v)) (fun c l _ lf => vMap1 v.ty (elemNeg v.ty v.md) c l lf) s

/-- `not` (11 R244, R245). -/
def execVnot (v : FmtV) (s : State) : Out State := map2Vec (info (.vnot v)) v (fun x _ => 2 ^ ElTy.width v.ty - 1 - x) s

/-- `shl` (11 R244, R245). -/
def execVshl (v : FmtV) (s : State) : Out State := map2Vec (info (.vshl v)) v (elemShl (ElTy.width v.ty)) s

/-- `shr` (11 R244, R245). -/
def execVshr (v : FmtV) (s : State) : Out State := map2Vec (info (.vshr v)) v (elemShr (ElTy.width v.ty)) s

/-- `sar` (11 R244, R245). -/
def execVsar (v : FmtV) (s : State) : Out State := map2Vec (info (.vsar v)) v (elemSar (ElTy.width v.ty)) s

/-- `clz` (11 R244, R245). -/
def execVclz (v : FmtV) (s : State) : Out State := map2Vec (info (.vclz v)) v (fun x _ => countLead (ElTy.width v.ty) x) s

/-- `popc` (11 R244, R245). -/
def execVpopc (v : FmtV) (s : State) : Out State := map2Vec (info (.vpopc v)) v (fun x _ => popcount (ElTy.width v.ty) x) s

/-- `cmp` (11 R247). -/
def execCmp (p : Pred) (ftz : Bool) (ty : ElTy) (cond : BitVec 3) (t1 : Tgt) (s : State) : Out State := 
  govVec (info (.cmp p ftz ty cond t1)) (vCmp ty ftz cond) s

/-- `msel` (11 R248): it reads its mask register as R241 reads `m0`. -/
def execMsel (p : Pred) (ty : ElTy) (m : BitVec 3) (t1 : Tgt) (s : State) : Out State :=
  withSlot s fun _ b _ =>
    if s.regPending b (fun h => h.pwmask.getLsbD m.toNat) (32 + m.toNat) then .next s
    else
      vecOp (info (.msel p ty m t1)) false false false
        (fun x c l r lf => vMsel ty (vecGet x.regs.m m.toNat 0) c l r lf) s

/-- `wadd` (11 R249). -/
def execWadd (v : FmtV) (s : State) : Out State := 
  vecOp (info (.wadd v)) true false true (fun _ c l r lf => vWiden false v.ty c l r lf) s

/-- `wmul` (11 R249). -/
def execWmul (v : FmtV) (s : State) : Out State := 
  vecOp (info (.wmul v)) true false true (fun _ c l r lf => vWiden true v.ty c l r lf) s

/-- `narrow` (11 R250). -/
def execNarrow (p : Pred) (sat : Bool) (ty : ElTy) (mode : RMode) (t1 : Tgt) (s : State) : Out State := 
  vecOp (info (.narrow p sat ty mode t1)) true (decide (mode = .rs)) false (fun _ c l r lf => vNarrow ty sat mode c l r lf) s

/-- `cvt` (11 R251, R252). -/
def execCvt (p : Pred) (sat : Bool) (dst : ElTy) (mode : RMode) (src : ElTy) (t1 : Tgt) (s : State) : Out State := 
  vecOp (info (.cvt p sat dst mode src t1)) true (decide (mode = .rs)) false (fun _ c l _ lf => vCvt dst src sat mode c l lf) s

/-- `vrcp` (11 R253). -/
def execVrcp (p : Pred) (ftz : Bool) (t2 t1 : Tgt) (s : State) : Out State := transVec .rcp (info (.vrcp p ftz t2 t1)) ftz s

/-- `vrsq` (11 R253). -/
def execVrsq (p : Pred) (ftz : Bool) (t2 t1 : Tgt) (s : State) : Out State := transVec .rsq (info (.vrsq p ftz t2 t1)) ftz s

/-- `vsqrt` (11 R253). -/
def execVsqrt (p : Pred) (ftz : Bool) (t2 t1 : Tgt) (s : State) : Out State := transVec .sqrt (info (.vsqrt p ftz t2 t1)) ftz s

/-- `vexp2` (11 R253). -/
def execVexp2 (p : Pred) (ftz : Bool) (t2 t1 : Tgt) (s : State) : Out State := transVec .exp2 (info (.vexp2 p ftz t2 t1)) ftz s

/-- `vlog2` (11 R253). -/
def execVlog2 (p : Pred) (ftz : Bool) (t2 t1 : Tgt) (s : State) : Out State := transVec .log2 (info (.vlog2 p ftz t2 t1)) ftz s

/-- `red` (11 R254). -/
def execRed (p : Pred) (md : Bool) (ty : ElTy) (op : BitVec 3) (t1 : Tgt) (s : State) : Out State := 
  govVec (info (.red p md ty op t1)) (fun c l _ lf => vRed (redOp op) ty md c l lf) s

/-- `scan` (11 R255). -/
def execScan (p : Pred) (md : Bool) (ty : ElTy) (excl : Bool) (op : BitVec 3) (t1 : Tgt) (s : State) : Out State := 
  govVec (info (.scan p md ty excl op t1)) (fun c l _ lf => vScan (redOp op) ty md excl c l lf) s

/-- `perm` (11 R256). -/
def execPerm (v : FmtV) (s : State) : Out State := freeVec (info (.perm v)) (vPerm v.ty) s

/-- `slide.up` (11 R257). -/
def execSlideUp (p : Pred) (ty : ElTy) (k : BitVec 7) (t1 : Tgt) (s : State) : Out State := 
  freeVec (info (.slideUp p ty k t1)) (vSlide true k.toNat ty) s

/-- `slide.dn` (11 R257). -/
def execSlideDn (p : Pred) (ty : ElTy) (k : BitVec 7) (t1 : Tgt) (s : State) : Out State := 
  freeVec (info (.slideDn p ty k t1)) (vSlide false k.toNat ty) s

/-- `bcast` (11 R258). -/
def execBcast (p : Pred) (ty : ElTy) (k : BitVec 7) (t1 : Tgt) (s : State) : Out State := 
  freeVec (info (.bcast p ty k t1)) (fun c l _ lf => vBcast k.toNat ty c l lf) s

/-- `mand` (11 R259). -/
def execMand (g : FmtG) (s : State) : Out State := maskVec (info (.mand g)) (fun l r => l &&& r) s

/-- `mor` (11 R259). -/
def execMor (g : FmtG) (s : State) : Out State := maskVec (info (.mor g)) (fun l r => l ||| r) s

/-- `mxor` (11 R259). -/
def execMxor (g : FmtG) (s : State) : Out State := maskVec (info (.mxor g)) (fun l r => l ^^^ r) s

/-- `mnot` (11 R259). -/
def execMnot (g : FmtG) (s : State) : Out State := maskVec (info (.mnot g)) (fun l _ => ~~~l) s

/-- `mcnt` (11 R259). -/
def execMcnt (g : FmtG) (s : State) : Out State := plainVec (info (.mcnt g)) (fun c l _ => vMcnt c l) s

/-- `iota` (11 R260). -/
def execIota (v : FmtV) (s : State) : Out State := plainVec (info (.iota v)) (fun c _ _ => vIota v.ty c) s

end Sys2Proof.Machine
end

