-- ==== Sys2Proof/Machine/Dispatch.lean ====
section
/-!
DEFINITION. What each instruction and each event does: one arm for each constructor of `Instr`.
-/
namespace Sys2Proof.Machine

/-- Execute an instruction at the slot that `State.site` names, or perform an event at the site it names. -/
def exec (i : Instr) (s : State) : Host.Outcome State Fault Refusal :=
  match i with
  | .const imm t1 => Sys2Proof.Machine.execConst imm t1 s
  | .constx imm t1 => Sys2Proof.Machine.execConstx imm t1 s
  | .read reg t2 t1 => Sys2Proof.Machine.execRead reg t2 t1 s
  | .write p reg => Sys2Proof.Machine.execWrite p reg s
  | .mov g => Sys2Proof.Machine.execMov g s
  | .null g => Sys2Proof.Machine.execNull g s
  | .movV g => Sys2Proof.Machine.execMovV g s
  | .nullV g => Sys2Proof.Machine.execNullV g s
  | .add g => Sys2Proof.Machine.execAdd g s
  | .sub g => Sys2Proof.Machine.execSub g s
  | .mul g => Sys2Proof.Machine.execMul g s
  | .mulhS64 g => Sys2Proof.Machine.execMulhS64 g s
  | .mulhN64 g => Sys2Proof.Machine.execMulhN64 g s
  | .divS64 g => Sys2Proof.Machine.execDivS64 g s
  | .divN64 g => Sys2Proof.Machine.execDivN64 g s
  | .remS64 g => Sys2Proof.Machine.execRemS64 g s
  | .remN64 g => Sys2Proof.Machine.execRemN64 g s
  | .neg g => Sys2Proof.Machine.execNeg g s
  | .abs g => Sys2Proof.Machine.execAbs g s
  | .minS64 g => Sys2Proof.Machine.execMinS64 g s
  | .maxS64 g => Sys2Proof.Machine.execMaxS64 g s
  | .minN64 g => Sys2Proof.Machine.execMinN64 g s
  | .maxN64 g => Sys2Proof.Machine.execMaxN64 g s
  | .and g => Sys2Proof.Machine.execAnd g s
  | .or g => Sys2Proof.Machine.execOr g s
  | .xor g => Sys2Proof.Machine.execXor g s
  | .andn g => Sys2Proof.Machine.execAndn g s
  | .not g => Sys2Proof.Machine.execNot g s
  | .shl g => Sys2Proof.Machine.execShl g s
  | .shr g => Sys2Proof.Machine.execShr g s
  | .sar g => Sys2Proof.Machine.execSar g s
  | .rol g => Sys2Proof.Machine.execRol g s
  | .ror g => Sys2Proof.Machine.execRor g s
  | .popc g => Sys2Proof.Machine.execPopc g s
  | .clz g => Sys2Proof.Machine.execClz g s
  | .ctz g => Sys2Proof.Machine.execCtz g s
  | .bswap g => Sys2Proof.Machine.execBswap g s
  | .sextS8 g => Sys2Proof.Machine.execSextS8 g s
  | .sextS16 g => Sys2Proof.Machine.execSextS16 g s
  | .sextS32 g => Sys2Proof.Machine.execSextS32 g s
  | .zextN8 g => Sys2Proof.Machine.execZextN8 g s
  | .zextN16 g => Sys2Proof.Machine.execZextN16 g s
  | .zextN32 g => Sys2Proof.Machine.execZextN32 g s
  | .teq g => Sys2Proof.Machine.execTeq g s
  | .tne g => Sys2Proof.Machine.execTne g s
  | .tltS64 g => Sys2Proof.Machine.execTltS64 g s
  | .tleS64 g => Sys2Proof.Machine.execTleS64 g s
  | .tgtS64 g => Sys2Proof.Machine.execTgtS64 g s
  | .tgeS64 g => Sys2Proof.Machine.execTgeS64 g s
  | .tltN64 g => Sys2Proof.Machine.execTltN64 g s
  | .tleN64 g => Sys2Proof.Machine.execTleN64 g s
  | .tgtN64 g => Sys2Proof.Machine.execTgtN64 g s
  | .tgeN64 g => Sys2Proof.Machine.execTgeN64 g s
  | .tbit g => Sys2Proof.Machine.execTbit g s
  | .tz g => Sys2Proof.Machine.execTz g s
  | .tnz g => Sys2Proof.Machine.execTnz g s
  | .wsplitB8 g => Sys2Proof.Machine.execWsplitB8 g s
  | .wsplitB16 g => Sys2Proof.Machine.execWsplitB16 g s
  | .wsplitB32 g => Sys2Proof.Machine.execWsplitB32 g s
  | .wjoinB8 g => Sys2Proof.Machine.execWjoinB8 g s
  | .wjoinB16 g => Sys2Proof.Machine.execWjoinB16 g s
  | .wjoinB32 g => Sys2Proof.Machine.execWjoinB32 g s
  | .leaX1 g => Sys2Proof.Machine.execLeaX1 g s
  | .leaX2 g => Sys2Proof.Machine.execLeaX2 g s
  | .leaX4 g => Sys2Proof.Machine.execLeaX4 g s
  | .leaX8 g => Sys2Proof.Machine.execLeaX8 g s
  | .addi f => Sys2Proof.Machine.execAddi f s
  | .andi f => Sys2Proof.Machine.execAndi f s
  | .ori f => Sys2Proof.Machine.execOri f s
  | .xori f => Sys2Proof.Machine.execXori f s
  | .teqi f => Sys2Proof.Machine.execTeqi f s
  | .shli f => Sys2Proof.Machine.execShli f s
  | .shri f => Sys2Proof.Machine.execShri f s
  | .sari f => Sys2Proof.Machine.execSari f s
  | .tnei f => Sys2Proof.Machine.execTnei f s
  | .tlti f => Sys2Proof.Machine.execTlti f s
  | .tgei f => Sys2Proof.Machine.execTgei f s
  | .tltui f => Sys2Proof.Machine.execTltui f s
  | .tgeui f => Sys2Proof.Machine.execTgeui f s
  | .br b => Sys2Proof.Machine.execBr b s
  | .call b => Sys2Proof.Machine.execCall b s
  | .brr p exit => Sys2Proof.Machine.execBrr p exit s
  | .callr p exit => Sys2Proof.Machine.execCallr p exit s
  | .ret p exit => Sys2Proof.Machine.execRet p exit s
  | .barWait b => Sys2Proof.Machine.execBarWait b s
  | .sigWait b => Sys2Proof.Machine.execSigWait b s
  | .yield b => Sys2Proof.Machine.execYield b s
  | .idle b => Sys2Proof.Machine.execIdle b s
  | .ldN8 l => Sys2Proof.Machine.execLdN8 l s
  | .ldS8 l => Sys2Proof.Machine.execLdS8 l s
  | .ldN16 l => Sys2Proof.Machine.execLdN16 l s
  | .ldS16 l => Sys2Proof.Machine.execLdS16 l s
  | .ldN32 l => Sys2Proof.Machine.execLdN32 l s
  | .ldS32 l => Sys2Proof.Machine.execLdS32 l s
  | .ldB64 l => Sys2Proof.Machine.execLdB64 l s
  | .ldN82t l => Sys2Proof.Machine.execLdN82t l s
  | .ldS82t l => Sys2Proof.Machine.execLdS82t l s
  | .ldN162t l => Sys2Proof.Machine.execLdN162t l s
  | .ldS162t l => Sys2Proof.Machine.execLdS162t l s
  | .ldN322t l => Sys2Proof.Machine.execLdN322t l s
  | .ldS322t l => Sys2Proof.Machine.execLdS322t l s
  | .ldB642t l => Sys2Proof.Machine.execLdB642t l s
  | .xlate p id wr th t1 => Sys2Proof.Machine.execXlate p id wr th t1 s
  | .xprobe p id wr th t1 => Sys2Proof.Machine.execXprobe p id wr th t1 s
  | .pref l => Sys2Proof.Machine.execPref l s
  | .stB8 p id disp => Sys2Proof.Machine.execStB8 p id disp s
  | .stB16 p id disp => Sys2Proof.Machine.execStB16 p id disp s
  | .stB32 p id disp => Sys2Proof.Machine.execStB32 p id disp s
  | .stB64 p id disp => Sys2Proof.Machine.execStB64 p id disp s
  | .amoAdd p id sc wide ord => Sys2Proof.Machine.execAmoAdd p id sc wide ord s
  | .amoAddF32 p id sc ord => Sys2Proof.Machine.execAmoAddF32 p id sc ord s
  | .amoMinS p id sc wide ord => Sys2Proof.Machine.execAmoMinS p id sc wide ord s
  | .amoMaxS p id sc wide ord => Sys2Proof.Machine.execAmoMaxS p id sc wide ord s
  | .amoMinN p id sc wide ord => Sys2Proof.Machine.execAmoMinN p id sc wide ord s
  | .amoMaxN p id sc wide ord => Sys2Proof.Machine.execAmoMaxN p id sc wide ord s
  | .amoAnd p id sc wide ord => Sys2Proof.Machine.execAmoAnd p id sc wide ord s
  | .amoOr p id sc wide ord => Sys2Proof.Machine.execAmoOr p id sc wide ord s
  | .amoXor p id sc wide ord => Sys2Proof.Machine.execAmoXor p id sc wide ord s
  | .lease p id cyc => Sys2Proof.Machine.execLease p id cyc s
  | .unlease p id => Sys2Proof.Machine.execUnlease p id s
  | .fenceAcq p id sc => Sys2Proof.Machine.execFenceAcq p id sc s
  | .fenceRel p id sc => Sys2Proof.Machine.execFenceRel p id sc s
  | .fenceAr p id sc => Sys2Proof.Machine.execFenceAr p id sc s
  | .qfence p id set => Sys2Proof.Machine.execQfence p id set s
  | .qpop p id t1 => Sys2Proof.Machine.execQpop p id t1 s
  | .qpopBq p id t1 => Sys2Proof.Machine.execQpopBq p id t1 s
  | .qpush p id q => Sys2Proof.Machine.execQpush p id q s
  | .qpushCmdq p id => Sys2Proof.Machine.execQpushCmdq p id s
  | .pop p id inl t1 => Sys2Proof.Machine.execPop p id inl t1 s
  | .popV p id inl t1 => Sys2Proof.Machine.execPopV p id inl t1 s
  | .peek p id inl t1 => Sys2Proof.Machine.execPeek p id inl t1 s
  | .peekV p id inl t1 => Sys2Proof.Machine.execPeekV p id inl t1 s
  | .push p id outl => Sys2Proof.Machine.execPush p id outl s
  | .pushBq p id => Sys2Proof.Machine.execPushBq p id s
  | .pushV p id outl => Sys2Proof.Machine.execPushV p id outl s
  | .pushm p id outl => Sys2Proof.Machine.execPushm p id outl s
  | .strmStage p id stg => Sys2Proof.Machine.execStrmStage p id stg s
  | .strmRows p id => Sys2Proof.Machine.execStrmRows p id s
  | .strmTag p id => Sys2Proof.Machine.execStrmTag p id s
  | .strmGo p id => Sys2Proof.Machine.execStrmGo p id s
  | .strmHalt p id => Sys2Proof.Machine.execStrmHalt p id s
  | .sphAnd p id tree q => Sys2Proof.Machine.execSphAnd p id tree q s
  | .sphOr p id tree q => Sys2Proof.Machine.execSphOr p id tree q s
  | .steer p id m of ot => Sys2Proof.Machine.execSteer p id m of ot s
  | .collect p id inl t1 => Sys2Proof.Machine.execCollect p id inl t1 s
  | .rtcfg p id stg q => Sys2Proof.Machine.execRtcfg p id stg q s
  | .barInit p id sc => Sys2Proof.Machine.execBarInit p id sc s
  | .barArrive p id sc => Sys2Proof.Machine.execBarArrive p id sc s
  | .barBind p id sc => Sys2Proof.Machine.execBarBind p id sc s
  | .barDrop p id sc => Sys2Proof.Machine.execBarDrop p id sc s
  | .sigInc p id sc => Sys2Proof.Machine.execSigInc p id sc s
  | .shapeV p id sh => Sys2Proof.Machine.execShapeV p id sh s
  | .shapeT p id sh => Sys2Proof.Machine.execShapeT p id sh s
  | .shstep p id sh t1 => Sys2Proof.Machine.execShstep p id sh t1 s
  | .shstepV p id sh t1 => Sys2Proof.Machine.execShstepV p id sh t1 s
  | .mma p id ty sat acc => Sys2Proof.Machine.execMma p id ty sat acc s
  | .mmaG p id ty sat acc => Sys2Proof.Machine.execMmaG p id ty sat acc s
  | .tmov p id src dst => Sys2Proof.Machine.execTmov p id src dst s
  | .tmovT p id src dst => Sys2Proof.Machine.execTmovT p id src dst s
  | .acclr p id acc => Sys2Proof.Machine.execAcclr p id acc s
  | .accst p id acc => Sys2Proof.Machine.execAccst p id acc s
  | .accrd p id acc t1 => Sys2Proof.Machine.execAccrd p id acc t1 s
  | .trap p code => Sys2Proof.Machine.execTrap p code s
  | .svc p code => Sys2Proof.Machine.execSvc p code s
  | .brk p code => Sys2Proof.Machine.execBrk p code s
  | .rfe p => Sys2Proof.Machine.execRfe p s
  | .crrd p id num t1 => Sys2Proof.Machine.execCrrd p id num t1 s
  | .crwr p id num => Sys2Proof.Machine.execCrwr p id num s
  | .launch p id lq => Sys2Proof.Machine.execLaunch p id lq s
  | .grpMake p id => Sys2Proof.Machine.execGrpMake p id s
  | .grpSplit p id => Sys2Proof.Machine.execGrpSplit p id s
  | .grpJoin p id => Sys2Proof.Machine.execGrpJoin p id s
  | .grpFree p id => Sys2Proof.Machine.execGrpFree p id s
  | .xshoot p id sz => Sys2Proof.Machine.execXshoot p id sz s
  | .pgMap p id sz => Sys2Proof.Machine.execPgMap p id sz s
  | .pgUnmap p id sz => Sys2Proof.Machine.execPgUnmap p id sz s
  | .pgPin p id sz => Sys2Proof.Machine.execPgPin p id sz s
  | .pgUnpin p id sz => Sys2Proof.Machine.execPgUnpin p id sz s
  | .pgPoison p id sz => Sys2Proof.Machine.execPgPoison p id sz s
  | .pgPromote p id sz => Sys2Proof.Machine.execPgPromote p id sz s
  | .lnkUp p id cls => Sys2Proof.Machine.execLnkUp p id cls s
  | .lnkDown p id cls => Sys2Proof.Machine.execLnkDown p id cls s
  | .lnkRetrain p id cls => Sys2Proof.Machine.execLnkRetrain p id cls s
  | .lnkChain p id cls => Sys2Proof.Machine.execLnkChain p id cls s
  | .lnkUnchain p id cls => Sys2Proof.Machine.execLnkUnchain p id cls s
  | .vdQuiesce p id => Sys2Proof.Machine.execVdQuiesce p id s
  | .vdSend p id => Sys2Proof.Machine.execVdSend p id s
  | .vdResume p id => Sys2Proof.Machine.execVdResume p id s
  | .vdRelease p id => Sys2Proof.Machine.execVdRelease p id s
  | .vdReplay p id => Sys2Proof.Machine.execVdReplay p id s
  | .vadd v => Sys2Proof.Machine.execVadd v s
  | .vsub v => Sys2Proof.Machine.execVsub v s
  | .vmul v => Sys2Proof.Machine.execVmul v s
  | .vmulh v => Sys2Proof.Machine.execVmulh v s
  | .vmin v => Sys2Proof.Machine.execVmin v s
  | .vmax v => Sys2Proof.Machine.execVmax v s
  | .vabs v => Sys2Proof.Machine.execVabs v s
  | .vneg v => Sys2Proof.Machine.execVneg v s
  | .vand v => Sys2Proof.Machine.execVand v s
  | .vor v => Sys2Proof.Machine.execVor v s
  | .vxor v => Sys2Proof.Machine.execVxor v s
  | .vnot v => Sys2Proof.Machine.execVnot v s
  | .vshl v => Sys2Proof.Machine.execVshl v s
  | .vshr v => Sys2Proof.Machine.execVshr v s
  | .vsar v => Sys2Proof.Machine.execVsar v s
  | .vclz v => Sys2Proof.Machine.execVclz v s
  | .vpopc v => Sys2Proof.Machine.execVpopc v s
  | .cmp p ftz ty cond t1 => Sys2Proof.Machine.execCmp p ftz ty cond t1 s
  | .msel p ty m t1 => Sys2Proof.Machine.execMsel p ty m t1 s
  | .wadd v => Sys2Proof.Machine.execWadd v s
  | .wmul v => Sys2Proof.Machine.execWmul v s
  | .narrow p sat ty mode t1 => Sys2Proof.Machine.execNarrow p sat ty mode t1 s
  | .cvt p sat dst mode src t1 => Sys2Proof.Machine.execCvt p sat dst mode src t1 s
  | .vrcp p ftz t2 t1 => Sys2Proof.Machine.execVrcp p ftz t2 t1 s
  | .vrsq p ftz t2 t1 => Sys2Proof.Machine.execVrsq p ftz t2 t1 s
  | .vsqrt p ftz t2 t1 => Sys2Proof.Machine.execVsqrt p ftz t2 t1 s
  | .vexp2 p ftz t2 t1 => Sys2Proof.Machine.execVexp2 p ftz t2 t1 s
  | .vlog2 p ftz t2 t1 => Sys2Proof.Machine.execVlog2 p ftz t2 t1 s
  | .red p md ty op t1 => Sys2Proof.Machine.execRed p md ty op t1 s
  | .scan p md ty excl op t1 => Sys2Proof.Machine.execScan p md ty excl op t1 s
  | .perm v => Sys2Proof.Machine.execPerm v s
  | .slideUp p ty k t1 => Sys2Proof.Machine.execSlideUp p ty k t1 s
  | .slideDn p ty k t1 => Sys2Proof.Machine.execSlideDn p ty k t1 s
  | .bcast p ty k t1 => Sys2Proof.Machine.execBcast p ty k t1 s
  | .mand g => Sys2Proof.Machine.execMand g s
  | .mor g => Sys2Proof.Machine.execMor g s
  | .mxor g => Sys2Proof.Machine.execMxor g s
  | .mnot g => Sys2Proof.Machine.execMnot g s
  | .mcnt g => Sys2Proof.Machine.execMcnt g s
  | .iota v => Sys2Proof.Machine.execIota v s
  | .blockFetch => Sys2Proof.Machine.execBlockFetch s
  | .dispatchDecision => Sys2Proof.Machine.execDispatchDecision s
  | .heldSlotResume => Sys2Proof.Machine.execHeldSlotResume s
  | .blockCommit => Sys2Proof.Machine.execBlockCommit s
  | .incompleteBlockFault => Sys2Proof.Machine.execIncompleteBlockFault s
  | .trapEntry => Sys2Proof.Machine.execTrapEntry s
  | .streamFault => Sys2Proof.Machine.execStreamFault s
  | .waitEnd => Sys2Proof.Machine.execWaitEnd s
  | .loadPerform => Sys2Proof.Machine.execLoadPerform s
  | .storePathPerform => Sys2Proof.Machine.execStorePathPerform s
  | .amoHomeUpdate => Sys2Proof.Machine.execAmoHomeUpdate s
  | .leaseHold => Sys2Proof.Machine.execLeaseHold s
  | .leaseExpiry => Sys2Proof.Machine.execLeaseExpiry s
  | .cmdqAdopt => Sys2Proof.Machine.execCmdqAdopt s
  | .caskMove => Sys2Proof.Machine.execCaskMove s
  | .streamStart => Sys2Proof.Machine.execStreamStart s
  | .streamItem => Sys2Proof.Machine.execStreamItem s
  | .mmaKGroup => Sys2Proof.Machine.execMmaKGroup s
  | .tmovPerform => Sys2Proof.Machine.execTmovPerform s
  | .acclrPerform => Sys2Proof.Machine.execAcclrPerform s
  | .accstRowAppend => Sys2Proof.Machine.execAccstRowAppend s
  | .accrdDeliver => Sys2Proof.Machine.execAccrdDeliver s
  | .preemptBegin => Sys2Proof.Machine.execPreemptBegin s
  | .drainComplete => Sys2Proof.Machine.execDrainComplete s
  | .kilnStart => Sys2Proof.Machine.execKilnStart s
  | .kilnScanComplete => Sys2Proof.Machine.execKilnScanComplete s
  | .contextRestore => Sys2Proof.Machine.execContextRestore s
  | .launchAccept => Sys2Proof.Machine.execLaunchAccept s
  | .kernelPlacement => Sys2Proof.Machine.execKernelPlacement s
  | .kernelQuiet => Sys2Proof.Machine.execKernelQuiet s
  | .partitionFence => Sys2Proof.Machine.execPartitionFence s
  | .kctlDone => Sys2Proof.Machine.execKctlDone s
  | .kctlFence => Sys2Proof.Machine.execKctlFence s
  | .kctlFault => Sys2Proof.Machine.execKctlFault s
  | .qctlOpen => Sys2Proof.Machine.execQctlOpen s
  | .qctlSeal => Sys2Proof.Machine.execQctlSeal s
  | .qctlClose => Sys2Proof.Machine.execQctlClose s
  | .qwinDescriptorWrite => Sys2Proof.Machine.execQwinDescriptorWrite s
  | .sstatResume => Sys2Proof.Machine.execSstatResume s
  | .sstatAbandon => Sys2Proof.Machine.execSstatAbandon s
  | .xcauseResume => Sys2Proof.Machine.execXcauseResume s
  | .mxprogResume => Sys2Proof.Machine.execMxprogResume s
  | .mxprogAbandon => Sys2Proof.Machine.execMxprogAbandon s
  | .wstCancel => Sys2Proof.Machine.execWstCancel s
  | .asnWrite => Sys2Proof.Machine.execAsnWrite s
  | .ptcfgWrite => Sys2Proof.Machine.execPtcfgWrite s
  | .rxselSnapshot => Sys2Proof.Machine.execRxselSnapshot s
  | .rxcfgWrite => Sys2Proof.Machine.execRxcfgWrite s
  | .sgvalWrite => Sys2Proof.Machine.execSgvalWrite s
  | .groupPreempt => Sys2Proof.Machine.execGroupPreempt s
  | .groupRestore => Sys2Proof.Machine.execGroupRestore s
  | .groupMemberEnd => Sys2Proof.Machine.execGroupMemberEnd s
  | .shootDownComplete => Sys2Proof.Machine.execShootDownComplete s
  | .bankDrainDone => Sys2Proof.Machine.execBankDrainDone s
  | .bankScrubDone => Sys2Proof.Machine.execBankScrubDone s
  | .linkTrainingComplete => Sys2Proof.Machine.execLinkTrainingComplete s
  | .linkBudgetExpiry => Sys2Proof.Machine.execLinkBudgetExpiry s
  | .flitReplay => Sys2Proof.Machine.execFlitReplay s
  | .farEndLoss => Sys2Proof.Machine.execFarEndLoss s
  | .granuleReceive => Sys2Proof.Machine.execGranuleReceive s
  | .granuleAck => Sys2Proof.Machine.execGranuleAck s
  | .chainElementSend => Sys2Proof.Machine.execChainElementSend s
  | .chainConfirm => Sys2Proof.Machine.execChainConfirm s
  | .frameReceive => Sys2Proof.Machine.execFrameReceive s
  | .quiesceComplete => Sys2Proof.Machine.execQuiesceComplete s
  | .transferComplete => Sys2Proof.Machine.execTransferComplete s
  | .sweepSend => Sys2Proof.Machine.execSweepSend s
  | .pageArrival => Sys2Proof.Machine.execPageArrival s
  | .redirect => Sys2Proof.Machine.execRedirect s
  | .hangDetect => Sys2Proof.Machine.execHangDetect s
  | .detectedError => Sys2Proof.Machine.execDetectedError s
  | .partLoss => Sys2Proof.Machine.execPartLoss s
  | .deviceReset => Sys2Proof.Machine.execDeviceReset s
  | .hostWrite => Sys2Proof.Machine.execHostWrite s
  | .mbAssign => Sys2Proof.Machine.execMbAssign s
  | .mbClear => Sys2Proof.Machine.execMbClear s
  | .mbPreempt => Sys2Proof.Machine.execMbPreempt s
  | .mbPodmap => Sys2Proof.Machine.execMbPodmap s
  | .mbPortmap => Sys2Proof.Machine.execMbPortmap s
  | .mbPeer => Sys2Proof.Machine.execMbPeer s
  | .mbLinkadm => Sys2Proof.Machine.execMbLinkadm s
  | .mbKeyset => Sys2Proof.Machine.execMbKeyset s
  | .mbKeyinv => Sys2Proof.Machine.execMbKeyinv s
  | .mbAttest => Sys2Proof.Machine.execMbAttest s
  | .currentLimitTrip => Sys2Proof.Machine.execCurrentLimitTrip s
  | .currentLimitRelease => Sys2Proof.Machine.execCurrentLimitRelease s
  | .powerIdleAdjust => Sys2Proof.Machine.execPowerIdleAdjust s
  | .replayComplete => Sys2Proof.Machine.execReplayComplete s

end Sys2Proof.Machine
end

