-- ==== Sys2Proof/Machine/Sched.lean ====
section
/-!
DEFINITION. What happens next (log 2): the acts that a state offers, the default order in which the model tries them, one step over a
meaning of the instructions, and the placing of a word for its issue (log 8).
-/
namespace Sys2Proof.Machine

/-- Perform one act: an event at its site, or the instruction that a slot decodes to (03 R76, 95). -/
def performAct (ex : Instr → State → Out State) (a : Act) (s : State) : Out State :=
  match a with
  | .ev i site => ex i { s with site := site }
  | .issue cu =>
    match (s.blks.get? cu.frame).bind fun b => b.slots[cu.slot]? with
    | none => .fault .noSite
    | some sl =>
      match decode sl.plane sl.word with
      | .error _ => .fault .undecodable
      | .ok i => ex i { s with site := .slot cu }

/-! ### The acts that a state offers -/

/-- The slots of a state, with their blocks. -/
def State.slotList (s : State) : List (Cur × Blk × Slot) :=
  s.blks.flatMap fun e => e.2.slots.zipIdx.map fun sl => (⟨e.1, sl.2⟩, e.2, sl.1)

/-- The instructions that can issue (03 R76): not issued or quenched, their operands arrived. -/
def State.issueActs (s : State) : List Act :=
  s.slotList.filterMap fun e =>
    if e.2.2.st = .waiting then
      match decode e.2.2.plane e.2.2.word with
      | .ok i => if arrived i e.2.2 then some (.issue e.1) else none
      | .error _ => none
    else none

/-- The events of held slots and of loads and reads under way. -/
def State.slotActs (s : State) : List Act :=
  s.slotList.flatMap fun e =>
    match e.2.2.st with
    | .held => [.ev .heldSlotResume (.slot e.1)]
    | .out => [.ev .loadPerform (.slot e.1), .ev .accrdDeliver (.slot e.1)]
    | .waiting | .done | .quenched => []

/-- The events of blocks in flight. -/
def State.frameActs (s : State) : List Act :=
  s.blks.flatMap fun e =>
    [.ev .streamFault (.frame e.1), .ev .blockCommit (.frame e.1), .ev .incompleteBlockFault (.frame e.1)]

/-- The fetchers of a context. -/
def Ctx.fetchers (x : Ctx) : List Fetcher := .thread :: .stream :: x.acts.map fun a => .act a.1

/-- Whether a fetch would take an address that the device predicts: the model leaves those to the agenda. -/
def State.predicts (s : State) (c : Nat) (x : Ctx) (u : Fetcher) : Bool := s.nextAt c u (x.lane u) = .predicted

/-- The boundary events of contexts: traps, ended waits, adoption, store paths, leases. -/
def State.ctxActs (s : State) : List Act :=
  s.ctxs.flatMap fun e =>
    .ev .trapEntry (.ctx e.1) :: (e.2.fetchers.flatMap fun u => [.ev .waitEnd (.ctxU e.1 u), .ev .streamFault (.ctxU e.1 u)])
      ++ (.ev .cmdqAdopt (.ctx e.1) :: e.2.path.map fun p => .ev .storePathPerform (.ctxQ e.1 p.stamp))
      ++ [.ev .leaseHold (.ctx e.1), .ev .leaseExpiry (.ctx e.1)]

/-- The events of engines and of queue 14. -/
def State.engineActs (s : State) : List Act :=
  s.ctxs.flatMap fun e =>
    ((List.range 16).filter fun q => vecGet e.2.eng.eqs q [] ≠ []).flatMap (fun q =>
      [.ev .streamStart (.ctxQ e.1 q), .ev .streamItem (.ctxQ e.1 q)])
      ++ (if e.2.fx.q14 = [] then []
          else [.ev .mmaKGroup (.ctx e.1), .ev .tmovPerform (.ctx e.1), .ev .acclrPerform (.ctx e.1), .ev .accstRowAppend (.ctx e.1)])

/-- The fetches whose address the model does not predict. -/
def State.fetchActs (s : State) : List Act :=
  s.ctxs.flatMap fun e => (e.2.fetchers.filter fun u => !s.predicts e.1 e.2 u).map fun u => .ev .blockFetch (.ctxU e.1 u)

/-- The dispatchers of the cores on which contexts stand. -/
def State.dispActs (s : State) : List Act :=
  (s.ctxs.flatMap fun e =>
    match e.2.pos with
    | some p => [(⟨e.2.pk.pkg, p.1, true⟩ : DispKey), ⟨e.2.pk.pkg, p.1, false⟩]
    | none => []).eraseDups.map fun d => .ev .dispatchDecision (.disp d)

/-- The events of pre-emption and of groups (13 R304 to R306, 17 R377, R378). -/
def State.groupActs (s : State) : List Act :=
  (s.ctxs.flatMap fun e =>
    [.ev .preemptBegin (.ctx e.1), .ev .drainComplete (.ctx e.1), .ev .kilnStart (.ctx e.1), .ev .kilnScanComplete (.ctx e.1),
     .ev .groupMemberEnd (.ctx e.1)])
    ++ s.groups.flatMap fun e => [.ev .groupPreempt (.obj e.1), .ev .groupRestore (.obj e.1)]

/-- The events of partitions and kernels (16 R361 to R373, 21). -/
def State.partActs (s : State) : List Act :=
  (s.kerns.map fun e => .ev .kernelQuiet (.kern e.1))
    ++ s.parts.flatMap fun e =>
      .ev .partitionFence (.part e.1)
        :: ((List.range 4).flatMap fun n => [.ev .launchAccept (.partLq e.1 n), .ev .kernelPlacement (.partLq e.1 n)])
        ++ [.ev .quiesceComplete (.part e.1), .ev .transferComplete (.partOk e.1 true), .ev .sweepSend (.part e.1)]
        ++ (e.2.transit.map fun m => .ev .pageArrival (.partV e.1 (BitVec.ofNat 64 (m.dst * 65536))))
        ++ [.ev .replayComplete (.part e.1), .ev .hangDetect (.part e.1)]

/-- The events of queues and chains. -/
def State.queueActs (s : State) : List Act :=
  s.queues.flatMap fun e =>
    .ev .caskMove (.obj e.1)
      :: match e.2.chain with
        | none => []
        | some c =>
          [.ev .chainConfirm (.objOk e.1 true), .ev .chainElementSend (.obj e.1)]
            ++ ((List.range c.unack.length).map fun n => .ev .granuleReceive (.objN e.1 n)) ++ [.ev .granuleAck (.objN e.1 0)]

/-- The links that are not at rest as device reset leaves the Septermoon and Ultra Ethernet links: every die boundary, and those listed. -/
def State.linkKeys (s : State) : List LinkKey :=
  ((s.pkgs.flatMap fun e => (List.range 6).map fun n => (⟨e.1, .die, n⟩ : LinkKey)) ++ s.links.map Prod.fst).eraseDups

/-- The remaining events of the machine itself: host writes that wait, home updates, shoot-downs, banks, links, the mailbox. -/
def State.unitActs (s : State) : List Act :=
  (s.late.map fun w => .ev .hostWrite (.host w.1 w.2))
    ++ ((List.range s.amos.length).map fun n => .ev .amoHomeUpdate (.num n))
    ++ ((List.range s.shoots.length).map fun n => .ev .shootDownComplete (.num n))
    ++ (s.banks.flatMap fun e => [.ev .bankDrainDone (.bank e.1), .ev .bankScrubDone (.bank e.1)])
    ++ (s.linkKeys.flatMap fun k => [.ev .linkTrainingComplete (.link k), .ev .linkBudgetExpiry (.link k)])
    ++ (s.pkgs.filter fun e => e.2.mbState = 1).flatMap fun e =>
      [Instr.mbAssign, .mbClear, .mbPreempt, .mbPodmap, .mbPortmap, .mbPeer, .mbLinkadm, .mbKeyset, .mbKeyinv, .mbAttest].map
        fun i => .ev i (.pkg e.1)

/-- The events that a state offers by itself, from a place in the list that moves on with every free value, so that none is passed over for
ever. What the outside world does, errors, losses and predicted fetches stand in the agenda alone. -/
def State.eventActs (s : State) : List Act :=
  (s.ctxActs ++ s.frameActs ++ s.slotActs ++ s.engineActs ++ s.queueActs ++ s.unitActs ++ s.fetchActs ++ s.dispActs ++ s.groupActs
    ++ s.partActs).rotateLeft s.free

/-! ### One step -/

/-- Whether an act has changed a state beyond the model's own bookkeeping. -/
def State.changed (s t : State) : Bool := decide ({ t with free := s.free, site := s.site } ≠ s)

/-- The first of a list of acts that changes the state, and what it gives. -/
def firstAct (ex : Instr → State → Out State) (s : State) : List Act → Option State
  | [] => none
  | a :: r =>
    match performAct ex a s with
    | .next t => if s.changed t then some t else firstAct ex s r
    | .fault _ => firstAct ex s r
    | .refused _ => firstAct ex s r

/-- What the machine does by itself (log 2): an instruction that can issue, else time passes and an event happens, else time passes. -/
def State.byItself (ex : Instr → State → Out State) (s : State) : State :=
  match firstAct ex s s.issueActs with
  | some t => t
  | none =>
    let s := s.tick
    match firstAct ex s s.eventActs with
    | some t => t
    | none => s

/-- One step: the first act of the agenda, time passing before an event; with an empty agenda, what the machine does by itself. -/
def stepWith (ex : Instr → State → Out State) (s : State) : Out State :=
  match s.agenda with
  | [] => .next (s.byItself ex)
  | .issue cu :: r => performAct ex (.issue cu) { s with agenda := r }
  | .ev i site :: r => performAct ex (.ev i site) { s with agenda := r }.tick

/-! ### Placing a word -/

/-- The plane in which a word is decoded: the control plane where it has a meaning there, else the data plane (log 13). -/
def planeOf (w : IWord) : Plane := match decode .ctl w with | .ok _ => .ctl | .error _ => .dat

/-- A slot with a word whose operands have all arrived, its predicate so that it fires. -/
def readySlot (pl : Plane) (w : IWord) (p : Pred) : Slot :=
  let t : Tok := match pl with | .ctl => Tok.ofWord 0 | .dat => .vec 0
  { word := w, plane := pl, rep := false, l := some t, r := some t, p := some (Tok.ofWord (if p = .onTrue then 1 else 0)) }

/-- The header of a one-slot block that holds an instruction (03 R72, R79). -/
def headerFor (acc : Bool) (pl : Plane) (i : Instr) : Header :=
  let kind := if acc then 1 else 2
  let reg := match i with | .write _ r => some (writeBit kind r.toNat) | _ => none
  { kind := kind, count := 0, cwords := if pl = .dat then 1 else 0, rpt := 0
    pwmask := match reg with | some (true, n) => 1#8 <<< n | _ => 0
    zero := 0
    smask := match (info i).cls.stores, (info i).id with | true, some n => 1#32 <<< n.toNat | _, _ => 0
    rwmask := match reg with | some (false, n) => 1#64 <<< n | _ => 0 }

/-- A state with a block in flight of one slot that holds a word, the block of a context that runs with privilege on core 0 of package 0, and
the issue of the slot as the next act (log 8). -/
def State.placeWord (s : State) (w : IWord) : State :=
  let pl := planeOf w
  match decode pl w with
  | .error _ => s
  | .ok i =>
    let acc := decide (pl = .ctl) && (info i).acc
    let f : FrameKey := ⟨⟨0, 0, acc⟩, 0⟩
    let x : Ctx := { pk := ⟨0, 0⟩, kern := ⟨⟨0, 0⟩, 0, 0⟩, index := 0, pos := some (0, 0), ctl := { pm := true } }
    let b : Blk :=
      { ctx := s.seq, u := if acc then .thread else .stream, addr := 0, hdr := headerFor acc pl i, seq := s.seq + 1
        slots := [readySlot pl w (info i).p], pm := true }
    { s with
      agenda := [.issue ⟨f, 0⟩], seq := s.seq + 2, ctxs := s.ctxs.put s.seq x, blks := s.blks.put f b }

end Sys2Proof.Machine
end

