-- ==== Sys2Proof/Machine/Step.lean ====
section
/-!
DEFINITION. One step of the machine, and the placing of an instruction word for its next step.
-/
namespace Sys2Proof.Machine

/-- One step of the machine (log 2). -/
def step (s : State) : Host.Outcome State Fault Refusal := stepWith exec s

/-- `s` with an instruction word in a slot of a block in flight, whose issue is the next step (log 8). A row without an encoding has no bits
and leaves the state as it is. -/
def State.withFetchWord (s : State) (nbits w : Nat) : State := if nbits = 0 then s else s.placeWord (BitVec.ofNat 32 w)

end Sys2Proof.Machine
end

