-- ==== Sys2Proof/Machine/AsmText.lean ====
section
/-!
DEFINITION. The text of assembly source (05 R110, R111, R122 to R124): the tokens of a line, names, expressions and literals.
-/
namespace Sys2Proof.Machine

/-- Why source, an object or a chain is refused (05 R110 to R126, 16 R364, 22 R471 to R476). -/
inductive AsmErr where
  | lex | statement | mnemonic | suffix | operand | label | target | reserved | expr | range | literal | block | identifier | dispatch | rate
  | directive | kernel | handler | queue | symbol | reloc | align | rates | erratum | chain | fit
  deriving DecidableEq, Repr

/-! ### Tokens -/

/-- A token of a line (05 R110). A word is a name, or names joined by dots: a mnemonic with its suffixes, a directive, a section or a target. -/
inductive Tk where
  | word (s : String)
  | int (v : Nat)
  /-- A floating literal: its digits, the power of ten that scales them, and whether it ends in `bf`. -/
  | flt (m : Nat) (e : Int) (bf : Bool)
  | sym (c : Char)
  | arrow | shl | shr
  deriving DecidableEq, Repr

/-- A letter or `_` (R110). -/
def isNameStart (c : Char) : Bool := c.isAlpha || c = '_'
/-- A letter, a digit or `_` (R110). -/
def isNameChar (c : Char) : Bool := c.isAlphanum || c = '_'
/-- A character of a word. -/
def isWordChar (c : Char) : Bool := isNameChar c || c = '.'

/-- Whether a word is a name (R110). -/
def isName (s : String) : Bool :=
  match s.toList with
  | [] => false
  | c :: r => isNameStart c && r.all isNameChar && decide (r.length < 255)

/-- The characters of a number, and what follows it: an exponent may carry a sign. -/
def numRun (dec : Bool) : Char → List Char → List Char × List Char
  | _, [] => ([], [])
  | prev, c :: r =>
    if isWordChar c || (dec && (c = '+' || c = '-') && (prev = 'e' || prev = 'E')) then
      let t := numRun dec c r
      (c :: t.1, t.2)
    else ([], c :: r)

/-- The value of a digit, 16 or more for none. -/
def digitVal (c : Char) : Nat :=
  if c.isDigit then c.toNat - '0'.toNat
  else if 'a' ≤ c ∧ c ≤ 'f' then c.toNat - 'a'.toNat + 10
  else if 'A' ≤ c ∧ c ≤ 'F' then c.toNat - 'A'.toNat + 10
  else 16

/-- The number that digits give in a base; `_` may separate them (R110). -/
def natOf (base : Nat) (l : List Char) : Option Nat :=
  let d := l.filter fun c => c != '_'
  if d.isEmpty || d.any (fun c => decide (base ≤ digitVal c)) then none else some (d.foldl (fun n c => base * n + digitVal c) 0)

/-- The exponent of a floating literal. -/
def expOf : List Char → Option Int
  | '+' :: r => (natOf 10 r).map fun n => (n : Int)
  | '-' :: r => (natOf 10 r).map fun n => -(n : Int)
  | r => (natOf 10 r).map fun n => (n : Int)

/-- A floating literal (R110, R122): it holds a point or an exponent. -/
def fltTok (l : List Char) : Option Tk :=
  let bf := l.reverse.take 2 = ['f', 'b']
  let l := if bf then l.take (l.length - 2) else l
  let man := l.takeWhile fun c => c != 'e' && c != 'E'
  let ex := l.drop man.length
  let ip := man.takeWhile fun c => c != '.'
  let fp := man.drop (ip.length + 1)
  let fd := (fp.filter fun c => c != '_').length
  if !man.contains '.' && ex.isEmpty then none
  else
    match natOf 10 (ip ++ fp), (if ex.isEmpty then some 0 else expOf (ex.drop 1)) with
    | some m, some e => some (.flt m (e - fd) bf)
    | _, _ => none

/-- The token of a number (R110). -/
def numTok : List Char → Option Tk
  | '0' :: 'x' :: r => (natOf 16 r).map Tk.int
  | '0' :: 'b' :: r => (natOf 2 r).map Tk.int
  | r => match natOf 10 r with | some n => some (.int n) | none => fltTok r

/-- The tokens of a line (R110); none where it is no source text. `n` bounds its length. -/
def lexLine : Nat → List Char → Option (List Tk)
  | 0, _ => none
  | _ + 1, [] => some []
  | n + 1, c :: r =>
    if c = ';' then some []
    else if c = ' ' || c = '\t' || c = '\r' then lexLine n r
    else if c.isDigit then
      let run := numRun (!(c = '0' && (r.head? = some 'x' || r.head? = some 'b'))) c r
      match numTok (c :: run.1), lexLine n run.2 with
      | some t, some l => some (t :: l)
      | _, _ => none
    else if isNameStart c || c = '.' then
      (lexLine n (r.dropWhile isWordChar)).map fun l => .word (String.ofList (c :: r.takeWhile isWordChar)) :: l
    else
      match c, r with
      | '-', '>' :: r => (lexLine n r).map (.arrow :: ·)
      | '<', '<' :: r => (lexLine n r).map (.shl :: ·)
      | '>', '>' :: r => (lexLine n r).map (.shr :: ·)
      | c, r => if ":,()+-*/%&|^~=?".toList.contains c then (lexLine n r).map (.sym c :: ·) else none

/-- The tokens of a line of text, which is ASCII throughout (R110). -/
def tokensOf (l : List Char) : Option (List Tk) := if l.all fun c => decide (c.toNat < 128) then lexLine (l.length + 1) l else none

/-! ### Expressions -/

/-- The binary operators (R123). -/
inductive EOp where
  | add | sub | mul | div | rem | shl | shr | and | xor | or
  deriving DecidableEq, Repr

/-- An expression (R123, R124). -/
inductive Expr where
  | num (v : Nat)
  | sym (s : String)
  | neg (a : Expr)
  | inv (a : Expr)
  | bin (o : EOp) (a b : Expr)
  | piece (i : Nat) (a : Expr)
  deriving DecidableEq, Repr

/-- The operator that a token is at a level of precedence, as in C (R123): `|`, `^`, `&`, shifts, sums, products. -/
def opAt : Nat → Tk → Option EOp
  | 0, .sym '|' => some .or
  | 1, .sym '^' => some .xor
  | 2, .sym '&' => some .and
  | 3, .shl => some .shl
  | 3, .shr => some .shr
  | 4, .sym '+' => some .add
  | 4, .sym '-' => some .sub
  | 5, .sym '*' => some .mul
  | 5, .sym '/' => some .div
  | 5, .sym '%' => some .rem
  | _, _ => none

/-- The piece that a word after `%` names (R124). -/
def pieceOf : String → Option Nat
  | "k0" => some 0
  | "k1" => some 1
  | "k2" => some 2
  | "k3" => some 3
  | _ => none

/-- What the reader of expressions reads next: an operand and the operators of a level, more operators after an operand, or one operand. -/
inductive ExprAt where
  | level (n : Nat)
  | more (n : Nat) (a : Expr)
  | atom

/-- Read an expression (R123, R124), with what follows it. The first argument bounds the steps. -/
def readExpr : Nat → ExprAt → List Tk → Option (Expr × List Tk)
  | 0, _, _ => none
  | f + 1, .level n, ts =>
    if n = 6 then readExpr f .atom ts
    else match readExpr f (.level (n + 1)) ts with
      | some (a, r) => readExpr f (.more n a) r
      | none => none
  | f + 1, .more n a, ts =>
    match ts with
    | [] => some (a, [])
    | t :: r =>
      match opAt n t with
      | none => some (a, ts)
      | some o =>
        match readExpr f (.level (n + 1)) r with
        | some (b, r) => readExpr f (.more n (.bin o a b)) r
        | none => none
  | f + 1, .atom, ts =>
    match ts with
    | .int v :: r => if v < 2 ^ 64 then some (.num v, r) else none
    | .sym '-' :: r => (readExpr f .atom r).map fun e => (.neg e.1, e.2)
    | .sym '+' :: r => readExpr f .atom r
    | .sym '~' :: r => (readExpr f .atom r).map fun e => (.inv e.1, e.2)
    | .sym '(' :: r =>
      match readExpr f (.level 0) r with
      | some (a, .sym ')' :: r) => some (a, r)
      | _ => none
    | .sym '%' :: .word k :: .sym '(' :: r =>
      match pieceOf k, readExpr f (.level 0) r with
      | some i, some (a, .sym ')' :: r) => some (.piece i a, r)
      | _, _ => none
    | .word s :: r => if isName s then some (.sym s, r) else none
    | _ => none

/-- The expression that tokens are, all of them. -/
def exprOf (ts : List Tk) : Option Expr :=
  match readExpr (10 * ts.length + 10) (.level 0) ts with
  | some (e, []) => some e
  | _ => none

/-- What a symbol is: an absolute value; a place of a section; a declared queue, whose number the loader assigns (16 R364); or a symbol of another
file. -/
inductive SymVal where
  | abs (v : Word)
  | at' (sec : String) (off : Nat)
  | queue
  | ext
  deriving DecidableEq, Repr

/-- The value of an expression (R123, R124): absolute, a symbol plus an absolute value, or a 16-bit piece of such a sum. -/
inductive EVal where
  | abs (v : Word)
  | rel (s : String) (a : Word)
  | piece (i : Nat) (s : String) (a : Word)
  deriving DecidableEq, Repr

/-- An operator on absolute values (R123). -/
def EOp.eval (o : EOp) (a b : Word) : Except AsmErr Word :=
  match o with
  | .add => .ok (a + b)
  | .sub => .ok (a - b)
  | .mul => .ok (a * b)
  | .div => if b = 0 then .error .expr else .ok (a.sdiv b)
  | .rem => if b = 0 then .error .expr else .ok (a.srem b)
  | .shl => if 64 ≤ b.toNat then .error .expr else .ok (a <<< b.toNat)
  | .shr => if 64 ≤ b.toNat then .error .expr else .ok (a.sshiftRight b.toNat)
  | .and => .ok (a &&& b)
  | .xor => .ok (a ^^^ b)
  | .or => .ok (a ||| b)

/-- The 16-bit piece of a value (R124). -/
def wordPiece (i : Nat) (v : Word) : Word := (v >>> (16 * i)) &&& 0xFFFF

/-- The value of an expression under a table of symbols (R123, R124). -/
def Expr.eval (look : String → Except AsmErr SymVal) : Expr → Except AsmErr EVal
  | .num v => .ok (.abs (BitVec.ofNat 64 v))
  | .sym s =>
    match look s with
    | .error e => .error e
    | .ok (.abs v) => .ok (.abs v)
    | .ok _ => .ok (.rel s 0)
  | .neg a => match a.eval look with | .ok (.abs v) => .ok (.abs (-v)) | .ok _ => .error .expr | .error e => .error e
  | .inv a => match a.eval look with | .ok (.abs v) => .ok (.abs (~~~v)) | .ok _ => .error .expr | .error e => .error e
  | .piece i a =>
    match a.eval look with
    | .ok (.abs v) => .ok (.abs (wordPiece i v))
    | .ok (.rel s v) => .ok (.piece i s v)
    | .ok (.piece _ _ _) => .error .expr
    | .error e => .error e
  | .bin o a b =>
    match a.eval look, b.eval look with
    | .ok (.abs x), .ok (.abs y) => match o.eval x y with | .ok v => .ok (.abs v) | .error e => .error e
    | .ok (.rel s x), .ok (.abs y) =>
      match o with | .add => .ok (.rel s (x + y)) | .sub => .ok (.rel s (x - y)) | _ => .error .expr
    | .ok (.abs x), .ok (.rel s y) => match o with | .add => .ok (.rel s (x + y)) | _ => .error .expr
    | .ok (.rel s x), .ok (.rel t y) =>
      match o, look s, look t with
      | .sub, .ok (.at' c m), .ok (.at' d n) =>
        if c = d then .ok (.abs (BitVec.ofNat 64 m + x - BitVec.ofNat 64 n - y)) else .error .expr
      | _, _, _ => .error .expr
    | .error e, _ => .error e
    | _, .error e => .error e
    | _, _ => .error .expr

/-- The signed field of `w` bits that holds a value (R123). -/
def signedField (w : Nat) (v : Word) : Except AsmErr Nat :=
  if -(2 ^ (w - 1) : Int) ≤ v.toInt ∧ v.toInt < (2 ^ (w - 1) : Int) then .ok (v.toInt % (2 ^ w : Int)).toNat else .error .range

/-- The unsigned field of `w` bits that holds a value (R123). -/
def unsignedField (w : Nat) (v : Word) : Except AsmErr Nat := if v.toNat < 2 ^ w then .ok v.toNat else .error .range

/-- A value from `lo` to `hi`, as a signed number. -/
def rangedField (lo hi : Int) (w : Nat) (v : Word) : Except AsmErr Nat :=
  if lo ≤ v.toInt ∧ v.toInt ≤ hi then .ok (v.toInt % (2 ^ w : Int)).toNat else .error .range

/-! ### Literals -/

/-- Whether `m` times ten to the `e` is above the largest finite value of a format. -/
def beyondFinite (f : FFmt) (m : Nat) (e : Int) : Bool :=
  match f.decode f.maxFin with
  | .fin _ k q => decide (k * 2 ^ q.toNat * 10 ^ (-e).toNat < m * 10 ^ e.toNat * 2 ^ (-q).toNat)
  | .nan | .inf _ => false

/-- The bits of a floating literal (R122), rounded with `rne`; none where it is beyond the largest finite value. -/
def litBits (f : FFmt) (neg : Bool) (m : Nat) (e : Int) : Option Nat :=
  if beyondFinite f m e then none
  else
    let d := 10 ^ (-e).toNat
    let k := if e < 0 then bitLen d + 320 else 0
    let n := m * 10 ^ e.toNat * 2 ^ k
    some (roundFin f {} neg (n / d) (-(k : Int)) (decide (n % d ≠ 0))).1

end Sys2Proof.Machine
end

