-- ==== Sys2Proof/Machine/AsmTable.lean ====
section
/-!
DEFINITION. The mnemonics of assembly source (05 R111, R115): for each its plane, the word it encodes, its suffixes and its operands, as the entries of
the instructions give them; registers, ports and control registers by name.
-/
namespace Sys2Proof.Machine

/-- One suffix of a mnemonic: whether it must stand, and the bits that each spelling sets. -/
abbrev Sfx := Bool × List (String × Nat)

/-- An operand of an assembly form. -/
inductive Opd where
  /-- An identifier `ls0` to `ls31`. -/
  | id
  /-- A number from `lo` to `hi` in a field of `w` bits at `pos`. -/
  | num (lo hi : Int) (w pos : Nat)
  /-- The immediate of `const` (`sg`) or `constx` (09 R194, R195). -/
  | imm16 (sg : Bool)
  /-- A load's displacement in bytes (10 R227). -/
  | scaled (size : Nat)
  /-- The cycles of a lease (10 R235). -/
  | cycles
  /-- A register of `read` or `write` (04 R100); `vec` for `read.v`. -/
  | reg (wr vec : Bool)
  /-- A numbered port, register or queue below `n`, at bit `pos`. -/
  | bank (pre : String) (n pos : Nat)
  | exactly (s : String)
  /-- A queue declared by the kernel (R125). -/
  | queue
  | cr
  /-- A block, and an exit that may be left out (09 R213). -/
  | block
  | exit (pos : Nat)
  deriving DecidableEq, Repr

/-- A row of the table of mnemonics: the parts of its name, its plane, its word with every other field zero, its suffixes in order, its operands, and
how many targets it may name. -/
structure MRow where
  name : List String
  plane : Plane
  base : Nat
  suf : List Sfx
  opds : List Opd
  targets : Nat
  deriving DecidableEq, Repr

/-! ### Suffixes (R111) -/

/-- A suffix that may be left out. -/
def sfx1 (s : String) (bit : Nat) : Sfx := (false, [(s, 2 ^ bit)])
/-- Codes shifted to their place. -/
def codesAt (pos : Nat) (l : List (String × Nat)) : List (String × Nat) := l.map fun e => (e.1, e.2 * 2 ^ pos)
/-- The integer types of the data plane (04 R104). -/
def intCodes : List (String × Nat) :=
  [("s8", 0), ("s16", 1), ("s32", 2), ("n8", 4), ("n16", 5), ("n32", 6), ("b8", 4), ("b16", 5), ("b32", 6)]
/-- The floating types of the class F. -/
def fltCodes : List (String × Nat) := [("f32", 8), ("f16", 9), ("bf16", 10)]
/-- The other types. -/
def mxCodes : List (String × Nat) := [("e4m3", 11), ("e5m2", 12), ("e2m1", 13), ("mx8", 14), ("mx4", 15)]
/-- A type of the class I. -/
def sfxI : Sfx := (true, codesAt 18 intCodes)
/-- A type of the class F. -/
def sfxF : Sfx := (true, codesAt 18 fltCodes)
/-- Any type. -/
def sfxAny : Sfx := (true, codesAt 18 (intCodes ++ fltCodes ++ mxCodes))
/-- The source type of `cvt`. -/
def sfxSrc : Sfx := (true, codesAt 9 (intCodes ++ fltCodes ++ mxCodes))
/-- A rounding mode (04 R106). -/
def sfxMode : Sfx := (false, codesAt 13 [("rne", 0), ("rz", 1), ("ru", 2), ("rd", 3), ("rs", 4)])
/-- The spellings of 64-bit integer forms that encode alike (04 R103, 09 R200). -/
def sfxInt : Sfx := (false, [("s64", 0), ("n64", 0)])
/-- The spelling of logic forms (09 R202). -/
def sfxLogic : Sfx := (false, [("b64", 0)])
/-- A scope (04 R106). -/
def sfxScope (pos : Nat) : Sfx := (true, codesAt pos [("ln", 0), ("co", 1), ("qd", 2), ("di", 3), ("pk", 4), ("pd", 5)])
/-- A condition of `cmp` (11 R247). -/
def sfxCond : Sfx := (true, codesAt 9 [("eq", 0), ("ne", 1), ("lt", 2), ("le", 3), ("gt", 4), ("ge", 5), ("uo", 6), ("ord", 7)])
/-- An operation of `red` or `scan` (11 R254, R255). -/
def sfxRed : Sfx := (true, codesAt 9 [("sum", 0), ("min", 1), ("max", 2), ("and", 3), ("or", 4), ("xor", 5)])
/-- An operand type of `mma` (12 R280). -/
def sfxMma : Sfx :=
  (true, codesAt 14 [("s8", 0), ("n8", 1), ("f16", 2), ("bf16", 3), ("e4m3", 4), ("e5m2", 5), ("e2m1", 6), ("mx8", 7), ("mx4", 8)])
/-- A typed buffer of `tmov` (12 R286). -/
def sfxBuf (pos : Nat) : Sfx := (true, codesAt pos [("w", 0), ("a", 1), ("c", 2)])
/-- A stage of `rtcfg` (14 R338). -/
def sfxStage : Sfx := (true, codesAt 15 [("pass", 0), ("radd", 1), ("rmax", 2), ("filt", 3), ("mcast", 4)])
/-- A page size (19 R414, R422). -/
def sfxPage (pos : Nat) : Sfx := (true, codesAt pos [("64k", 0), ("2m", 1), ("1g", 2)])
/-- A link class (20 R438). -/
def sfxLink : Sfx := (true, codesAt 12 [("db", 0), ("sm", 1), ("ue", 2)])

/-! ### The rows -/

/-- Rows of moves, arithmetic, logic, tests, width converters and addresses (09 R198 to R210). -/
def asmTok : List MRow := [
  ⟨["mov"], .ctl, 0x0A000000, [], [], 2⟩,
  ⟨["mov", "v"], .dat, 0x0A000000, [], [], 2⟩,
  ⟨["null"], .ctl, 0x0A040000, [], [], 2⟩,
  ⟨["null", "v"], .dat, 0x0A040000, [], [], 2⟩,
  ⟨["add"], .ctl, 0x0C000000, [sfxInt], [], 2⟩,
  ⟨["sub"], .ctl, 0x0C040000, [sfxInt], [], 2⟩,
  ⟨["mul"], .ctl, 0x0C080000, [sfxInt], [], 2⟩,
  ⟨["neg"], .ctl, 0x0C240000, [sfxInt], [], 2⟩,
  ⟨["abs"], .ctl, 0x0C280000, [sfxInt], [], 2⟩,
  ⟨["mulh", "s64"], .ctl, 0x0C0C0000, [], [], 2⟩,
  ⟨["mulh", "n64"], .ctl, 0x0C100000, [], [], 2⟩,
  ⟨["div", "s64"], .ctl, 0x0C140000, [], [], 2⟩,
  ⟨["div", "n64"], .ctl, 0x0C180000, [], [], 2⟩,
  ⟨["rem", "s64"], .ctl, 0x0C1C0000, [], [], 2⟩,
  ⟨["rem", "n64"], .ctl, 0x0C200000, [], [], 2⟩,
  ⟨["min", "s64"], .ctl, 0x0C2C0000, [], [], 2⟩,
  ⟨["max", "s64"], .ctl, 0x0C300000, [], [], 2⟩,
  ⟨["min", "n64"], .ctl, 0x0C340000, [], [], 2⟩,
  ⟨["max", "n64"], .ctl, 0x0C380000, [], [], 2⟩,
  ⟨["and"], .ctl, 0x0E000000, [sfxLogic], [], 2⟩,
  ⟨["or"], .ctl, 0x0E040000, [sfxLogic], [], 2⟩,
  ⟨["xor"], .ctl, 0x0E080000, [sfxLogic], [], 2⟩,
  ⟨["andn"], .ctl, 0x0E0C0000, [sfxLogic], [], 2⟩,
  ⟨["not"], .ctl, 0x0E100000, [sfxLogic], [], 2⟩,
  ⟨["shl"], .ctl, 0x0E140000, [sfxLogic], [], 2⟩,
  ⟨["shr"], .ctl, 0x0E180000, [sfxLogic], [], 2⟩,
  ⟨["sar"], .ctl, 0x0E1C0000, [sfxLogic], [], 2⟩,
  ⟨["rol"], .ctl, 0x0E200000, [sfxLogic], [], 2⟩,
  ⟨["ror"], .ctl, 0x0E240000, [sfxLogic], [], 2⟩,
  ⟨["popc"], .ctl, 0x0E280000, [sfxLogic], [], 2⟩,
  ⟨["clz"], .ctl, 0x0E2C0000, [sfxLogic], [], 2⟩,
  ⟨["ctz"], .ctl, 0x0E300000, [sfxLogic], [], 2⟩,
  ⟨["bswap"], .ctl, 0x0E340000, [sfxLogic], [], 2⟩,
  ⟨["sext", "s8"], .ctl, 0x0E380000, [], [], 2⟩,
  ⟨["sext", "s16"], .ctl, 0x0E3C0000, [], [], 2⟩,
  ⟨["sext", "s32"], .ctl, 0x0E400000, [], [], 2⟩,
  ⟨["zext", "n8"], .ctl, 0x0E440000, [], [], 2⟩,
  ⟨["zext", "n16"], .ctl, 0x0E480000, [], [], 2⟩,
  ⟨["zext", "n32"], .ctl, 0x0E4C0000, [], [], 2⟩,
  ⟨["teq"], .ctl, 0x10000000, [], [], 2⟩,
  ⟨["tne"], .ctl, 0x10040000, [], [], 2⟩,
  ⟨["tlt", "s64"], .ctl, 0x10080000, [], [], 2⟩,
  ⟨["tle", "s64"], .ctl, 0x100C0000, [], [], 2⟩,
  ⟨["tgt", "s64"], .ctl, 0x10100000, [], [], 2⟩,
  ⟨["tge", "s64"], .ctl, 0x10140000, [], [], 2⟩,
  ⟨["tlt", "n64"], .ctl, 0x10180000, [], [], 2⟩,
  ⟨["tle", "n64"], .ctl, 0x101C0000, [], [], 2⟩,
  ⟨["tgt", "n64"], .ctl, 0x10200000, [], [], 2⟩,
  ⟨["tge", "n64"], .ctl, 0x10240000, [], [], 2⟩,
  ⟨["tbit"], .ctl, 0x10280000, [], [], 2⟩,
  ⟨["tz"], .ctl, 0x102C0000, [], [], 2⟩,
  ⟨["tnz"], .ctl, 0x10300000, [], [], 2⟩,
  ⟨["wsplit", "b8"], .ctl, 0x12000000, [], [], 2⟩,
  ⟨["wsplit", "b16"], .ctl, 0x12040000, [], [], 2⟩,
  ⟨["wsplit", "b32"], .ctl, 0x12080000, [], [], 2⟩,
  ⟨["wjoin", "b8"], .ctl, 0x12100000, [], [], 2⟩,
  ⟨["wjoin", "b16"], .ctl, 0x12140000, [], [], 2⟩,
  ⟨["wjoin", "b32"], .ctl, 0x12180000, [], [], 2⟩,
  ⟨["lea", "x1"], .ctl, 0x14000000, [], [], 2⟩,
  ⟨["lea", "x2"], .ctl, 0x14040000, [], [], 2⟩,
  ⟨["lea", "x4"], .ctl, 0x14080000, [], [], 2⟩,
  ⟨["lea", "x8"], .ctl, 0x140C0000, [], [], 2⟩]

/-- Rows of constants, registers, immediate forms and branches (09 R194 to R213, 13 R308, R313, 18 R398, R400). -/
def asmImm : List MRow := [
  ⟨["const"], .ctl, 0x02000000, [], [.imm16 true], 1⟩,
  ⟨["constx"], .ctl, 0x04000000, [], [.imm16 false], 1⟩,
  ⟨["read"], .ctl, 0x06000000, [], [.reg false false], 2⟩,
  ⟨["read"], .dat, 0x06000000, [], [.reg false false], 2⟩,
  ⟨["read", "v"], .dat, 0x06000000, [], [.reg false true], 2⟩,
  ⟨["write"], .ctl, 0x08000000, [], [.reg true false], 0⟩,
  ⟨["write"], .dat, 0x08000000, [], [.reg true false], 0⟩,
  ⟨["addi"], .ctl, 0x16000000, [], [.num (-8192) 8191 14 9], 1⟩,
  ⟨["teqi"], .ctl, 0x1E000000, [], [.num (-8192) 8191 14 9], 1⟩,
  ⟨["tnei"], .ctl, 0x26000000, [], [.num (-8192) 8191 14 9], 1⟩,
  ⟨["tlti"], .ctl, 0x28000000, [], [.num (-8192) 8191 14 9], 1⟩,
  ⟨["tgei"], .ctl, 0x2A000000, [], [.num (-8192) 8191 14 9], 1⟩,
  ⟨["andi"], .ctl, 0x18000000, [], [.num 0 16383 14 9], 1⟩,
  ⟨["ori"], .ctl, 0x1A000000, [], [.num 0 16383 14 9], 1⟩,
  ⟨["xori"], .ctl, 0x1C000000, [], [.num 0 16383 14 9], 1⟩,
  ⟨["tltui"], .ctl, 0x2C000000, [], [.num 0 16383 14 9], 1⟩,
  ⟨["tgeui"], .ctl, 0x2E000000, [], [.num 0 16383 14 9], 1⟩,
  ⟨["shli"], .ctl, 0x20000000, [], [.num 0 63 14 9], 1⟩,
  ⟨["shri"], .ctl, 0x22000000, [], [.num 0 63 14 9], 1⟩,
  ⟨["sari"], .ctl, 0x24000000, [], [.num 0 63 14 9], 1⟩,
  ⟨["br"], .ctl, 0x30000000, [], [.block, .exit 20], 0⟩,
  ⟨["call"], .ctl, 0x32000000, [], [.block, .exit 20], 0⟩,
  ⟨["bar", "wait"], .ctl, 0x36000000, [], [.block, .exit 20], 0⟩,
  ⟨["sig", "wait"], .ctl, 0x38000000, [], [.block, .exit 20], 0⟩,
  ⟨["yield"], .ctl, 0x3A000000, [], [.block, .exit 20], 0⟩,
  ⟨["idle"], .ctl, 0x3C000000, [], [.block, .exit 20], 0⟩,
  ⟨["brr"], .ctl, 0x34000000, [], [.exit 9], 0⟩,
  ⟨["callr"], .ctl, 0x34040000, [], [.exit 9], 0⟩,
  ⟨["ret"], .ctl, 0x34080000, [], [.exit 9], 0⟩,
  ⟨["trap"], .ctl, 0x98000000, [], [.num 0 511 9 9], 0⟩,
  ⟨["svc"], .ctl, 0x98040000, [], [.num 0 511 9 9], 0⟩,
  ⟨["brk"], .ctl, 0x98080000, [], [.num 0 511 9 9], 0⟩,
  ⟨["rfe"], .ctl, 0x980C0000, [], [], 0⟩]

/-- Rows of memory access, updates, leases and fences (10 R224 to R237). -/
def asmMem : List MRow := [
  ⟨["ld", "n8"], .ctl, 0x40000000, [], [.id, .scaled 1], 1⟩,
  ⟨["ld", "n8"], .ctl, 0x50000000, [], [.id], 2⟩,
  ⟨["ld", "s8"], .ctl, 0x42000000, [], [.id, .scaled 1], 1⟩,
  ⟨["ld", "s8"], .ctl, 0x52000000, [], [.id], 2⟩,
  ⟨["ld", "n16"], .ctl, 0x44000000, [], [.id, .scaled 2], 1⟩,
  ⟨["ld", "n16"], .ctl, 0x54000000, [], [.id], 2⟩,
  ⟨["ld", "s16"], .ctl, 0x46000000, [], [.id, .scaled 2], 1⟩,
  ⟨["ld", "s16"], .ctl, 0x56000000, [], [.id], 2⟩,
  ⟨["ld", "n32"], .ctl, 0x48000000, [], [.id, .scaled 4], 1⟩,
  ⟨["ld", "n32"], .ctl, 0x58000000, [], [.id], 2⟩,
  ⟨["ld", "s32"], .ctl, 0x4A000000, [], [.id, .scaled 4], 1⟩,
  ⟨["ld", "s32"], .ctl, 0x5A000000, [], [.id], 2⟩,
  ⟨["ld", "b64"], .ctl, 0x4C000000, [], [.id, .scaled 8], 1⟩,
  ⟨["ld", "b64"], .ctl, 0x5C000000, [], [.id], 2⟩,
  ⟨["xlate"], .ctl, 0x4E000000, [sfx1 "w" 13], [.id, .bank "th" 16 9], 1⟩,
  ⟨["xprobe"], .ctl, 0x5E000000, [sfx1 "w" 13], [.id, .bank "th" 16 9], 1⟩,
  ⟨["pref"], .ctl, 0x60000000, [], [.id, .num (-256) 255 9 9], 1⟩,
  ⟨["st", "b8"], .ctl, 0x62000000, [], [.id, .num (-131072) 131071 18 0], 0⟩,
  ⟨["st", "b16"], .ctl, 0x64000000, [], [.id, .num (-131072) 131071 18 0], 0⟩,
  ⟨["st", "b32"], .ctl, 0x66000000, [], [.id, .num (-131072) 131071 18 0], 0⟩,
  ⟨["st", "b64"], .ctl, 0x68000000, [], [.id, .num (-131072) 131071 18 0], 0⟩,
  ⟨["amo", "add", "s32"], .ctl, 0x6A000000, [sfx1 "ord" 9, sfxScope 11], [.id], 0⟩,
  ⟨["amo", "add", "n32"], .ctl, 0x6A000000, [sfx1 "ord" 9, sfxScope 11], [.id], 0⟩,
  ⟨["amo", "add", "s64"], .ctl, 0x6A000400, [sfx1 "ord" 9, sfxScope 11], [.id], 0⟩,
  ⟨["amo", "add", "n64"], .ctl, 0x6A000400, [sfx1 "ord" 9, sfxScope 11], [.id], 0⟩,
  ⟨["amo", "add", "f32"], .ctl, 0x6A004000, [sfx1 "ord" 9, sfxScope 11], [.id], 0⟩,
  ⟨["amo", "min", "s32"], .ctl, 0x6A008000, [sfx1 "ord" 9, sfxScope 11], [.id], 0⟩,
  ⟨["amo", "min", "s64"], .ctl, 0x6A008400, [sfx1 "ord" 9, sfxScope 11], [.id], 0⟩,
  ⟨["amo", "max", "s32"], .ctl, 0x6A00C000, [sfx1 "ord" 9, sfxScope 11], [.id], 0⟩,
  ⟨["amo", "max", "s64"], .ctl, 0x6A00C400, [sfx1 "ord" 9, sfxScope 11], [.id], 0⟩,
  ⟨["amo", "min", "n32"], .ctl, 0x6A010000, [sfx1 "ord" 9, sfxScope 11], [.id], 0⟩,
  ⟨["amo", "min", "n64"], .ctl, 0x6A010400, [sfx1 "ord" 9, sfxScope 11], [.id], 0⟩,
  ⟨["amo", "max", "n32"], .ctl, 0x6A014000, [sfx1 "ord" 9, sfxScope 11], [.id], 0⟩,
  ⟨["amo", "max", "n64"], .ctl, 0x6A014400, [sfx1 "ord" 9, sfxScope 11], [.id], 0⟩,
  ⟨["amo", "and", "b32"], .ctl, 0x6A018000, [sfx1 "ord" 9, sfxScope 11], [.id], 0⟩,
  ⟨["amo", "and", "b64"], .ctl, 0x6A018400, [sfx1 "ord" 9, sfxScope 11], [.id], 0⟩,
  ⟨["amo", "or", "b32"], .ctl, 0x6A01C000, [sfx1 "ord" 9, sfxScope 11], [.id], 0⟩,
  ⟨["amo", "or", "b64"], .ctl, 0x6A01C400, [sfx1 "ord" 9, sfxScope 11], [.id], 0⟩,
  ⟨["amo", "xor", "b32"], .ctl, 0x6A020000, [sfx1 "ord" 9, sfxScope 11], [.id], 0⟩,
  ⟨["amo", "xor", "b64"], .ctl, 0x6A020400, [sfx1 "ord" 9, sfxScope 11], [.id], 0⟩,
  ⟨["lease"], .ctl, 0x6C000000, [], [.id, .cycles], 0⟩,
  ⟨["unlease"], .ctl, 0x6C020000, [], [.id], 0⟩,
  ⟨["fence", "acq"], .ctl, 0x6E010000, [sfxScope 13], [.id], 0⟩,
  ⟨["fence", "rel"], .ctl, 0x6E020000, [sfxScope 13], [.id], 0⟩,
  ⟨["fence", "ar"], .ctl, 0x6E030000, [sfxScope 13], [.id], 0⟩,
  ⟨["qfence"], .ctl, 0x70000000, [], [.id, .num 1 65535 16 0], 0⟩]

/-- Rows of queues, streams, objects and the matrix unit (12 to 21). -/
def asmCmd : List MRow := [
  ⟨["qpop"], .ctl, 0x72000000, [], [.id], 1⟩,
  ⟨["qpop"], .ctl, 0x72020000, [], [.id, .exactly "bq"], 1⟩,
  ⟨["qpush"], .ctl, 0x74020000, [], [.id, .exactly "cmdq"], 0⟩,
  ⟨["qpush"], .ctl, 0x74000000, [], [.id, .queue], 0⟩,
  ⟨["pop"], .ctl, 0x76000000, [], [.id, .bank "in" 32 9], 1⟩,
  ⟨["pop", "v"], .dat, 0x76000000, [], [.id, .bank "in" 32 9], 1⟩,
  ⟨["peek"], .ctl, 0x78000000, [], [.id, .bank "in" 32 9], 1⟩,
  ⟨["peek", "v"], .dat, 0x78000000, [], [.id, .bank "in" 32 9], 1⟩,
  ⟨["push"], .ctl, 0x7A000000, [], [.id, .bank "ot" 32 0], 0⟩,
  ⟨["push"], .ctl, 0x7A000020, [], [.id, .exactly "bq"], 0⟩,
  ⟨["push", "v"], .dat, 0x7A000000, [], [.id, .bank "ot" 32 0], 0⟩,
  ⟨["pushm"], .ctl, 0x7C000000, [], [.id, .bank "ot" 32 0], 0⟩,
  ⟨["steer"], .dat, 0x82000000, [], [.id, .bank "m" 8 10, .bank "ot" 32 0, .bank "ot" 32 5], 0⟩,
  ⟨["collect"], .dat, 0x84000000, [], [.id, .bank "in" 32 9], 1⟩,
  ⟨["rtcfg"], .ctl, 0x86000000, [sfxStage], [.id, .queue], 0⟩,
  ⟨["strm", "stage"], .ctl, 0x7E000000, [], [.id, .num 0 7 3 10], 0⟩,
  ⟨["strm", "rows"], .ctl, 0x7E002000, [], [.id], 0⟩,
  ⟨["strm", "tag"], .ctl, 0x7E004000, [], [.id], 0⟩,
  ⟨["strm", "go"], .ctl, 0x7E006000, [], [.id], 0⟩,
  ⟨["strm", "halt"], .ctl, 0x7E008000, [], [.id], 0⟩,
  ⟨["sph", "and"], .ctl, 0x80000000, [sfx1 "tree" 16], [.id, .queue], 0⟩,
  ⟨["sph", "or"], .ctl, 0x80020000, [sfx1 "tree" 16], [.id, .queue], 0⟩,
  ⟨["bar", "init"], .ctl, 0x88000000, [sfxScope 12], [.id], 0⟩,
  ⟨["bar", "arrive"], .ctl, 0x88008000, [sfxScope 12], [.id], 0⟩,
  ⟨["bar", "bind"], .ctl, 0x88010000, [sfxScope 12], [.id], 0⟩,
  ⟨["bar", "drop"], .ctl, 0x88018000, [sfxScope 12], [.id], 0⟩,
  ⟨["sig", "inc"], .ctl, 0x8A000000, [sfxScope 12], [.id], 0⟩,
  ⟨["shape", "v"], .ctl, 0x8C000000, [], [.id, .bank "sh" 8 14], 0⟩,
  ⟨["shape", "t"], .ctl, 0x8C020000, [], [.id, .bank "sh" 8 14], 0⟩,
  ⟨["shstep"], .ctl, 0x8E000000, [], [.id, .bank "sh" 8 9], 1⟩,
  ⟨["shstep", "v"], .dat, 0x8E000000, [], [.id, .bank "sh" 8 9], 1⟩,
  ⟨["mma"], .ctl, 0x90000000, [sfxMma, sfx1 "sat" 13], [.id, .bank "acc" 16 9], 0⟩,
  ⟨["mma", "g"], .dat, 0x90000000, [sfxMma, sfx1 "sat" 13], [.id, .bank "acc" 16 9], 0⟩,
  ⟨["tmov"], .ctl, 0x92000000, [sfxBuf 15, sfxBuf 13], [.id], 0⟩,
  ⟨["tmov", "t"], .ctl, 0x92020000, [sfxBuf 15, sfxBuf 13], [.id], 0⟩,
  ⟨["acclr"], .ctl, 0x94000000, [], [.id, .bank "acc" 16 9], 0⟩,
  ⟨["accst"], .ctl, 0x94010000, [], [.id, .bank "acc" 16 9], 0⟩,
  ⟨["accrd"], .dat, 0x96000000, [], [.id, .bank "acc" 16 9], 1⟩,
  ⟨["crrd"], .ctl, 0x9A000000, [], [.id, .cr], 1⟩,
  ⟨["crwr"], .ctl, 0x9C000000, [], [.id, .cr], 0⟩,
  ⟨["launch"], .ctl, 0x9E000000, [], [.id, .bank "lq" 4 16], 0⟩,
  ⟨["grp", "make"], .ctl, 0xA0000000, [], [.id], 0⟩,
  ⟨["grp", "split"], .ctl, 0xA0004000, [], [.id], 0⟩,
  ⟨["grp", "join"], .ctl, 0xA0008000, [], [.id], 0⟩,
  ⟨["grp", "free"], .ctl, 0xA000C000, [], [.id], 0⟩,
  ⟨["xshoot"], .ctl, 0xA2000000, [sfxPage 16], [.id], 0⟩,
  ⟨["pg", "map"], .ctl, 0xA4000000, [sfxPage 12], [.id], 0⟩,
  ⟨["pg", "unmap"], .ctl, 0xA4004000, [sfxPage 12], [.id], 0⟩,
  ⟨["pg", "pin"], .ctl, 0xA4008000, [sfxPage 12], [.id], 0⟩,
  ⟨["pg", "unpin"], .ctl, 0xA400C000, [sfxPage 12], [.id], 0⟩,
  ⟨["pg", "poison"], .ctl, 0xA4010000, [sfxPage 12], [.id], 0⟩,
  ⟨["pg", "promote"], .ctl, 0xA4014000, [sfxPage 12], [.id], 0⟩,
  ⟨["lnk", "up"], .ctl, 0xA6000000, [sfxLink], [.id], 0⟩,
  ⟨["lnk", "down"], .ctl, 0xA6004000, [sfxLink], [.id], 0⟩,
  ⟨["lnk", "retrain"], .ctl, 0xA6008000, [sfxLink], [.id], 0⟩,
  ⟨["lnk", "chain"], .ctl, 0xA600C000, [sfxLink], [.id], 0⟩,
  ⟨["lnk", "unchain"], .ctl, 0xA6010000, [sfxLink], [.id], 0⟩,
  ⟨["vd", "quiesce"], .ctl, 0xA8000000, [], [.id], 0⟩,
  ⟨["vd", "send"], .ctl, 0xA8004000, [], [.id], 0⟩,
  ⟨["vd", "resume"], .ctl, 0xA8008000, [], [.id], 0⟩,
  ⟨["vd", "release"], .ctl, 0xA800C000, [], [.id], 0⟩,
  ⟨["vd", "replay"], .ctl, 0xA8010000, [], [.id], 0⟩]

/-- Rows of the data plane (11 R244 to R260). -/
def asmVec : List MRow := [
  ⟨["add"], .dat, 0xB0000000, [sfxI, sfx1 "sat" 22], [], 2⟩,
  ⟨["add"], .dat, 0xB0000000, [sfxF, sfx1 "ftz" 22], [], 2⟩,
  ⟨["sub"], .dat, 0xB2000000, [sfxI, sfx1 "sat" 22], [], 2⟩,
  ⟨["sub"], .dat, 0xB2000000, [sfxF, sfx1 "ftz" 22], [], 2⟩,
  ⟨["mul"], .dat, 0xB4000000, [sfxI, sfx1 "sat" 22], [], 2⟩,
  ⟨["mul"], .dat, 0xB4000000, [sfxF, sfx1 "ftz" 22], [], 2⟩,
  ⟨["abs"], .dat, 0xBC000000, [sfxI, sfx1 "sat" 22], [], 2⟩,
  ⟨["abs"], .dat, 0xBC000000, [sfxF, sfx1 "ftz" 22], [], 2⟩,
  ⟨["neg"], .dat, 0xBE000000, [sfxI, sfx1 "sat" 22], [], 2⟩,
  ⟨["neg"], .dat, 0xBE000000, [sfxF, sfx1 "ftz" 22], [], 2⟩,
  ⟨["mulh"], .dat, 0xB6000000, [sfxI], [], 2⟩,
  ⟨["min"], .dat, 0xB8000000, [sfxI], [], 2⟩,
  ⟨["min"], .dat, 0xB8000000, [sfxF, sfx1 "ftz" 22], [], 2⟩,
  ⟨["max"], .dat, 0xBA000000, [sfxI], [], 2⟩,
  ⟨["max"], .dat, 0xBA000000, [sfxF, sfx1 "ftz" 22], [], 2⟩,
  ⟨["and"], .dat, 0xC0000000, [sfxI], [], 2⟩,
  ⟨["or"], .dat, 0xC2000000, [sfxI], [], 2⟩,
  ⟨["xor"], .dat, 0xC4000000, [sfxI], [], 2⟩,
  ⟨["not"], .dat, 0xC6000000, [sfxI], [], 2⟩,
  ⟨["shl"], .dat, 0xC8000000, [sfxI], [], 2⟩,
  ⟨["shr"], .dat, 0xCA000000, [sfxI], [], 2⟩,
  ⟨["sar"], .dat, 0xCC000000, [sfxI], [], 2⟩,
  ⟨["clz"], .dat, 0xCE000000, [sfxI], [], 2⟩,
  ⟨["popc"], .dat, 0xD0000000, [sfxI], [], 2⟩,
  ⟨["cmp"], .dat, 0xD2000000, [sfxCond, sfxI], [], 1⟩,
  ⟨["cmp"], .dat, 0xD2000000, [sfxCond, sfxF, sfx1 "ftz" 22], [], 1⟩,
  ⟨["msel"], .dat, 0xD4000000, [sfxAny], [.bank "m" 8 9], 1⟩,
  ⟨["wadd"], .dat, 0xD6000000, [sfxAny], [], 2⟩,
  ⟨["wmul"], .dat, 0xD8000000, [sfxAny], [], 2⟩,
  ⟨["narrow"], .dat, 0xDA000000, [sfxAny, sfxMode, sfx1 "sat" 22], [], 1⟩,
  ⟨["cvt"], .dat, 0xDC000000, [sfxAny, sfxSrc, sfxMode, sfx1 "sat" 22], [], 1⟩,
  ⟨["vrcp", "f32"], .dat, 0xDE000000, [sfx1 "ftz" 22], [], 2⟩,
  ⟨["vrsq", "f32"], .dat, 0xDE040000, [sfx1 "ftz" 22], [], 2⟩,
  ⟨["vsqrt", "f32"], .dat, 0xDE080000, [sfx1 "ftz" 22], [], 2⟩,
  ⟨["vexp2", "f32"], .dat, 0xDE0C0000, [sfx1 "ftz" 22], [], 2⟩,
  ⟨["vlog2", "f32"], .dat, 0xDE100000, [sfx1 "ftz" 22], [], 2⟩,
  ⟨["red"], .dat, 0xE0000000, [sfxRed, sfxI, sfx1 "sat" 22], [], 1⟩,
  ⟨["red"], .dat, 0xE0000000, [sfxRed, sfxF, sfx1 "ftz" 22], [], 1⟩,
  ⟨["scan"], .dat, 0xE2000000, [sfxRed, sfxI, sfx1 "excl" 12, sfx1 "sat" 22], [], 1⟩,
  ⟨["scan"], .dat, 0xE2000000, [sfxRed, sfxF, sfx1 "excl" 12, sfx1 "ftz" 22], [], 1⟩,
  ⟨["perm"], .dat, 0xE4000000, [sfxAny], [], 2⟩,
  ⟨["slide", "up"], .dat, 0xE6000000, [sfxAny], [.num 0 127 7 9], 1⟩,
  ⟨["slide", "dn"], .dat, 0xE6010000, [sfxAny], [.num 0 127 7 9], 1⟩,
  ⟨["bcast"], .dat, 0xE8000000, [sfxAny], [.num 0 127 7 9], 1⟩,
  ⟨["mand"], .dat, 0xEA000000, [], [], 2⟩,
  ⟨["mor"], .dat, 0xEA040000, [], [], 2⟩,
  ⟨["mxor"], .dat, 0xEA080000, [], [], 2⟩,
  ⟨["mnot"], .dat, 0xEA0C0000, [], [], 2⟩,
  ⟨["mcnt"], .dat, 0xEA100000, [], [], 2⟩,
  ⟨["iota"], .dat, 0xEC000000, [sfxAny], [], 2⟩]

/-- Every row. -/
def asmRows : List MRow := asmTok ++ asmImm ++ asmMem ++ asmCmd ++ asmVec

/-! ### Names -/

/-- The number that a word adds to a name, as in `g12`; it has no leading zero. -/
def numAfter (pre : String) (s : String) : Option Nat :=
  let l := s.toList
  let p := pre.toList
  let d := l.drop p.length
  if l.take p.length ≠ p || d.isEmpty || !d.all Char.isDigit || (d.head? = some '0' && 1 < d.length) then none else natOf 10 d

/-- The banks of registers and ports that names number, with how many each has (02 R43, 04 R100, 10 R225, 12 R277, 16 R360). -/
def asmBanks : List (String × Nat) :=
  [("g", 64), ("p", 8), ("sh", 8), ("v", 32), ("m", 8), ("dl", 8), ("in", 32), ("ot", 32), ("acc", 16), ("th", 16), ("ls", 32), ("q", 4096), ("lq", 4)]

/-- The suffixes that follow a mnemonic in the names of rows (04 R103 to R106): types, the scales of `lea`, the kinds of `fence`, the directions of `slide`. -/
def rowSfxs : List String :=
  ["s8", "s16", "s32", "s64", "n8", "n16", "n32", "n64", "b8", "b16", "b32", "b64", "f32", "x1", "x2", "x4", "x8", "acq", "rel", "ar", "up", "dn"]

/-- Whether a name is that of a register, an identifier or a queue, or a mnemonic (R110). -/
def isReservedName (s : String) : Bool :=
  s = "bq" || s = "cmdq" || (asmBanks.any fun b => match numAfter b.1 s with | some n => decide (n < b.2) | none => false)
    || asmRows.any fun r => match r.name with | [n] => n = s | [n, t] => n = s && rowSfxs.contains t | _ => false

/-- The register that a name gives for a kind of block (04 R100): its number and the plane of its slot; `vec` for `read.v`, which names an inlet. -/
def regOf (kind : Nat) (wr vec : Bool) (s : String) : Option (Nat × Plane) :=
  let at' := fun (pre : String) (n base : Nat) (pl : Plane) =>
    match numAfter pre s with | some k => if k < n then some (base + k, pl) else none | none => none
  let pick := fun (l : List (Option (Nat × Plane))) => (l.find? Option.isSome).join
  if vec then (if kind = 1 || wr then none else at' "in" 32 64 .dat)
  else if kind = 1 then pick ([at' "g" 64 0 .ctl, at' "p" 8 64 .ctl] ++ if wr then [] else [at' "sh" 8 72 .ctl])
  else pick ([at' "v" 32 0 .dat, at' "m" 8 32 .dat, at' "dl" 8 40 .dat] ++ if wr then [] else [at' "sh" 8 48 .ctl, at' "in" 32 64 .ctl])

/-- The control registers that have one number (13 R312, 14 R319, 15 R357, 16 R371, 17 R379, 18 R401, 19 R422, 20 R437, 21 R460, 22 R466). A name that
stands for a thread's and a stream's copy names the thread's. -/
def crNames : List (String × Nat) :=
  [("status", 0x000), ("cause", 0x001), ("epc", 0x002), ("faddr", 0x003), ("finfo", 0x004), ("tvec", 0x005), ("evpend", 0x006), ("drain", 0x007),
   ("xcause", 0x008), ("xepc", 0x009), ("xinfo", 0x00A), ("simg", 0x00B), ("ctxid", 0x010), ("asn", 0x011), ("cycle", 0x012), ("dcempty", 0x020),
   ("dcfull", 0x021), ("dcloss", 0x022), ("dctrap", 0x023), ("stall", 0x024), ("rpt", 0x028), ("fpst", 0x030), ("lfsr", 0x031), ("acc", 0x032),
   ("fold", 0x033), ("mxprog", 0x034), ("lease", 0x038), ("bkown", 0x039), ("rsdep", 0x050)]
  ++ [("qsel", 0x100), ("qwinh", 0x101), ("qwinl", 0x102), ("qctl", 0x103), ("qrnd", 0x104), ("qcask", 0x105), ("qocc", 0x106), ("qfilt", 0x107),
   ("sclmp", 0x13E), ("kctl", 0x140), ("kid", 0x141), ("kfrec", 0x142), ("kseq", 0x143), ("gid", 0x150), ("gres", 0x151), ("gsel", 0x152),
   ("gstat", 0x153), ("sgsel", 0x160), ("sgval", 0x161), ("bsel", 0x162), ("bstat", 0x163), ("bcnt", 0x164), ("wst", 0x165)]
  ++ [("ptu", 0x170), ("ptp", 0x171), ("ptcfg", 0x172), ("ptanc", 0x173), ("shpool", 0x174), ("pgres", 0x175), ("lnsel", 0x180), ("lnstat", 0x181),
   ("lnres", 0x182), ("rxsel", 0x183), ("rxcfg", 0x184), ("rxrecv", 0x185), ("rxdlv", 0x186), ("rxfull", 0x187), ("rxint", 0x188), ("rxkey", 0x189),
   ("rxovr", 0x18A), ("chcfg", 0x18B), ("vdsel", 0x190), ("vdstat", 0x191), ("vdres", 0x192), ("vdcfg", 0x193), ("vdjrn", 0x194), ("capa", 0x1A0)]

/-- The control registers that come in numbered rows. -/
def crBanks : List (String × Nat × Nat) :=
  [("scratch", 4, 0x00C), ("th", 16, 0x040), ("rstk", 16, 0x060), ("idle", 32, 0x080), ("sstat", 16, 0x110), ("scur", 16, 0x120), ("sfad", 16, 0x130),
   ("lqp", 4, 0x148), ("lqk", 4, 0x14C), ("lq", 4, 0x144)]

/-- The control register that a word names. -/
def crOf (s : String) : Option Nat :=
  let l := s.toList
  if l.take 3 ≠ ['c', 'r', '.'] then none
  else
    let t := String.ofList (l.drop 3)
    let n :=
      match crNames.find? fun e => e.1 = t with
      | some e => some e.2
      | none => crBanks.findSome? fun (b : String × Nat × Nat) =>
        match numAfter b.1 t with
        | some k => if k < b.2.1 ∧ ¬(0x110 ≤ b.2.2 ∧ b.2.2 < 0x140 ∧ k = 14) then some (b.2.2 + k) else none
        | none => none
    n.bind fun k => if crKnown k then some k else none

end Sys2Proof.Machine
end

