-- ==== Sys2Proof/Machine/AsmBlock.lean ====
section
/-!
DEFINITION. The assembly of a block (05 R111 to R119, R125): its statements, the choice of each slot's row and plane, targets, the header and the
configuration words, the checks that the assembler makes, and the rates.
-/
namespace Sys2Proof.Machine

/-! ### Statements -/

/-- An instruction statement (R111): its line, its label, the parts of its mnemonic, its predicate, its operands and its targets. -/
structure SrcInstr where
  line : Nat
  label : Option String
  parts : List String
  pred : Pred
  opds : List (List Tk)
  targets : List (String × TKind)
  deriving DecidableEq, Repr

/-- A block in source (R113, R120): its kernel, name, kind, repeat, tag, declared rates and instructions. -/
structure SrcBlk where
  kern : String
  name : String
  line : Nat
  kind : Nat
  rpt : Nat
  handler : Option Nat
  rate : Option (List (Nat × Nat))
  instrs : List SrcInstr
  deriving DecidableEq, Repr

/-- The parts between the dots of a word. -/
def dotParts : List Char → List (List Char)
  | [] => [[]]
  | c :: r =>
    match dotParts r with
    | [] => [[c]]
    | p :: l => if c = '.' then [] :: p :: l else (c :: p) :: l

/-- The parts of a word as strings. -/
def wordParts (s : String) : List String := (dotParts s.toList).map String.ofList

/-- Tokens between commas. -/
def commaParts : List Tk → List (List Tk)
  | [] => []
  | [t] => if t = .sym ',' then [[], []] else [[t]]
  | t :: r =>
    match commaParts r with
    | [] => [[t]]
    | p :: l => if t = .sym ',' then [] :: p :: l else (t :: p) :: l

/-- A target (R111): a label, and the operand. -/
def targetOf : List Tk → Option (String × TKind)
  | [.word s] =>
    match wordParts s with
    | [n, "l"] => if isName n then some (n, .left) else none
    | [n, "r"] => if isName n then some (n, .right) else none
    | [n, "p"] => if isName n then some (n, .pred) else none
    | _ => none
  | _ => none

/-- The predicate suffix, which stands last (R111). -/
def predParts (l : List String) : List String × Pred :=
  match l.reverse with
  | "pt" :: r => (r.reverse, .onTrue)
  | "pf" :: r => (r.reverse, .onFalse)
  | _ => (l, .always)

/-- An instruction statement after its label (R111). -/
def instrOf (line : Nat) (label : Option String) : List Tk → Option SrcInstr
  | .word m :: r =>
    let body := r.takeWhile fun t => t != .arrow
    let tail := r.drop body.length
    let p := predParts (wordParts m)
    match allSome ((commaParts (tail.drop 1)).map targetOf) with
    | some ts => if tail ≠ [] && ts.isEmpty then none else some ⟨line, label, p.1, p.2, commaParts body, ts⟩
    | none => none
  | _ => none

/-! ### Rows -/

/-- The types of relocation (R125). -/
inductive RelType where
  | boff20 | imm16 (i : Nat) | abs32 | abs64 | qid12
  deriving DecidableEq, Repr

/-- A field that an expression fills. -/
inductive Fld where
  | num (lo hi : Int) (w pos : Nat)
  | imm16 (sg : Bool)
  | scaled (size : Nat)
  | cycles
  | queue
  | block
  deriving DecidableEq, Repr

/-- What an operand gives: bits, and a field that waits for its expression; none where the text is no such operand. -/
def Opd.read (kind : Nat) (plane : Plane) (o : Opd) (ts : List Tk) : Option (Nat × List (Fld × Expr)) :=
  let numbered := fun (pre : String) (n pos : Nat) =>
    match ts with
    | [.word s] => (numAfter pre s).bind fun k => if k < n then some (k * 2 ^ pos, []) else none
    | _ => none
  let field := fun (f : Fld) => (exprOf ts).map fun e => (0, [(f, e)])
  match o with
  | .id => numbered "ls" 32 18
  | .num lo hi w pos => field (.num lo hi w pos)
  | .imm16 sg => field (.imm16 sg)
  | .scaled size => field (.scaled size)
  | .cycles => field .cycles
  | .reg wr vec =>
    match ts with
    | [.word s] => (regOf kind wr vec s).bind fun r => if r.2 = plane then some (r.1 * 2 ^ (if wr then 16 else 18), []) else none
    | _ => none
  | .bank pre n pos => numbered pre n pos
  | .exactly t => if ts = [.word t] then some (0, []) else none
  | .queue => match ts with | [.word s] => if isName s && s != "bq" && s != "cmdq" then some (0, [(.queue, .sym s)]) else none | _ => none
  | .cr => match ts with | [.word s] => (crOf s).map fun n => (n * 2 ^ 9, []) | _ => none
  | .block => field .block
  | .exit pos => numbered "x" 8 pos

/-- The operands of a row; an exit may be left out (09 R213). -/
def readOpds (kind : Nat) (plane : Plane) : List Opd → List (List Tk) → Option (Nat × List (Fld × Expr))
  | [], [] => some (0, [])
  | [.exit _], [] => some (0, [])
  | o :: os, t :: ts =>
    match o.read kind plane t, readOpds kind plane os ts with
    | some a, some b => some (a.1 ||| b.1, a.2 ++ b.2)
    | _, _ => none
  | _, _ => none

/-- The suffixes of a row (R111): in order, each at most once; none where a part is left or one is missing. -/
def readSfxs : List Sfx → List String → Option Nat
  | [], [] => some 0
  | [], _ :: _ => none
  | f :: fs, [] => if f.1 then none else readSfxs fs []
  | f :: fs, p :: ps =>
    match f.2.find? fun e => e.1 = p with
    | some e => (readSfxs fs ps).map (e.2 ||| ·)
    | none => if f.1 then none else readSfxs fs (p :: ps)

/-- A slot whose row is chosen: its plane, its word with every known bit, the fields that expressions fill, and its targets. -/
structure PSlot where
  line : Nat
  plane : Plane
  word : Nat
  fields : List (Fld × Expr)
  targets : List (String × TKind)
  deriving DecidableEq, Repr

/-- Forms that have no predicate field (04 R95). -/
def unpredicated (r : MRow) : Bool := r.name.head? = some "const" || r.name.head? = some "constx" || r.name.head? = some "read"

/-- Whether a row is the form of a load with two targets and no displacement (04 R98, 10 R227). -/
def MRow.twoTargets (r : MRow) : Bool := r.name.head? = some "ld" && decide (r.targets = 2)

/-- What a row makes of a statement (R111, R115); none where it does not fit. A load names two targets in its L2 form and one in its L form (04 R98). -/
def MRow.fit (kind : Nat) (i : SrcInstr) (r : MRow) : Option PSlot :=
  if i.parts.take r.name.length ≠ r.name || r.targets < i.targets.length || (unpredicated r && i.pred != .always)
      || (r.twoTargets && decide (i.targets.length < 2)) then none
  else
    match readSfxs r.suf (i.parts.drop r.name.length), readOpds kind r.plane r.opds i.opds with
    | some b, some o => some ⟨i.line, r.plane, r.base ||| b ||| o.1 ||| i.pred.code.toNat * 2 ^ 23, o.2, i.targets⟩
    | _, _ => none

/-- The row of a statement: the longest mnemonic first (R111). -/
def chooseRow (kind : Nat) (i : SrcInstr) : Except AsmErr PSlot :=
  let l := asmRows.filter fun r => i.parts.take r.name.length = r.name
  let n := (l.map fun r => r.name.length).foldl max 0
  if l.isEmpty then .error .mnemonic
  else
    match (l.filter fun r => r.name.length = n).findSome? (MRow.fit kind i) with
    | some p => .ok p
    | none => .error .operand

/-- The rows of a block's statements. -/
def chooseRows (kind : Nat) : List SrcInstr → Except (Nat × AsmErr) (List PSlot)
  | [] => .ok []
  | i :: r =>
    match chooseRow kind i, chooseRows kind r with
    | .error e, _ => .error (i.line, e)
    | _, .error e => .error e
    | .ok p, .ok l => .ok (p :: l)

/-! ### Targets and words -/

/-- The slot of a label (R112). -/
def labelSlot (l : List SrcInstr) (n : String) : Option Nat := l.findIdx? fun i => i.label = some n

/-- Whether a label is declared twice: refused, a DESIGN CHOICE (log 129). -/
def labelsClash : List SrcInstr → Bool
  | [] => false
  | i :: r => (i.label.isSome && r.any fun j => j.label = i.label) || labelsClash r

/-- The nine bits of a target (03 R78). -/
def targetBits (slot : Nat) (k : TKind) : Nat := (Tgt.mk k (BitVec.ofNat 7 slot)).bits.toNat

/-- The targets of a slot (R112): each names a later label, and not one operand twice. -/
def targetsOf (l : List SrcInstr) (n : Nat) (ts : List (String × TKind)) : Except AsmErr (List (Nat × TKind)) :=
  match allSome (ts.map fun t => (labelSlot l t.1).map fun k => (k, t.2)) with
  | none => .error .target
  | some r => if r.any (fun t => decide (t.1 ≤ n)) || r.head? = r[1]? && r ≠ [] then .error .target else .ok r

/-- A relocation (R125): its section, its place and that of the block that holds it, its type, the kernel in whose scope it stands, the symbol and the
addend. -/
structure Reloc where
  sect : String
  off : Nat
  blk : Nat
  ty : RelType
  kern : String
  sym : String
  add : Word
  deriving DecidableEq, Repr

/-- The bits of a field, or the relocation that will give them (R123, R125). -/
def Fld.bits (look : String → Except AsmErr SymVal) (f : Fld) (e : Expr) : Except AsmErr (Nat × Option (RelType × String × Word)) :=
  let at' := fun (pos : Nat) (r : Except AsmErr Nat) =>
    match r with
    | .ok v => .ok (v * 2 ^ pos, none)
    | .error e => .error e
  match e.eval look with
  | .error e => .error e
  | .ok (.abs v) =>
    match f with
    | .num lo hi w pos => at' pos (rangedField lo hi w v)
    | .imm16 sg => at' 9 (rangedField (if sg then -32768 else 0) 65535 16 v)
    | .scaled size => if v.toInt % size = 0 then at' 9 (rangedField (-256) 255 9 (BitVec.ofInt 64 (v.toInt / size))) else .error .range
    | .cycles => at' 0 (rangedField 0 4095 12 (v - 1))
    | .queue => .error .queue
    | .block => .error .operand
  | .ok (.rel s a) =>
    match f, look s with
    | .block, _ => .ok (0, some (.boff20, s, a))
    | .queue, .ok .queue => if a = 0 then .ok (0, some (.qid12, s, 0)) else .error .queue
    | .imm16 _, .ok .queue => .ok (0, some (.imm16 0, s, a))
    | _, _ => .error .reloc
  | .ok (.piece i s a) => match f with | .imm16 _ => .ok (0, some (.imm16 i, s, a)) | _ => .error .reloc

/-- The fields of a slot. -/
def fieldsBits (look : String → Except AsmErr SymVal) : List (Fld × Expr) → Except AsmErr (Nat × List (RelType × String × Word))
  | [] => .ok (0, [])
  | f :: r =>
    match f.1.bits look f.2, fieldsBits look r with
    | .ok a, .ok b => .ok (a.1 ||| b.1, a.2.toList ++ b.2)
    | .error e, _ => .error e
    | _, .error e => .error e

/-- The words of a block, with the relocations of each slot: a symbol has its meaning at the line that uses it (R120). -/
def wordsOf (look : Nat → String → Except AsmErr SymVal) (l : List SrcInstr) : List (PSlot × Nat) →
    Except (Nat × AsmErr) (List (Nat × List (RelType × String × Word)))
  | [] => .ok []
  | (p, n) :: r =>
    match fieldsBits (look p.line) p.fields, targetsOf l n p.targets, wordsOf look l r with
    | .error e, _, _ => .error (p.line, e)
    | _, .error e, _ => .error (p.line, e)
    | _, _, .error e => .error e
    | .ok f, .ok t, .ok rest =>
      let bits := fun (k : Nat) => match t[k]? with | some x => targetBits x.1 x.2 | none => 0
      .ok ((p.word ||| f.1 ||| bits 0 ||| bits 1 * 2 ^ 9, f.2) :: rest)

/-! ### The header (R114) -/

/-- Whether a slot replicates (R114): a control-plane slot with a target in a data-plane slot. -/
def replicates (l : List SrcInstr) (ps : List PSlot) (p : PSlot) : Bool :=
  p.plane = .ctl
    && p.targets.any fun t => match labelSlot l t.1 with | some k => (match ps[k]? with | some d => d.plane = .dat | none => false) | none => false

/-- How many configuration words a block has (R114). -/
def cwordsOf (slots : List (Plane × Bool)) : Nat :=
  if slots.any Prod.snd then 2 else if slots.any fun s => s.1 = .dat then 1 else 0

/-- The header of a block (R114). -/
def headerOf (kind rpt : Nat) (slots : List Slot) : Header :=
  let l := instrsOf slots
  let regs := l.filterMap fun e => match e.2.2 with | .write _ r => some (writeBit kind r.toNat) | _ => none
  let bits := fun (w : Nat) (ns : List Nat) => ns.foldl (fun (a : BitVec w) n => a ||| BitVec.ofNat w (2 ^ n)) 0
  { kind := kind, count := slots.length - 1, cwords := cwordsOf (slots.map fun s => (s.plane, s.rep)), rpt := rpt
    pwmask := bits 8 ((regs.filter Prod.fst).map Prod.snd), zero := 0
    smask := bits 32 (l.filterMap fun e => if (info e.2.2).cls.stores then (info e.2.2).id.map BitVec.toNat else none)
    rwmask := bits 64 ((regs.filter fun r => !r.1).map Prod.snd) }

/-- The 128 bits of a header (03 R72). -/
def Header.bits (h : Header) : BitVec 128 :=
  BitVec.ofNat 4 h.kind ++ BitVec.ofNat 7 h.count ++ BitVec.ofNat 2 h.cwords ++ BitVec.ofNat 8 h.rpt ++ h.pwmask ++ h.zero ++ h.smask ++ h.rwmask

/-- The bits that some slots of a block set in a configuration word (03 R73). -/
def cfgWordOf (l : List Bool) : Nat := (l.zipIdx.map fun b => if b.1 then 2 ^ b.2 else 0).sum

/-- The bytes of a block (03 R70, R114). -/
def blockBytes (h : Header) (slots : List Slot) : List Byte :=
  leBytes 16 h.bits.toNat ++ (if 1 ≤ h.cwords then leBytes 16 (cfgWordOf (slots.map fun s => s.plane = .dat)) else [])
    ++ (if 2 ≤ h.cwords then leBytes 16 (cfgWordOf (slots.map Slot.rep)) else []) ++ slots.flatMap fun s => leBytes 4 s.word.toNat

/-! ### Checks -/

/-- The slots whose target is the predicate of a slot. -/
def predProducers (l : List (Nat × Slot × Instr)) (n : Nat) : List Nat :=
  (l.filter fun e =>
    let i := info e.2.2
    (i.t1.kind = .pred && i.t1.slot.toNat = n) || (i.t2.kind = .pred && i.t2.slot.toNat = n)).map Prod.fst

/-- Whether two instructions may share an identifier (R116). -/
def mayShare (l : List (Nat × Slot × Instr)) (a b : Nat × Slot × Instr) : Bool :=
  let i := info a.2.2
  let j := info b.2.2
  let pa := predProducers l a.1
  ((i.p = .onTrue && j.p = .onFalse) || (i.p = .onFalse && j.p = .onTrue)) && decide (pa.length = 1) && pa = predProducers l b.1
    && (i.cls.stores == j.cls.stores)

/-- Whether the identifiers of a block are used as R116 says. -/
def identsOk (l : List (Nat × Slot × Instr)) : Bool :=
  l.all fun a => l.all fun b => a.1 = b.1 || (info a.2.2).id.isNone || (info a.2.2).id != (info b.2.2).id || mayShare l a b

/-- The fetcher of a kind of block. -/
def kindFetcher (kind : Nat) : Fetcher := if kind = 1 then .thread else if kind = 2 then .stream else .act 0

/-- What the assembler refuses in a block (R112, R116, R117). -/
def blockErr (h : Header) (slots : List Slot) : Option AsmErr :=
  if slots.isEmpty || 128 < slots.length then some .block
  else if !identsOk (instrsOf slots) then some .identifier
  else if !h.ok (kindFetcher h.kind) || (imageOf 0 h (blockBytes h slots)).isNone then some .dispatch
  else match dispatchFault h slots (fun _ => false) true with | some _ => some .dispatch | none => none

/-! ### Rates (R118, R119) -/

/-- The counted rates of a block (02 R53, R118), those that are not zero: inlets are ports 0 to 31, outlets 32 to 63, and `bq` is 64. -/
def countRates (l : List (Nat × Slot × Instr)) : List (Nat × Nat) :=
  ((List.range 32).map (fun n => (n, popRate l n)) ++ (List.range 32).map (fun n => (32 + n, pushRate l n)) ++ [(64, bqRate l)]).filter fun e => e.2 ≠ 0

/-- The port that a name of `.rate` means. -/
def ratePort (s : String) : Option Nat :=
  if s = "bq" then some 64
  else match numAfter "in" s, numAfter "ot" s with
    | some n, _ => if n < 32 then some n else none
    | _, some n => if n < 32 then some (32 + n) else none
    | _, _ => none

/-- The rates that a `.rate` declares (R119). -/
def rateArgs (l : List (List Tk)) : Option (List (Nat × Nat)) :=
  allSome (l.map fun a => match a with | [.word p, .sym '=', .int n] => (ratePort p).map fun k => (k, n) | _ => none)

/-- Whether declared rates are those counted (R119); a port left out is declared as 0. -/
def ratesAgree (decl counted : List (Nat × Nat)) : Bool :=
  let of' := fun (l : List (Nat × Nat)) (p : Nat) => match l.find? fun e => e.1 = p with | some e => e.2 | none => 0
  (List.range 65).all fun p => of' decl p = of' counted p

/-- An assembled block. -/
structure AsmBlk where
  name : String
  kern : String
  kind : Nat
  off : Nat
  hdr : Header
  bytes : List Byte
  rates : List (Nat × Nat)
  relocs : List Reloc
  deriving DecidableEq, Repr

/-- Assemble a block that stands at `off` of a section (R112 to R119). -/
def SrcBlk.assemble (b : SrcBlk) (sect : String) (off : Nat) (look : Nat → String → Except AsmErr SymVal) : Except (Nat × AsmErr) AsmBlk :=
  match chooseRows b.kind b.instrs with
  | .error e => .error e
  | .ok ps =>
    if labelsClash b.instrs then .error (b.line, .label)
    else if b.instrs.isEmpty || 128 < b.instrs.length then .error (b.line, .block)
    else
      match wordsOf look b.instrs ps.zipIdx with
      | .error e => .error e
      | .ok ws =>
        let slots := (ps.zip ws).map fun (e : PSlot × Nat × List (RelType × String × Word)) =>
          ({ word := BitVec.ofNat 32 e.2.1, plane := e.1.plane, rep := b.kind ≠ 1 && replicates b.instrs ps e.1 } : Slot)
        let h := headerOf b.kind b.rpt slots
        let counted := countRates (instrsOf slots)
        match blockErr h slots with
        | some e => .error (b.line, e)
        | none =>
          if (match b.rate with | some d => !ratesAgree d counted | none => false) then .error (b.line, .rate)
          else
            .ok { name := b.name, kern := b.kern, kind := b.kind, off := off, hdr := h, bytes := blockBytes h slots
                  rates := if b.kind = 1 then [] else counted
                  relocs := ws.zipIdx.flatMap fun (w : (Nat × List (RelType × String × Word)) × Nat) =>
                    w.1.2.map fun r => ⟨sect, off + 16 * (h.cwords + 1) + 4 * w.2, off, r.1, b.kern, r.2.1, r.2.2⟩ }

/-- The length of a block in source: its rows alone decide it (03 R70, R114). -/
def SrcBlk.len (b : SrcBlk) : Except (Nat × AsmErr) Nat :=
  match chooseRows b.kind b.instrs with
  | .error e => .error e
  | .ok ps => .ok (16 * (cwordsOf (ps.map fun p => (p.plane, b.kind ≠ 1 && replicates b.instrs ps p)) + 1) + 4 * ps.length)

end Sys2Proof.Machine
end

