-- ==== Sys2Proof/Machine/Asm.lean ====
section
/-!
DEFINITION. The assembler (05 R110 to R126): a file's statements, sections, symbols, kernels and the object that it leaves.
-/
namespace Sys2Proof.Machine

/-- A statement of a line (R111, R120). -/
inductive Stmt where
  | none'
  | instr (i : SrcInstr)
  | dir (label : Option String) (name : String) (args : List (List Tk))
  | label (l : String)
  deriving DecidableEq, Repr

/-- A statement after its label. -/
def stmtAfter (line : Nat) (label : Option String) (ts : List Tk) : Option Stmt :=
  match ts with
  | [] => match label with | some l => some (.label l) | none => some .none'
  | .word w :: r => if w.toList.head? = some '.' then some (.dir label w (commaParts r)) else (instrOf line label ts).map Stmt.instr
  | _ => none

/-- The statement of a line (R110, R111). -/
def stmtOf (line : Nat) (text : List Char) : Except (Nat × AsmErr) Stmt :=
  match tokensOf text with
  | none => .error (line, .lex)
  | some ts =>
    let r :=
      match ts with
      | .word l :: .sym ':' :: r => if isName l then stmtAfter line (some l) r else none
      | _ => stmtAfter line none ts
    match r with
    | some s => .ok s
    | none => .error (line, .statement)

/-! ### What a file declares -/

/-- A queue of a kernel (R120): its depth, none where the loader chooses; its plane; its element size; its journal and spill flags. -/
structure QDecl where
  name : String
  depth : Option Nat
  vec : Bool
  esize : Nat
  journal : Bool
  spill : Bool
  deriving DecidableEq, Repr

/-- A shape request (R120): the register, whether it is a tile, and the request. -/
structure ShDecl where
  reg : Nat
  tile : Bool
  req : List Nat
  deriving DecidableEq, Repr

/-- A kernel (R120, R121): its queues, shapes and blocks, each block with its kind and tag, in source order. -/
structure KDecl where
  name : String
  line : Nat
  queues : List QDecl := []
  shapes : List ShDecl := []
  blocks : List (String × Nat × Option Nat) := []
  deriving DecidableEq, Repr

/-- The access entry of a kernel (R121). -/
def KDecl.access (k : KDecl) : Option String := (k.blocks.find? fun b => b.2.1 = 1).map Prod.fst
/-- The execute entry of a kernel (R121). -/
def KDecl.execute (k : KDecl) : Option String := (k.blocks.find? fun b => b.2.1 = 2).map Prod.fst
/-- The handler table of a kernel (R121). -/
def KDecl.handlers (k : KDecl) : List (Nat × String) := k.blocks.filterMap fun b => b.2.2.map fun t => (t, b.1)

/-- What a section holds at a place: a block, the values of a data directive, or filling bytes. -/
inductive Item where
  | blk (b : SrcBlk)
  | data (kern : String) (line width : Nat) (v : List Tk)
  | fill (n : Nat) (v : Byte)
  deriving DecidableEq, Repr

/-- A section as it grows: its flags, how many bytes it has, the power of two it must be aligned to, and its items with their places. -/
structure Sect where
  name : String
  w : Bool
  x : Bool
  pos : Nat := 0
  al : Nat := 4
  items : List (Nat × Item) := []
  deriving DecidableEq, Repr

/-- The assembler between two lines: the open kernel, slice, section and block, and what has been declared. -/
structure AsmSt where
  kern : Option KDecl := none
  slice : Option Bool := none
  sect : Option String := none
  blk : Option SrcBlk := none
  sects : List Sect := []
  syms : List (String × SymVal × Nat) := []
  globals : List (String × Nat) := []
  kerns : List KDecl := []
  deriving DecidableEq, Repr

/-- The next multiple of a power of two. -/
def alignTo (n a : Nat) : Nat := (n + a - 1) / a * a

/-- What a symbol is at a line (R120, R123, R125): a name that nothing in the file defines is left to the linker. -/
def AsmSt.look (a : AsmSt) (k : Option KDecl) (line : Nat) (s : String) : Except AsmErr SymVal :=
  match a.syms.find? fun e => e.1 = s with
  | some (_, .abs v, n) => if line < n then .error .symbol else .ok (.abs v)
  | some (_, v, _) => .ok v
  | none => match k with | some k => (if k.queues.any fun q => q.name = s then .ok .queue else .ok .ext) | none => .ok .ext

/-- The absolute value of an expression at a line. -/
def AsmSt.absAt (a : AsmSt) (line : Nat) (ts : List Tk) : Except (Nat × AsmErr) Word :=
  match exprOf ts with
  | none => .error (line, .expr)
  | some e => match e.eval (a.look a.kern line) with | .ok (.abs v) => .ok v | .ok _ => .error (line, .expr) | .error e => .error (line, e)

/-- The absolute value of an expression, from `lo` to `hi`. -/
def AsmSt.numAt (a : AsmSt) (line lo hi : Nat) (ts : List Tk) : Except (Nat × AsmErr) Nat :=
  match a.absAt line ts with
  | .error e => .error e
  | .ok v => if lo ≤ v.toNat ∧ v.toNat ≤ hi then .ok v.toNat else .error (line, .range)

/-- Define a symbol (R110): once, and with no reserved name; that `.equ` is held to this too is a DESIGN CHOICE (log 129). -/
def AsmSt.define (a : AsmSt) (line : Nat) (s : String) (v : SymVal) : Except (Nat × AsmErr) AsmSt :=
  if !isName s || isReservedName s then .error (line, .reserved)
  else if (a.syms.any fun e => e.1 = s) || (a.kern.any fun k => k.queues.any fun q => q.name = s) then .error (line, .symbol)
  else .ok { a with syms := a.syms ++ [(s, v, line)] }

/-- A section. -/
def AsmSt.section' (a : AsmSt) (n : String) : Option Sect := a.sects.find? fun s => s.name = n

/-- The flags of the sections that R126 names: writable and code. -/
def sectFlags (n : String) : Option (Bool × Bool) :=
  if n = ".text.acc" || n = ".text.exe" then some (false, true) else if n = ".data" then some (true, false) else none

/-- Select a section, made where it is new with its flags, or with those that R126 gives it (R120). -/
def AsmSt.select (a : AsmSt) (n : String) (w x : Bool) : AsmSt :=
  let f := (sectFlags n).getD (w, x)
  { a with sect := some n, sects := if (a.section' n).isSome then a.sects else a.sects ++ [{ name := n, w := f.1, x := f.2 }] }

/-- Change the current section. -/
def AsmSt.inSect (a : AsmSt) (f : Sect → Sect) : AsmSt := { a with sects := a.sects.map fun s => if a.sect = some s.name then f s else s }

/-- The current section. -/
def AsmSt.cur (a : AsmSt) : Option Sect := a.sect.bind a.section'

/-- Put an item of `n` bytes at the end of a section. -/
def Sect.put (s : Sect) (n : Nat) (i : Item) : Sect := { s with pos := s.pos + n, items := s.items ++ [(s.pos, i)] }

/-! ### Directives (R120) -/

/-- The width of a data directive. -/
def dataWidth : String → Option Nat
  | ".byte" => some 1
  | ".half" => some 2
  | ".word" => some 4
  | ".dword" => some 8
  | _ => none

/-- The options of `.block`: repeat and handler. -/
def blockArgs (a : AsmSt) (line : Nat) : List (List Tk) → Nat × Option Nat → Except (Nat × AsmErr) (Nat × Option Nat)
  | [], r => .ok r
  | (.word "repeat" :: .sym '=' :: e) :: l, r =>
    match a.numAt line 0 255 e with | .ok n => blockArgs a line l (n, r.2) | .error x => .error x
  | (.word "handler" :: .sym '=' :: e) :: l, r =>
    match a.numAt line 0 63 e with | .ok n => blockArgs a line l (r.1, some n) | .error x => .error x
  | _ :: _, _ => .error (line, .directive)

/-- Open a block (R113, R120): at the next multiple of 16 of its section. Once `.data` or `.section` has left the slice's section, `.access` or `.execute` must
select it again: a DESIGN CHOICE (log 129). -/
def AsmSt.openBlock (a : AsmSt) (line : Nat) (n : String) (args : List (List Tk)) : Except (Nat × AsmErr) AsmSt :=
  match a.slice, a.kern, a.cur, blockArgs a line args (0, none) with
  | some acc, some k, some s, .ok (rpt, h) =>
    let named := s.x && s.name != ".text.exe" && s.name != ".text.acc"
    if a.blk.isSome || (acc && h.isSome) || (if acc then s.name != ".text.acc" && !named else s.name != ".text.exe") then .error (line, .block)
    else
      let pos := alignTo s.pos 16
      match a.define line n (.at' s.name pos) with
      | .error e => .error e
      | .ok a =>
        .ok { (a.inSect fun s => if s.pos = pos then s else s.put (pos - s.pos) (.fill (pos - s.pos) 0)) with
              blk := some { kern := k.name, name := n, line := line, kind := if acc then 1 else if h.isSome then 3 else 2, rpt := rpt, handler := h
                            rate := none, instrs := [] } }
  | _, _, _, .error e => .error e
  | _, _, _, _ => .error (line, .block)

/-- Close a block (R120). -/
def AsmSt.closeBlock (a : AsmSt) (b : SrcBlk) : Except (Nat × AsmErr) AsmSt :=
  match b.len with
  | .error e => .error e
  | .ok n =>
    .ok { (a.inSect fun s => s.put n (.blk b)) with
          blk := none, kern := a.kern.map fun k => { k with blocks := k.blocks ++ [(b.name, b.kind, b.handler)] } }

/-- Whether a list of tags names one twice. -/
def tagsClash : List Nat → Bool
  | [] => false
  | t :: r => r.contains t || tagsClash r

/-- Close a kernel (R121). That no section is selected after it is a DESIGN CHOICE (log 129). -/
def AsmSt.closeKernel (a : AsmSt) (line : Nat) (k : KDecl) : Except (Nat × AsmErr) AsmSt :=
  if k.access.isNone then .error (line, .kernel)
  else if tagsClash (k.handlers.map Prod.fst) then .error (line, .handler)
  else .ok { a with kern := none, slice := none, sect := none, kerns := a.kerns ++ [k] }

/-- The options of a queue. -/
def queueOpts (line : Nat) (q : QDecl) : List (List Tk) → Except (Nat × AsmErr) QDecl
  | [] => .ok q
  | [.word "esize", .sym '=', .int n] :: r => if q.vec && (n = 128 || n = 256 || n = 512) then queueOpts line { q with esize := n } r else .error (line, .queue)
  | [.word "journal"] :: r => queueOpts line { q with journal := true } r
  | [.word "spill"] :: r => queueOpts line { q with spill := true } r
  | _ :: _ => .error (line, .queue)

/-- Declare a queue (R120). -/
def AsmSt.queueDir (a : AsmSt) (line : Nat) (k : KDecl) (n : String) (d : List Tk) (pl : String) (opts : List (List Tk)) :
    Except (Nat × AsmErr) AsmSt :=
  let depth : Except (Nat × AsmErr) (Option Nat) :=
    if d = [.sym '?'] then .ok none else match a.numAt line 1 (2 ^ 63 - 1) d with | .ok v => .ok (some v) | .error e => .error e
  match depth with
  | .error e => .error e
  | .ok dp =>
    if pl != "ctl" && pl != "data" then .error (line, .queue)
    else if !isName n || isReservedName n then .error (line, .reserved)
    else if (a.syms.any fun e => e.1 = n) || k.queues.any fun q => q.name = n then .error (line, .symbol)
    else
      match queueOpts line { name := n, depth := dp, vec := pl = "data", esize := if pl = "data" then 128 else 8, journal := false, spill := false } opts with
      | .ok q => .ok { a with kern := some { k with queues := k.queues ++ [q] } }
      | .error e => .error e

/-- The numbers of a shape request. -/
def AsmSt.nums (a : AsmSt) (line : Nat) : List (List Tk) → Except (Nat × AsmErr) (List Nat)
  | [] => .ok []
  | t :: r =>
    match a.numAt line 0 (2 ^ 63 - 1) t, a.nums line r with
    | .ok n, .ok l => .ok (n :: l)
    | .error e, _ => .error e
    | _, .error e => .error e

/-- Record a shape request (R120). -/
def AsmSt.shapeDir (a : AsmSt) (line : Nat) (k : KDecl) (r f : String) (args : List (List Tk)) : Except (Nat × AsmErr) AsmSt :=
  match numAfter "sh" r, a.nums line args with
  | _, .error e => .error e
  | none, _ => .error (line, .operand)
  | some n, .ok l =>
    if 8 ≤ n || !((f = "v" && l.length = 1) || (f = "t" && l.length = 3)) then .error (line, .operand)
    else .ok { a with kern := some { k with shapes := k.shapes ++ [⟨n, f = "t", l⟩] } }

/-- A directive that opens, closes or declares (R120). DESIGN CHOICE (log 129): inside an open block those that select a slice or a section or declare for the
kernel are refused, and so are a second `.rate` of a block and a port that it names twice (R119). -/
def AsmSt.structDir (a : AsmSt) (line : Nat) (n : String) (args : List (List Tk)) : Except (Nat × AsmErr) AsmSt :=
  let bad : Except (Nat × AsmErr) AsmSt := .error (line, .directive)
  match n, args with
  | ".kernel", [[.word k]] =>
    if a.kern.isSome then .error (line, .kernel)
    else if !isName k || isReservedName k then .error (line, .reserved)
    else if a.kerns.any fun e => e.name = k then .error (line, .symbol)
    else .ok { a with kern := some { name := k, line := line } }
  | ".access", [] => if a.kern.isNone || a.blk.isSome then bad else .ok { (a.select ".text.acc" false true) with slice := some true }
  | ".execute", [] => if a.kern.isNone || a.blk.isSome then bad else .ok { (a.select ".text.exe" false true) with slice := some false }
  | ".block", [.word b] :: opts => a.openBlock line b opts
  | ".end", [] =>
    match a.blk, a.kern with
    | some b, _ => a.closeBlock b
    | none, some k => a.closeKernel line k
    | none, none => bad
  | ".rate", l =>
    match a.blk, rateArgs l with
    | some b, some r => if b.kind = 1 || b.rate.isSome || tagsClash (r.map Prod.fst) then .error (line, .rate) else .ok { a with blk := some { b with rate := some r } }
    | _, _ => .error (line, .rate)
  | ".queue", [.word q] :: d :: [.word pl] :: opts => match a.kern, a.blk with | some k, none => a.queueDir line k q d pl opts | _, _ => bad
  | ".shape", [.word r] :: [.word f] :: l => match a.kern, a.blk with | some k, none => a.shapeDir line k r f l | _, _ => bad
  | ".equ", [[.word s], e] =>
    match a.absAt line e with | .ok v => a.define line s (.abs v) | .error e => .error e
  | ".global", [[.word s]] => .ok { a with globals := a.globals ++ [(s, line)] }
  | ".data", [] => if a.blk.isSome then bad else .ok (a.select ".data" true false)
  | ".section", [[.word s]] => if a.blk.isSome then bad else .ok (a.select s false false)
  | ".section", [[.word s], [.word f]] =>
    let w := f.toList.contains 'w'
    let x := f.toList.contains 'x'
    if a.blk.isSome || f.toList.any (fun c => c != 'w' && c != 'x')
        || (match a.section' s with | some e => e.w != w || e.x != x | none => match sectFlags s with | some f => f != (w, x) | none => false) then bad
    else .ok (a.select s w x)
  | _, _ => bad

/-- A directive that puts bytes into the current section (R120), with the label that stands before it. -/
def AsmSt.dataDir (a : AsmSt) (line : Nat) (label : Option String) (n : String) (args : List (List Tk)) : Except (Nat × AsmErr) AsmSt :=
  let kern := match a.kern with | some k => k.name | none => ""
  match a.cur with
  | none => .error (line, .directive)
  | some s =>
    if a.blk.isSome || s.x then .error (line, .directive)
    else
      let named := fun (pos : Nat) (a : AsmSt) => match label with | some l => a.define line l (.at' s.name pos) | none => .ok a
      match n, args with
      | ".align", [e] =>
        match a.numAt line 0 16 e with
        | .error e => .error e
        | .ok k =>
          let pos := alignTo s.pos (2 ^ k)
          named pos (a.inSect fun s => { (if s.pos = pos then s else s.put (pos - s.pos) (.fill (pos - s.pos) 0)) with al := max s.al k })
      | ".space", e :: r =>
        match a.numAt line 0 (2 ^ 40) e, (match r with | [] => (.ok 0 : Except (Nat × AsmErr) Word) | [f] => a.absAt line f | _ => .error (line, .directive)) with
        | .error e, _ => .error e
        | _, .error e => .error e
        | .ok k, .ok f =>
          if f.toInt < -128 ∨ 255 < f.toInt then .error (line, .range) else named s.pos (a.inSect fun s => s.put k (.fill k (f.setWidth 8)))
      | _, _ =>
        match dataWidth n with
        | none => .error (line, .directive)
        | some w =>
          if args.isEmpty then .error (line, .directive)
          else named s.pos (args.foldl (fun a t => a.inSect fun s => s.put w (.data kern line w t)) a)

/-- Whether a directive puts bytes into a section. -/
def isDataDir (n : String) : Bool := (dataWidth n).isSome || n = ".space" || n = ".align"

/-- One statement. -/
def AsmSt.stmt (a : AsmSt) (line : Nat) : Stmt → Except (Nat × AsmErr) AsmSt
  | .none' => .ok a
  | .instr i => match a.blk with | some b => .ok { a with blk := some { b with instrs := b.instrs ++ [i] } } | none => .error (line, .block)
  | .dir label n args =>
    if isDataDir n then a.dataDir line label n args
    else match label with | some _ => .error (line, .label) | none => a.structDir line n args
  | .label l =>
    match a.blk, a.cur with
    | none, some s => a.define line l (.at' s.name s.pos)
    | _, _ => .error (line, .label)

/-- Every line of a file. -/
def AsmSt.lines (a : AsmSt) : Nat → List (List Char) → Except (Nat × AsmErr) AsmSt
  | line, [] => if a.blk.isSome || a.kern.isSome then .error (line, .directive) else .ok a
  | line, l :: r =>
    match stmtOf line l with
    | .error e => .error e
    | .ok s => match a.stmt line s with | .ok a => a.lines (line + 1) r | .error e => .error e

/-! ### The object (R126) -/

/-- A section of an object. -/
structure ObjSect where
  name : String
  w : Bool
  x : Bool
  al : Nat
  bytes : List Byte
  deriving DecidableEq, Repr

/-- What an object says of a kernel: its `.kern`, `.qgraph` and `.shapes` entries (R126). A queue stands with the blocks that push or pop it. -/
structure ObjKern where
  name : String
  access : String
  execute : Option String
  handlers : List (Nat × String)
  queues : List (QDecl × List String)
  shapes : List ShDecl
  deriving DecidableEq, Repr

/-- A relocatable object (R126): its sections, its symbols with those it exports, its relocations, its kernels, and its blocks of `.rates`. -/
structure Obj where
  sects : List ObjSect
  syms : List (String × SymVal × Bool)
  relocs : List Reloc
  kerns : List ObjKern
  rates : List (String × Nat × List (Nat × Nat))
  deriving DecidableEq, Repr

/-- The value of a data directive, or the relocation that gives it (R122, R125). A value fits as a signed or an unsigned number;
a literal with `bf` is refused but in `.half`, a DESIGN CHOICE (log 129). -/
def dataBytes (w : Nat) (look : String → Except AsmErr SymVal) (ts : List Tk) : Except AsmErr (List Byte × Option (RelType × String × Word)) :=
  let flt := fun (neg : Bool) (m : Nat) (e : Int) (bf : Bool) =>
    let f := if w = 4 && !bf then ElTy.ffmt .f32 else if w = 2 then (if bf then ElTy.ffmt .bf16 else ElTy.ffmt .f16) else none
    match f with
    | none => .error .literal
    | some f => match litBits f neg m e with | some b => .ok (leBytes w b, none) | none => .error .literal
  match ts with
  | [.flt m e bf] => flt false m e bf
  | [.sym '-', .flt m e bf] => flt true m e bf
  | _ =>
    match exprOf ts with
    | none => .error .expr
    | some x =>
      match x.eval look with
      | .error e => .error e
      | .ok (.abs v) =>
        if w = 8 then .ok (leBytes 8 v.toNat, none)
        else
          match rangedField (-(2 ^ (8 * w - 1) : Int)) (2 ^ (8 * w) - 1) (8 * w) v with
          | .ok n => .ok (leBytes w n, none)
          | .error e => .error e
      | .ok (.rel s a) =>
        if w = 4 then .ok (leBytes 4 0, some (.abs32, s, a)) else if w = 8 then .ok (leBytes 8 0, some (.abs64, s, a)) else .error .reloc
      | .ok (.piece _ _ _) => .error .reloc

/-- What a section comes to: its bytes, its relocations and its blocks. -/
structure Built where
  bytes : List Byte := []
  relocs : List Reloc := []
  blks : List AsmBlk := []
  deriving DecidableEq, Repr

/-- Build the items of a section, in order. -/
def AsmSt.build (a : AsmSt) (sect : String) : List (Nat × Item) → Except (Nat × AsmErr) Built
  | [] => .ok {}
  | (off, i) :: r =>
    let kernOf := fun (n : String) => a.kerns.find? fun k => k.name = n
    match a.build sect r with
    | .error e => .error e
    | .ok t =>
      match i with
      | .fill n v => .ok { t with bytes := List.replicate n v ++ t.bytes }
      | .data k line w ts =>
        match dataBytes w (a.look (kernOf k) line) ts with
        | .error e => .error (line, e)
        | .ok d => .ok { t with bytes := d.1 ++ t.bytes, relocs := (d.2.map fun x => ⟨sect, off, off, x.1, k, x.2.1, x.2.2⟩).toList ++ t.relocs }
      | .blk b =>
        match b.assemble sect off (a.look (kernOf b.kern)) with
        | .error e => .error e
        | .ok x => .ok { bytes := x.bytes ++ t.bytes, relocs := x.relocs ++ t.relocs, blks := x :: t.blks }

/-- Build every section. -/
def AsmSt.buildAll (a : AsmSt) : List Sect → Except (Nat × AsmErr) (List (Sect × Built))
  | [] => .ok []
  | s :: r =>
    match a.build s.name s.items, a.buildAll r with
    | .error e, _ => .error e
    | _, .error e => .error e
    | .ok b, .ok l => .ok ((s, b) :: l)

/-- Whether the token of slot `n` becomes the queue number of a `qpop`, directly or through a run of `constx` (R124, 14 R333, 16 R364). -/
def popsWith (l : List (Nat × Slot × Instr)) : Nat → Nat → Bool
  | 0, _ => false
  | f + 1, n =>
    match (l.find? fun e => e.1 = n).map fun e => (info e.2.2).t1 with
    | none => false
    | some t =>
      t.kind = .left && match l.find? fun e => e.1 = t.slot.toNat with
        | some (_, _, .qpop _ _ _) => true
        | some (_, _, .constx _ _) => popsWith l f t.slot.toNat
        | _ => false

/-- Whether the words of a block push or pop a queue that its kernel declares (R126): a `qpush` names it, or a `qpop` takes its number from a `const` of the
block (log 129). -/
def AsmBlk.usesQueue (b : AsmBlk) (q : String) : Bool :=
  let l := instrsOf (slotsOf b.hdr b.bytes)
  b.relocs.any fun r =>
    let n := (r.off - b.off - 16 * (b.hdr.cwords + 1)) / 4
    r.sym = q && match r.ty with
      | .qid12 => (match l.find? fun e => e.1 = n with | some (_, _, .qpush _ _ _) => true | _ => false)
      | .imm16 _ => popsWith l 128 n
      | .boff20 | .abs32 | .abs64 => false

/-- The object of a file whose lines have all been read. -/
def AsmSt.finish (a : AsmSt) : Except (Nat × AsmErr) Obj :=
  match a.globals.find? fun g => !a.syms.any fun s => s.1 = g.1 with
  | some g => .error (g.2, .symbol)
  | none =>
    match a.buildAll a.sects with
    | .error e => .error e
    | .ok l =>
      let blks := l.flatMap fun e => e.2.blks
      .ok { sects := l.map fun e => ⟨e.1.name, e.1.w, e.1.x, e.1.al, e.2.bytes⟩
            syms := a.syms.map fun s => (s.1, s.2.1, a.globals.any fun g => g.1 = s.1)
            relocs := l.flatMap fun e => e.2.relocs
            kerns := a.kerns.map fun k =>
              { name := k.name, access := k.access.getD "", execute := k.execute, handlers := k.handlers, shapes := k.shapes
                queues := k.queues.map fun q =>
                  (q, (blks.filter fun b => b.kern = k.name && b.usesQueue q.name).map AsmBlk.name) }
            rates := (blks.filter fun b => b.kind ≠ 1).map fun b => (b.name, b.off, b.rates) }

/-- The lines of a text. -/
def linesOf : List Char → List (List Char)
  | [] => [[]]
  | c :: r =>
    match linesOf r with
    | [] => [[c]]
    | p :: l => if c = '\n' then [] :: p :: l else (c :: p) :: l

/-- Assemble a file (R110 to R126); an error names its line. -/
def assemble (src : String) : Except (Nat × AsmErr) Obj :=
  match ({} : AsmSt).lines 1 (linesOf src.toList) with
  | .ok a => a.finish
  | .error e => .error e

end Sys2Proof.Machine
end

