-- ==== Sys2Proof/Machine/Elf.lean ====
section
/-!
DEFINITION. The object file (05 R126): an ELF64 relocatable file, little-endian, with `e_machine` 0x7A1C. The layout of the container is that of the ELF format
(PRESUMED, log 130); the numbers of the relocation types and the bytes of the four tables are the tool chain's own, and free.
-/
namespace Sys2Proof.Machine

/-- The bytes of a name in a string table. -/
def elfName (s : String) : List Byte := s.toList.map (fun c => BitVec.ofNat 8 c.toNat) ++ [0]
/-- A string table of some names. -/
def strTab (l : List String) : List Byte := 0 :: l.flatMap elfName
/-- The place of a name in their string table. -/
def strAt (l : List String) (s : String) : Nat := 1 + ((l.takeWhile fun t => t != s).map fun t => t.length + 1).sum

/-- A section of an ELF file: its name, type, flags, alignment, link, information, entry size and bytes. -/
structure ElfSect where
  name : String
  ty : Nat
  flags : Nat := 0
  al : Nat := 8
  link : Nat := 0
  inf : Nat := 0
  ent : Nat := 0
  bytes : List Byte
  deriving DecidableEq, Repr

/-- A symbol of an ELF file: the kernel in whose scope a queue's name stands, its name, its value and whether it is global. -/
structure ElfSym where
  kern : String
  name : String
  val : SymVal
  glob : Bool
  deriving DecidableEq, Repr

/-- The kernel that scopes the symbol of a relocation: that of a declared queue. -/
def Obj.scope (o : Obj) (r : Reloc) : String :=
  if o.kerns.any fun k => k.name = r.kern && k.queues.any fun q => q.1.name = r.sym then r.kern else ""

/-- The symbols of an object file: those that it defines, the local ones first, and those that its relocations leave to the linker. -/
def Obj.elfSyms (o : Obj) : List ElfSym :=
  let own := o.syms.map fun s => (⟨"", s.1, s.2.1, s.2.2⟩ : ElfSym)
  let free := (o.relocs.filter fun r => o.scope r != "" || !o.syms.any fun s => s.1 = r.sym).map fun r => (⟨o.scope r, r.sym, .ext, true⟩ : ElfSym)
  own.filter (fun s => !s.glob) ++ own.filter ElfSym.glob ++ free.eraseDups

/-- The number of a relocation's symbol: the null symbol is number 0. -/
def Obj.symNo (o : Obj) (r : Reloc) : Nat := 1 + (o.elfSyms.findIdx fun s => s.name = r.sym && s.kern = o.scope r)

/-- An entry of `.symtab`: 24 bytes. -/
def Obj.symBytes (o : Obj) (s : ElfSym) : List Byte :=
  let t : Nat × Word := match s.val with
    | .abs v => (0xFFF1, v)
    | .at' sec off => (1 + (o.sects.findIdx fun x => x.name = sec), BitVec.ofNat 64 off)
    | .queue | .ext => (0, 0)
  leBytes 4 (strAt (o.elfSyms.map ElfSym.name) s.name) ++ [if s.glob then 0x10 else 0, 0] ++ leBytes 2 t.1 ++ leBytes 8 t.2.toNat ++ leBytes 8 0

/-- The number by which `Config.relocType` knows a type of relocation (R125). -/
def RelType.no : RelType → Nat
  | .boff20 => 0
  | .imm16 i => 1 + i % 4
  | .abs32 => 5
  | .abs64 => 6
  | .qid12 => 7

/-- An entry of a `.rela` section: 24 bytes. -/
def Obj.relaBytes (o : Obj) (r : Reloc) : List Byte :=
  leBytes 8 r.off ++ leBytes 4 (Config.relocType r.ty.no).toNat ++ leBytes 4 (o.symNo r) ++ leBytes 8 r.add.toNat

/-- The characters of a name as numbers. -/
def nameField (s : String) : List Nat := s.toList.map Char.toNat

/-- The rows of `.kern`, `.qgraph`, `.rates` and `.shapes` (R126). -/
def Obj.tables (o : Obj) : List (String × List (List (List Nat))) :=
  [(".kern", o.kerns.map fun k => [nameField k.name, nameField k.access, nameField (k.execute.getD "")] ++ k.handlers.flatMap fun h => [[h.1], nameField h.2]),
   (".qgraph", o.kerns.flatMap fun k => k.queues.map fun q =>
     [nameField k.name, nameField q.1.name, q.1.depth.toList, [q.1.vec.toNat], [q.1.esize], [q.1.journal.toNat], [q.1.spill.toNat]] ++ q.2.map nameField),
   (".rates", o.rates.map fun r => [nameField r.1, [r.2.1]] ++ r.2.2.map fun p => [p.1, p.2]),
   (".shapes", o.kerns.flatMap fun k => k.shapes.map fun s => [nameField k.name, [s.reg], [s.tile.toNat], s.req])]

/-- The sections of an object file after the null section (R126). -/
def Obj.elfSects (o : Obj) : List ElfSect :=
  let n := o.sects.length
  let own := o.sects.map fun s =>
    ({ name := s.name, ty := 1, flags := 2 + s.w.toNat + 4 * s.x.toNat, al := 2 ^ s.al, bytes := s.bytes } : ElfSect)
  let tabs := o.tables.zipIdx.map fun t => ({ name := t.1.1, ty := 1, bytes := Config.objTable t.2 t.1.2 } : ElfSect)
  let syms := o.elfSyms
  let locals := (syms.filter fun s => !s.glob).length
  own ++ tabs ++ [{ name := ".symtab", ty := 2, link := n + 6, inf := locals + 1, ent := 24, bytes := List.replicate 24 0 ++ syms.flatMap o.symBytes },
    { name := ".strtab", ty := 3, al := 1, bytes := strTab (syms.map ElfSym.name) }]
    ++ o.sects.zipIdx.filterMap fun s =>
      match o.relocs.filter fun r => r.sect = s.1.name with
      | [] => none
      | l => some { name := ".rela" ++ s.1.name, ty := 4, link := n + 5, inf := s.2 + 1, ent := 24, bytes := l.flatMap o.relaBytes }

/-- Lay sections out from a place: each with its place, the bytes before it filled with zeros. -/
def elfLay (pos : Nat) : List ElfSect → List (ElfSect × Nat) × List Byte
  | [] => ([], [])
  | s :: r =>
    let a := alignTo pos s.al
    let t := elfLay (a + s.bytes.length) r
    ((s, a) :: t.1, List.replicate (a - pos) 0 ++ s.bytes ++ t.2)

/-- The header of a section: 64 bytes. -/
def elfHead (names : List String) (s : ElfSect × Nat) : List Byte :=
  leBytes 4 (strAt names s.1.name) ++ leBytes 4 s.1.ty ++ leBytes 8 s.1.flags ++ leBytes 8 0 ++ leBytes 8 s.2 ++ leBytes 8 s.1.bytes.length ++ leBytes 4 s.1.link
    ++ leBytes 4 s.1.inf ++ leBytes 8 s.1.al ++ leBytes 8 s.1.ent

/-- The bytes of an object file (R126). -/
def Obj.elf (o : Obj) : List Byte :=
  let l := o.elfSects
  let names := l.map ElfSect.name ++ [".shstrtab"]
  let all := l ++ [{ name := ".shstrtab", ty := 3, al := 1, bytes := strTab names }]
  let lay := elfLay 64 all
  let at' := alignTo (64 + lay.2.length) 8
  leBytes 4 0x464C457F ++ [2, 1, 1, 0] ++ leBytes 8 0 ++ leBytes 2 1 ++ leBytes 2 0x7A1C ++ leBytes 4 1 ++ leBytes 8 0 ++ leBytes 8 0 ++ leBytes 8 at'
    ++ leBytes 4 0 ++ leBytes 2 64 ++ leBytes 2 0 ++ leBytes 2 0 ++ leBytes 2 64 ++ leBytes 2 (all.length + 1) ++ leBytes 2 all.length
    ++ lay.2 ++ List.replicate (at' - 64 - lay.2.length) 0 ++ List.replicate 64 0 ++ lay.1.flatMap (elfHead names)

end Sys2Proof.Machine
end

