-- ==== Sys2Proof/Machine/Loader.lean ====
section
/-!
DEFINITION. The loader's part in a program (05 R125, R126, 14 R333, 16 R364, R365, 22 R471): linking, queue numbers, rates counted again, the tables of a
descriptor, and errata. Where the loader puts sections and which numbers it gives to queues are its own choice and stand here as arguments.
-/
namespace Sys2Proof.Machine

/-- Where the loader puts a section of one of the objects it links. -/
structure Placing where
  obj : Nat
  sect : String
  base : Word
  deriving DecidableEq, Repr

/-- The number that the loader gives to a queue of a kernel (16 R364). -/
structure QNum where
  kern : String
  queue : String
  num : Nat
  deriving DecidableEq, Repr

/-- The base of a section. -/
def baseOf (pl : List Placing) (n : Nat) (sect : String) : Option Word := (pl.find? fun p => p.obj = n && p.sect = sect).map Placing.base

/-- The value of a symbol of one object. -/
def Obj.symValue (o : Obj) (pl : List Placing) (n : Nat) (s : String) (exported : Bool) : Option Word :=
  match o.syms.find? fun e => e.1 = s && (e.2.2 || !exported) with
  | some (_, .abs v, _) => some v
  | some (_, .at' sec off, _) => (baseOf pl n sec).map fun b => b + BitVec.ofNat 64 off
  | some (_, .queue, _) | some (_, .ext, _) | none => none

/-- The value of a symbol seen from an object (R120, R125): its own, or the one that another object exports. -/
def symFrom (objs : List Obj) (pl : List Placing) (n : Nat) (s : String) : Option Word :=
  match (objs[n]?).bind fun o => o.symValue pl n s false with
  | some v => some v
  | none =>
    match objs.zipIdx.filterMap fun e => e.1.symValue pl e.2 s true with
    | [v] => some v
    | _ => none

/-- The value that a relocation takes as S: the number of a declared queue, or a symbol's value (R125, 16 R364). -/
def Reloc.symbol (r : Reloc) (objs : List Obj) (pl : List Placing) (qs : List QNum) (n : Nat) : Option Word :=
  match qs.find? fun q => q.kern = r.kern && q.queue = r.sym with
  | some q => some (BitVec.ofNat 64 q.num)
  | none => if r.ty = .qid12 then none else symFrom objs pl n r.sym

/-- The bits that a relocation writes, and into how many bytes (R125): `t` is S + A and `p` is P. -/
def RelType.value (ty : RelType) (t p : Word) : Except AsmErr (Nat × Nat) :=
  match ty with
  | .boff20 =>
    let d := (t - p).toInt
    if d % 16 ≠ 0 then .error .reloc
    else match signedField 20 (BitVec.ofInt 64 (d / 16)) with | .ok v => .ok (v, 4) | .error _ => .error .reloc
  | .imm16 i => .ok ((wordPiece i t).toNat * 2 ^ 9, 4)
  | .abs32 => if t.toNat < 2 ^ 32 then .ok (t.toNat, 4) else .error .reloc
  | .abs64 => .ok (t.toNat, 8)
  | .qid12 => if t.toNat < 4096 then .ok (t.toNat, 4) else .error .reloc

/-- Write a relocation's bits into the bytes of its section, whose field is zero. -/
def patch (l : List Byte) (off n v : Nat) : List Byte :=
  l.take off ++ leBytes n (leNat ((l.drop off).take n) ||| v) ++ l.drop (off + n)

/-- Apply relocations to the bytes of a section at a base (R125). -/
def applyRelocs (objs : List Obj) (pl : List Placing) (qs : List QNum) (n : Nat) (base : Word) : List Reloc → List Byte → Except AsmErr (List Byte)
  | [], l => .ok l
  | r :: rs, l =>
    match r.symbol objs pl qs n with
    | none => .error .symbol
    | some s =>
      match r.ty.value (s + r.add) (base + BitVec.ofNat 64 r.blk) with
      | .error e => .error e
      | .ok v => applyRelocs objs pl qs n base rs (patch l r.off v.2 v.1)

/-- A section as the loader writes it: its address, its bytes and its flags. -/
structure Segment where
  base : Word
  bytes : List Byte
  w : Bool
  x : Bool
  deriving DecidableEq, Repr

/-- Link the sections of one object: a section of code maps with x and without w (R126). -/
def linkSects (objs : List Obj) (pl : List Placing) (qs : List QNum) (n : Nat) (o : Obj) : List ObjSect → Except AsmErr (List Segment)
  | [] => .ok []
  | s :: r =>
    match baseOf pl n s.name with
    | none => .error .fit
    | some b =>
      if b.toNat % 2 ^ s.al ≠ 0 then .error .align
      else
        match applyRelocs objs pl qs n b (o.relocs.filter fun x => x.sect = s.name) s.bytes, linkSects objs pl qs n o r with
        | .ok l, .ok t => .ok (⟨b, l, s.w && !s.x, s.x⟩ :: t)
        | .error e, _ => .error e
        | _, .error e => .error e

/-- The blocks of an object whose rates, counted again from their words, differ from `.rates` (16 R364). -/
def Obj.ratesWrong (o : Obj) : List String :=
  (o.rates.filter fun r =>
    match o.sects.find? fun s => s.name = ".text.exe" with
    | none => true
    | some s =>
      let l := s.bytes.drop r.2.1
      let h := Header.ofBits (BitVec.ofNat 128 (leNat (l.take 16)))
      !ratesAgree r.2.2 (countRates (instrsOf (slotsOf h l)))).map Prod.fst

/-- Link objects (R125, 16 R364): an object whose rates disagree is refused. -/
def linkAll (objs : List Obj) (pl : List Placing) (qs : List QNum) : List (Obj × Nat) → Except AsmErr (List Segment)
  | [] => .ok []
  | (o, n) :: r =>
    if !o.ratesWrong.isEmpty then .error .rates
    else
      match linkSects objs pl qs n o o.sects, linkAll objs pl qs r with
      | .ok a, .ok b => .ok (a ++ b)
      | .error e, _ => .error e
      | _, .error e => .error e

/-- Link the objects of a program. -/
def link (objs : List Obj) (pl : List Placing) (qs : List QNum) : Except AsmErr (List Segment) := linkAll objs pl qs objs.zipIdx

/-! ### The tables of a descriptor -/

/-- The dwords of a handler table (16 R364): entry *t* is tag *t*'s block or 0. -/
def handlerTable (objs : List Obj) (pl : List Placing) (n : Nat) (k : ObjKern) : List Word :=
  (List.range 64).map fun t => match k.handlers.find? fun h => h.1 = t with | some h => (symFrom objs pl n h.2).getD 0 | none => 0

/-- The least power of two, from the first, that is at least `n`. -/
def ceilPow (n : Nat) : Nat → Nat → Nat
  | 0, p => p
  | f + 1, p => if n ≤ p then p else ceilPow n f (2 * p)

/-- The depth of a queue (22 R476): the least power of two that is at least the least depth and twice the largest rate of its blocks (02 R53). -/
def queueDepth (least rate : Nat) : Nat := ceilPow (max least (2 * rate)) 64 1

/-- The lsize of a window that holds a number of elements (07 R163): from 1 KiB to 64 MiB. -/
def windowSize (depth esize : Nat) : Option Nat := (List.range 17).findSome? fun i => if depth * esize ≤ 2 ^ (10 + i) then some (10 + i) else none

/-- The code of an element size (14 R320): 0 for 8 bytes, on the control plane, and 1 to 3 for 128, 256 or 512. -/
def esizeCode (n : Nat) : Nat := if n = 512 then 3 else if n = 256 then 2 else if n = 128 then 1 else 0

/-- The two dwords of a queue-table entry (16 R365). -/
def queueEntry (q : QDecl) (num depth nprod : Nat) (prodk consk : Bool) (cask : Word) : Option (List Word) :=
  (windowSize depth q.esize).map fun l =>
    [at' num 0 ||| at' l 12 ||| at' nprod 17 ||| bitAt consk 24 ||| bitAt prodk 25 ||| bitAt q.spill 26 ||| bitAt q.journal 27
      ||| at' (esizeCode q.esize) 28 ||| bitAt q.vec 30, cask]

/-- What a descriptor says (16 R364). -/
structure LaunchDesc where
  priv : Bool
  after : Bool
  ngroups : Nat
  nqueues : Nat
  asn : BitVec 16
  acc : Nat
  access : Word
  execute : Word
  handlers : Word
  code : Word
  codeLen : Word
  tvec : Word
  image : Word
  stride : Word
  queues : Word
  ephem : Word
  fenced : Word
  nfenced : Nat
  done : Word
  deriving DecidableEq, Repr

/-- The sixteen dwords of a descriptor (16 R364). -/
def LaunchDesc.words (d : LaunchDesc) : List Word :=
  [at' 1 0 ||| bitAt d.priv 8 ||| bitAt d.after 9 ||| at' d.ngroups 16 ||| at' d.nqueues 24 ||| at' d.asn.toNat 32 ||| at' d.acc 48, d.access, d.execute,
   d.handlers, d.code, d.codeLen, d.tvec, d.image, d.stride, d.queues, d.ephem, d.fenced, at' d.nfenced 0, d.done, 0, 0]

/-! ### Errata (22 R471) -/

/-- The workaround codes that the loader applies, out of the erratum records' first dwords (22 R469, R471): those of status 2; none where it does not know
one of them, and refuses to load. -/
def workarounds (known : List Nat) (recs : List Word) : Except AsmErr (List Nat) :=
  let l := (recs.filter fun d => fld d 0 2 = 2).map fun d => fld d 32 16
  if l.any fun c => c ≠ 0 && !known.contains c then .error .erratum else .ok (l.filter fun c => c ≠ 0)

end Sys2Proof.Machine
end

