-- ==== Sys2Proof/Machine/Moantiard.lean ====
section
/-!
DEFINITION. The Moantiard form (22 R473 to R477): a chain as its section holds it, what the loader refuses, what its three streams do to memory, and the
loader's places for its slots and queues (R476). The native blocks that the loader generates are its own.
-/
namespace Sys2Proof.Machine

/-! ### Commands (R473, R474) -/

/-- The three engines, which are also the streams. -/
inductive MoEng where
  | load | compute | store
  deriving DecidableEq, Repr

/-- The operation of a VMAP. -/
inductive MoMap where
  | add | mul | max | cvt
  deriving DecidableEq, Repr

/-- A move between memory and a queue: the address, how many items, their size as a power of two, the stride, and the queue. -/
structure MoItems where
  addr : Word
  items : Nat
  esz : Nat
  stride : Int
  queue : Nat
  deriving DecidableEq, Repr

/-- What a command does (R474). -/
inductive MoOp where
  | nop
  | ldt (addr : Word) (rows rowBytes pitch slot : Nat)
  | ldq (t : MoItems)
  | mmt (a w acc : Nat) (ty : MmaTy) (m n k : Nat)
  | aclr (acc : Nat)
  | vmap (inq outq : Nat) (f : MoMap) (scalar : Nat)
  | stt (addr : Word) (pitch : Nat) (ty : ElTy) (acc : Nat)
  | stq (t : MoItems)
  deriving DecidableEq, Repr

/-- A command: the semaphore it waits for, its operation, and the semaphore it posts. -/
structure MoCmd where
  waits : Option Nat
  op : MoOp
  posts : Option Nat
  deriving DecidableEq, Repr

/-- A queue of a chain: its least depth in elements, its element size in bytes, and whether it is journalled. -/
structure MoQueue where
  least : Nat
  esize : Nat
  journal : Bool
  deriving DecidableEq, Repr

/-- A chain: its streams, the initial values of its semaphores, and its queues. -/
structure MoChain where
  load : List MoCmd
  compute : List MoCmd
  store : List MoCmd
  sems : List Nat
  queues : List MoQueue
  deriving DecidableEq, Repr

/-- The stream of an engine. -/
def MoChain.stream (c : MoChain) : MoEng → List MoCmd
  | .load => c.load
  | .compute => c.compute
  | .store => c.store

/-- The code of an engine. -/
def MoEng.code : MoEng → Nat
  | .load => 0
  | .compute => 1
  | .store => 2

/-- Whether no bit of a dword is set but in the fields named, each by its low bit and width. -/
def onlyFields (d : Word) (l : List (Nat × Nat)) : Bool :=
  (List.range 64).all fun i => !d.getLsbD i || l.any fun f => decide (f.1 ≤ i) && decide (i < f.1 + f.2)

/-- A signed 32-bit field. -/
def s32Field (d : Word) (lo : Nat) : Int := (d.extractLsb' lo 32).toInt

/-- The types that STT may store (12 R278): no microscaled type. -/
def storable (t : ElTy) : Bool := t != .mx8 && t != .mx4

/-- The operands of LDQ and STQ. -/
def moItems (d1 d2 d3 : Word) : Option MoItems :=
  if onlyFields d2 [(32, 32), (0, 2)] && onlyFields d3 [(32, 32), (0, 6)] then
    some ⟨d1, fld d2 32 32, fld d2 0 2, s32Field d3 32, fld d3 0 6⟩
  else none

/-- The operation of a command (R474); none where the loader refuses it: an op that is not listed or not its engine's, or a reserved operand bit. -/
def moOp (e : MoEng) (op : Nat) (d1 d2 d3 : Word) : Option MoOp :=
  match e, op with
  | _, 0x00 => if d1 = 0 && d2 = 0 && d3 = 0 then some .nop else none
  | .load, 0x01 =>
    if onlyFields d3 [(0, 8)] && fld d2 32 16 % 128 = 0 then some (.ldt d1 (fld d2 48 16) (fld d2 32 16) (fld d2 0 32) (fld d3 0 8)) else none
  | .load, 0x02 => (moItems d1 d2 d3).map MoOp.ldq
  | .compute, 0x10 =>
    match MmaTy.ofCode (d1.extractLsb' 24 4) with
    | some ty =>
      if onlyFields d1 [(0, 28)] && onlyFields d2 [(0, 36)] && d3 = 0 then
        some (.mmt (fld d1 0 8) (fld d1 8 8) (fld d1 16 8) ty (fld d2 24 12) (fld d2 12 12) (fld d2 0 12))
      else none
    | none => none
  | .compute, 0x11 => if onlyFields d1 [(16, 8)] && d2 = 0 && d3 = 0 then some (.aclr (fld d1 16 8)) else none
  | .compute, 0x12 =>
    let f := match fld d1 12 2 with | 0 => MoMap.add | 1 => .mul | 2 => .max | _ => .cvt
    if onlyFields d1 [(0, 14)] && onlyFields d2 [(0, 32)] && d3 = 0 then some (.vmap (fld d1 0 6) (fld d1 6 6) f (fld d2 0 32)) else none
  | .store, 0x20 =>
    match ElTy.ofCode (d2.extractLsb' 32 4) with
    | some ty => if onlyFields d2 [(0, 36)] && onlyFields d3 [(16, 8)] && storable ty then some (.stt d1 (fld d2 0 32) ty (fld d3 16 8)) else none
    | none => none
  | .store, 0x21 => (moItems d1 d2 d3).map MoOp.stq
  | _, _ => none

/-- The queues that an operation names. -/
def MoOp.queues : MoOp → List Nat
  | .ldq t | .stq t => [t.queue]
  | .vmap i o _ _ => [i, o]
  | .nop | .ldt _ _ _ _ _ | .mmt _ _ _ _ _ _ _ | .aclr _ | .stt _ _ _ _ => []

/-- A command of four dwords in the stream of an engine (R473); none where the loader refuses it. -/
def moCmd (e : MoEng) (nsem nq : Nat) (d : List Word) : Option MoCmd :=
  let w := fun i => (d[i]?).getD 0
  let c := w 0
  let waits := if c.getLsbD 18 then some (fld c 10 8) else none
  let posts := if c.getLsbD 27 then some (fld c 19 8) else none
  if fld c 28 36 ≠ 0 || fld c 8 2 ≠ e.code || (waits.toList ++ posts.toList).any fun s => decide (nsem ≤ s) then none
  else
    (moOp e (fld c 0 8) (w 1) (w 2) (w 3)).bind fun o => if o.queues.any fun q => decide (nq ≤ q) then none else some ⟨waits, o, posts⟩

/-- A queue's dword (R473). -/
def moQueue (d : Word) : Option MoQueue :=
  if onlyFields d [(0, 35)] then
    some ⟨fld d 0 32, (match fld d 32 2 with | 0 => 8 | 1 => 128 | 2 => 256 | _ => 512), d.getLsbD 34⟩
  else none

/-- A chain out of the dwords of its section (R473): its header is five dwords (log 126), then the semaphores, the queues and the streams. -/
def moChain (l : List Word) : Except AsmErr MoChain :=
  match l with
  | nl :: nc :: ns :: nsem :: nq :: r =>
    let sems := r.take nsem.toNat
    let qs := (r.drop nsem.toNat).take nq.toNat
    let body := r.drop (nsem.toNat + nq.toNat)
    let part := fun (e : MoEng) (skip n : Nat) => allSome ((entriesOf 4 n (body.drop (4 * skip))).map (moCmd e nsem.toNat nq.toNat))
    if 256 < nsem.toNat || 64 < nq.toNat || body.length ≠ 4 * (nl.toNat + nc.toNat + ns.toNat) || sems.any fun d => fld d 32 32 ≠ 0 then .error .chain
    else
      match part .load 0 nl.toNat, part .compute nl.toNat nc.toNat, part .store (nl.toNat + nc.toNat) ns.toNat, allSome (qs.map moQueue) with
      | some a, some b, some c, some q => .ok ⟨a, b, c, sems.map fun d => fld d 0 32, q⟩
      | _, _, _, _ => .error .chain
  | _ => .error .chain

/-! ### What a chain does (R475) -/

/-- A tile slot: the bytes of a row, and its bytes. -/
structure MoTile where
  rowBytes : Nat := 128
  bytes : Memory := []
  deriving DecidableEq, Repr

/-- An accumulator slot: its elements, and the type and extents of the last MMT that named it. -/
structure MoAcc where
  cells : Tab (Nat × Nat) Nat := []
  ty : MmaTy := .s8
  m : Nat := 0
  n : Nat := 0
  deriving DecidableEq, Repr

/-- A stream between two steps: its command, whether the command has taken from its semaphore, and how many elements of it have moved. -/
structure MoPos where
  at' : Nat := 0
  begun : Bool := false
  moved : Nat := 0
  deriving DecidableEq, Repr

/-- A chain as it runs: memory by virtual address, tiles, accumulators, the elements of each queue, semaphores and streams. -/
structure MoSt where
  mem : Memory
  tiles : Tab Nat MoTile := []
  accs : Tab Nat MoAcc := []
  queues : List (List Nat)
  sems : List Nat
  load : MoPos := {}
  compute : MoPos := {}
  store : MoPos := {}
  deriving DecidableEq, Repr

/-- A chain that has not begun. -/
def MoChain.start (c : MoChain) (mem : Memory) : MoSt := { mem := mem, queues := c.queues.map fun _ => [], sems := c.sems }

/-- Where a stream stands. -/
def MoSt.pos (s : MoSt) : MoEng → MoPos
  | .load => s.load
  | .compute => s.compute
  | .store => s.store

/-- Move a stream. -/
def MoSt.setPos (s : MoSt) (e : MoEng) (p : MoPos) : MoSt :=
  match e with
  | .load => { s with load := p }
  | .compute => { s with compute := p }
  | .store => { s with store := p }

/-- The elements of a queue. -/
def MoSt.els (s : MoSt) (q : Nat) : List Nat := (s.queues[q]?).getD []
/-- Change the elements of a queue. -/
def MoSt.setEls (s : MoSt) (q : Nat) (l : List Nat) : MoSt := { s with queues := s.queues.set q l }

/-- An address modulo 2^64. -/
def moAddr (a : Word) (d : Int) : Nat := (a + BitVec.ofInt 64 d).toNat

/-- Copy rows into a slot (LDT). -/
def moRows (mem : Memory) (addr : Word) (rowBytes pitch : Nat) : Nat → Memory
  | 0 => []
  | r + 1 => (moRows mem addr rowBytes pitch r).writeBytes (r * rowBytes) (mem.readBytes (moAddr addr (r * pitch : Nat)) rowBytes)

/-- A beat of a row of a tile. -/
def MoTile.beat (t : MoTile) (row b : Nat) : Nat := leNat (t.bytes.readBytes (row * t.rowBytes + 128 * b) 128)

/-- An accumulator element after the K-groups from `g` on (12 R281). -/
def moElem (ty : MmaTy) (a w : MoTile) (k i j : Nat) : Nat → Nat → Nat → Nat
  | 0, _, old => old
  | n + 1, g, old =>
    let ks := (List.range 32).map (32 * g + ·) |>.filter fun p => decide (p < k)
    let b := groupBeat (mmaEl ty) g
    moElem ty a w k i j n (g + 1) (groupAdd ty false old (groupProducts (mmaEl ty) (a.beat i b) (w.beat j b) ks)).1

/-- An accumulator after an MMT (R474, 12 R281), at the requested extents. -/
def MoAcc.mmt (c : MoAcc) (ty : MmaTy) (a w : MoTile) (m n k : Nat) : MoAcc :=
  let ps := (List.range m).flatMap fun i => (List.range n).map fun j => (i, j)
  { cells := ps.foldl (fun t p => t.put p (moElem ty a w k p.1 p.2 ((k + 31) / 32) 0 (c.cells.getD p 0))) c.cells, ty := ty, m := m, n := n }

/-- The type that an accumulator holds (12 R280). -/
def accEl (ty : MmaTy) : ElTy := if ElTy.isInt (mmaEl ty) then .s32 else .f32

/-- Store the rows of an accumulator (STT): each row as `accst` converts it, with `rne` and no `.sat`. -/
def MoAcc.store (c : MoAcc) (addr : Word) (pitch : Nat) (dst : ElTy) (mem : Memory) : Memory :=
  (List.range c.m).foldl
    (fun mem i =>
      let row := (List.range c.n).map fun j => (convElem (accEl c.ty) dst {} (c.cells.getD (i, j) 0)).1
      mem.writeBytes (moAddr addr (i * pitch : Nat)) (leBytes ((c.n * ElTy.width dst + 7) / 8) (packNat (ElTy.width dst) row)))
    mem

/-- An element of a VMAP (R474): each `f32` of the input, rounded with `rne`. -/
def moMap (f : MoMap) (scalar esize v : Nat) : Nat :=
  let xs := (List.range (esize / 4)).map fun i => v / 2 ^ (32 * i) % 2 ^ 32
  match f with
  | .add => packNat 32 (xs.map fun x => (fltBin .add f32Fmt false x scalar).1)
  | .mul => packNat 32 (xs.map fun x => (fltBin .mul f32Fmt false x scalar).1)
  | .max => packNat 32 (xs.map fun x => (fltBin .max f32Fmt false x scalar).1)
  | .cvt => packNat 16 (xs.map fun x => (convElem .f32 .bf16 {} x).1)

/-- How many items an element of a queue carries (15 R353): one on the control plane. -/
def itemsPer (esize esz : Nat) : Nat := if esize = 8 then 1 else esize / 2 ^ esz

/-- The items of the next element of a move, at most as many as are left. -/
def MoItems.next (t : MoItems) (per moved : Nat) : List Nat := ((List.range per).map (moved * per + ·)).filter fun i => decide (i < t.items)

/-- The element that an LDQ appends next (15 R353). -/
def MoItems.fetch (t : MoItems) (mem : Memory) (per moved : Nat) : Nat :=
  packNat (8 * 2 ^ t.esz) ((t.next per moved).map fun (i : Nat) => leNat (mem.readBytes (moAddr t.addr (t.stride * (i : Int))) (2 ^ t.esz)))

/-- Write the items of an element (15 R346). -/
def MoItems.write (t : MoItems) (mem : Memory) (per moved v : Nat) : Memory :=
  ((t.next per moved).zipIdx).foldl
    (fun mem e => mem.writeBytes (moAddr t.addr (t.stride * e.1)) (leBytes (2 ^ t.esz) (v / 2 ^ (8 * 2 ^ t.esz * e.2) % 2 ^ (8 * 2 ^ t.esz)))) mem

/-- What a step of a command's effect comes to: it waits, it goes on, or it ends. -/
inductive MoRes where
  | wait
  | more (s : MoSt)
  | done (s : MoSt)

/-- The element size of a queue. -/
def MoChain.esize (c : MoChain) (q : Nat) : Nat := match c.queues[q]? with | some x => x.esize | none => 8

/-- One step of a command's effect (R474, R475), where `depth` is the depth of each queue. -/
def MoSt.effect (c : MoChain) (depth : Nat → Nat) (s : MoSt) (moved : Nat) : MoOp → MoRes
  | .nop => .done s
  | .ldt addr rows rb pitch slot => .done { s with tiles := s.tiles.put slot ⟨rb, moRows s.mem addr rb pitch rows⟩ }
  | .ldq t =>
    let per := itemsPer (c.esize t.queue) t.esz
    if t.items ≤ moved * per then .done s
    else if depth t.queue ≤ (s.els t.queue).length then .wait
    else .more (s.setEls t.queue (s.els t.queue ++ [t.fetch s.mem per moved]))
  | .mmt a w acc ty m n k =>
    .done { s with accs := s.accs.put acc ((s.accs.getD acc {}).mmt ty (s.tiles.getD a {}) (s.tiles.getD w {}) m n k) }
  | .aclr acc => .done { s with accs := s.accs.put acc { s.accs.getD acc {} with cells := [] } }
  | .vmap i o f sc =>
    match s.els i with
    | [] => .wait
    | v :: r =>
      if depth o ≤ (if i = o then r else s.els o).length then .wait
      else
        let s := s.setEls i r
        .done (s.setEls o (s.els o ++ [moMap f sc (c.esize i) v % 2 ^ (8 * c.esize o)]))
  | .stt addr pitch ty acc => .done { s with mem := (s.accs.getD acc {}).store addr pitch ty s.mem }
  | .stq t =>
    let per := itemsPer (c.esize t.queue) t.esz
    if t.items ≤ moved * per then .done s
    else
      match s.els t.queue with
      | [] => .wait
      | v :: r => .more { s.setEls t.queue r with mem := t.write s.mem per moved v }

/-- One step of a stream (R475): its command takes from its semaphore, a part of its effect is performed, or it ends and posts; none where it cannot
proceed. -/
def MoSt.step (c : MoChain) (depth : Nat → Nat) (e : MoEng) (s : MoSt) : Option MoSt :=
  let p := s.pos e
  match (c.stream e)[p.at']? with
  | none => none
  | some k =>
    if !p.begun then
      match k.waits with
      | none => some (s.setPos e { p with begun := true })
      | some n =>
        let v := (s.sems[n]?).getD 0
        if v = 0 then none else some ({ s with sems := s.sems.set n (v - 1) }.setPos e { p with begun := true })
    else
      match s.effect c depth p.moved k.op with
      | .wait => none
      | .more s => some (s.setPos e { p with moved := p.moved + 1 })
      | .done s =>
        let s := match k.posts with | none => s | some n => { s with sems := s.sems.set n ((s.sems[n]?).getD 0 + 1) }
        some (s.setPos e ⟨p.at' + 1, false, 0⟩)

/-- Whether every stream has ended. -/
def MoSt.ended (c : MoChain) (s : MoSt) : Bool :=
  decide (c.load.length ≤ s.load.at') && decide (c.compute.length ≤ s.compute.at') && decide (c.store.length ≤ s.store.at')

/-- Whether a chain hangs (R475): it has not ended, and no stream can proceed. -/
def MoSt.hangs (c : MoChain) (depth : Nat → Nat) (s : MoSt) : Bool :=
  !s.ended c && [MoEng.load, .compute, .store].all fun e => (s.step c depth e).isNone

/-- A run: the streams step in an order that the device chooses, and one that cannot proceed stays. -/
def MoSt.run (c : MoChain) (depth : Nat → Nat) : List MoEng → MoSt → MoSt
  | [], s => s
  | e :: r, s => MoSt.run c depth r ((s.step c depth e).getD s)

/-! ### The loader's places (R476) -/

/-- The grant of a requested extent (12 R266). -/
def grantOf (native q : Nat) : Nat := 2 ^ (grantCode native q + 3)

/-- The bytes that an operation needs of a slot in a buffer, sized by the grants of its shape (R476, 12 R274). -/
def MoOp.needs (native : Nat) (b : Buf) (slot : Nat) : MoOp → Nat
  | .mmt a w acc ty m n k =>
    let row := 128 * rowBeats (mmaEl ty) (grantOf native k)
    match b with
    | .a => if a = slot then grantOf native m * row else 0
    | .w => if w = slot then grantOf native n * row else 0
    | .c => if acc = slot then 4 * grantOf native m * grantOf native n else 0
  | .nop | .ldt _ _ _ _ _ | .ldq _ | .aclr _ | .vmap _ _ _ _ | .stt _ _ _ _ | .stq _ => 0

/-- The bytes of a slot in a buffer: the most that a command of the chain needs. -/
def MoChain.slotBytes (c : MoChain) (native : Nat) (b : Buf) (slot : Nat) : Nat :=
  (c.compute.map fun k => k.op.needs native b slot).foldl max 0

/-- Slots placed in a buffer in ascending number: the slot, its place and its length. -/
def placeSlots : List (Nat × Nat) → Nat → List (Nat × Nat × Nat)
  | [], _ => []
  | (s, n) :: r, base => if n = 0 then placeSlots r base else (s, base, n) :: placeSlots r (base + n)

/-- The places of a chain's slots in a buffer. -/
def MoChain.slots (c : MoChain) (native : Nat) (b : Buf) : List (Nat × Nat × Nat) :=
  placeSlots ((List.range 256).map fun s => (s, c.slotBytes native b s)) 0

/-- Whether placed slots fit a number of bytes. -/
def slotsFit (l : List (Nat × Nat × Nat)) (bytes : Nat) : Bool := l.all fun e => decide (e.2.1 + e.2.2 ≤ bytes)

/-- What the loader gives a chain (R476): its slots' places in W, A and C, its queues' depths, and its signals' initial values. -/
structure MoPlan where
  w : List (Nat × Nat × Nat)
  a : List (Nat × Nat × Nat)
  c : List (Nat × Nat × Nat)
  depths : List Nat
  signals : List Nat
  deriving DecidableEq, Repr

/-- The loader's plan on a die (R476), by the geometry record (the native extent and the KiB of W, A and C), the window memory in bytes, and the largest
rate of a queue's blocks; a chain that does not fit is refused. -/
def MoChain.plan (c : MoChain) (native wKiB aKiB cKiB windows : Nat) (rate : Nat → Nat) : Except AsmErr MoPlan :=
  let depths := c.queues.zipIdx.map fun q => queueDepth q.1.least (rate q.2)
  let sizes := allSome ((c.queues.zip depths).map fun q => windowSize q.2 q.1.esize)
  let w := c.slots native .w
  let a := c.slots native .a
  let cc := c.slots native .c
  match sizes with
  | none => .error .fit
  | some l =>
    if slotsFit w (1024 * wKiB) && slotsFit a (1024 * aKiB) && slotsFit cc (1024 * cKiB) && decide ((l.map (2 ^ ·)).sum ≤ windows) then
      .ok ⟨w, a, cc, depths, c.sems⟩
    else .error .fit

end Sys2Proof.Machine
end

