-- ==== Sys2Proof/Safety.lean ====
section
/-!
DEFINITION. The vocabulary of the statements: an instruction ready to issue, what an issue sends, the canonical memories, the counters of
receive contexts.
-/
namespace Sys2Proof.Machine

/-- The memories of a state are in canonical form: addresses strictly rising, no cell equal to what an unlisted address reads as. -/
def memWf (s : State) : Bool := s.mem.wf && s.bufs.wf

/-- The counters of every receive context add up (20 R433): every frame received is counted once more, in one of five. -/
def countersAddUp (s : State) : Prop :=
  ∀ e ∈ s.rxs, e.2.cnt.recv = e.2.cnt.dlv + e.2.cnt.full + e.2.cnt.int + e.2.cnt.key + e.2.cnt.ovr

/-- A slot of a block in flight that has not issued and is not quenched. -/
structure InSlot (s : State) (cu : Cur) (b : Blk) (sl : Slot) : Prop where
  site : s.site = .slot cu
  blk : s.blks.get? cu.frame = some b
  slot : b.slots[cu.slot]? = some sl
  waits : sl.st = .waiting

/-- An operand an instruction uses has arrived and is neither a null nor a fault token; one it does not use counts as a plain zero. -/
def Operand (uses : Bool) (o : Option Tok) (t : Tok) : Prop :=
  if uses then o = some t ∧ t.isNull = false ∧ t.isFault = false else t = Tok.ofWord 0

/-- The predicate of an instruction, where it has one, has arrived and is neither a null nor a fault token. -/
def Fires (p : Pred) (o : Option Tok) : Prop := p = .always ∨ ∃ t, o = some t ∧ t.isNull = false ∧ t.isFault = false

/-- An instruction stands in a slot that has not issued, and its operands are `l` and `r`. -/
structure Ready (i : Instr) (s : State) (cu : Cur) (b : Blk) (sl : Slot) (l r : Tok) : Prop extends InSlot s cu b sl where
  left : Operand (info i).usesL sl.l l
  right : Operand (info i).usesR sl.r r
  pred : Fires (info i).p sl.p

/-- The state in which the block has issued an instruction and sent a token to each of its two targets. -/
def State.sent (s : State) (cu : Cur) (b : Blk) (sl : Slot) (i : Instr) (t1 t2 : Tok) : State :=
  s.setBlk cu.frame (b.sends cu.slot sl (info i) t1 t2)

/-- The same token to both targets. -/
def State.sentOne (s : State) (cu : Cur) (b : Blk) (sl : Slot) (i : Instr) (t : Tok) : State := s.sent cu b sl i t t

/-- The state in which an instruction has sent one token to its targets and holds tentative takes of the queues it took it from (03 R88). -/
def State.sentTaking (s : State) (cu : Cur) (b : Blk) (sl : Slot) (i : Instr) (t : Tok) (q : List QRef) : State :=
  s.setBlk cu.frame { b.sends cu.slot sl (info i) t t with takes := (b.sends cu.slot sl (info i) t t).takes ++ q.map fun k => (cu.slot, k) }

/-- Whenever it is ready, an instruction issues, sends one token to its targets and changes nothing but its block. -/
def Sends (i : Instr) (f : Tok → Tok → Tok) : Prop :=
  ∀ s cu b sl l r, Ready i s cu b sl l r → exec i s = .next (s.sent cu b sl i (f l r) (f l r))

/-- An instruction sends a value without a handle, of event width 8 (09 R191). -/
def SendsValue (i : Instr) (f : Word → Word → Word) : Prop := Sends i fun l r => Tok.ofWord (f l.val r.val)

/-- A test sends 1 where its condition holds and 0 where it does not (09 R204). -/
def SendsTest (i : Instr) (c : Word → Word → Prop) : Prop :=
  ∀ s cu b sl l r, Ready i s cu b sl l r →
    (c l.val r.val → exec i s = .next (s.sent cu b sl i (Tok.ofWord 1) (Tok.ofWord 1)))
      ∧ (¬ c l.val r.val → exec i s = .next (s.sent cu b sl i (Tok.ofWord 0) (Tok.ofWord 0)))

/-- The state in which the block has issued a store-class instruction, whose identifier is complete with its effect (03 R86). -/
def State.completed (s : State) (cu : Cur) (b : Blk) (id : Ident) (e : Eff) : State :=
  s.setBlk cu.frame { b.fin cu.slot with idDone := b.idDone ||| (1#32 <<< id.toNat), effs := b.effs ++ [(id.toNat, e)] }

/-- The state in which the slot has issued and raised a fault that its block holds (03 R92). -/
def State.raised (s : State) (cu : Cur) (b : Blk) (f : FaultRec) : State :=
  s.setBlk cu.frame { b.fin cu.slot with faults := b.faults ++ [f] }

/-- A ready store-class instruction of a context, whose identifier is not complete and whose own conditions hold, completes its identifier with its
effect and changes nothing but its block. -/
def Completes (i : Instr) (id : Ident) (ok : State → Blk → Ctx → Tok → Tok → Prop) (e : Ctx → Tok → Tok → Eff) : Prop :=
  ∀ s cu b sl l r x, Ready i s cu b sl l r → s.ctxs.get? b.ctx = some x → b.idDone.getLsbD id.toNat = false → ok s b x l r →
    exec i s = .next (s.completed cu b id (e x l r))

/-- A ready instruction whose own conditions hold raises a fault that its block holds, with its slot as the place of the fault. -/
def Raises (i : Instr) (ok : State → Blk → Ctx → Tok → Tok → Prop) (code : Nat) (sub : BitVec 8) (tcode : BitVec 9) : Prop :=
  ∀ s cu b sl l r x, Ready i s cu b sl l r → s.ctxs.get? b.ctx = some x → ok s b x l r →
    exec i s = .next (s.raised cu b { code := code, sub := sub, tcode := tcode, slot := BitVec.ofNat 7 cu.slot })

/-- A ready branch-class instruction of a block without a branch issues: its exit and what it does stand in the block until commit (09 R212). -/
def Branches (i : Instr) (exit : BitVec 3) (ok : State → Blk → Ctx → Tok → Tok → Prop) (k : Blk → Tok → Tok → BrKind) : Prop :=
  ∀ s cu b sl l r x, Ready i s cu b sl l r → s.ctxs.get? b.ctx = some x → b.branch = none → ok s b x l r →
    exec i s = .next (s.setBlk cu.frame { b.fin cu.slot with branch := some ⟨exit, k b l r⟩, brSlot := cu.slot })

/-- The successor of a branch with an offset (09 R213): 16 bytes times the signed offset past the address of the block. -/
def offsetFrom (b : Blk) (off : BitVec 20) : Word := BitVec.ofInt 64 (b.addr.toInt + 16 * off.toInt)

/-- The new value of an atomic update of `w` bits (10 R233). -/
def updated (op : AmoOp) (w old v : Nat) : Nat :=
  match op with
  | .add => (old + v) % 2 ^ w
  | .addF32 => (fltBin .add f32Fmt false old v).1
  | .minS => if (BitVec.ofNat w old).toInt ≤ (BitVec.ofNat w v).toInt then old else v
  | .maxS => if (BitVec.ofNat w old).toInt ≥ (BitVec.ofNat w v).toInt then old else v
  | .minN => min old v
  | .maxN => max old v
  | .and => old &&& v
  | .or => old ||| v
  | .xor => old ^^^ v

/-! ### Vector instructions -/

/-- The elements of a token under a granted length (11 R240): `f e` below `n` and zero from `n` up. -/
def Holds (v : VWord) (w n : Nat) (f : Nat → Nat) : Prop := ∀ e, w * (e + 1) ≤ 4096 → elem w e v = if e < n then f e else 0

/-- The value of an integer element (11 R244): signed for an `s` type, unsigned for an `n` type. -/
def laneInt (ty : ElTy) (b : Nat) : Int := if ElTy.signed ty then (BitVec.ofNat (ElTy.width ty) b).toInt else b

/-- The union of the flags of the elements below `n` (06 R144). -/
def flagsBelow (n : Nat) (fl : Nat → Flags) : Flags := (List.range n).foldl (fun a e => a.or (fl e)) {}

/-- The state in which a data-plane instruction has sent its tokens, with flags and generator state that stand in the block until it commits
(06 R137, R144). -/
def State.sentVec (s : State) (cu : Cur) (b : Blk) (sl : Slot) (i : Instr) (lo hi : VWord) (fl : Flags) (lf : Option (BitVec 32)) : State :=
  s.setBlk cu.frame { b.sends cu.slot sl (info i) (.vec lo) (.vec hi) with fl := b.fl.or fl, lfsr := lf }

/-- Whenever it is ready and waits for no older block, a vector instruction that raises no flag sends one token with the elements `f`. -/
def VecElems (i : Instr) (governed : Bool) (w : Nat) (n : VCtx → Nat) (f : VCtx → VWord → VWord → Nat → Nat) : Prop :=
  ∀ s cu b sl l r x, Ready i s cu b sl l r → s.ctxs.get? b.ctx = some x → s.vecWaits x b cu.slot governed false = false →
    ∃ v, Holds v w (n (s.seen b x).vctx) (f (s.seen b x).vctx l.bits r.bits) ∧ exec i s = .next (s.sentOne cu b sl i (.vec v))

/-- The element of a governed form (11 R241): an active element is `f` of the operands' elements, another the left element unchanged. -/
def laneOf (w : Nat) (f : Nat → Nat → Nat) (c : VCtx) (l r : VWord) (e : Nat) : Nat :=
  if c.active w e then f (elem w e l) (elem w e r) else elem w e l

/-- Whenever it is ready and waits for no older block, an instruction whose element `e` raises the flags `fl e`, of `n`, sends two tokens with the
elements `res`, and its flags stand in the block until commit where none of them is enabled; an enabled one raises an arithmetic fault that names the
enabled flags and the lowest element that raised one (06 R144). -/
def VecFlags (i : Instr) (n : VCtx → Nat) (fl : VCtx → VWord → VWord → Nat → Flags) (res : VCtx → VWord → VWord → VWord → VWord → Prop) : Prop :=
  ∀ s cu b sl l r x, Ready i s cu b sl l r → s.ctxs.get? b.ctx = some x → s.vecWaits x b cu.slot true false = false →
    (enabledIn x.fx.fpst (flagsBelow (n (s.seen b x).vctx) (fl (s.seen b x).vctx l.bits r.bits)) = 0 →
      ∃ lo hi, res (s.seen b x).vctx l.bits r.bits lo hi
        ∧ exec i s = .next (s.sentVec cu b sl i lo hi (flagsBelow (n (s.seen b x).vctx) (fl (s.seen b x).vctx l.bits r.bits)) b.lfsr))
    ∧ (∀ e, e < n (s.seen b x).vctx → enabledIn x.fx.fpst (fl (s.seen b x).vctx l.bits r.bits e) ≠ 0 →
      (∀ k, k < e → enabledIn x.fx.fpst (fl (s.seen b x).vctx l.bits r.bits k) = 0) →
      exec i s = .next (s.raised cu b
        { code := 0x18
          sub := (enabledIn x.fx.fpst (flagsBelow (n (s.seen b x).vctx) (fl (s.seen b x).vctx l.bits r.bits))).setWidth 8
          elem := BitVec.ofNat 10 e
          slot := BitVec.ofNat 7 cu.slot }))

/-- A governed element-wise form with flags. -/
def VecLanes (i : Instr) (w : Nat) (f : Nat → Nat → Nat × Flags) : Prop :=
  VecFlags i (·.n w) (fun c l r e => if c.active w e then (f (elem w e l) (elem w e r)).2 else {})
    fun c l r lo hi => lo = hi ∧ Holds lo w (c.n w) (laneOf w (fun a b => (f a b).1) c l r)

/-- An integer result clamped to its type, with the flag of the clamp (06 R128). -/
def clamped (ty : ElTy) (v : Int) : Nat × Flags :=
  let lo : Int := if ElTy.signed ty then -2 ^ (ElTy.width ty - 1) else 0
  let hi : Int := if ElTy.signed ty then 2 ^ (ElTy.width ty - 1) - 1 else 2 ^ ElTy.width ty - 1
  ((BitVec.ofInt (ElTy.width ty) (max lo (min hi v))).toNat, { sat := decide (v < lo ∨ hi < v) })

/-- The conditions of `cmp` in the order of their codes (04 R106); `none` is the order of operands of which one is a NaN (06 R141). -/
def condTable (o : Option Ordering) : List Bool :=
  [o == some .eq, o != some .eq, o == some .lt, o == some .lt || o == some .eq, o == some .gt, o == some .gt || o == some .eq, o == none, o != none]

/-- The generator after `k` draws, and the draw of the `k`-th active element (06 R136). -/
def afterDraws (lf : BitVec 32) : Nat → BitVec 32
  | 0 => lf
  | k + 1 => (lfsrDraw (afterDraws lf k)).2

/-- The number of active elements below `e`. -/
def activeBelow (act : Nat → Bool) (e : Nat) : Nat := (List.range e).countP act

/-- Whenever it is ready, waits for nothing and no flag is enabled, an instruction rounded by `rs` draws once for each of its active elements, in ascending
order, and sends a token that keeps `res` with the draw of each element (06 R136, R137). -/
def VecRs (i : Instr) (n : VCtx → Nat) (act : VCtx → Nat → Bool) (res : VCtx → VWord → VWord → (Nat → Nat) → VWord → Prop) : Prop :=
  ∀ s cu b sl l r x, Ready i s cu b sl l r → s.ctxs.get? b.ctx = some x → s.vecWaits x b cu.slot true true = false →
    x.fx.fpst.extractLsb' 8 5 = 0 →
      let lf := b.lfsr.getD x.fx.lfsr
      ∃ v fl, res (s.seen b x).vctx l.bits r.bits (fun e => (lfsrDraw (afterDraws lf (activeBelow (act (s.seen b x).vctx) e))).1) v
        ∧ exec i s = .next (s.sentVec cu b sl i v v fl (some (afterDraws lf (activeBelow (act (s.seen b x).vctx) (n (s.seen b x).vctx)))))

/-- The same for a form whose result is element by element. -/
def VecDraws (i : Instr) (w : Nat) (n : VCtx → Nat) (act : VCtx → Nat → Bool) (f : VCtx → VWord → VWord → (Nat → Nat) → Nat → Nat) : Prop :=
  VecRs i n act fun c l r q v => Holds v w (n c) (f c l r q)

/-- Whenever it is ready, waits for nothing and no flag is enabled, an instruction sends one token of which `res` holds, with some flags. -/
def VecSome (i : Instr) (res : VCtx → VWord → VWord → VWord → Prop) : Prop :=
  ∀ s cu b sl l r x, Ready i s cu b sl l r → s.ctxs.get? b.ctx = some x → s.vecWaits x b cu.slot true false = false →
    x.fx.fpst.extractLsb' 8 5 = 0 →
      ∃ v fl, res (s.seen b x).vctx l.bits r.bits v ∧ exec i s = .next (s.sentVec cu b sl i v v fl b.lfsr)

/-- Whether a value is a NaN or an infinity. -/
def notFinite : Xv → Bool
  | .fin _ _ _ => false
  | .nan | .inf _ => true

/-- The largest exponent of 32 values (06 R133): floor(log2) of the largest magnitude; none where every one is zero. -/
def blockLead (x : Nat → Xv) : Option Int := ((List.range 32).filterMap fun i => leadExp (x i)).max?

/-- The exponent of a block (06 R133), of `mx4` where `m` holds, else of `mx8`. -/
def blockExp (m : Bool) (lead : Int) : Int := max (-127) (min 127 (lead - if m then 2 else 8))

/-- The scale byte of a block of 32 values (06 R133). -/
def blockScale (m : Bool) (x : Nat → Xv) : Nat :=
  if (List.range 32).any fun i => notFinite (x i) then 255
  else match blockLead x with
    | none => 127
    | some lead => (blockExp m lead + 127).toNat

/-- Element `i` of a block of 32 values and its flags (06 R133): the mode and the draw are of the element. -/
def blockElem (m : Bool) (mode : RMode) (q : Nat) (x : Nat → Xv) (i : Nat) : Nat × Flags :=
  if (List.range 32).any fun i => notFinite (x i) then
    (0, if notFinite (x i) && (List.range i).all (fun j => !notFinite (x j)) then { nv := true } else {})
  else match blockLead x with
    | none => (0, {})
    | some lead =>
      let r := roundTo ((ElTy.ffmt (if m then .e2m1 else .e4m3)).getD f32Fmt) { mode := mode, sat := true, q := q } ((x i).scale (-blockExp m lead))
      (r.1, { nx := r.2.nx, uf := r.2.uf })

/-- A register of blocks (06 R132): the scale and the elements of every block of its beats, by the number of the block. -/
def MxHolds (v : VWord) (m : Bool) (beats : Nat) (scale : Nat → Nat) (el : Nat → Nat → Nat) : Prop :=
  ∀ bt k, bt < beats → bt < 4 → k < (if m then 7 else 3) →
    elem 8 (128 * bt + (if m then 112 else 96) + k) v = scale ((if m then 7 else 3) * bt + k)
      ∧ ∀ i, i < 32 →
        elem (if m then 4 else 8) ((if m then 256 else 128) * bt + 32 * k + i) v = el ((if m then 7 else 3) * bt + k) i

/-- The pairwise tree of a reduction (06 R149): entry `j` of level `k` combines entries `2j` and `2j + 1` of the level below. -/
def treeOf (f : Nat → Nat → Nat) (x : Nat → Nat) : Nat → Nat → Nat
  | 0, j => x j
  | k + 1, j => f (treeOf f x k (2 * j)) (treeOf f x k (2 * j + 1))

/-- The running values of one beat after the steps of distances 1, 2, ..., 2^(k-1) (06 R150). -/
def scanOf (f : Nat → Nat → Nat) (x : Nat → Nat) : Nat → Nat → Nat
  | 0, j => x j
  | k + 1, j => if j < 2 ^ k then scanOf f x k j else f (scanOf f x k (j - 2 ^ k)) (scanOf f x k j)

/-- The carry into beat `b` of a scan with `2^k` elements a beat (06 R150). -/
def carryOf (f : Nat → Nat → Nat) (x : Nat → Nat) (k id : Nat) : Nat → Nat
  | 0 => id
  | b + 1 => f (carryOf f x k id b) (scanOf f (fun j => x (2 ^ k * b + j)) k (2 ^ k - 1))

/-- The element that enters a reduction or a scan: the identity where inactive (06 R148, 11 R254). -/
def enters (ty : ElTy) (id : Nat) (c : VCtx) (l : VWord) (e : Nat) : Nat :=
  if e < c.n (ElTy.width ty) ∧ c.active (ElTy.width ty) e = true then elem (ElTy.width ty) e l else id

/-- log2 of the number of elements in a beat (06 R148). -/
def beatLog (ty : ElTy) : Nat := if ElTy.width ty = 32 then 5 else if ElTy.width ty = 16 then 6 else 7

/-- The identity of `sum`, `min`, `max`, `and`, `or` and `xor` in the order of their codes (06 R148). -/
def identities (ty : ElTy) : List Nat :=
  match ty with
  | .f32 => [0x80000000, 0x7F800000, 0xFF800000]
  | .f16 => [0x8000, 0x7C00, 0xFC00]
  | .bf16 => [0x8000, 0x7F80, 0xFF80]
  | .s8 | .s16 | .s32 => [0, 2 ^ (ElTy.width ty - 1) - 1, 2 ^ (ElTy.width ty - 1), 2 ^ ElTy.width ty - 1, 0, 0]
  | .n8 | .n16 | .n32 => [0, 2 ^ ElTy.width ty - 1, 0, 2 ^ ElTy.width ty - 1, 0, 0]
  | .e4m3 | .e5m2 | .e2m1 | .mx8 | .mx4 => []

/-- The combine step of `sum`, `min`, `max`, `and`, `or` and `xor` (06 R128, R140, R148). -/
def combineOf (ty : ElTy) (md : Bool) (op : Nat) (a b : Nat) : Nat :=
  match ElTy.ffmt ty with
  | some f => (fltBin (([.add, .min, .max] : List BinOp).getD op .add) f md a b).1
  | none =>
    let w := ElTy.width ty
    [if md then (clamped ty (laneInt ty a + laneInt ty b)).1 else (a + b) % 2 ^ w,
      if laneInt ty a ≤ laneInt ty b then a else b,
      if laneInt ty a ≤ laneInt ty b then b else a,
      a &&& b, a ||| b, a ^^^ b].getD op 0

/-- How a step of a fence that ends one kernel leaves it, from the state `u` in which it ends (16 R371, R372): while its completion word has to wait, it stays
as it is; else it is complete with status 1 once its word is written, where that write is plain memory and meets no error. -/
def FenceEnds (u : State) (kk : KernKey) (k : Kern) (out : Out State) : Prop :=
  ((u.doneWaits kk k).1 = true → ∃ t, out = .next t ∧ (t.part kk.pk).ending = [(kk.lq, kk.seq)] ∧ t.kerns = u.kerns ∧ t.mem = u.mem)
    ∧ ∀ v, (u.doneWaits kk k).1 = false →
      v = ((u.updKern kk fun k => { k with st := .complete, status := 1, ended := true }).promoteAll kk k).unpinCode kk k →
      (v.putDone kk k 1).kerns = v.kerns → (v.putDone kk k 1).parts = v.parts →
      ∃ t k', out = .next t ∧ t.kerns.get? kk = some k' ∧ k'.st = .complete ∧ k'.status = 1 ∧ k'.ended = true ∧ (t.part kk.pk).ending = []
        ∧ (t.part kk.pk).fseq = (u.part kk.pk).fseq ∧ (t.part kk.pk).fenceReq = (u.part kk.pk).fenceReq
        ∧ (t.part kk.pk).fencing = (u.part kk.pk).fencing ∧ t.mem = (v.putDone kk k 1).mem

/-- A mailbox command is refused with a reason: its mailbox ends in state 3 and reports, and nothing else changes (23 R481, R487). -/
def MbRefuses (i : Instr) (s : State) (k why : Nat) : Prop :=
  ∃ t, exec i s = .next t
    ∧ t.pkg k = { s.pkg k with mbState := 3, mbWhy := BitVec.ofNat 8 why, reports := (s.pkg k).reports ++ [.done] }
    ∧ (∀ j, j ≠ k → t.pkg j = s.pkg j) ∧ t.parts = s.parts ∧ t.groups = s.groups ∧ t.ctxs = s.ctxs ∧ t.banks = s.banks ∧ t.shoots = s.shoots
    ∧ t.queues = s.queues ∧ t.mem = s.mem

end Sys2Proof.Machine
end

