-- ==== Sys2Proof/Certificates/Slice0/Obligations.lean ====
section
/-!
DEFINITION. The statements for the provers.
-/

open Sys2Proof Sys2Proof.Machine

/-- A ready `add`, `sub`, `mul`, `mulh.s64`, `mulh.n64`, `neg`, `abs`, `min.s64`, `max.s64`, `min.n64` or `max.n64` issues and sends to each target the
result that R200 gives, modulo 2^64; `add` and `sub` keep the handle of the left operand where the right has none (R208). Only its block changes. -/
def Obligations.IntegerArithmeticResults : Prop :=
  ∀ g : FmtG,
    (Sends (.add g) fun l r => .ctl (BitVec.ofNat 64 (l.val.toNat + r.val.toNat)) (if r.handle = none then l.handle else none) 8)
    ∧ (Sends (.sub g) fun l r => .ctl (BitVec.ofInt 64 (l.val.toInt - r.val.toInt)) (if r.handle = none then l.handle else none) 8)
    ∧ (SendsValue (.mul g) fun l r => BitVec.ofInt 64 (l.toInt * r.toInt))
    ∧ (SendsValue (.mulhS64 g) fun l r => BitVec.ofInt 64 (l.toInt * r.toInt / 2 ^ 64))
    ∧ (SendsValue (.mulhN64 g) fun l r => BitVec.ofNat 64 (l.toNat * r.toNat / 2 ^ 64))
    ∧ (SendsValue (.neg g) fun l _ => BitVec.ofInt 64 (-l.toInt))
    ∧ (SendsValue (.abs g) fun l _ => BitVec.ofNat 64 l.toInt.natAbs)
    ∧ (SendsValue (.minS64 g) fun l r => BitVec.ofInt 64 (min l.toInt r.toInt))
    ∧ (SendsValue (.maxS64 g) fun l r => BitVec.ofInt 64 (max l.toInt r.toInt))
    ∧ (SendsValue (.minN64 g) fun l r => BitVec.ofNat 64 (min l.toNat r.toNat))
    ∧ (SendsValue (.maxN64 g) fun l r => BitVec.ofNat 64 (max l.toNat r.toNat))

/-- A ready division or remainder issues and sends to each target the result of R201, with its values for a zero divisor and for the one quotient that
overflows; no operands make it fault. -/
def Obligations.DivisionResults : Prop :=
  ∀ g : FmtG,
    (SendsValue (.divS64 g) fun l r => if r = 0 then -1 else BitVec.ofInt 64 (l.toInt.tdiv r.toInt))
    ∧ (SendsValue (.remS64 g) fun l r => if r = 0 then l else BitVec.ofInt 64 (l.toInt - l.toInt.tdiv r.toInt * r.toInt))
    ∧ (SendsValue (.divN64 g) fun l r => if r = 0 then BitVec.ofNat 64 (2 ^ 64 - 1) else BitVec.ofNat 64 (l.toNat / r.toNat))
    ∧ (SendsValue (.remN64 g) fun l r => if r = 0 then l else BitVec.ofNat 64 (l.toNat % r.toNat))

/-- A ready logic, bit-count, byte-reversal or extension instruction issues and sends to each target the result that the table of R202 gives. -/
def Obligations.LogicAndBitCountResults : Prop :=
  ∀ g : FmtG,
    (SendsValue (.and g) fun l r => l &&& r)
    ∧ (SendsValue (.or g) fun l r => l ||| r)
    ∧ (SendsValue (.xor g) fun l r => l ^^^ r)
    ∧ (SendsValue (.andn g) fun l r => l &&& ~~~r)
    ∧ (SendsValue (.not g) fun l _ => ~~~l)
    ∧ (SendsValue (.popc g) fun l _ => BitVec.ofNat 64 ((List.range 64).countP fun n => l.getLsbD n))
    ∧ (SendsValue (.clz g) fun l _ => BitVec.ofNat 64 ((List.range 64).findIdx fun n => l.getLsbD (63 - n)))
    ∧ (SendsValue (.ctz g) fun l _ => BitVec.ofNat 64 ((List.range 64).findIdx fun n => l.getLsbD n))
    ∧ (SendsValue (.bswap g) fun l _ =>
        l.extractLsb' 0 8 ++ l.extractLsb' 8 8 ++ l.extractLsb' 16 8 ++ l.extractLsb' 24 8 ++ l.extractLsb' 32 8
          ++ l.extractLsb' 40 8 ++ l.extractLsb' 48 8 ++ l.extractLsb' 56 8)
    ∧ (SendsValue (.sextS8 g) fun l _ => BitVec.ofInt 64 (l.extractLsb' 0 8).toInt)
    ∧ (SendsValue (.sextS16 g) fun l _ => BitVec.ofInt 64 (l.extractLsb' 0 16).toInt)
    ∧ (SendsValue (.sextS32 g) fun l _ => BitVec.ofInt 64 (l.extractLsb' 0 32).toInt)
    ∧ (SendsValue (.zextN8 g) fun l _ => BitVec.ofNat 64 (l.toNat % 2 ^ 8))
    ∧ (SendsValue (.zextN16 g) fun l _ => BitVec.ofNat 64 (l.toNat % 2 ^ 16))
    ∧ (SendsValue (.zextN32 g) fun l _ => BitVec.ofNat 64 (l.toNat % 2 ^ 32))

/-- A ready `shl`, `shr`, `sar`, `rol` or `ror` issues and sends to each target the result of R203; an amount of 64 or more gives zeros or copies of the
sign, and rotates take it modulo 64. -/
def Obligations.ShiftResults : Prop :=
  ∀ g : FmtG,
    (SendsValue (.shl g) fun l r => if 64 ≤ r.toNat then 0 else BitVec.ofNat 64 (l.toNat * 2 ^ r.toNat))
    ∧ (SendsValue (.shr g) fun l r => if 64 ≤ r.toNat then 0 else BitVec.ofNat 64 (l.toNat / 2 ^ r.toNat))
    ∧ (SendsValue (.sar g) fun l r =>
        if 64 ≤ r.toNat then (if l.getLsbD 63 then BitVec.ofNat 64 (2 ^ 64 - 1) else 0)
        else BitVec.ofInt 64 (l.toInt / 2 ^ r.toNat))
    ∧ (SendsValue (.rol g) fun l r => l <<< (r.toNat % 64) ||| l >>> (64 - r.toNat % 64))
    ∧ (SendsValue (.ror g) fun l r => l >>> (r.toNat % 64) ||| l <<< (64 - r.toNat % 64))

/-- A ready test issues and sends 1 to each target where the condition of R204 holds and 0 where it does not. -/
def Obligations.TestResults : Prop :=
  ∀ g : FmtG,
    (SendsTest (.teq g) fun l r => l = r)
    ∧ (SendsTest (.tne g) fun l r => l ≠ r)
    ∧ (SendsTest (.tltS64 g) fun l r => l.toInt < r.toInt)
    ∧ (SendsTest (.tleS64 g) fun l r => l.toInt ≤ r.toInt)
    ∧ (SendsTest (.tgtS64 g) fun l r => l.toInt > r.toInt)
    ∧ (SendsTest (.tgeS64 g) fun l r => l.toInt ≥ r.toInt)
    ∧ (SendsTest (.tltN64 g) fun l r => l.toNat < r.toNat)
    ∧ (SendsTest (.tleN64 g) fun l r => l.toNat ≤ r.toNat)
    ∧ (SendsTest (.tgtN64 g) fun l r => l.toNat > r.toNat)
    ∧ (SendsTest (.tgeN64 g) fun l r => l.toNat ≥ r.toNat)
    ∧ (SendsTest (.tbit g) fun l r => r.toNat < 64 ∧ l.getLsbD r.toNat = true)
    ∧ (SendsTest (.tz g) fun l _ => l = 0)
    ∧ (SendsTest (.tnz g) fun l _ => l ≠ 0)

/-- A ready immediate form issues and sends to its target the result of its register form with the right operand replaced by the immediate: sign-extended
for `addi`, `teqi`, `tnei`, `tlti` and `tgei`, zero-extended for the others. `addi` keeps the handle of its operand. -/
def Obligations.ImmediateFormResults : Prop :=
  ∀ f : FmtI,
    (Sends (.addi f) fun l _ => .ctl (BitVec.ofInt 64 (l.val.toInt + f.imm.toInt)) l.handle 8)
    ∧ (SendsValue (.andi f) fun l _ => l &&& f.imm.setWidth 64)
    ∧ (SendsValue (.ori f) fun l _ => l ||| f.imm.setWidth 64)
    ∧ (SendsValue (.xori f) fun l _ => l ^^^ f.imm.setWidth 64)
    ∧ (SendsTest (.teqi f) fun l _ => l.toInt = f.imm.toInt)
    ∧ (SendsTest (.tnei f) fun l _ => l.toInt ≠ f.imm.toInt)
    ∧ (SendsTest (.tlti f) fun l _ => l.toInt < f.imm.toInt)
    ∧ (SendsTest (.tgei f) fun l _ => l.toInt ≥ f.imm.toInt)
    ∧ (SendsTest (.tltui f) fun l _ => l.toNat < f.imm.toNat)
    ∧ (SendsTest (.tgeui f) fun l _ => l.toNat ≥ f.imm.toNat)
    ∧ (f.imm.toNat < 64 →
        (SendsValue (.shli f) fun l _ => BitVec.ofNat 64 (l.toNat * 2 ^ f.imm.toNat))
        ∧ (SendsValue (.shri f) fun l _ => BitVec.ofNat 64 (l.toNat / 2 ^ f.imm.toNat))
        ∧ (SendsValue (.sari f) fun l _ => BitVec.ofInt 64 (l.toInt / 2 ^ f.imm.toNat)))

/-- A ready `const`, `constx`, `mov`, `null`, their data-plane spellings, `lea`, `wsplit` or `wjoin` issues and sends to each target the token of R194,
R195, R198, R207, R209 and R210: `mov` passes the token with all its attributes, `lea` keeps the left handle where the right operand has none (R208),
and the converters keep value and handle and set the event width. -/
def Obligations.AddressAndTokenForms : Prop :=
  (∀ imm t1, SendsValue (.const imm t1) fun _ _ => BitVec.ofInt 64 imm.toInt)
    ∧ (∀ imm t1, SendsValue (.constx imm t1) fun l _ => l <<< 16 ||| imm.setWidth 64)
    ∧ ∀ g : FmtG,
      (Sends (.mov g) fun l _ => l)
      ∧ (Sends (.movV g) fun l _ => l)
      ∧ (Sends (.null g) fun _ _ => .null)
      ∧ (Sends (.nullV g) fun _ _ => .null)
      ∧ (Sends (.leaX1 g) fun l r => .ctl (BitVec.ofNat 64 (l.val.toNat + r.val.toNat)) (if r.handle = none then l.handle else none) 8)
      ∧ (Sends (.leaX2 g) fun l r => .ctl (BitVec.ofNat 64 (l.val.toNat + 2 * r.val.toNat)) (if r.handle = none then l.handle else none) 8)
      ∧ (Sends (.leaX4 g) fun l r => .ctl (BitVec.ofNat 64 (l.val.toNat + 4 * r.val.toNat)) (if r.handle = none then l.handle else none) 8)
      ∧ (Sends (.leaX8 g) fun l r => .ctl (BitVec.ofNat 64 (l.val.toNat + 8 * r.val.toNat)) (if r.handle = none then l.handle else none) 8)
      ∧ (Sends (.wsplitB8 g) fun l _ => .ctl l.val l.handle 1)
      ∧ (Sends (.wsplitB16 g) fun l _ => .ctl l.val l.handle 2)
      ∧ (Sends (.wsplitB32 g) fun l _ => .ctl l.val l.handle 4)
      ∧ (Sends (.wjoinB8 g) fun l _ => .ctl l.val l.handle 1)
      ∧ (Sends (.wjoinB16 g) fun l _ => .ctl l.val l.handle 2)
      ∧ (Sends (.wjoinB32 g) fun l _ => .ctl l.val l.handle 4)

/-- A `read` in a block of an access kind sends `g0` as 0 without a handle, `g1` to `g63` with the handle they hold, a predicate register as 0 or 1, or an
access shape register; in a block of an execute kind a vector, mask, delay-line or shape register, or the next element of a bound inlet, which it
takes. That is where no older block in flight would still change the register (R77): where one block older names a general register and its write has
arrived, the read gives the token that was written; where an older block names it and its write has not arrived, nothing changes. -/
def Obligations.ReadReturnsRegister : Prop :=
  ∀ s cu b sl x reg t2 t1, InSlot s cu b sl → s.ctxs.get? b.ctx = some x →
    (b.hdr.kind = 1 → reg.toNat < 64 → (∀ e ∈ s.older b, e.2.hdr.rwmask.getLsbD reg.toNat = false) →
      exec (.read reg t2 t1) s = .next (s.sentOne cu b sl (.read reg t2 t1)
        (if reg.toNat = 0 then .ctl 0 none 8 else .ctl (vecGet x.regs.g reg.toNat 0) (vecGet x.regs.gh reg.toNat none) 8)))
    ∧ (b.hdr.kind = 1 → 64 ≤ reg.toNat → reg.toNat < 72 → (∀ e ∈ s.older b, e.2.hdr.pwmask.getLsbD (reg.toNat - 64) = false) →
      exec (.read reg t2 t1) s = .next (s.sentOne cu b sl (.read reg t2 t1) (.ctl (if x.regs.p.getLsbD (reg.toNat - 64) then 1 else 0) none 8)))
    ∧ (b.hdr.kind = 1 → 72 ≤ reg.toNat → reg.toNat < 80 → (∀ e ∈ s.older b, e.2.steps (reg.toNat - 72) = false) →
      exec (.read reg t2 t1) s = .next (s.sentOne cu b sl (.read reg t2 t1) (.ctl (vecGet x.regs.shA (reg.toNat - 72) 0) none 8)))
    ∧ (b.hdr.kind ≠ 1 → reg.toNat < 32 → (∀ e ∈ s.older b, e.2.hdr.rwmask.getLsbD reg.toNat = false) →
      exec (.read reg t2 t1) s = .next (s.sentOne cu b sl (.read reg t2 t1) (.vec (vecGet x.regs.v reg.toNat 0))))
    ∧ (b.hdr.kind ≠ 1 → 32 ≤ reg.toNat → reg.toNat < 40 → (∀ e ∈ s.older b, e.2.hdr.pwmask.getLsbD (reg.toNat - 32) = false) →
      exec (.read reg t2 t1) s = .next (s.sentOne cu b sl (.read reg t2 t1) (.vec (ofMask (vecGet x.regs.m (reg.toNat - 32) 0)))))
    ∧ (b.hdr.kind ≠ 1 → 40 ≤ reg.toNat → reg.toNat < 48 → (∀ e ∈ s.older b, e.2.hdr.rwmask.getLsbD (reg.toNat - 8) = false) →
      exec (.read reg t2 t1) s = .next (s.sentOne cu b sl (.read reg t2 t1) (.vec (vecGet x.regs.dl (reg.toNat - 40) 0))))
    ∧ (b.hdr.kind ≠ 1 → 48 ≤ reg.toNat → reg.toNat < 56 → (∀ e ∈ s.older b, e.2.steps (reg.toNat - 48) = false) →
      exec (.read reg t2 t1) s = .next (s.sentOne cu b sl (.read reg t2 t1) (.ctl (vecGet x.regs.shE (reg.toNat - 48) 0) none 8)))
    ∧ (∀ bd p el, b.hdr.kind ≠ 1 → 64 ≤ reg.toNat → reg.toNat < 96 → x.inlet (reg.toNat - 64) = some bd →
      (s.queue (objKey x.pk bd.queue)).plane = decide (sl.plane = .dat) →
      s.inletPos b (reg.toNat - 64) (objKey x.pk bd.queue) cu.slot 0 true = some p →
      (s.queue (objKey x.pk bd.queue)).availAt p = .elem el →
      exec (.read reg t2 t1) s = .next (s.sentTaking cu b sl (.read reg t2 t1) (elemTok (sl.plane = .dat) el)
        [.part (objKey x.pk bd.queue)]))
    ∧ (∀ e w, b.hdr.kind = 1 → 0 < reg.toNat → reg.toNat < 64 → s.older b = [e] → e.2.hdr.kind = 1 → e.2.hdr.rwmask.getLsbD reg.toNat = true →
      e.2.regs = [(reg.toNat, some w)] →
      exec (.read reg t2 t1) s = .next (s.sentOne cu b sl (.read reg t2 t1) (.ctl w.val w.handle 8)))
    ∧ (∀ e ∈ s.older b, b.hdr.kind = 1 → reg.toNat < 64 → e.2.hdr.rwmask.getLsbD reg.toNat = true → (∀ w ∈ e.2.regs, w.1 ≠ reg.toNat) →
      exec (.read reg t2 t1) s = .next s)

/-- A ready `write` of a register that its block has not completed completes it with its token; where the block has completed it already, the `write`
raises a token collision (0x05) at its slot. -/
def Obligations.WriteCompletesRegister : Prop :=
  ∀ s cu b sl l r p reg, Ready (.write p reg) s cu b sl l r →
    ((∀ e ∈ b.regs, e.1 ≠ reg.toNat) →
      exec (.write p reg) s = .next (s.setBlk cu.frame { b.fin cu.slot with regs := b.regs ++ [(reg.toNat, some l)] }))
    ∧ ((∃ e ∈ b.regs, e.1 = reg.toNat) →
      exec (.write p reg) s = .next (s.raised cu b { code := 0x05, slot := BitVec.ofNat 7 cu.slot }))

/-- A ready branch-class instruction of a block without a branch becomes the block's branch, with the successor or the effect that R213, R308, R313, R398
or R400 gives it. `bar.wait` and `sig.wait` do so where their tokens raise no barrier fault (R392), a call where the return stack of its oldest block
holds fewer than 16 entries and a return where it holds one. A call that issues in the oldest block at depth 16 raises cause 0x08 at its slot, and a
return at depth 0 cause 0x09 (R216, R217). -/
def Obligations.BranchesIssue : Prop :=
  (∀ f : FmtB,
      Branches (.br f) f.exit (fun _ _ _ _ _ => True) (fun b _ _ => .jump (offsetFrom b f.off))
      ∧ Branches (.call f) f.exit
          (fun s b x _ _ => (s.isOldest b = true → (x.lane b.u).depth < 16) ∧ ∀ e, s.oldest b.ctx b.u = some e → e.2.stackFault (x.lane b.u) = none)
          (fun b _ _ => .call (offsetFrom b f.off))
      ∧ Branches (.yield f) f.exit (fun _ _ _ _ _ => True) (fun b _ _ => .wait .yield (offsetFrom b f.off))
      ∧ Branches (.idle f) f.exit (fun _ _ _ _ _ => True) (fun b _ _ => .wait .idle (offsetFrom b f.off))
      ∧ Branches (.barWait f) f.exit
          (fun s b x l r => barTokOk l.val = true ∧ fld r.val 0 4 = 0 ∧ s.barSub x b.ctx (decide (b.hdr.kind = 1)) l.val none = 0)
          (fun b l r => .wait (.bar l.val r.val) (offsetFrom b f.off))
      ∧ Branches (.sigWait f) f.exit (fun s _ x l _ => s.sigSub x l.val = 0) (fun b l r => .wait (.sig l.val r.val) (offsetFrom b f.off)))
    ∧ (∀ p exit,
      Branches (.brr p exit) exit (fun _ _ _ _ _ => True) (fun _ l _ => .jump l.val)
      ∧ Branches (.callr p exit) exit
          (fun s b x _ _ => (s.isOldest b = true → (x.lane b.u).depth < 16) ∧ ∀ e, s.oldest b.ctx b.u = some e → e.2.stackFault (x.lane b.u) = none)
          (fun _ l _ => .call l.val)
      ∧ Branches (.ret p exit) exit
          (fun s b x _ _ => (s.isOldest b = true → (x.lane b.u).depth ≠ 0) ∧ ∀ e, s.oldest b.ctx b.u = some e → e.2.stackFault (x.lane b.u) = none)
          (fun _ l _ => .ret l.val))
    ∧ (∀ p code,
      Branches (.trap p code) 0 (fun _ _ _ _ _ => True) (fun _ _ _ => .trap code)
      ∧ Branches (.svc p code) 0 (fun _ _ _ _ _ => True) (fun _ _ _ => .svc code))
    ∧ (∀ p, Branches (.rfe p) 0 (fun _ _ _ _ _ => True) (fun _ _ _ => .rfe))
    ∧ ∀ s cu b sl l r x, s.oldest b.ctx b.u = some (cu.frame, b) → s.ctxs.get? b.ctx = some x → b.branch = none →
      (∀ (f : FmtB) p exit, 16 ≤ (x.lane b.u).depth → (∀ e ∈ b.faults, e.code ≠ 0x08) →
        ∀ q ∈ [(Instr.call f, f.exit, offsetFrom b f.off), (.callr p exit, exit, l.val)], Ready q.1 s cu b sl l r →
          exec q.1 s = .next (s.setBlk cu.frame { b.fin cu.slot with
            branch := some ⟨q.2.1, .call q.2.2⟩, brSlot := cu.slot, faults := b.faults ++ [{ code := 0x08, slot := BitVec.ofNat 7 cu.slot }] }))
      ∧ (∀ p exit, (x.lane b.u).depth = 0 → (∀ e ∈ b.faults, e.code ≠ 0x09) → Ready (.ret p exit) s cu b sl l r →
          exec (.ret p exit) s = .next (s.setBlk cu.frame { b.fin cu.slot with
            branch := some ⟨exit, .ret l.val⟩, brSlot := cu.slot, faults := b.faults ++ [{ code := 0x09, slot := BitVec.ofNat 7 cu.slot }] }))

/-- A ready `brk` in a block without a branch raises cause 0x22 with its code and its slot, which the block holds. A ready branch in a block that has a
branch raises the multiple-exit fault (0x06). -/
def Obligations.BreakAndSecondBranchFault : Prop :=
  (∀ p code, Raises (.brk p code) (fun _ b _ _ _ => b.branch = none) 0x22 0 code)
    ∧ (∀ p code, Raises (.brk p code) (fun _ b _ _ _ => b.branch.isSome = true) 0x06 0 0)
    ∧ ∀ (f : FmtB) (p : Pred) (exit : BitVec 3) (code : BitVec 9),
      Raises (.br f) (fun _ b _ _ _ => b.branch.isSome = true) 0x06 0 0
      ∧ Raises (.call f) (fun _ b _ _ _ => b.branch.isSome = true) 0x06 0 0
      ∧ Raises (.yield f) (fun _ b _ _ _ => b.branch.isSome = true) 0x06 0 0
      ∧ Raises (.idle f) (fun _ b _ _ _ => b.branch.isSome = true) 0x06 0 0
      ∧ Raises (.brr p exit) (fun _ b _ _ _ => b.branch.isSome = true) 0x06 0 0
      ∧ Raises (.callr p exit) (fun _ b _ _ _ => b.branch.isSome = true) 0x06 0 0
      ∧ Raises (.ret p exit) (fun _ b _ _ _ => b.branch.isSome = true) 0x06 0 0
      ∧ Raises (.trap p code) (fun _ b _ _ _ => b.branch.isSome = true) 0x06 0 0
      ∧ Raises (.svc p code) (fun _ b _ _ _ => b.branch.isSome = true) 0x06 0 0
      ∧ Raises (.rfe p) (fun _ b _ _ _ => b.branch.isSome = true) 0x06 0 0

/-- An unpredicated `add` whose operands have arrived sends a null token to each target if either is null; otherwise it sends on the fault token of its
left operand if that is one, else of its right operand. The same holds for every two-operand arithmetic, logic, shift, test and address form. -/
def Obligations.NullAndFaultTokens : Prop :=
  ∀ (g : FmtG) (s : State) (cu : Cur) (b : Blk) (sl : Slot) (l r : Tok), InSlot s cu b sl → sl.l = some l → sl.r = some r → g.p = .always →
    ∀ i ∈ [Instr.add g, .sub g, .mul g, .mulhS64 g, .mulhN64 g, .divS64 g, .divN64 g, .remS64 g, .remN64 g, .minS64 g, .maxS64 g, .minN64 g,
        .maxN64 g, .and g, .or g, .xor g, .andn g, .shl g, .shr g, .sar g, .rol g, .ror g, .teq g, .tne g, .tltS64 g, .tleS64 g, .tgtS64 g,
        .tgeS64 g, .tltN64 g, .tleN64 g, .tgtN64 g, .tgeN64 g, .tbit g, .leaX1 g, .leaX2 g, .leaX4 g, .leaX8 g],
      ((l.isNull = true ∨ r.isNull = true) → exec i s = .next (s.sent cu b sl i .null .null))
      ∧ (l.isNull = false → r.isNull = false → l.isFault = true → exec i s = .next (s.sent cu b sl i l l))
      ∧ (l.isNull = false → r.isNull = false → l.isFault = false → r.isFault = true → exec i s = .next (s.sent cu b sl i r r))

/-- A token of a control slot sent to an empty operand of a control slot stands there afterwards, and quenches the instruction exactly where it is a
predicate that does not fire; every other slot keeps its contents. A token sent to an operand that holds one raises a token collision (0x05) at the
consumer's slot and changes no operand. A target of kind 00 receives nothing. -/
def Obligations.DeliveryAndCollision : Prop :=
  ∀ (b : Blk) (src dst : Slot) (t : Tok) (tg : Tgt), b.slots[tg.slot.toNat]? = some dst → src.plane = .ctl → dst.plane = .ctl →
    (tg.kind = .none → b.send src t tg = b)
    ∧ (tg.kind ≠ .none → (dst.operand tg.kind).isSome = true →
        (b.send src t tg).slots = b.slots ∧ (b.send src t tg).faults = b.faults ++ [{ code := 0x05, slot := tg.slot }])
    ∧ (tg.kind ≠ .none → dst.operand tg.kind = none →
        (b.send src t tg).faults = b.faults
        ∧ (∀ n, n ≠ tg.slot.toNat → (b.send src t tg).slots[n]? = b.slots[n]?)
        ∧ ∃ d, (b.send src t tg).slots[tg.slot.toNat]? = some d ∧ d.operand tg.kind = some t ∧ d.word = dst.word
          ∧ (d.st = if tg.kind = .pred ∧ dst.st = .waiting ∧ quenches dst.pred t then .quenched else dst.st))

/-- A ready load forms the address l + disp times its size (L2 forms: l). Where every check of R221 passes, its slot stands outstanding until
LOAD_PERFORM; where a check fails and no page is to be pulled, the block holds the fault of that check with the effective address and the slot. -/
def Obligations.LoadsCheckAndStandOutstanding : Prop :=
  ∀ (f : FmtL) (f2 : FmtL2),
    ∀ p ∈ ([(Instr.ldN8 f, 1, f.disp), (.ldS8 f, 1, f.disp), (.ldN16 f, 2, f.disp), (.ldS16 f, 2, f.disp), (.ldN32 f, 4, f.disp), (.ldS32 f, 4, f.disp),
        (.ldB64 f, 8, f.disp), (.ldN82t f2, 1, 0#9), (.ldS82t f2, 1, 0#9), (.ldN162t f2, 2, 0#9), (.ldS162t f2, 2, 0#9), (.ldN322t f2, 4, 0#9),
        (.ldS322t f2, 4, 0#9), (.ldB642t f2, 8, 0#9)] : List (Instr × Nat × BitVec 9)),
      ∀ s cu b sl l r x s', Ready p.1 s cu b sl l r → s.ctxs.get? b.ctx = some x →
        (∀ ps, s.access (b.who x) (l.val + BitVec.ofInt 64 (p.2.2.toInt * p.2.1)) p.2.1 l.ew true false true (b.handleOf x l) = (.ok ps, s') →
          (s'.blks.get? cu.frame).isSome = true →
          exec p.1 s = .next (s'.setBlk cu.frame ((b.sawPages ps).updSlot cu.slot fun sl => { sl with st := .out })))
        ∧ (∀ e, s.access (b.who x) (l.val + BitVec.ofInt 64 (p.2.2.toInt * p.2.1)) p.2.1 l.ew true false true (b.handleOf x l) = (.error e, s') →
          e.pull = none →
          exec p.1 s = .next (s'.raised cu b
            { code := e.code
              faddr := l.val + BitVec.ofInt 64 (p.2.2.toInt * p.2.1)
              step := BitVec.ofNat 3 e.step
              sub := BitVec.ofNat 8 e.sub
              slot := BitVec.ofNat 7 cu.slot }))

/-- An outstanding load whose conditions of R228 hold and whose bytes pass their checks sends to its targets the bytes it reads, the lowest address the
least significant, zero- or sign-extended as its form says, with no handle and event width 8. Each act performs the next of its events, the last of
which delivers; an event whose bytes pass keeps them in the slot. Each byte comes from the last store of its own thread or block that covers it, else
from memory. -/
def Obligations.LoadPerformDeliversBytes : Prop :=
  ∀ s cu b sl x i id l a ps s' p u got, s.site = .slot cu → s.blks.get? cu.frame = some b → b.slots[cu.slot]? = some sl → sl.st = .out →
    s.ctxs.get? b.ctx = some x → decode sl.plane sl.word = .ok i → (info i).id = some id → loadSpec i = some l → sl.l = some a →
    s.access (b.who x) (l.ea a.val) l.size a.ew true false true (b.handleOf x a) = (.ok ps, s') → (s'.blks.get? cu.frame).isSome = true →
    s'.loadReady x (b.sawPages ps) id.toNat (ps.drop sl.got.length) = true → ps[sl.got.length]? = some p →
    s'.waitAt (.load cu.frame b.seq cu.slot) (some b.ctx) [s'.lineOf x.pk p.pa] = none → s'.redirected x.pk p.pa = u →
    u.loadFails x.pk (x.pathEvents ++ b.eventsBelow id.toNat) p = false →
    sl.got ++ [u.loadPart x.pk (x.pathEvents ++ b.eventsBelow id.toNat) p] = got →
    (sl.got.length + 1 = ps.length →
      exec .loadPerform s = .next (u.sentOne cu (b.sawPages ps) sl i (Tok.ofWord
        (if l.signed then BitVec.ofInt 64 (BitVec.ofNat (8 * l.size) (leNat got.flatten)).toInt else BitVec.ofNat 64 (leNat got.flatten)))))
    ∧ (sl.got.length + 1 < ps.length →
      exec .loadPerform s = .next (u.setBlk cu.frame ((b.sawPages ps).updSlot cu.slot fun sl => { sl with got := got })))

/-- A ready `xlate` whose steps pass sends its address tagged with the handle, which its block holds for commit; one whose steps fail without a pull sends
a fault token with the cause of the failed step. A ready `xprobe` whose steps pass sends its status word and holds the handle; one whose steps fail on
an address that no page maps sends the cause alone. A ready `pref` sends 1 where the request is sent and 0 where it is dropped. -/
def Obligations.TranslationsAndPrefetch : Prop :=
  (∀ s cu b sl l r x p id wr th t1 s', Ready (.xlate p id wr th t1) s cu b sl l r → s.ctxs.get? b.ctx = some x → b.storesBelow id.toNat = true →
      (∀ t, s.probeAddr (b.who x) l.val wr (b.handleOf x l) = (.ok t, s') → (∀ e ∈ b.handles, e.1 ≠ th.toNat) →
        exec (.xlate p id wr th t1) s = .next (s'.setBlk cu.frame
          { ({ b with handles := b.handles ++ [(th.toNat, some t)] }).sends cu.slot sl (info (.xlate p id wr th t1)) (.ctl l.val (some th) l.ew) .null with
            vas := b.vas ++ [t.use] }))
      ∧ (∀ e, s.probeAddr (b.who x) l.val wr (b.handleOf x l) = (.error e, s') → e.pull = none →
        exec (.xlate p id wr th t1) s = .next (s'.sent cu b sl (.xlate p id wr th t1) (.fault l.val e.code e.step e.sub) .null)))
    ∧ (∀ s cu b sl l r x p id wr th t1 s' t, Ready (.xprobe p id wr th t1) s cu b sl l r → s.ctxs.get? b.ctx = some x →
      b.storesBelow id.toNat = true → s.probeAddr (b.who x) l.val wr (b.handleOf x l) = (.ok t, s') → (∀ e ∈ b.handles, e.1 ≠ th.toNat) →
      exec (.xprobe p id wr th t1) s = .next (s'.setBlk cu.frame
        { ({ b with handles := b.handles ++ [(th.toNat, some t)] }).sends cu.slot sl (info (.xprobe p id wr th t1))
            (Tok.ofWord (match s.probedPage (b.who x) l.val wr (b.handleOf x l) with
              | some e => BitVec.ofNat 64 (16 * e.1 + (if e.2.1 then 8 else 0) + (if e.2.2 then 4 else 0) + 2 + 1)
              | none => 1)) .null with
          vas := b.vas ++ [t.use] }))
    ∧ (∀ s cu b sl l r x p id wr th t1 s' e, Ready (.xprobe p id wr th t1) s cu b sl l r → s.ctxs.get? b.ctx = some x →
      b.storesBelow id.toNat = true → s.probeAddr (b.who x) l.val wr (b.handleOf x l) = (.error e, s') →
      s.probedPage (b.who x) l.val wr (b.handleOf x l) = none → e.pull = none →
      exec (.xprobe p id wr th t1) s = .next (s'.sent cu b sl (.xprobe p id wr th t1)
        (Tok.ofWord (if e.code = 0x12 then 64 else if e.code = 0x10 then 128 else 192)) .null))
    ∧ ∀ (f : FmtL) s cu b sl l r x sent s', Ready (.pref f) s cu b sl l r → s.ctxs.get? b.ctx = some x → b.storesBelow f.id.toNat = true →
      s.prefSent (b.who x) (l.val + BitVec.ofInt 64 (f.disp.toInt * 128)) (b.handleOf x l) = (sent, s') →
      exec (.pref f) s = .next (s'.sent cu b sl (.pref f) (Tok.ofWord (if sent then 1 else 0)) .null)

/-- A ready store, `amo`, `lease` or `unlease` whose checks of R221 pass completes its identifier with its effect, held until commit: a store the events
of its bytes at l + disp, an `amo` one update at l where l is a multiple of its width, a `lease` or an `unlease` the line that holds l. -/
def Obligations.StoresAndUpdatesArrive : Prop :=
  ∀ s cu b sl x,
    (∀ p id disp l r s' ps, ∀ q ∈ [(Instr.stB8 p id disp, 1), (.stB16 p id disp, 2), (.stB32 p id disp, 4), (.stB64 p id disp, 8)],
      Ready q.1 s cu b sl l r → s.ctxs.get? b.ctx = some x → b.idDone.getLsbD id.toNat = false →
      s.access (b.who x) (l.val + BitVec.ofInt 64 disp.toInt) q.2 r.ew false true true (b.handleOf x l) = (.ok ps, s') →
      (s'.blks.get? cu.frame).isSome = true →
      exec q.1 s = .next (s'.completed cu (b.sawPages ps) id (.store (storeEvents (min r.ew q.2) ps (leBytes q.2 r.val.toNat) 0))))
    ∧ (∀ p id sc wide ord l r s' q ps, ∀ e ∈ [(Instr.amoAdd p id sc wide ord, AmoOp.add, wide), (.amoAddF32 p id sc ord, .addF32, false),
        (.amoMinS p id sc wide ord, .minS, wide), (.amoMaxS p id sc wide ord, .maxS, wide), (.amoMinN p id sc wide ord, .minN, wide),
        (.amoMaxN p id sc wide ord, .maxN, wide), (.amoAnd p id sc wide ord, .and, wide), (.amoOr p id sc wide ord, .or, wide),
        (.amoXor p id sc wide ord, .xor, wide)],
      Ready e.1 s cu b sl l r → s.ctxs.get? b.ctx = some x → b.idDone.getLsbD id.toNat = false →
      s.forwarded (b.who x) l.val (amoLen e.2.2) = none → l.val.toNat % amoLen e.2.2 = 0 →
      s.access (b.who x) l.val (amoLen e.2.2) (amoLen e.2.2) true true false (b.handleOf x l) = (.ok (q :: ps), s') →
      (s'.blks.get? cu.frame).isSome = true →
      exec e.1 s = .next (s'.completed cu (b.sawPages (q :: ps)) id (.amo e.2.1 q.pa q.key q.vp e.2.2 r.val sc ord)))
    ∧ (∀ p id cyc l r s' s'' q ps t, Ready (.lease p id cyc) s cu b sl l r → s.ctxs.get? b.ctx = some x → b.idDone.getLsbD id.toNat = false →
      s.access (b.who x) l.val 1 8 true true false (b.handleOf x l) = (.ok (q :: ps), s') → (s'.blks.get? cu.frame).isSome = true →
      s'.translate (b.who x) l.val 1 true true true (b.handleOf x l) = (.ok t, s'') →
      exec (.lease p id cyc) s = .next (s''.completed cu (b.sawPages (q :: ps)) id (.lease q.pa t l.val (cyc.toNat + 1))))
    ∧ (∀ p id l r s' q ps, Ready (.unlease p id) s cu b sl l r → s.ctxs.get? b.ctx = some x → b.idDone.getLsbD id.toNat = false →
      s.access (b.who x) l.val 1 8 true true false (b.handleOf x l) = (.ok (q :: ps), s') → (s'.blks.get? cu.frame).isSome = true →
      exec (.unlease p id) s = .next (s'.completed cu (b.sawPages (q :: ps)) id (.unlease q.pa)))

/-- A ready `fence.acq` completes once every earlier load has delivered, `fence.ar` once moreover every earlier store-class event has been performed;
`fence.rel` and `qfence` complete at once and act when their block commits. -/
def Obligations.FencesArrive : Prop :=
  ∀ p id sc set,
    Completes (.fenceAcq p id sc) id
      (fun s b _ _ _ => b.loadsBelow id.toNat = true ∧ ∀ e ∈ s.older b, e.2.loadsBelow 32 = true) (fun _ _ _ => .fence true false sc)
    ∧ Completes (.fenceRel p id sc) id (fun _ _ _ _ _ => True) (fun _ _ _ => .fence false true sc)
    ∧ Completes (.fenceAr p id sc) id
      (fun s b x _ _ => b.loadsBelow id.toNat = true ∧ (∀ e ∈ s.older b, e.2.loadsBelow 32 = true) ∧ (∀ e ∈ x.path, e.eff.isQfence = true)
        ∧ ∀ e ∈ s.older b, e.2.hdr.smask = 0)
      (fun _ _ _ => .fence true true sc)
    ∧ Completes (.qfence p id set) id (fun _ _ _ _ _ => True) (fun _ _ _ => .qfence set)

/-- At its home an update that stands in the window of 64, that may go first, that merges with no other and whose page is not in transit replaces the
bytes at its address by the value that R233 gives of the old bytes and its operand, in one event; it then leaves the updates on their way and the
store paths of the threads it came from. -/
def Obligations.AtomicUpdateAtHome : Prop :=
  ∀ s n r u t, s.site = .num n → s.amos[n]? = some r → ((s.amos.take n).filter (s.sameHome r)).length < 64 →
    ordBefore r (s.amos.take n) = false → s.amoWaits r = false → s.amoShut r = false → (∀ o ∈ s.amos.eraseIdx n, r.merges o = false) →
    ({ s with amos := s.amos.eraseIdx n } : State).redirected r.pk r.pa = u → (u.part r.pk).movingAt r.pa = none →
    u.writeEv r.pk r.pa r.key (leBytes (if r.wide then 8 else 4)
      (updated r.op (if r.wide then 64 else 32)
        (leNat (u.peeks (u.reach r.pk r.pa).1 (u.reach r.pk r.pa).2 (if r.wide then 8 else 4))) (r.v.toNat % (if r.wide then 2 ^ 64 else 2 ^ 32)))) = some t →
    exec .amoHomeUpdate s = .next (r.srcs.foldl (fun t z => t.updCtx z.ctx fun x => { x with path := x.path.filter fun e => e.stamp ≠ z.stamp }) t)

/-- The lowest event of a committed store that nothing holds is written, and its entry leaves the path with the last. A committed update that nothing
holds goes on its way to its home, or joins one on its way with which its scope lets it merge. A releasing fence leaves the path once no entry below
its number is left. A `sig.inc` that nothing holds is performed and leaves the path. -/
def Obligations.StorePathPerforms : Prop :=
  ∀ s c n x e, s.site = .ctxQ c n → s.ctxs.get? c = some x → (x.path.find? fun e => e.stamp = n) = some e →
    (∀ v rest u t, e.eff = .store (v :: rest) → s.storeWaits x e v = false → s.waitAt (.path c n) (some c) [s.lineOf x.pk v.pa] = none →
      s.movingOf x.pk v.pa = none → s.redirected x.pk v.pa = u → u.writeEv x.pk v.pa v.key v.bytes = some t →
      exec .storePathPerform s = .next (t.updCtx c fun x => { x with
        path := if rest = [] then x.path.filter fun e => e.stamp ≠ n
          else x.path.map fun e => if e.stamp = n then { e with eff := .store rest } else e }))
    ∧ (∀ op pa key vp wide v sc ord r, e.eff = .amo op pa key vp wide v sc ord false → s.amoHeld x e pa wide ord = false →
      r = { srcs := [⟨c, n, x.core, sc⟩], op := op, pk := x.pk, pa := pa, key := key, wide := wide, v := v, ord := ord } →
      ∃ t, exec .storePathPerform s = .next t ∧ t.mem = s.mem
        ∧ (t.amos = s.amos ++ [r] ∨ ∃ k o, s.amos[k]? = some o ∧ s.joins r o = true
          ∧ t.amos = s.amos.set k { o with
              srcs := o.srcs ++ r.srcs
              v := BitVec.ofNat 64 (updated op (if wide then 64 else 32) (o.v.toNat % (if wide then 2 ^ 64 else 2 ^ 32))
                (v.toNat % (if wide then 2 ^ 64 else 2 ^ 32))) }))
    ∧ (∀ below, e.eff = .fence below → (∀ g ∈ x.path, g.stamp < below → g.eff.isQfence = true) →
      exec .storePathPerform s = .next (s.updCtx c fun x => { x with path := x.path.filter fun e => e.stamp ≠ n }))
    ∧ (∀ sc tok v, e.eff = .cmd (.sig sc tok v) → s.cmdWaits c x e (.sig sc tok v) = false →
      exec .storePathPerform s = .next ((s.updCtx c fun x => { x with path := x.path.filter fun e => e.stamp ≠ n }).sigDo c tok v))

/-- A store event to local HBM of a class 0 partition that is performed leaves its bytes at its address, and every byte of local memory of every package
outside them as it was; the read-only capability frame is unchanged by any event. -/
def Obligations.StoreEventWritesItsBytes : Prop :=
  ∀ s pk pa key l t, memWf s = true → s.writeEv pk pa key l = some t → pa + l.length ≤ 2 ^ 39 → (s.pkg pk.pkg).hbmHere pa = true →
    fld (s.part pk).vdcfg 62 2 = 0 →
    (65536 ≤ pa → ∀ n (h : n < l.length), t.peek pk.pkg (pa + n) = l[n])
    ∧ (∀ k a, a < 2 ^ 52 → (k ≠ pk.pkg ∨ a < pa ∨ pa + l.length ≤ a) → t.peek k a = s.peek k a)
    ∧ (pa < 65536 → t.mem = s.mem)

/-- The first waiting lease of a line that no other thread leases takes hold for its cycles of the home die. A held lease whose count has reached 0 ends,
its expd bit is set, and event 3 of its context is pending. -/
def Obligations.LeaseHoldAndExpiry : Prop :=
  ∀ s c x, s.site = .ctx c → s.ctxs.get? c = some x →
    (∀ line tr cycles, x.lease.st = .waiting line tr cycles → s.leasedFrom (some c) line = false → s.firstAt (.lease c) line = true →
      ∃ t, exec .leaseHold s = .next t
        ∧ t.ctxs.get? c = some { x with lease := { x.lease with st := .held line tr (s.homeCycle line + BitVec.ofNat 64 cycles) } }
        ∧ t.mem = s.mem)
    ∧ (∀ line tr till, x.lease.st = .held line tr till → (s.homeCycle line - till).toNat < 2 ^ 63 →
      ∃ t, exec .leaseExpiry s = .next t
        ∧ t.ctxs.get? c = some { x with
            lease := { x.lease with st := .none, expd := true }, ctl := { x.ctl with evpend := x.ctl.evpend ||| 8#8 } }
        ∧ t.mem = s.mem)

/-- A ready `qpop`, `pop`, `pop.v` or `collect` whose stores before it have arrived and whose element stands at its place sends that element and holds its
take tentatively; `peek` sends the tag word and `peek.v` the element, and neither takes. A `qpop` that finds the end of a sealed queue sends a null
token and takes nothing. -/
def Obligations.QueueTakesDeliver : Prop :=
  (∀ s cu b sl l r x p id t1, Ready (.qpop p id t1) s cu b sl l r → s.ctxs.get? b.ctx = some x → s.qpopFault x l.val = 0 →
      b.storesBelow id.toNat = true →
      (∀ e, s.popFind b x (.part (objKey x.pk (l.val.toNat % 4096))) id.toNat = .elem e →
        exec (.qpop p id t1) s = .next (s.sentTaking cu b sl (.qpop p id t1) (elemTok false e) [.part (objKey x.pk (l.val.toNat % 4096))]))
      ∧ (s.popFind b x (.part (objKey x.pk (l.val.toNat % 4096))) id.toNat = .ended →
        exec (.qpop p id t1) s = .next (s.sentOne cu b sl (.qpop p id t1) .null)))
    ∧ (∀ s cu b sl l r x p id t1 e, Ready (.qpopBq p id t1) s cu b sl l r → s.ctxs.get? b.ctx = some x → x.ctl.aonly = false →
      b.storesBelow id.toNat = true → s.popFind b x .bq id.toNat = .elem e →
      exec (.qpopBq p id t1) s = .next (s.sentTaking cu b sl (.qpopBq p id t1) (elemTok false e) [.bq]))
    ∧ (∀ s cu b sl l r x p (id : Ident) (inl : BitVec 5) t1 bd n e, s.ctxs.get? b.ctx = some x → b.storesBelow id.toNat = true →
      x.inlet inl.toNat = some bd → (s.queue (objKey x.pk bd.queue)).plane = decide (sl.plane = .dat) →
      s.inletPos b inl.toNat (objKey x.pk bd.queue) cu.slot id.toNat false = some n →
      (s.queue (objKey x.pk bd.queue)).availAt n = .elem e →
      (∀ i ∈ [Instr.pop p id inl t1, .popV p id inl t1], Ready i s cu b sl l r →
        exec i s = .next (s.sentTaking cu b sl i (elemTok (sl.plane = .dat) e) [.part (objKey x.pk bd.queue)]))
      ∧ (Ready (.peekV p id inl t1) s cu b sl l r →
        exec (.peekV p id inl t1) s = .next (s.sentOne cu b sl (.peekV p id inl t1) (elemTok (sl.plane = .dat) e)))
      ∧ (Ready (.peek p id inl t1) s cu b sl l r →
        exec (.peek p id inl t1) s = .next (({ s with free := s.free + 1 } : State).sent cu b sl (.peek p id inl t1)
          (Tok.ofWord ((if e.marker then BitVec.ofNat 64 (2 ^ 63) else 0) ||| e.round.setWidth 64)) .null)))
    ∧ ∀ s cu b sl l r x p id inl t1 t u q q', Ready (.collect p id inl t1) s cu b sl l r → s.ctxs.get? b.ctx = some x →
      b.storesBelow id.toNat = true → s.vecWaits x b cu.slot true false = false →
      s.readInlet x b inl.toNat cu.slot id.toNat false .dat = .tok t q → s.readInlet x b (inl.toNat + 1) cu.slot id.toNat false .dat = .tok u q' →
      exec (.collect p id inl t1) s = .next (s.sentTaking cu b sl (.collect p id inl t1)
        (if t.isNull || u.isNull then .null else .vec (pack 32 (collectLanes (s.seen b x).regs.m[0] x.vctx.a t.bits u.bits 0 0 x.vctx.a))) (q ++ q'))

/-- A ready `qpush`, `push`, `pushm`, `steer` or `rtcfg` whose queue raises no fault and has room completes its identifier with its append, marker, pair
of appends or stage, held until commit; a push to `cmdq` reserves one of its entries, and a push to `bq` needs nothing more. `collect` and `steer` use
the masks as every older block in flight will have left them. -/
def Obligations.QueueAppendsComplete : Prop :=
  (∀ p id q, Completes (.qpush p id q) id
      (fun s _ x _ _ => s.qpushFault (objKey x.pk q.toNat) = 0 ∧ s.roomOf x (objKey x.pk q.toNat) ≠ 0) (fun _ l _ => .qpush q.toNat l.val))
    ∧ (∀ p id s cu b sl l r x, Ready (.qpushCmdq p id) s cu b sl l r → s.ctxs.get? b.ctx = some x → b.idDone.getLsbD id.toNat = false →
      x.ctl.aonly = false → bindOk l.val = true → s.cmdqRoom b.ctx x ≠ 0 →
      exec (.qpushCmdq p id) s = .next (s.completed cu { b with cmdqRes := b.cmdqRes + 1 } id (.cmdq l.val)))
    ∧ (∀ p id, Completes (.pushBq p id) id (fun _ _ _ _ _ => True) (fun _ l _ => .bq l.val))
    ∧ (∀ s cu b sl l r x p (id : Ident) (o : BitVec 5) bd, s.ctxs.get? b.ctx = some x → b.idDone.getLsbD id.toNat = false → x.outlet o.toNat = some bd →
      (∀ i ∈ [Instr.push p id o, .pushV p id o], Ready i s cu b sl l r → s.outFault (objKey x.pk bd.queue) (sl.plane = .dat) false = 0 →
        exec i s = .next (s.completed cu b id (.out o.toNat l)))
      ∧ (Ready (.pushm p id o) s cu b sl l r → s.outFault (objKey x.pk bd.queue) (sl.plane = .dat) true = 0 →
        exec (.pushm p id o) s = .next (s.completed cu b id (.outMark o.toNat))))
    ∧ (∀ s cu b sl l r x p id m f t bt bf, Ready (.steer p id m f t) s cu b sl l r → s.ctxs.get? b.ctx = some x → b.idDone.getLsbD id.toNat = false →
      (s.regPending b (fun h => h.pwmask.getLsbD m.toNat) (32 + m.toNat) = false) → s.vecWaits x b cu.slot false false = false →
      x.outlet t.toNat = some bt → x.outlet f.toNat = some bf →
      s.outFault (objKey x.pk bt.queue) (sl.plane = .dat) false = 0 → s.outFault (objKey x.pk bf.queue) (sl.plane = .dat) false = 0 →
      exec (.steer p id m f t) s = .next (s.setBlk cu.frame { b.fin cu.slot with
        idDone := b.idDone ||| (1#32 <<< id.toNat)
        effs := b.effs ++
          [(id.toNat, .out t.toNat (.vec (steerLanes (vecGet (s.seen b x).regs.m m.toNat 0) true x.vctx.a l.bits))),
           (id.toNat, .out f.toNat (.vec (steerLanes (vecGet (s.seen b x).regs.m m.toNat 0) false x.vctx.a l.bits)))] }))
    ∧ ∀ p id stg q, Completes (.rtcfg p id stg q) id
      (fun s _ x l _ => (s.queue (objKey x.pk q.toNat)).state ≠ .unallocated ∧ s.stageOk (objKey x.pk q.toNat) stg l.val = true
        ∧ (s.queue (objKey x.pk q.toNat)).all = [] ∧ (s.queue (objKey x.pk q.toNat)).stageToks = [] ∧ s.reserved (objKey x.pk q.toNat) = 0)
      (fun _ l _ => .rtcfg stg q.toNat l.val)

/-- A ready `qpop` with a number of 4096 or more raises a queue fault (0x30) with subcode 9, one of an unallocated queue subcode 2; a `qpush` to an
unallocated queue raises subcode 2, to a queue of data tokens 3, to one that is not access-fed 5, to a sealed one 4; an `rtcfg` of an unallocated
queue raises 2. -/
def Obligations.QueueFaultSubcodes : Prop :=
  (∀ p id t1, Raises (.qpop p id t1) (fun _ _ _ l _ => 4096 ≤ l.val.toNat) 0x30 9 0)
    ∧ (∀ p id t1, Raises (.qpop p id t1)
        (fun s _ x l _ => l.val.toNat < 4096 ∧ (s.queue (objKey x.pk l.val.toNat)).state = .unallocated) 0x30 2 0)
    ∧ (∀ p id q, Raises (.qpush p id q) (fun s _ x _ _ => (s.queue (objKey x.pk q.toNat)).state = .unallocated) 0x30 2 0)
    ∧ (∀ p id q, Raises (.qpush p id q)
        (fun s _ x _ _ => (s.queue (objKey x.pk q.toNat)).state ≠ .unallocated ∧ (s.queue (objKey x.pk q.toNat)).plane = true) 0x30 3 0)
    ∧ (∀ p id q, Raises (.qpush p id q)
        (fun s _ x _ _ => (s.queue (objKey x.pk q.toNat)).state ≠ .unallocated ∧ (s.queue (objKey x.pk q.toNat)).plane = false
          ∧ (s.queue (objKey x.pk q.toNat)).prodk = false) 0x30 5 0)
    ∧ (∀ p id q, Raises (.qpush p id q)
        (fun s _ x _ _ => (s.queue (objKey x.pk q.toNat)).state = .sealed ∧ (s.queue (objKey x.pk q.toNat)).plane = false
          ∧ (s.queue (objKey x.pk q.toNat)).prodk = true) 0x30 4 0)
    ∧ ∀ p id stg q, Raises (.rtcfg p id stg q) (fun s _ x _ _ => (s.queue (objKey x.pk q.toNat)).state = .unallocated) 0x30 2 0

/-- A ready staging command or `strm.halt` without a stream fault completes its identifier with its command; a `strm.go` of the oldest block whose word,
queue and staging set pass and for which its engine queue, and in a pair context `cmdq`, has room does so too; so does a sparse loop header whose
queue may be fed. -/
def Obligations.StreamCommandsComplete : Prop :=
  (∀ p id stg, Completes (.strmStage p id stg) id (fun _ _ _ l r => strmSub (.stage stg.toNat) l.val r.val = 0)
      (fun _ l r => .strm (.stage stg.toNat) l.val r.val))
    ∧ (∀ p id,
      Completes (.strmRows p id) id (fun _ _ _ l r => strmSub .rows l.val r.val = 0) (fun _ l r => .strm .rows l.val r.val)
      ∧ Completes (.strmTag p id) id (fun _ _ _ l r => strmSub .tag l.val r.val = 0) (fun _ l r => .strm .tag l.val r.val)
      ∧ Completes (.strmHalt p id) id (fun _ _ _ l r => strmSub .halt l.val r.val = 0) (fun _ l r => .strm .halt l.val r.val)
      ∧ Completes (.strmGo p id) id
        (fun s b x l r => x.ctl.aonly = true ∧ s.goSub x.pk l.val r.val = 0 ∧ s.isOldest b = true ∧ b.storesBelow id.toNat = true
          ∧ stagingSub (b.stagingFor x (fld r.val 60 4) id.toNat) r.val = 0 ∧ (goCopy r.val = true →
            s.bufOk x.pk x.core (bufOf (fld r.val 44 2)) (fld r.val 12 20)
              (goEsz r.val * (b.stagingFor x (fld r.val 60 4) id.toNat).total (goNst r.val)) = true) ∧ s.engRoom b.ctx x (fld r.val 60 4) ≠ 0)
        (fun _ l r => .strm .go l.val r.val)
      ∧ ∀ s cu b sl l r x, Ready (.strmGo p id) s cu b sl l r → s.ctxs.get? b.ctx = some x → b.idDone.getLsbD id.toNat = false →
        x.ctl.aonly = false → s.goSub x.pk l.val r.val = 0 → s.isOldest b = true → b.storesBelow id.toNat = true →
        stagingSub (b.stagingFor x (fld r.val 60 4) id.toNat) r.val = 0 → (goCopy r.val = true →
            s.bufOk x.pk x.core (bufOf (fld r.val 44 2)) (fld r.val 12 20)
              (goEsz r.val * (b.stagingFor x (fld r.val 60 4) id.toNat).total (goNst r.val)) = true) → s.engRoom b.ctx x (fld r.val 60 4) ≠ 0 →
        s.cmdqRoom b.ctx x ≠ 0 →
        exec (.strmGo p id) s = .next (s.completed cu { b with cmdqRes := b.cmdqRes + 1 } id (.strm .go l.val r.val)))
    ∧ ∀ p id tree q, ∀ e ∈ [(Instr.sphAnd p id tree q, false), (Instr.sphOr p id tree q, true)],
      Completes e.1 id
        (fun s b x l r => (s.queue (objKey x.pk q.toNat)).plane = false ∧ s.feedable (objKey x.pk q.toNat) = true ∧ l.val.toNat % 8 = 0
          ∧ r.val.toNat % 8 = 0 ∧ s.engRoom b.ctx x 15 ≠ 0)
        (fun _ l r => .sph e.2 tree q.toNat l.val r.val)

/-- A ready `bar` command or `sig.inc` without a barrier fault completes its identifier with its command, a `bar` command with the scope as it acts. A
ready `shape` whose request is legal completes its identifier with its request, in a pair context reserving an entry of `cmdq`. An `shstep` of a
loaded shape register completes its identifier with the remainder it leaves and sends the step it grants. -/
def Obligations.SynchronisationAndShapeCommandsComplete : Prop :=
  (∀ p id sc, ∀ e ∈ [(Instr.barInit p id sc, BarCmd.init), (.barArrive p id sc, .arrive), (.barBind p id sc, .bind), (.barDrop p id sc, .drop)],
      ∀ s cu b sl l r x, Ready e.1 s cu b sl l r → s.ctxs.get? b.ctx = some x → b.idDone.getLsbD id.toNat = false →
        s.barCmdSub x b.ctx (decide (b.hdr.kind = 1)) e.2 sc l.val r.val = 0 →
        exec e.1 s = .next (s.completed cu b id (.bar e.2 (s.effScope x.pk sc) (s.unitAt x b.ctx (s.effScope x.pk sc)) l.val r.val)))
    ∧ (∀ p id sc, Completes (.sigInc p id sc) id (fun s _ x l _ => s.sigSub x l.val = 0) (fun _ l r => .sig sc l.val r.val))
    ∧ (∀ p id sh, ∀ e ∈ [(Instr.shapeV p id sh, false), (Instr.shapeT p id sh, true)],
      Completes e.1 id (fun _ _ x l _ => x.ctl.aonly = true ∧ shapeOk e.2 l.val = true) (fun _ l _ => .shape e.2 sh.toNat l.val)
      ∧ ∀ s cu b sl l r x, Ready e.1 s cu b sl l r → s.ctxs.get? b.ctx = some x → b.idDone.getLsbD id.toNat = false → x.ctl.aonly = false →
        shapeOk e.2 l.val = true → s.cmdqRoom b.ctx x ≠ 0 →
        exec e.1 s = .next (s.completed cu { b with cmdqRes := b.cmdqRes + 1 } id (.shape e.2 sh.toNat l.val)))
    ∧ ∀ p id sh t1, ∀ e ∈ [(Instr.shstep p id sh t1, false), (Instr.shstepV p id sh t1, true)],
      ∀ s cu b sl l r x v n a, Ready e.1 s cu b sl l r → s.ctxs.get? b.ctx = some x → b.idDone.getLsbD id.toNat = false →
        s.stepWaits b sh.toNat id.toNat = false → v = vecGet (if b.hdr.kind = 1 then x.regs.shA else x.regs.shE) sh.toNat 0 → fld v 62 2 ≠ 0 →
        n = b.stepRem sh.toNat id.toNat v → a = min n (stepGrant v) →
        exec e.1 s = .next (s.setBlk cu.frame
          (({ b.fin cu.slot with idDone := b.idDone ||| (1#32 <<< id.toNat), effs := b.effs ++ [(id.toNat, .shstep sh.toNat (n - a))] } : Blk).send sl
            (if e.2 then .vec (ofMask (BitVec.ofNat 1024 (2 ^ a - 1)))
             else .ctl (BitVec.ofNat 64 (a % 2 ^ 20) <<< 20 ||| BitVec.ofNat 64 ((n - a) % 2 ^ 20)) none 8) t1))

/-- A ready matrix command under an active tile shape whose checks of R275 pass and for which queue 14 has room completes its identifier with its command
and reserves a place. A ready `accrd` notes when it arrived, and one whose row and accumulator are usable and whose stores before it have arrived
stands outstanding until it is delivered. Without an active tile shape each raises the shape fault (0x16). -/
def Obligations.MatrixCommandsComplete : Prop :=
  (∀ (p : Pred) (id : Ident) (ty : MmaTy) (sat : Bool) (acc : BitVec 4) (sb db : Buf) (t1 : Tgt) (l r : Tok),
      (∀ e ∈ [(Instr.mma p id ty sat acc, MxKind.mma ty sat acc.toNat l.val r.val), (.mmaG p id ty sat acc, .mmaG ty sat acc.toNat l.bits r.val),
          (.tmov p id sb db, .tmov false sb db l.val r.val), (.tmovT p id sb db, .tmov true sb db l.val r.val), (.acclr p id acc, .acclr acc.toNat),
          (.accst p id acc, .accst acc.toNat l.val)],
        ∀ s cu b sl x, Ready e.1 s cu b sl l r → s.ctxs.get? b.ctx = some x → s.tileWaits x b = false →
          (∀ v, x.regs.tShape = some v → b.idDone.getLsbD id.toNat = false → s.mxCheck x (extentsOf v.2) e.2 = 0 → s.mxRoom b.ctx x ≠ 0 →
            exec e.1 s = .next (s.completed cu { b with mxRes := b.mxRes + 1 } id (.mx e.2)))
          ∧ (x.regs.tShape = none → exec e.1 s = .next (s.raised cu b { code := 0x16, slot := BitVec.ofNat 7 cu.slot })))
      ∧ ∀ s cu b sl x bb u, Ready (.accrd p id acc t1) s cu b sl l r → s.ctxs.get? b.ctx = some x → s.arriveRd cu b = (bb, u) →
        ((b.rds.any fun e => e.1 = cu.slot) = false → bb.rds = b.rds ++ [(cu.slot, s.seq)] ∧ u.seq = s.seq + 1)
        ∧ (s.tileWaits x b = false → b.storesBelow id.toNat = true →
          (∀ v, x.regs.tShape = some v → elem 32 0 l.bits < (extentsOf v.2).gM → s.accOk x (extentsOf v.2) acc.toNat = true →
            exec (.accrd p id acc t1) s = .next (u.setBlk cu.frame (bb.updSlot cu.slot fun sl => { sl with st := .out })))
          ∧ (x.regs.tShape = none → exec (.accrd p id acc t1) s = .next (u.raised cu bb { code := 0x16, slot := BitVec.ofNat 7 cu.slot }))))

/-- A ready `crrd` of the oldest block whose stores before it have arrived, and that finds `cmdq` adopted where it names a marker register, sends the
value of the register. A ready `crwr` completes its identifier with its write, held until commit; a marker register of a pair context reserves an
entry of `cmdq`. -/
def Obligations.ControlRegisterAccess : Prop :=
  (∀ s cu b sl l r x p id num t1, Ready (.crrd p id num t1) s cu b sl l r → s.ctxs.get? b.ctx = some x → s.isOldest b = true →
      b.storesBelow id.toNat = true → (crMarker num.toNat = true → x.ctl.aonly = true ∨ x.ports.cmdq = []) →
      exec (.crrd p id num t1) s = .next (s.sentOne cu b sl (.crrd p id num t1) (Tok.ofWord (s.crRead (s.shown b.ctx x) num.toNat))))
    ∧ (∀ p id num, Completes (.crwr p id num) id
      (fun _ _ x _ _ => (crPlaces num.toNat = true → x.ctl.aonly = true) ∧ num ≠ 0x102 ∧ num ≠ 0x184)
      (fun _ l _ => .crwr num.toNat l.val))
    ∧ (∀ p id num, num = 0x102#9 ∨ num = 0x184#9 → Completes (.crwr p id num) id
      (fun s b x l _ => s.isOldest b = true ∧ b.storesBelow id.toNat = true ∧ s.crwrFault b x id.toNat num.toNat l.val = none)
      (fun _ l _ => .crwr num.toNat l.val))
    ∧ ∀ s cu b sl l r x p id num, Ready (.crwr p id num) s cu b sl l r → s.ctxs.get? b.ctx = some x → b.idDone.getLsbD id.toNat = false →
      crPlaces num.toNat = true → x.ctl.aonly = false → s.cmdqRoom b.ctx x ≠ 0 →
      exec (.crwr p id num) s = .next (s.completed cu { b with cmdqRes := b.cmdqRes + 1 } id (.crwr num.toNat l.val))

/-- A ready `launch`, `grp`, `pg`, `xshoot`, `lnk` or `vd` command that breaks no rule of its chapter completes its identifier with its command, which is
performed after its block commits. -/
def Obligations.SystemCommandsComplete : Prop :=
  (∀ p id, ∀ e ∈ [(Instr.grpMake p id, GrpCmd.make), (.grpSplit p id, .split), (.grpJoin p id, .join), (.grpFree p id, .free)],
      Completes e.1 id (fun s _ x l r => s.grpSub x e.2 l.val r.val = 0) (fun _ l r => .grp e.2 l.val r.val))
    ∧ (∀ p id z, ∀ e ∈ [(Instr.pgMap p id z, PgCmd.map), (.pgUnmap p id z, .unmap), (.pgPin p id z, .pin), (.pgUnpin p id z, .unpin),
        (.pgPoison p id z, .poison), (.pgPromote p id z, .promote)],
      Completes e.1 id (fun s _ x l r => s.pgSub x e.2 z l.val r.val = 0) (fun _ l r => .pg e.2 z l.val r.val))
    ∧ (∀ p id z, Completes (.xshoot p id z) id (fun _ b _ l r => canonical l.val b.pm = true ∧ r.val.toNat < 2 ^ 16) (fun _ l r => .xshoot z l.val r.val))
    ∧ (∀ p id cls, ∀ e ∈ [(Instr.lnkUp p id cls, LnkCmd.up), (.lnkDown p id cls, .down), (.lnkRetrain p id cls, .retrain), (.lnkChain p id cls, .chain),
        (.lnkUnchain p id cls, .unchain)],
      Completes e.1 id (fun s _ x l _ => s.lnkSub x e.2 cls l.val = 0) (fun _ l _ => .lnk e.2 cls l.val))
    ∧ (∀ p id, ∀ e ∈ [(Instr.vdQuiesce p id, VdCmd.quiesce), (.vdSend p id, .send), (.vdResume p id, .resume), (.vdRelease p id, .release),
        (.vdReplay p id, .replay)],
      Completes e.1 id (fun s _ x l _ => s.vdSub x e.2 l.val = 0) (fun _ l _ => .vd e.2 l.val))
    ∧ ∀ s cu b sl l r x p id lq s' q ps, Ready (.launch p id lq) s cu b sl l r → s.ctxs.get? b.ctx = some x → b.idDone.getLsbD id.toNat = false →
      s.access (b.who x) l.val 8 8 true false false (b.handleOf x l) = (.ok (q :: ps), s') → (s'.blks.get? cu.frame).isSome = true →
      l.val.toNat % 128 = 0 → (s'.part x.pk).lqCap lq.toNat ≠ 0 → (b.pm = true ∨ x.ctl.prio.toNat ≤ lq.toNat) → s'.lqRoom x.pk lq.toNat ≠ 0 →
      s'.lqBefore x.pk lq.toNat (sl.launchTime s') = false →
      exec (.launch p id lq) s = .next (s'.completed cu (b.sawPages (q :: ps)) id (.launch lq.toNat l.val q.pa))

/-- A ready integer form of R244 without `.sat`, waiting for no older block, issues and sends to each of its targets one token: an active element below
the granted number is the result of R244 or R245 on the two elements, another is the left operand's element, and every element above is zero. It
raises no flag and changes nothing but its block. -/
def Obligations.IntegerVectorResults : Prop :=
  ∀ v : FmtV, v.ty.isI = true → v.md = false → ∀ w, w = ElTy.width v.ty →
    (VecElems (.vadd v) true w (·.n w) (laneOf w fun a b => (a + b) % 2 ^ w))
    ∧ (VecElems (.vsub v) true w (·.n w) (laneOf w fun a b => (a + (2 ^ w - b)) % 2 ^ w))
    ∧ (VecElems (.vmul v) true w (·.n w) (laneOf w fun a b => a * b % 2 ^ w))
    ∧ (VecElems (.vmulh v) true w (·.n w) (laneOf w fun a b => (BitVec.ofInt w (laneInt v.ty a * laneInt v.ty b / 2 ^ w)).toNat))
    ∧ (VecElems (.vmin v) true w (·.n w) (laneOf w fun a b => if laneInt v.ty a ≤ laneInt v.ty b then a else b))
    ∧ (VecElems (.vmax v) true w (·.n w) (laneOf w fun a b => if laneInt v.ty a ≤ laneInt v.ty b then b else a))
    ∧ (VecElems (.vabs v) true w (·.n w) (laneOf w fun a _ => if laneInt v.ty a < 0 then 2 ^ w - a else a))
    ∧ (VecElems (.vneg v) true w (·.n w) (laneOf w fun a _ => (2 ^ w - a) % 2 ^ w))
    ∧ (VecElems (.vand v) true w (·.n w) (laneOf w fun a b => a &&& b))
    ∧ (VecElems (.vor v) true w (·.n w) (laneOf w fun a b => a ||| b))
    ∧ (VecElems (.vxor v) true w (·.n w) (laneOf w fun a b => a ^^^ b))
    ∧ (VecElems (.vnot v) true w (·.n w) (laneOf w fun a _ => 2 ^ w - 1 - a))
    ∧ (VecElems (.vshl v) true w (·.n w) (laneOf w fun a b => if w ≤ b then 0 else a * 2 ^ b % 2 ^ w))
    ∧ (VecElems (.vshr v) true w (·.n w) (laneOf w fun a b => if w ≤ b then 0 else a / 2 ^ b))
    ∧ (VecElems (.vsar v) true w (·.n w) (laneOf w fun a b => ((BitVec.ofNat w a).sshiftRight b).toNat))
    ∧ (VecElems (.vclz v) true w (·.n w) (laneOf w fun a _ => (List.range w).findIdx fun k => a.testBit (w - 1 - k)))
    ∧ (VecElems (.vpopc v) true w (·.n w) (laneOf w fun a _ => (List.range w).countP fun k => a.testBit k))

/-- A ready `.sat` form clamps each active element to the range of its type and marks it; a ready floating `add`, `sub`, `mul`, `min` or `max`, `abs`,
`neg` or transcendental computes each active element with the flags it raises. Where no raised flag is enabled, the token goes to the targets and the
flags stand in the block until it commits; an enabled one raises an arithmetic fault (0x18) with the enabled flags and the lowest element that raised
one. `abs` and `neg` change only the sign bit of a floating element that is not a NaN, and give the canonical NaN for one that is. -/
def Obligations.SaturatingAndFloatingVectorResults : Prop :=
  (∀ v : FmtV, v.ty.isI = true → v.md = true →
      (VecLanes (.vadd v) (ElTy.width v.ty) fun a b => clamped v.ty (laneInt v.ty a + laneInt v.ty b))
      ∧ (VecLanes (.vsub v) (ElTy.width v.ty) fun a b => clamped v.ty (laneInt v.ty a - laneInt v.ty b))
      ∧ (VecLanes (.vmul v) (ElTy.width v.ty) fun a b => clamped v.ty (laneInt v.ty a * laneInt v.ty b))
      ∧ (VecLanes (.vabs v) (ElTy.width v.ty) fun a _ => clamped v.ty (laneInt v.ty a).natAbs)
      ∧ (VecLanes (.vneg v) (ElTy.width v.ty) fun a _ => clamped v.ty (-laneInt v.ty a)))
    ∧ (∀ (v : FmtV) f, v.ty.isF = true → ElTy.ffmt v.ty = some f →
      (VecLanes (.vadd v) (ElTy.width v.ty) (fltBin .add f v.md))
      ∧ (VecLanes (.vsub v) (ElTy.width v.ty) (fltBin .sub f v.md))
      ∧ (VecLanes (.vmul v) (ElTy.width v.ty) (fltBin .mul f v.md))
      ∧ (VecLanes (.vmin v) (ElTy.width v.ty) (fltBin .min f v.md))
      ∧ (VecLanes (.vmax v) (ElTy.width v.ty) (fltBin .max f v.md))
      ∧ (v.md = false → VecElems (.vabs v) true (ElTy.width v.ty) (·.n (ElTy.width v.ty))
          (laneOf (ElTy.width v.ty) fun a _ => if f.decode a = .nan then f.canonNan else a % 2 ^ (ElTy.width v.ty - 1)))
      ∧ (v.md = false → VecElems (.vneg v) true (ElTy.width v.ty) (·.n (ElTy.width v.ty))
          (laneOf (ElTy.width v.ty) fun a _ => if f.decode a = .nan then f.canonNan else a ^^^ 2 ^ (ElTy.width v.ty - 1)))
      ∧ (v.md = true → VecLanes (.vabs v) (ElTy.width v.ty) fun a _ => fltSign f true (fun _ => false) a)
      ∧ (v.md = true → VecLanes (.vneg v) (ElTy.width v.ty) fun a _ => fltSign f true not a))
    ∧ (∀ p ftz t2 t1,
      (VecLanes (.vrcp p ftz t2 t1) 32 fun a _ => transElem .rcp ftz a)
      ∧ (VecLanes (.vrsq p ftz t2 t1) 32 fun a _ => transElem .rsq ftz a)
      ∧ (VecLanes (.vsqrt p ftz t2 t1) 32 fun a _ => transElem .sqrt ftz a)
      ∧ (VecLanes (.vexp2 p ftz t2 t1) 32 fun a _ => transElem .exp2 ftz a)
      ∧ (VecLanes (.vlog2 p ftz t2 t1) 32 fun a _ => transElem .log2 ftz a))

/-- An operand that is a NaN makes a floating `add`, `sub`, `mul`, `min` or `max` give the canonical NaN of the format. Infinities of opposite signs added
and an infinity multiplied by a zero give the canonical NaN with `nv`. The transcendentals have the results and flags of the table of R253 for zeros,
infinities and negative values, and log2 of 1.0 is +0 without a flag. -/
def Obligations.FloatingSpecialResults : Prop :=
  (∀ ty f ftz (op : BinOp) a b, ElTy.isF ty = true → ElTy.ffmt ty = some f → op ∈ [BinOp.add, .sub, .mul, .min, .max] →
      (f.decode a = .nan ∨ f.decode b = .nan) → (fltBin op f ftz a b).1 = f.canonNan)
    ∧ (∀ ty f ftz sg a b, ElTy.isF ty = true → ElTy.ffmt ty = some f → f.decode a = .inf sg → f.decode b = .inf (!sg) →
      fltBin .add f ftz a b = (f.canonNan, { nv := true }))
    ∧ (∀ ty f ftz sg sg' e a b, ElTy.isF ty = true → ElTy.ffmt ty = some f → f.decode a = .inf sg → f.decode b = .fin sg' 0 e →
      fltBin .mul f ftz a b = (f.canonNan, { nv := true }) ∧ fltBin .mul f ftz b a = (f.canonNan, { nv := true }))
    ∧ (∀ ftz, [TFun.rcp, .rsq, .sqrt, .exp2, .log2].map (fun t => transElem t ftz 0)
        = [(0x7F800000, { dz := true }), (0x7F800000, { dz := true }), (0, {}), (0x3F800000, {}), (0xFF800000, { dz := true })]
      ∧ [TFun.rcp, .rsq, .sqrt, .exp2, .log2].map (fun t => transElem t ftz 0x80000000)
        = [(0xFF800000, { dz := true }), (0xFF800000, { dz := true }), (0x80000000, {}), (0x3F800000, {}), (0xFF800000, { dz := true })]
      ∧ [TFun.rcp, .rsq, .sqrt, .exp2, .log2].map (fun t => transElem t ftz 0x7F800000)
        = [(0, {}), (0, {}), (0x7F800000, {}), (0x7F800000, {}), (0x7F800000, {})]
      ∧ [TFun.rcp, .rsq, .sqrt, .exp2, .log2].map (fun t => transElem t ftz 0xFF800000)
        = [(0x80000000, {}), (0x7FC00000, { nv := true }), (0x7FC00000, { nv := true }), (0, {}), (0x7FC00000, { nv := true })]
      ∧ transElem .log2 ftz 0x3F800000 = (0, {})
      ∧ (∀ t ∈ [TFun.rsq, .sqrt, .log2], ∀ m e a, (if ftz then ftzBits f32Fmt a else a) = a → f32Fmt.decode a = .fin true m e → m ≠ 0 →
        transElem t ftz a = (0x7FC00000, { nv := true })))

/-- A ready `cmp`, `msel`, `perm`, `slide`, `bcast`, mask form or `iota`, waiting for no older block, issues, raises no flag and sends to each of its
targets the token of R247, R248 and R256 to R260. The forms that no mask governs compute every granted element. -/
def Obligations.CompareSelectAndMaskResults : Prop :=
  (∀ p ty cond t1, ElTy.isI ty = true →
      VecElems (.cmp p false ty cond t1) true 1 (·.n (ElTy.width ty)) fun c l r e =>
        if c.active (ElTy.width ty) e = true
            ∧ (condTable (some (compare (laneInt ty (elem (ElTy.width ty) e l)) (laneInt ty (elem (ElTy.width ty) e r))))).getD cond.toNat false = true
          then 1 else 0)
    ∧ (∀ p ty ftz cond t1 f, ElTy.isF ty = true → ElTy.ffmt ty = some f →
      VecElems (.cmp p ftz ty cond t1) true 1 (·.n (ElTy.width ty)) fun c l r e =>
        let flush (a : Nat) : Xv := f.decode (if ftz then ftzBits f a else a)
        if c.active (ElTy.width ty) e = true
            ∧ (condTable ((flush (elem (ElTy.width ty) e l)).cmp (flush (elem (ElTy.width ty) e r)))).getD cond.toNat false = true
          then 1 else 0)
    ∧ (∀ p ty m t1 s cu b sl l r x, Ready (.msel p ty m t1) s cu b sl l r → s.ctxs.get? b.ctx = some x →
      s.regPending b (fun h => h.pwmask.getLsbD m.toNat) (32 + m.toNat) = false → s.vecWaits x b cu.slot false false = false →
      ∃ v, exec (.msel p ty m t1) s = .next (s.sentOne cu b sl (.msel p ty m t1) (.vec v))
        ∧ Holds v (ElTy.width ty) ((s.seen b x).vctx.n (ElTy.width ty)) fun e =>
          if (vecGet (s.seen b x).regs.m m.toNat 0).getLsbD e then elem (ElTy.width ty) e l.bits else elem (ElTy.width ty) e r.bits)
    ∧ (∀ v : FmtV, v.ty.isI = true ∨ v.ty.isF = true → ∀ w, w = ElTy.width v.ty →
      VecElems (.perm v) false w (·.n w) fun c l r e => if elem w e r < c.n w then elem w (elem w e r) l else 0)
    ∧ (∀ p ty (k : BitVec 7) t1 w, ElTy.isI ty = true ∨ ElTy.isF ty = true → w = ElTy.width ty →
      (VecElems (.slideUp p ty k t1) false w (·.n w) fun c l r e =>
        if k.toNat ≤ e then elem w (e - k.toNat) l else if k.toNat ≤ c.n w + e then elem w (c.n w + e - k.toNat) r else 0)
      ∧ (VecElems (.slideDn p ty k t1) false w (·.n w) fun c l r e =>
        if e + k.toNat < c.n w then elem w (e + k.toNat) l
        else if e + k.toNat < 2 * c.n w then elem w (e + k.toNat - c.n w) r else 0)
      ∧ (VecElems (.bcast p ty k t1) false w (·.n w) fun c l _ _ => if k.toNat < c.n w then elem w k.toNat l else 0))
    ∧ (∀ g : FmtG,
      (VecElems (.mand g) false 1 (fun _ => 1024) fun _ l r e => elem 1 e l &&& elem 1 e r)
      ∧ (VecElems (.mor g) false 1 (fun _ => 1024) fun _ l r e => elem 1 e l ||| elem 1 e r)
      ∧ (VecElems (.mxor g) false 1 (fun _ => 1024) fun _ l r e => elem 1 e l ^^^ elem 1 e r)
      ∧ (VecElems (.mnot g) false 1 (fun _ => 1024) fun _ l _ e => 1 - elem 1 e l)
      ∧ (VecElems (.mcnt g) false 32 (·.g) fun _ l _ _ => (List.range 1024).countP fun k => l.getLsbD k))
    ∧ (∀ v : FmtV, v.ty.isI = true →
      VecElems (.iota v) false (ElTy.width v.ty) (·.n (ElTy.width v.ty)) fun _ _ _ e => e % 2 ^ ElTy.width v.ty)

/-- A ready `wadd` or `wmul` sends the low and the high half of the wide results, exact on integers and rounded once to `f32`, zero where the source
element is not active. A ready `narrow` or `cvt` into a type without microscaling converts each active element under its mode, gives zero for another,
and reads the source elements that R250 and R251 name; between integer types it takes the low bits, or under `.sat` the clamped value; out of a
microscaled type each element is decoded under its block's scale. A ready `cvt` into a microscaled type fills its blocks in ascending order, an
inactive element as +0: a block with a NaN or an infinity gets scale 0xFF and zero elements, a block of zeros, one beyond the last filled block among
them, scale 0x7F and zero elements, another the scale of its largest magnitude and each active element rounded under it. Under `rs` each active
element draws once, in ascending order, and the generator's new state stands in the block. The flags of a form without `rs` stand in the block until
commit, and an enabled one raises an arithmetic fault (0x18). -/
def Obligations.WideningNarrowingAndConversionResults : Prop :=
  (∀ v : FmtV, v.ty.isNarrow = true → ∀ w, w = ElTy.width v.ty → ∀ m : Bool,
      let el (c : VCtx) (l r : VWord) (e : Nat) : Nat × Flags := if c.active w e then wideElem m v.ty (elem w e l) (elem w e r) else (0, {})
      VecFlags (if m then .wmul v else .wadd v) (·.n w) (fun c l r e => (el c l r e).2) fun c l r lo hi =>
        Holds lo (2 * w) (c.n w / 2) (fun j => (el c l r j).1) ∧ Holds hi (2 * w) (c.n w / 2) fun j => (el c l r (c.n w / 2 + j)).1)
    ∧ (∀ ty a b, ElTy.isI ty = true → (wideElem false ty a b).2 = {} ∧ (wideElem true ty a b).2 = {}
        ∧ (wideElem false ty a b).1 = (BitVec.ofInt (2 * ElTy.width ty) (laneInt ty a + laneInt ty b)).toNat
        ∧ (wideElem true ty a b).1 = (BitVec.ofInt (2 * ElTy.width ty) (laneInt ty a * laneInt ty b)).toNat)
    ∧ (∀ p sat ty mode t1, ElTy.isNarrow ty = true → ∀ w, w = ElTy.width ty →
      let src (c : VCtx) (l r : VWord) (e : Nat) : Xv :=
        elemVal (wideTy ty) (if e < c.n w / 2 then elem (2 * w) e l else elem (2 * w) (e - c.n w / 2) r)
      let el (c : VCtx) (l r : VWord) (q e : Nat) : Nat × Flags :=
        if c.active w e then convVal (ElTy.isInt ty) ty { mode := mode, sat := sat, q := q } (src c l r e) else (0, {})
      (mode ≠ .rs → VecFlags (.narrow p sat ty mode t1) (·.n w) (fun c l r e => (el c l r 0 e).2) fun c l r lo hi =>
        lo = hi ∧ Holds lo w (c.n w) fun e => (el c l r 0 e).1)
      ∧ (mode = .rs → VecDraws (.narrow p sat ty mode t1) w (·.n w) (·.active w) fun c l r q e => (el c l r (q e) e).1))
    ∧ (∀ p sat dst mode src t1, mxOf dst = none →
      let n (c : VCtx) : Nat := min (capacity c src) (capacity c dst)
      let act (c : VCtx) (e : Nat) : Bool :=
        c.m0.getLsbD e && match mxOf src with
          | none => c.tail (max (ElTy.width src) (ElTy.width dst)) e
          | some m => decide (e / (if m then 224 else 96) < (c.a + 31) / 32)
      let el (c : VCtx) (l : VWord) (q e : Nat) : Nat × Flags :=
        if act c e then
          convVal (ElTy.isInt src) dst { mode := mode, sat := sat, q := q }
            (match mxOf src with | none => elemVal src (elem (ElTy.width src) e l) | some m => mxElem m l.toNat e)
        else (0, {})
      (mode ≠ .rs → VecFlags (.cvt p sat dst mode src t1) n (fun c l _ e => (el c l 0 e).2) fun c l _ lo hi =>
        lo = hi ∧ Holds lo (ElTy.width dst) (n c) fun e => (el c l 0 e).1)
      ∧ (mode = .rs → VecDraws (.cvt p sat dst mode src t1) (ElTy.width dst) n act fun c l _ q e => (el c l (q e) e).1))
    ∧ (∀ ty mode v, ElTy.isI ty = true →
      convVal true ty { mode := mode, sat := false } (Xv.ofInt v) = ((BitVec.ofInt (ElTy.width ty) v).toNat, {})
      ∧ convVal true ty { mode := mode, sat := true } (Xv.ofInt v) = clamped ty v)
    ∧ (∀ p sat (m : Bool) mode src t1,
      let dst : ElTy := if m then .mx4 else .mx8
      let n (c : VCtx) : Nat := min (capacity c src) ((if m then 224 else 96) * c.beats)
      let act (c : VCtx) (e : Nat) : Bool :=
        decide (e < n c) && c.m0.getLsbD e && match mxOf src with
          | none => c.tail (ElTy.width src) e
          | some k => decide (e / (if k then 224 else 96) < (c.a + 31) / 32)
      let val (c : VCtx) (l : VWord) (blk i : Nat) : Xv :=
        if act c (32 * blk + i) then
          (match mxOf src with | none => elemVal src (elem (ElTy.width src) (32 * blk + i) l) | some k => mxElem k l.toNat (32 * blk + i))
        else .fin false 0 0
      let el (c : VCtx) (l : VWord) (q : Nat → Nat) (blk i : Nat) : Nat × Flags :=
        if act c (32 * blk + i) then blockElem m mode (q (32 * blk + i)) (val c l blk) i else (0, {})
      (mode ≠ .rs → VecFlags (.cvt p sat dst mode src t1) n (fun c l _ e => (el c l (fun _ => 0) (e / 32) (e % 32)).2) fun c l _ lo hi =>
        lo = hi ∧ MxHolds lo m c.beats (fun blk => blockScale m (val c l blk)) fun blk i => (el c l (fun _ => 0) blk i).1)
      ∧ (mode = .rs → VecRs (.cvt p sat dst mode src t1) n act fun c l _ q v =>
        MxHolds v m c.beats (fun blk => blockScale m (val c l blk)) fun blk i => (el c l q blk i).1))

/-- A ready `red` or `scan`, waiting for no older block and with no flag enabled, issues and sends one token. Inactive elements enter as the identity of
the operation. Every granted element of a `red` is the beats' trees combined in ascending order; element `e` of a `scan` is the carry of the beats
before combined with the running value in its beat, and an exclusive scan gives the identity and then the inclusive results. -/
def Obligations.ReductionAndScanResults : Prop :=
  (∀ p md ty (op : BitVec 3) t1 id, ElTy.isI ty = true ∨ ElTy.isF ty = true → (md = true → op = 0 ∨ ElTy.isF ty = true) → (identities ty)[op.toNat]? = some id →
      VecSome (.red p md ty op t1) fun c l _ v =>
        Holds v (ElTy.width ty) (c.n (ElTy.width ty)) fun _ =>
          ((List.range (c.beats - 1)).foldl
            (fun acc b => combineOf ty md op.toNat acc
              (treeOf (combineOf ty md op.toNat) (fun j => enters ty id c l (2 ^ beatLog ty * (b + 1) + j)) (beatLog ty) 0))
            (treeOf (combineOf ty md op.toNat) (enters ty id c l) (beatLog ty) 0)))
    ∧ (∀ p md ty excl (op : BitVec 3) t1 id, ElTy.isI ty = true ∨ ElTy.isF ty = true → op.toNat < 3 → (md = true → op = 0 ∨ ElTy.isF ty = true) → (identities ty)[op.toNat]? = some id →
      VecSome (.scan p md ty excl op t1) fun c l _ v =>
        let inc (e : Nat) : Nat :=
          combineOf ty md op.toNat
            (carryOf (combineOf ty md op.toNat) (enters ty id c l) (beatLog ty) id (e / 2 ^ beatLog ty))
            (scanOf (combineOf ty md op.toNat) (fun j => enters ty id c l (2 ^ beatLog ty * (e / 2 ^ beatLog ty) + j)) (beatLog ty) (e % 2 ^ beatLog ty))
        Holds v (ElTy.width ty) (c.n (ElTy.width ty)) fun e =>
          if excl then (if e = 0 then id else inc (e - 1)) else inc e)

/-- BLOCK_FETCH of a fetcher with nothing in flight and nothing fetched takes the block at its address; an address that is not a multiple of 16 leaves a
block-fetch fault (0x01) that waits for the thread's boundary. DISPATCH_DECISION with a free frame puts the block of the chosen ready candidate into
it with its slots waiting; where a check of R109 fails the block is discarded at once: every frame stays as it was, and the fetcher holds that fault,
which waits for its older blocks; with no candidate passed over 256 times the choice has the highest priority. HELD_SLOT_RESUME lets a held slot issue
again once what it waits for has come; a launch keeps the time at which it reached its queue. -/
def Obligations.FetchDispatchAndResume : Prop :=
  (∀ s c u x, s.site = .ctxU c u → s.ctxs.get? c = some x → x.mayRun u = true → (x.lane u).img = none → (x.lane u).fetchFault = none →
      s.flight c u = [] →
      (∀ i s', s.fetchAt ⟨x.pk, x.core, x.ctl.asn, x.ctl.pm⟩ u (x.lane u).next = (.image i, s') →
        ∃ t y, exec .blockFetch s = .next t ∧ t.ctxs.get? c = some y ∧ (∃ r, (y.lane u).img = some { i with first := r } ∧ ((x.lane u).rptDue = false → r = false))
          ∧ (y.lane u).next = (x.lane u).next
          ∧ y.regs = x.regs ∧ t.blks = s.blks ∧ t.mem = s.mem ∧ t.bufs = s.bufs)
      ∧ (u = .thread → (x.lane u).next.toNat % 16 ≠ 0 → x.thr.succ = false →
        ∃ t y, exec .blockFetch s = .next t ∧ t.ctxs.get? c = some y ∧ y.thr.fetchFault = some { code := 0x01, faddr := x.thr.next }
          ∧ y.regs = x.regs ∧ t.blks = s.blks ∧ t.mem = s.mem ∧ t.bufs = s.bufs))
    ∧ (∀ s d f k x im, s.site = .disp d → s.freeFrame d = some f →
      (s.disp d).choose d.acc ((s.cands d).filter s.readyCand) = some k → s.ctxs.get? k.c = some x → (x.lane k.u).img = some im →
      (dispatchFault im.hdr im.slots (s.gone x.pk) x.ctl.pm = none →
        ∃ t b, exec .dispatchDecision s = .next t ∧ t.blks.get? f = some b ∧ b.ctx = k.c ∧ b.u = k.u ∧ b.addr = im.addr ∧ b.hdr = im.hdr
          ∧ b.firing = (x.lane k.u).firing ∧ b.pm = x.ctl.pm ∧ b.slots = im.slots ∧ b.faults = []
          ∧ (∀ g, g ≠ f → t.blks.get? g = s.blks.get? g) ∧ t.mem = s.mem ∧ t.bufs = s.bufs)
      ∧ (∀ r, dispatchFault im.hdr im.slots (s.gone x.pk) x.ctl.pm = some r →
        ∃ t y, exec .dispatchDecision s = .next t ∧ t.ctxs.get? k.c = some y ∧ (y.lane k.u).fetchFault = some r ∧ y.regs = x.regs ∧ t.blks = s.blks
          ∧ t.mem = s.mem ∧ t.bufs = s.bufs)
      ∧ ((∀ o ∈ s.cands d, (s.disp d).passes o < 256) → ∀ o ∈ s.cands d, s.readyCand o = true → k.prio ≤ o.prio))
    ∧ (∀ s cu b sl x, s.site = .slot cu → s.blks.get? cu.frame = some b → b.slots[cu.slot]? = some sl → s.ctxs.get? b.ctx = some x →
      sl.st = .held → s.unheld b x sl = true →
      exec .heldSlotResume s = .next (s.setBlk cu.frame (b.updSlot cu.slot fun sl => { sl with st := .waiting, why := sl.why.filter HoldWhy.isLaunch })))

/-- The oldest block of a running access thread without events due at its boundary, complete, without store-class effects and without a repeat field,
commits: its frame is free, each general register that it completed has its value and handle, the others and `g0` keep theirs, memory is unchanged,
and its branch acts. A jump or a call goes to its successor, a call with the return address pushed; a return goes 16 times its operand past the
address popped; `trap` and `svc` enter the handler with the saved pc and privilege; `rfe` restores them; a wait-class branch waits. A seventeenth call
and a return from an empty stack fault. The oldest block that can issue nothing more and does not meet the commit rule holds an incomplete-block fault
that names its lowest slot that has not issued. -/
def Obligations.BlockCommit : Prop :=
  (∀ s f b x br, s.site = .frame f → s.blks.get? f = some b → s.ctxs.get? b.ctx = some x → b.branch = some br → x.live = true →
      s.isOldest b = true → b.ruleMet = true → s.commitWaits b x = false → b.u = .thread → b.hdr.kind = 1 → b.hdr.rpt = 0 →
      b.effs = [] → b.takes = [] → b.handles = [] → x.eventsDue = false → s.commitSealed b x = false →
      ((∀ a, br.kind = .call a → x.thr.depth < 16) → (∀ k, br.kind = .ret k → x.thr.depth ≠ 0) →
        (∀ k, br.kind = .trap k ∨ br.kind = .svc k → x.ctl.hm = false) →
        ∃ t y, exec .blockCommit s = .next t ∧ t.ctxs.get? b.ctx = some y ∧ t.blks.get? f = none ∧ t.mem = s.mem ∧ t.bufs = s.bufs
          ∧ vecGet y.regs.g 0 0 = vecGet x.regs.g 0 0
          ∧ (∀ n, n < 64 → (∀ r ∈ b.regs, r.1 = n → r.2 = none) →
            vecGet y.regs.g n 0 = vecGet x.regs.g n 0 ∧ vecGet y.regs.gh n none = vecGet x.regs.gh n none)
          ∧ (∀ n k, 0 < n → n < 64 → (n, some k) ∈ b.regs → (∀ r ∈ b.regs, r.1 = n → r.2 = some k) →
            vecGet y.regs.g n 0 = k.val ∧ vecGet y.regs.gh n none = k.handle)
          ∧ (∀ a, br.kind = .jump a → y.thr.next = a ∧ y.thr.depth = x.thr.depth ∧ y.thr.stk = x.thr.stk ∧ y.ctl = x.ctl)
          ∧ (∀ a, br.kind = .call a → y.thr.next = a ∧ y.thr.depth = x.thr.depth + 1 ∧ y.ctl = x.ctl
            ∧ y.thr.stk = vecSet x.thr.stk x.thr.depth (align16 (b.addr + BitVec.ofNat 64 ((b.hdr.len + 15) / 16 * 16))))
          ∧ (∀ k : Word, br.kind = .ret k → y.thr.next = (vecGet x.thr.stk (x.thr.depth - 1) 0 : Word) + k <<< 4 ∧ y.thr.depth = x.thr.depth - 1 ∧ y.ctl = x.ctl)
          ∧ (∀ w a, br.kind = .wait w a → (∃ m, y.thr.wait = some { kind := w, next := a, met := m } ∧ (w = .yield ∨ w = .idle → m = none)) ∧ y.ctl = x.ctl)
          ∧ (∀ k : BitVec 9, br.kind = .trap k ∨ br.kind = .svc k →
            y.recs.code = (if br.kind = .svc k then 0x21 else 0x20)
              ∧ y.recs.epc = align16 (b.addr + BitVec.ofNat 64 ((b.hdr.len + 15) / 16 * 16))
              ∧ y.recs.finfo = k.setWidth 64 <<< 16
              ∧ y.thr.next = align16 x.ctl.tvec ∧ y.ctl = { x.ctl with spm := x.ctl.pm, pm := true, hm := true })
          ∧ (br.kind = .rfe → y.thr.next = align16 x.recs.epc ∧ y.ctl = { x.ctl with pm := x.ctl.spm, hm := false }))
      ∧ (∀ a, br.kind = .call a → 16 ≤ x.thr.depth →
        exec .blockCommit s = .next (s.setBlk f { b with faults := b.faults ++ [{ code := 0x08, slot := BitVec.ofNat 7 b.brSlot }] }))
      ∧ (∀ k, br.kind = .ret k → x.thr.depth = 0 →
        exec .blockCommit s = .next (s.setBlk f { b with faults := b.faults ++ [{ code := 0x09, slot := BitVec.ofNat 7 b.brSlot }] })))
    ∧ (∀ s f b x, s.site = .frame f → s.blks.get? f = some b → s.ctxs.get? b.ctx = some x → s.isOldest b = true → b.faults = [] →
      b.ruleMet = false → (∀ e ∈ b.instrs, b.canIssue x e = false) → (∀ sl ∈ b.slots, sl.st ≠ .out ∧ sl.st ≠ .held) →
      ∃ r, exec .incompleteBlockFault s = .next (s.setBlk f { b with faults := [r] }) ∧ r.code = 0x07
        ∧ (∀ n sl, b.slots[n]? = some sl → sl.isOver = false → (∀ k sk, k < n → b.slots[k]? = some sk → sk.isOver = true) → n < 128 →
          r.slot.toNat = n ∧ r.blk = false)
        ∧ ((∀ sl ∈ b.slots, sl.isOver = true) → r.blk = true))

/-- At a boundary of a running thread TRAP_ENTRY takes the fault that its oldest block holds: the cause, the resume address and the record are saved, the
privilege is saved and raised, handler mode is set, the thread goes on at `cr.tvec`, its blocks are discarded, and no register and no byte of memory
changes. Without a fault it delivers the pending events as one trap with code 0x28 and clears them. In handler mode a fault is a double fault: the
context is faulted with code 0x3F and the code of the second fault. STREAM_FAULT stops a stream with its record and raises event 4 on the thread;
XCAUSE_RESUME resumes it at `cr.xepc`. WAIT_END ends a wait whose condition holds and goes on at the successor; WST_CANCEL drops the suspended wait. -/
def Obligations.TrapsStopsAndWaits : Prop :=
  (∀ s c x f b r rs, s.site = .ctx c → s.ctxs.get? c = some x → x.live = true → s.oldest c .thread = some (f, b) → b.faults = r :: rs →
      (x.ctl.hm = false →
        ∃ t y, exec .trapEntry s = .next t ∧ t.ctxs.get? c = some y ∧ y.recs.code = BitVec.ofNat 8 r.code ∧ y.recs.dcode = 0
          ∧ y.recs.epc = align16 b.addr ∧ y.recs.faddr = r.faddr ∧ y.recs.finfo = r.finfo
          ∧ y.ctl = { x.ctl with spm := x.ctl.pm, pm := true, hm := true }
          ∧ y.thr.next = align16 x.ctl.tvec ∧ y.st = .handling ∧ y.regs = x.regs ∧ y.str = x.str ∧ t.flight c .thread = []
          ∧ (∀ u, u ≠ .thread → t.flight c u = s.flight c u) ∧ t.mem = s.mem ∧ t.bufs = s.bufs)
      ∧ (x.ctl.hm = true →
        ∃ t y, exec .trapEntry s = .next t ∧ t.ctxs.get? c = some y ∧ y.st = .faulted ∧ y.recs.code = 0x3F
          ∧ y.recs.dcode = BitVec.ofNat 8 r.code ∧ y.recs.epc = align16 b.addr))
    ∧ (∀ s c x, s.site = .ctx c → s.ctxs.get? c = some x → x.live = true → (∀ e, s.oldest c .thread = some e → e.2.faults = []) →
      x.thr.fetchFault = none → x.ctl.evpend ≠ 0 → x.ctl.hm = false → x.done = false →
      ∃ t y, exec .trapEntry s = .next t ∧ t.ctxs.get? c = some y ∧ y.recs.code = 0x28 ∧ y.recs.epc = align16 (s.nextAddr c .thread x)
        ∧ y.recs.finfo = x.ctl.evpend.setWidth 64 <<< 56
        ∧ y.ctl = { x.ctl with spm := x.ctl.pm, pm := true, hm := true, evpend := 0 }
        ∧ y.thr.next = align16 x.ctl.tvec ∧ y.thr.wait = none ∧ y.regs = x.regs ∧ t.mem = s.mem ∧ t.bufs = s.bufs
        ∧ (∀ w tok thr, x.thr.wait = some w → w.kind = .sig tok thr → y.susp = some w))
    ∧ (∀ s f b x r rs, s.site = .frame f → s.blks.get? f = some b → s.ctxs.get? b.ctx = some x → x.live = true → x.recs.xvalid = false →
      b.u = .stream → s.isOldest b = true → b.faults = r :: rs →
      ∃ t y, exec .streamFault s = .next t ∧ t.ctxs.get? b.ctx = some y ∧ y.recs.xvalid = true ∧ y.recs.xcode = BitVec.ofNat 8 r.code
        ∧ y.recs.xepc = align16 b.addr ∧ y.recs.xinfo = r.finfo ∧ y.ctl.evpend = x.ctl.evpend ||| 0x10
        ∧ y.thr = x.thr ∧ y.regs = x.regs ∧ t.flight b.ctx .stream = [] ∧ t.mem = s.mem ∧ t.bufs = s.bufs)
    ∧ (∀ s c x, s.site = .ctx c → s.ctxs.get? c = some x → x.recs.xvalid = true → x.recs.xact = none →
      ∃ t y, exec .xcauseResume s = .next t ∧ t.ctxs.get? c = some y ∧ t.blks = s.blks ∧ t.mem = s.mem ∧ y.recs = { x.recs with xvalid := false } ∧ y.str.next = x.recs.xepc ∧ y.str.img = none
        ∧ y.thr = x.thr ∧ y.regs = x.regs ∧ y.ctl = x.ctl)
    ∧ (∀ s c x u w r, s.site = .ctxU c u → s.ctxs.get? c = some x → x.live = true → (x.lane u).wait = some w →
      s.waitStatus c x u w = some r → (∀ n, u ≠ .act n) →
      exec .waitEnd s = .next (s.setCtx c (x.setLane u { (x.lane u) with wait := none, succ := true, next := w.succ r })))
    ∧ (∀ s c x, s.site = .ctx c → s.ctxs.get? c = some x → exec .wstCancel s = .next (s.setCtx c { x with susp := none }))

/-- A stream between blocks adopts the entry at the head of `cmdq`: a start notice marks its operation, a shape marker writes its shape register and makes
it active, a register marker writes its register, a binding command binds or unbinds its port, and a refused bind stops the stream with code 0x30.
CASK_MOVE moves the oldest element of a cask into the window. STREAM_START starts a noticed operation whose role is free; STREAM_ITEM reads the next
item of a read, and ends an operation that has nothing left. A parked operation resumes from its cursor, or is abandoned. -/
def Obligations.CommandQueueAndStreamEvents : Prop :=
  (∀ s c x e r, s.site = .ctx c → s.ctxs.get? c = some x → x.ports.cmdq = e :: r → s.adoptable c x = true →
      (e.kind = .start →
        exec .cmdqAdopt s = .next (s.setCtx c { x with
          ports := { x.ports with cmdq := r }
          eng := { x.eng with eqs := vecSet x.eng.eqs e.eq (noticeOp e.op (vecGet x.eng.eqs e.eq [])) } }))
      ∧ (∀ k, e.kind = .shape k →
        ∃ y, exec .cmdqAdopt s = .next (s.setCtx c y) ∧ y.ports = { x.ports with cmdq := r }
          ∧ y.regs.shE = vecSet x.regs.shE k e.v ∧ y.regs.v = x.regs.v ∧ y.regs.m = x.regs.m
          ∧ y.regs.actV = (if fld e.v 62 2 = 1 then some k else x.regs.actV)
          ∧ y.regs.actT = (if fld e.v 62 2 = 2 then some k else x.regs.actT))
      ∧ (e.kind = .creg 0x31 →
        ∃ t y, exec .cmdqAdopt s = .next t ∧ t.ctxs.get? c = some y ∧ y.ports = { x.ports with cmdq := r }
          ∧ y.fx.lfsr = (if e.v.extractLsb' 0 32 = 0 then 1 else e.v.extractLsb' 0 32) ∧ y.fx.fpst = x.fx.fpst)
      ∧ (e.kind = .binding →
        (fld e.v 60 4 = 1 → s.bindRefused (objKey x.pk (fld e.v 0 12)) true = false →
          ∃ t y b, exec .cmdqAdopt s = .next t ∧ t.ctxs.get? c = some y ∧ y.ports.cmdq = r ∧ y.ports.outs = x.ports.outs
            ∧ y.ports.ins = vecSet x.ports.ins (fld e.v 40 5) (some b) ∧ b.queue = fld e.v 0 12
            ∧ b.plane = (s.queue (objKey x.pk (fld e.v 0 12))).plane)
        ∧ (fld e.v 60 4 = 2 → s.bindRefused (objKey x.pk (fld e.v 0 12)) false = false →
          ∃ t y b, exec .cmdqAdopt s = .next t ∧ t.ctxs.get? c = some y ∧ y.ports.cmdq = r ∧ y.ports.ins = x.ports.ins
            ∧ y.ports.outs = vecSet x.ports.outs (fld e.v 40 5) (some b) ∧ b.queue = fld e.v 0 12
            ∧ b.round = (s.queue (objKey x.pk (fld e.v 0 12))).arnd)
        ∧ (fld e.v 60 4 = 1 → s.bindRefused (objKey x.pk (fld e.v 0 12)) true = true →
          ∃ t y, exec .cmdqAdopt s = .next t ∧ t.ctxs.get? c = some y ∧ y.recs.xvalid = true ∧ y.recs.xcode = 0x30
            ∧ y.ports.ins = vecSet x.ports.ins (fld e.v 40 5) none)
        ∧ (fld e.v 60 4 = 3 →
          exec .cmdqAdopt s = .next (s.setCtx c { x with ports := { x.ports with cmdq := r, ins := vecSet x.ports.ins (fld e.v 40 5) none } }))
        ∧ (fld e.v 60 4 = 4 →
          exec .cmdqAdopt s = .next (s.setCtx c { x with ports := { x.ports with cmdq := r, outs := vecSet x.ports.outs (fld e.v 40 5) none } }))))
    ∧ (∀ s k e r, s.site = .obj k → (s.queue k).cask = e :: r → (s.queue k).state ≠ .frozen → (s.queue k).els.length < (s.queue k).capacity →
      (s.queue k).caskBad = false →
      ∃ q, exec .caskMove s = .next (s.setQueue k q) ∧ q.els = (s.queue k).els ++ [e] ∧ q.cask = r
        ∧ q.state = (if r = [] ∧ (s.queue k).state = .spilling then .open else (s.queue k).state))
    ∧ (∀ s c q x op w base g, s.site = .ctxQ c q → s.ctxs.get? c = some x → x.head q = some op → q ≠ 14 → x.live = true → op.running = false →
      op.park = none → op.noticed = true → op.kind = .go w base g → fld w 57 3 = 0 ∨ fld w 57 3 = 1 →
      (s.queue (objKey x.pk (fld w 0 12))).state ≠ .frozen →
      s.roleHeld c q (objKey x.pk (fld w 0 12)) (fld w 57 3 = 0) = false →
      s.roleAwaited op.stamp (objKey x.pk (fld w 0 12)) (fld w 57 3 = 0) = false →
      ∃ t y, exec .streamStart s = .next t ∧ t.ctxs.get? c = some y ∧ y.head q = some { op with running := true, swin := none }
        ∧ (fld w 57 3 = 0 → (t.queue (objKey x.pk (fld w 0 12))).strmProd = some (c, q))
        ∧ (fld w 57 3 = 1 → (t.queue (objKey x.pk (fld w 0 12))).strmCons = some (c, q)))
    ∧ (∀ s c q x op w base g, s.site = .ctxQ c q → s.ctxs.get? c = some x → x.head q = some op → q < 14 → x.live = true → op.running = true →
      x.fenced op = false → op.kind = .go w base g → fld w 57 3 = 0 →
      (s.queue (objKey x.pk (fld w 0 12))).state = .open → op.packed = [] → op.ahead = [] → op.markDue = false →
      (∀ a ps s' u, op.nextGen w base g = .item a →
        s.access ⟨x.pk, x.core, x.ctl.asn, op.pm⟩ a (2 ^ fld w 55 2) (2 ^ fld w 55 2) true false false none = (.ok ps, s') →
        (∀ p ∈ ps, s'.homeUp x.pk (s'.dieN x) p.pa = true) → s'.waitAt (.engine c q) none (ps.map fun p => s'.lineOf x.pk p.pa) = none →
        ps.foldl (fun s p => s.redirected x.pk p.pa) s' = u → (∀ p ∈ ps, u.evFails x.pk p.pa p.key = false) →
        ∃ t y, exec .streamItem s = .next t ∧ t.ctxs.get? c = some y ∧ t.mem = s.mem ∧ t.queues = s.queues
          ∧ (∃ d m, y.head q = some { op with pull := none, packed := ps.flatMap (u.readEv x.pk), ahead := m, gen := op.gen + 1, markDue := d }))
      ∧ (op.nextGen w base g = .done →
        ∃ t y, exec .streamItem s = .next t ∧ t.ctxs.get? c = some y
          ∧ vecGet y.eng.eqs q [] = (vecGet x.eng.eqs q []).filter (fun o => o.stamp ≠ op.stamp)
          ∧ (∀ k, (t.queue k).strmProd ≠ some (c, q)) ∧ t.mem = s.mem))
    ∧ (∀ s c q x op p, s.site = .ctxQ c q → s.ctxs.get? c = some x → x.head q = some op → q < 16 → op.park = some p →
      (∃ t y o, exec .sstatResume s = .next t ∧ t.ctxs.get? c = some y ∧ y.head q = some o ∧ o.park = none ∧ o.gen = op.cursor
        ∧ o.cursor = op.cursor ∧ o.kind = op.kind ∧ t.mem = s.mem)
      ∧ (∃ t y, exec .sstatAbandon s = .next t ∧ t.ctxs.get? c = some y
        ∧ vecGet y.eng.eqs q [] = (vecGet x.eng.eqs q []).filter (fun o => o.stamp ≠ op.stamp) ∧ t.mem = s.mem))

/-- The operation at the head of the matrix queue takes its next step, once no bank that it names is still on its way to its partition. A K-group adds to
each active element of the accumulator tile the exact sum of its products, in `s8` modulo 2^32; every other byte of the buffers is unchanged. A tile
move without transposition copies the bits of every row. A clear makes every byte of its tile zero. An `accst` appends its next row where its outlet
has room for its round. An `accrd` that waits for nothing sends the row it names. A stopped gather is resumed, or abandoned. -/
def Obligations.MatrixEvents : Prop :=
  (∀ s c x op q, s.site = .ctx c → s.ctxs.get? c = some x → x.fx.q14 = op :: q → op.stop = none → x.live = true → s.mxComes x op = false → s.bufs.wf = true →
      (∀ ty sat acc a w as ws, op.kind = .mma ty sat acc a w → op.ext.aK ≠ 0 → op.ext.aN ≤ op.ext.gN →
        s.beats x (op.src a .a 0) a (groupBeat (mmaEl ty) op.next) op.ext.aM = some as →
        s.beats x (op.src w .w (if descWin a then 1 else 0)) w (groupBeat (mmaEl ty) op.next) op.ext.aN = some ws →
        ∃ t, exec .mmaKGroup s = .next t ∧ t.mem = s.mem
          ∧ (∀ i j, i < op.ext.aM → j < op.ext.aN →
            leNat (t.bufRead x.pk.pkg x.core .c (accOff op.accBase op.ext acc + 4 * (i * op.ext.gN + j)) 4)
              = (groupAdd ty sat (leNat (s.bufRead x.pk.pkg x.core .c (accOff op.accBase op.ext acc + 4 * (i * op.ext.gN + j)) 4))
                  (groupProducts (mmaEl ty) (as.getD i 0) (ws.getD j 0)
                    (((List.range 32).map (32 * op.next + ·)).filter fun k => k < op.ext.aK))).1 % 2 ^ 32)
          ∧ (∀ n, n < bufKey x.pk.pkg x.core .c (accOff op.accBase op.ext acc)
              ∨ bufKey x.pk.pkg x.core .c (accOff op.accBase op.ext acc) + 4 * op.ext.gN * op.ext.aM ≤ n → t.bufs.read n = s.bufs.read n))
      ∧ (∀ src dst sd dd ty i, op.kind = .tmov false src dst sd dd → descTy sd = some ty → descTy dd = some ty → mxOf ty = none →
        128 * rowBeats ty (tmovDims op.ext sd).2 ≤ descPitch dd → i < (tmovDims op.ext sd).1 →
        ∃ t, exec .tmovPerform s = .next t ∧ t.mem = s.mem
          ∧ leNat (t.bufRead x.pk.pkg x.core dst (descOff dd + descPitch dd * i) (128 * rowBeats ty (tmovDims op.ext sd).2))
                % 2 ^ (ElTy.width ty * (tmovDims op.ext sd).2)
              = leNat (s.bufRead x.pk.pkg x.core src (descOff sd + descPitch sd * i) (128 * rowBeats ty (tmovDims op.ext sd).2))
                % 2 ^ (ElTy.width ty * (tmovDims op.ext sd).2))
      ∧ (∀ acc, op.kind = .acclr acc →
        ∃ t, exec .acclrPerform s = .next t ∧ t.mem = s.mem
          ∧ (∀ n, t.bufs.read n
            = if bufKey x.pk.pkg x.core .c (accOff op.accBase op.ext acc) ≤ n
                ∧ n < bufKey x.pk.pkg x.core .c (accOff op.accBase op.ext acc) + 4 * op.ext.gM * op.ext.gN then 0 else s.bufs.read n))
      ∧ (∀ acc st b, op.kind = .accst acc st → op.next < op.ext.aM → x.outlet (fld st 0 5) = some b → s.roomOf x (objKey x.pk b.queue) ≠ 0 →
        s.outOfTurn (objKey x.pk b.queue) b.round = false → s.reachesSealed (objKey x.pk b.queue) = false → (s.queue (objKey x.pk b.queue)).stage = .pass →
        (s.queue (objKey x.pk b.queue)).journal = false →
        ∃ t el, exec .accstRowAppend s = .next t ∧ t.mem = s.mem ∧ t.bufs = s.bufs ∧ el.marker = false
          ∧ el.bits = trimTo (s.queue (objKey x.pk b.queue)).size
              (accstRow st (s.accRow x (accOff op.accBase op.ext acc + 4 * op.next * op.ext.gN) op.ext.aN)).1
          ∧ (t.queue (objKey x.pk b.queue)).all = (s.queue (objKey x.pk b.queue)).all ++ [el]))
    ∧ (∀ old a w ks, old < 2 ^ 32 → (groupAdd .s8 false old (groupProducts .s8 a w ks)).1
        = (BitVec.ofInt 32 ((BitVec.ofNat 32 old).toInt
            + (ks.map fun k => laneInt .s8 (a / 2 ^ (k * 8 % 1024) % 256) * laneInt .s8 (w / 2 ^ (k * 8 % 1024) % 256)).sum)).toNat)
    ∧ (∀ s cu b sl x p id acc t1 l m, s.site = .slot cu → s.blks.get? cu.frame = some b → b.slots[cu.slot]? = some sl → s.ctxs.get? b.ctx = some x →
      decode sl.plane sl.word = .ok (.accrd p id acc t1) → sl.l = some l → sl.st = .out → b.rds.find? (fun r => r.1 = cu.slot) = some (cu.slot, m) → x.accrdWaits b.u m = false →
      s.accComes x acc.toNat = false →
      exec .accrdDeliver s = .next (s.sentOne cu b sl (.accrd p id acc t1) (s.accTok x acc.toNat (elem 32 0 l.bits))))
    ∧ (∀ s c x op q p, s.site = .ctx c → s.ctxs.get? c = some x → x.fx.q14 = op :: q → op.stop = some p →
      (∃ t y, exec .mxprogResume s = .next t ∧ t.ctxs.get? c = some y ∧ y.fx.q14 = { op with stop := none } :: q ∧ t.mem = s.mem ∧ t.bufs = s.bufs)
      ∧ (∃ t y, exec .mxprogAbandon s = .next t ∧ t.ctxs.get? c = some y ∧ y.fx.q14 = (op :: q).filter (fun o => o.stamp ≠ op.stamp)
        ∧ t.mem = s.mem ∧ t.bufs = s.bufs))

/-- A member of a group to be saved sparges: its blocks in flight are discarded, its lease ends, its registers stand. A drained context is saved, its
image in memory holding the thread's next address and each general register; a drain past its budget becomes a kiln, and a finished kiln scan saves
the context. A saved context, the first saved member of a group that is considered and whose images are accepted, comes back at the position that the
group's seats give it with the general registers, the next address and the pending events that its image holds, and no valid handle. The scheduler
marks a group to be saved; of the groups that it considers it restores the first eligible one to its die, or keeps it saved with its error; a done and
quiet member of a freeing group ends. -/
def Obligations.SaveRestoreAndGroupEvents : Prop :=
  (∀ s c x g, s.site = .ctx c → s.ctxs.get? c = some x → s.groups.get? (objKey x.pk x.group) = some g → x.live = true → g.st = .saving →
      ∃ t y, exec .preemptBegin s = .next t ∧ t.ctxs.get? c = some y ∧ y.st = .sparging ∧ y.regs = x.regs ∧ y.recs = x.recs
        ∧ y.lease.st = .none ∧ (∀ e ∈ t.blks, e.2.ctx ≠ c) ∧ (∀ e ∈ s.blks, e.2.ctx ≠ c → e ∈ t.blks) ∧ t.mem = s.mem ∧ t.bufs = s.bufs)
    ∧ (∀ s c x, s.site = .ctx c → s.ctxs.get? c = some x → x.st = .sparging → x.ctl.drain ≠ 0 → s.drained x = true →
      ∃ t y, exec .drainComplete s = .next t ∧ t.ctxs.get? c = some y ∧ y.st = .saved ∧ y.ctl.evpend = 0 ∧ y.regs = x.regs
        ∧ (s.mem.wf = true → fld (s.part x.pk).vdcfg 62 2 = 0 → 65536 ≤ x.image → (s.pkg x.pk.pkg).inLocal x.image x.imageLen = true →
          t.peekW x.pk.pkg (x.image + 8) = (match x.thr.wait with | some w => w.next | none => x.thr.next)
            ∧ ∀ n, 0 < n → n < 64 → t.peekW x.pk.pkg (x.image + 0x80 + 8 * n) = vecGet x.regs.g n 0))
    ∧ (∀ s c x, s.site = .ctx c → s.ctxs.get? c = some x → x.st = .sparging → x.ctl.drain = 0 ∨ s.drained x = false →
      x.ctl.drain.toNat ≤ (s.cycle x.pk.pkg (s.dieN x) - x.pre.start).toNat →
      exec .kilnStart s = .next (s.setCtx c { x with st := .kilning, pre := { x.pre with kiln := true } }))
    ∧ (∀ s c x, s.site = .ctx c → s.ctxs.get? c = some x → x.st = .kilning →
      ∃ t y, exec .kilnScanComplete s = .next t ∧ t.ctxs.get? c = some y ∧ y.st = .saved ∧ y.pre.kiln = true ∧ y.regs = x.regs)
    ∧ (∀ s c core pos x k g die u base ms, s.site = .ctxAt c core pos → s.ctxs.get? c = some x → k = objKey x.pk x.group → s.groups.get? k = some g →
      x.st = .saved → (s.part x.pk).look.contains k.n = true → s.eligible k g = true →
      (∀ e ∈ s.groups, e.1.pk = k.pk → (s.part k.pk).look.contains e.1.n = true → s.eligible e.1 e.2 = true → e.2.before g = false) →
      s.groupErr g = 0 → s.groupSeats k g = some (die, u) → s.savedMembers g = (c, x) :: ms → (∀ m ∈ ms, m.1 ≠ c) →
      (if x.ctl.aonly then u.accs.head? = some (core, pos) else u.pairs.head? = some ((core, pos), base)) →
      ∃ t y, exec .contextRestore s = .next t ∧ t.ctxs.get? c = some y ∧ y.pos = some (core, pos) ∧ y.live = true
        ∧ y.thr.next = s.peekW x.pk.pkg (x.image + 8) ∧ vecGet y.regs.g 0 0 = 0
        ∧ (∀ n, 0 < n → n < 64 → vecGet y.regs.g n 0 = s.peekW x.pk.pkg (x.image + 0x80 + 8 * n))
        ∧ (∀ n, (vecGet y.regs.th n {}).tr = none)
        ∧ (s.peekW x.pk.pkg (x.image + 32)).extractLsb' 0 8 &&& ~~~ y.ctl.evpend = 0 ∧ x.ctl.evpend &&& ~~~ y.ctl.evpend = 0
        ∧ t.mem = s.mem ∧ t.blks = s.blks)
    ∧ (∀ s k g kk kn, s.site = .obj k → s.groups.get? k = some g →
      s.kerns.find? (fun e => e.1.pk = k.pk && s.victim e.1 e.2 = some k) = some (kk, kn) →
      ∃ t g', exec .groupPreempt s = .next t ∧ t.groups.get? k = some g' ∧ g'.preFor = some kk ∧ g'.members = g.members
        ∧ (g'.st = .saving ∨ g'.st = .saved) ∧ t.mem = s.mem ∧ t.blks = s.blks)
    ∧ (∀ s k g p, s.site = .obj k → s.groups.get? k = some g → s.part k.pk = p → p.look.contains k.n = true → s.eligible k g = true →
      (∀ e ∈ s.groups, e.1.pk = k.pk → p.look.contains e.1.n = true → s.eligible e.1 e.2 = true → e.2.before g = false) →
      (s.groupErr g ≠ 0 → exec .groupRestore s = .next ((s.setPart k.pk { p with look := p.look.filter fun n => n ≠ k.n }).updGroup k fun g' =>
        { g' with err := BitVec.ofNat 3 (s.groupErr g) }))
      ∧ (s.groupErr g = 0 → s.groupSeats k g = none → exec .groupRestore s
        = .next ((s.setPart k.pk { p with look := p.look.filter fun n => n ≠ k.n }).updGroup k fun g' => { g' with err := 4 }))
      ∧ (∀ die u, s.groupErr g = 0 → s.groupSeats k g = some (die, u) →
        ∃ t g', exec .groupRestore s = .next t ∧ t.groups.get? k = some g' ∧ g'.die = die ∧ g'.unit = u.unit ∧ g'.members = g.members ∧ t.mem = s.mem))
    ∧ (∀ s c x g, s.site = .ctx c → s.ctxs.get? c = some x → s.groups.get? (objKey x.pk x.group) = some g → g.st = .freeing →
      g.members.contains c = true → x.live = true → s.quiet c x = true →
      ∃ t y, exec .groupMemberEnd s = .next t ∧ t.ctxs.get? c = some y ∧ y.st = .ended ∧ y.pos = none ∧ t.mem = s.mem)

/-- A complete host entry with the sequence of the tail is accepted as a kernel. The kernel at the head of a queue is placed whole and runs, with its
fenced and pinned pages; one with a malformed descriptor is faulted with status 3 and the head passes it. A running kernel whose every context has
ended or is quiet is completing, and a fence is requested. A fence without a record area advances the sequence and ends the completing kernels; with
one whose slot holds its record it writes the record, ends no kernel and is in progress, and the next step of the fence ends the kernels that the
record shows as completing. A kernel that ends so is complete with status 1, and the write of its completion word is made; while that write has to
wait (a page in transit, stores of the kernel not yet performed) the kernel stays completing and the fence unfinished, and a later step ends it.
(Stated of a fence that ends no kernel or one.) The commands of `cr.kctl` mark a context done, request a fence, and fault the kernel with status 2 and
its code. -/
def Obligations.KernelEvents : Prop :=
  (∀ s pk n w0 w1 q got, s.site = .partLq pk n → n < 4 → (s.part pk).st.runs = true → (s.part pk).lqCap n ≠ 0 → s.lqRoom pk n ≠ 0 →
      q = vecGet (s.part pk).tail n 0 → (s.part pk).rings.getD (n, q.toNat % (s.part pk).lqCap n) {} = got → got.bytes = 0xFFFF →
      s.lqBefore pk n got.at' = false →
      s.peekW pk.pkg ((s.part pk).ringAddr n (q.toNat % (s.part pk).lqCap n)) = w0 →
      s.peekW pk.pkg ((s.part pk).ringAddr n (q.toNat % (s.part pk).lqCap n) + 8) = w1 →
      w1.toNat = q.toNat * 2 ^ 32 → w0.toNat / 2 ^ 52 = 0 → w0.toNat % 128 = 0 →
        ∃ t k, exec .launchAccept s = .next t ∧ t.kerns.get? ⟨pk, n, q.toNat⟩ = some k
          ∧ k.st = .accepted ∧ k.pa = w0.toNat ∧ k.srcPriv = got.pf ∧ k.host = true ∧ t.mem = s.mem ∧ t.ctxs = s.ctxs)
    ∧ (∀ s pk n kk k k1, s.site = .partLq pk n → kk = ⟨pk, n, (vecGet (s.part pk).head n 0).toNat⟩ → s.kerns.get? kk = some k →
      (s.part pk).st.runs = true → vecGet (s.part pk).head n 0 ≠ vecGet (s.part pk).tail n 0 → k.st = .accepted ∨ k.st = .placing →
      ((List.range (min n 4)).any (s.headMoves pk)) = false →
      ((s.pkg pk.pkg).inLocal k.pa 128 = true → (s.part pk).movingAt k.pa = none) → s.targetOk (unitWho pk 0 false) k.pa 128 false false false = true → s.evFails pk k.pa 0 = false →
      k1 = { k with desc := s.descOf pk k.pa, st := .placing } → (k1.dw 0).getLsbD 9 = false ∨ s.earlierRuns kk = false →
      (k1.bad = true →
        ∃ t k', exec .kernelPlacement s = .next t ∧ t.kerns.get? kk = some k' ∧ k'.st = .faulted ∧ k'.status = 3
          ∧ vecGet (t.part pk).head n 0 = vecGet (s.part pk).head n 0 + 1 ∧ (t.part pk).fenceReq = true)
      ∧ (∀ pl s1 s2, s.plan pk { k with desc := s.descOf pk k.pa } = .ok pl →
        ({ s with kerns := s.kerns.put kk k1 } : State).placeGroups kk k1 pl.groups 0 0 = some s1 →
        s1.openQueues pk (((s1.groups.filter fun e => e.2.kern = kk).map fun e => e.2.die).headD 0) pl.queues = some s2 →
        ∃ t k', exec .kernelPlacement s = .next t ∧ t.kerns.get? kk = some k' ∧ k'.st = .running ∧ k'.fenced = pl.fenced ∧ k'.pinned = pl.code))
    ∧ (∀ s kk k, s.site = .kern kk → s.kerns.get? kk = some k → k.st = .running →
      (∀ e ∈ s.ctxs, e.2.kern = kk → e.2.st = .ended ∨ s.quiet e.1 e.2 = true) →
      ∃ t, exec .kernelQuiet s = .next t ∧ t.kerns.get? kk = some { k with st := .completing } ∧ (t.part kk.pk).fenceReq = true
        ∧ t.ctxs = s.ctxs ∧ t.mem = s.mem)
    ∧ (∀ s pk p u, s.site = .part pk → s.part pk = p → p.st = .resident → p.fencing = false → p.ending = [] → p.fenceReq = true →
      fld p.kfrec 52 12 = 0 → u = ((s.setPart pk { p with fenceReq := false }).setPart pk { p with fenceReq := false, fseq := p.fseq + 1 }) →
      ((s.recordOf pk (p.fseq + 1)).ends = [] → ∃ t, exec .partitionFence s = .next t ∧ (t.part pk).fseq = p.fseq + 1 ∧ (t.part pk).fenceReq = false
        ∧ t.kerns = s.kerns ∧ t.mem = s.mem)
      ∧ ∀ kk k, kk.pk = pk → s.kerns.get? kk = some k → k.st = .completing → (s.recordOf pk (p.fseq + 1)).ends = [(kk.lq, kk.seq)] →
        FenceEnds u kk k (exec .partitionFence s))
    ∧ (∀ s pk p, s.site = .part pk → s.part pk = p → p.st = .resident → p.fencing = false → p.ending = [] → p.fenceReq = true →
      fld p.kfrec 52 12 ≠ 0 → (s.recordOf pk (p.fseq + 1)).size ≤ fld p.kfrec 52 12 * 65536 →
      ∃ t j, exec .partitionFence s = .next t ∧ (t.part pk).fseq = p.fseq + 1 ∧ (t.part pk).fenceReq = false ∧ (t.part pk).fencing = true
        ∧ (t.part pk).recd = some { s.recordOf pk (p.fseq + 1) with journ := j } ∧ t.kerns = s.kerns)
    ∧ (∀ s pk p r kk k, s.site = .part pk → s.part pk = p → p.st = .resident → kk.pk = pk → s.kerns.get? kk = some k → k.st = .completing →
      (p.fencing = true → p.recd = some r → r.ends = [(kk.lq, kk.seq)] → FenceEnds (s.setPart pk { p with fencing := false }) kk k (exec .partitionFence s))
      ∧ (p.fencing = false → p.ending = [(kk.lq, kk.seq)] → FenceEnds s kk k (exec .partitionFence s)))
    ∧ (∀ s c x, s.site = .ctx c → s.ctxs.get? c = some x →
      exec .kctlDone s = .next (s.setCtx c { x with done := true })
        ∧ ∃ t, exec .kctlFence s = .next t ∧ (t.part x.pk).fenceReq = true ∧ t.ctxs = s.ctxs ∧ t.mem = s.mem ∧ t.kerns = s.kerns)
    ∧ (∀ s c v x k, s.site = .ctxV c v → s.ctxs.get? c = some x → s.kerns.get? x.kern = some k → k.st ≠ .complete → k.st ≠ .faulted →
      ∃ t k', exec .kctlFault s = .next t ∧ t.kerns.get? x.kern = some k' ∧ k'.st = .faulted ∧ k'.status = 2 ∧ k'.tcode = v.extractLsb' 0 9
        ∧ (t.part x.kern.pk).fenceReq = true ∧ ∀ y, t.ctxs.get? c = some y → y.live = false)

/-- A queue with a valid record and a descriptor of kind 1 opens empty with its rounds and counters 0; an allocated queue that is not frozen or sealed is
sealed with its elements; an empty queue that is open or sealed, with no port bound and no stream, closes with a descriptor of kind 0. Each command in
a wrong state writes only err. A descriptor write sets the descriptor, or only err 2 where its check fails. A write of `cr.asn` clears every handle.
On a bare field die the receive registers take no write. Elsewhere a write of `cr.rxsel` takes a snapshot of the six counters. A write of `cr.rxcfg`
of an enabled context changes en only; one that enables a context clears its counters. A write of `cr.sgval` replaces the signal. A write of
`cr.ptcfg` sets mode, window and sizes. -/
def Obligations.QueueAndRegisterEvents : Prop :=
  (∀ s k q, s.site = .obj k → s.queue k = q →
      (q.state = .unallocated → (q.plane = true ↔ q.esize ≠ 0) → 0 < q.nprod → q.win.kind = 1 → (q.spill = true → q.caskLen ≠ 0) →
        (q.caskLen = 0 ∨ (s.pkg k.pk.pkg).inHbm (q.caskBase * 65536) (q.caskLen * 65536) = true) →
        ∃ t q', exec .qctlOpen s = .next t ∧ t.queue k = q' ∧ q'.state = .open ∧ q'.err = 0 ∧ q'.els = [] ∧ q'.cask = []
          ∧ q'.arnd = 0 ∧ q'.crnd = 0 ∧ q'.prnd = 0 ∧ q'.am = 0 ∧ q'.cm = 0 ∧ q'.drop = 0 ∧ q'.win.base = q.win.base ∧ q'.win.lsize = q.win.lsize
          ∧ (∀ j, j ≠ k → t.queue j = s.queue j) ∧ t.mem = s.mem ∧ t.ctxs = s.ctxs)
      ∧ (q.state ≠ .unallocated → exec .qctlOpen s = .next (s.setQueue k { q with err := 1 }))
      ∧ (q.state = .open ∨ q.state = .spilling ∨ q.state = .chained → exec .qctlSeal s = .next (s.setQueue k { q with state := .sealed, err := 0 }))
      ∧ (q.state = .unallocated ∨ q.state = .frozen → exec .qctlSeal s = .next (s.setQueue k { q with err := 1 }))
      ∧ (q.state = .open ∨ q.state = .sealed → q.els = [] → q.cask = [] → q.stageToks = [] → s.inletOf k = none → s.outletsOf k = 0 →
        q.strmProd = none → q.strmCons = none →
        ∃ t q', exec .qctlClose s = .next t ∧ t.queue k = q' ∧ q'.state = .unallocated ∧ q'.err = 0 ∧ q'.win.kind = 0
          ∧ (∀ j, j ≠ k → t.queue j = s.queue j) ∧ t.mem = s.mem ∧ t.ctxs = s.ctxs)
      ∧ (q.state = .open ∨ q.state = .sealed → q.els ≠ [] → exec .qctlClose s = .next (s.setQueue k { q with err := 3 }))
      ∧ (q.state ≠ .open → q.state ≠ .sealed → exec .qctlClose s = .next (s.setQueue k { q with err := 1 })))
    ∧ (∀ s k d q w, s.site = .objV k d → s.queue k = q → w = Win.ofBits q.win.die d →
      (s.winRefused k w = false → ∃ t, exec .qwinDescriptorWrite s = .next t ∧ (t.queue k).win.kind = (d.extractLsb' 120 3).toNat
        ∧ (t.queue k).win.part = (d.extractLsb' 123 5).toNat ∧ (t.queue k).win.lsize = (d.extractLsb' 115 5).toNat
        ∧ (t.queue k).win.base = (d.extractLsb' 96 19).toNat ∧ (t.queue k).win.head = q.win.head ∧ (t.queue k).win.tail = q.win.tail
        ∧ (t.queue k).els = q.els ∧ ∀ j, j ≠ k → t.queue j = s.queue j)
      ∧ (s.winRefused k w = true → exec .qwinDescriptorWrite s = .next (s.setQueue k { q with err := 2 })))
    ∧ (∀ s c v x, s.site = .ctxV c v → s.ctxs.get? c = some x →
      (∃ t y, exec .asnWrite s = .next t ∧ t.ctxs.get? c = some y ∧ y.ctl.asn = v.extractLsb' 0 16 ∧ (∀ n, (vecGet y.regs.th n {}).tr = none)
        ∧ y.regs.g = x.regs.g ∧ y.regs.p = x.regs.p ∧ t.mem = s.mem ∧ t.blks = s.blks)
      ∧ ((s.pkg x.pk.pkg).bare = true → exec .rxselSnapshot s = .next s)
      ∧ ((s.pkg x.pk.pkg).bare = false → ∃ t y, exec .rxselSnapshot s = .next t ∧ t.ctxs.get? c = some y ∧ y.sels.rxsel = v.extractLsb' 0 8
        ∧ y.sels.rxsnap = (s.rx (objKey x.pk (v.toNat % 256))).cnt ∧ y.regs = x.regs ∧ t.rxs = s.rxs ∧ t.mem = s.mem))
    ∧ (∀ s k v, s.site = .objV k v →
      (∃ t, exec .sgvalWrite s = .next t ∧ t.sig k = v.extractLsb' 0 64 ∧ (∀ j, j ≠ k → t.sig j = s.sig j) ∧ t.mem = s.mem ∧ t.ctxs = s.ctxs)
      ∧ ((s.pkg k.pk.pkg).bare = true → exec .rxcfgWrite s = .next s)
      ∧ ((s.pkg k.pk.pkg).bare = false → (s.rx k).cfg.getLsbD 63 = true → ∃ t, exec .rxcfgWrite s = .next t ∧ (t.rx k).cnt = (s.rx k).cnt
        ∧ (t.rx k).cfg.getLsbD 63 = v.getLsbD 63 ∧ ∀ n, n < 63 → (t.rx k).cfg.getLsbD n = (s.rx k).cfg.getLsbD n)
      ∧ ((s.pkg k.pk.pkg).bare = false → (s.rx k).cfg.getLsbD 63 = false → s.rxRefused k (v.extractLsb' 0 64) = false →
        ∃ t, exec .rxcfgWrite s = .next t ∧ (∀ n, n < 64 → (t.rx k).cfg.getLsbD n = (decide (30 ≤ n) && v.getLsbD n))
          ∧ (t.rx k).cnt = (if v.getLsbD 63 = true then {} else (s.rx k).cnt)))
    ∧ (∀ s pk v, s.site = .partV pk v →
      ∃ t, exec .ptcfgWrite s = .next t ∧ t.mem = s.mem ∧ t.queues = s.queues ∧ fld (t.part pk).ptcfg 59 5 = fld v 59 5
        ∧ fld (t.part pk).ptcfg 54 3 = fld v 54 3 ∧ fld (t.part pk).ptcfg 57 2 = (if fld v 57 2 = 3 then 0 else fld v 57 2)
        ∧ (v.getLsbD 63 ≠ (s.part pk).ptcfg.getLsbD 63 → ∀ e ∈ t.walks, ¬ (e.pkg = pk.pkg ∧ e.part = pk.part)))

/-- A link whose training completes is up and counts it; one whose budget is spent is down with why 2 or 3; a replayed flit adds one to retries; a link
whose far end is lost is down with why 4. A chain is confirmed by a remote queue that meets R429, and refused by another. Its oldest element not sent
goes under the next sequence number where the remote queue has room, is not sealed and takes its round; the receiver delivers the granule with the
expected number and discards a lower one; an acknowledged element leaves the local tail. A bank drains, is scrubbed to zero and becomes its new
owner's. A shoot-down that every core has acknowledged ends, and the key it ends with becomes invalid. -/
def Obligations.LinkAndChainEvents : Prop :=
  (∀ s k l, s.site = .link k → s.link k = l →
      (l.st = .training ∨ l.st = .retraining → exec .linkTrainingComplete s = .next (s.setLink k { l with st := .up, trains := l.trains + 1, fails := 0 }))
      ∧ (k.cls ≠ .die → 2 ^ 20 ≤ (s.cycle k.pkg 0 - l.start).toNat → l.st = .training ∨ l.st = .retraining →
        ∃ t, exec .linkBudgetExpiry s = .next t ∧ (t.link k).st = .down ∧ (t.link k).why = (if l.st = .training then 2 else 3)
          ∧ (∀ j, j ≠ k → t.link j = s.link j) ∧ t.mem = s.mem)
      ∧ (l.st = .up → l.fails ≤ 7 → ∃ t, exec .flitReplay s = .next t ∧ (t.link k).retries = l.retries + 1
        ∧ ((t.link k).st = .up ∧ (t.link k).fails ≤ 7 ∨ (t.link k).st = .retraining ∧ l.fails = 7) ∧ t.mem = s.mem ∧ t.queues = s.queues)
      ∧ (k.cls ≠ .die → l.st = .up ∨ l.st = .retraining →
        ∃ t, exec .farEndLoss s = .next t ∧ (t.link k).st = .down ∧ (t.link k).why = 4 ∧ (∀ j, j ≠ k → t.link j = s.link j) ∧ t.mem = s.mem))
    ∧ (∀ s k ok q c, s.site = .objOk k ok → s.queue k = q → q.state ≠ .unallocated → q.chain = some c → c.link ≠ 31 → c.conf = false → c.ending = false →
      s.chainUp k c = true →
      (∀ d, s.chainDest k c = some d → s.chainMeets q d = true → ∃ t, exec .chainConfirm s = .next t ∧ (t.queue k).chain = some { c with conf := true }
        ∧ (t.queue k).els = q.els ∧ t.mem = s.mem)
      ∧ (∀ d, s.chainDest k c = some d → s.chainMeets q d = false → ∃ t, exec .chainConfirm s = .next t ∧ (t.queue k).chain = none
        ∧ (q.state = .chained → (t.queue k).state = .open) ∧ (t.queue k).els = q.els ∧ t.mem = s.mem))
    ∧ (∀ s k q c e, s.site = .obj k → s.queue k = q → q.state = .chained → q.chain = some c → c.link ≠ 31 → c.conf = true → c.ending = false →
      s.chainUp k c = true → q.els[c.unack.length]? = some e → q.state ≠ .frozen →
      (∀ d, s.chainDest k c = some d → 0 < s.roomFor d .chain ∧ (s.queue d).state ≠ .sealed ∧ (q.prodk = true ∨ s.outOfTurn d e.round = false)) →
      exec .chainElementSend s = .next (s.setQueue k { q with chain := some { c with sent := c.sent + 1, unack := c.unack ++ [(c.sent, e)] } }))
    ∧ (∀ s k n q c g, s.site = .objN k n → s.queue k = q → q.state = .chained → q.chain = some c → s.chainUp k c = true → c.unack[n]? = some g →
      s.chainDest k c = none →
      (g.1 = c.expected → c.held = [] → ∃ t c', exec .granuleReceive s = .next t ∧ (t.queue k).chain = some c' ∧ c'.expected = c.expected + 1
        ∧ c'.held = [] ∧ c'.unack = c.unack ∧ (t.queue k).els = q.els)
      ∧ (2 ^ 31 ≤ (g.1 - c.expected).toNat → exec .granuleReceive s = .next s))
    ∧ (∀ s k d q c g, s.site = .objN k 0 → s.queue k = q → q.state = .chained → q.chain = some c → s.chainUp k c = true → c.unack.head? = some g →
      s.chainDest k c = some d → d ≠ k → (s.queue d).state = .open → (s.queue d).stage = .pass → (s.queue d).cask = [] → (s.queue d).journal = false →
      (g.2.marker = false ∨ (s.queue k).consMarkers ≤ c.cm + 1) → g.1 = c.expected → c.held = [] → ∃ t c' el, exec .granuleReceive s = .next t ∧ (t.queue k).chain = some c' ∧ c'.expected = c.expected + 1
        ∧ (t.queue d).all = (s.queue d).all ++ [el] ∧ el.bits = trimTo (s.queue d).size g.2.bits ∧ el.marker = g.2.marker ∧ t.mem = s.mem)
    ∧ (∀ s k q c g r el es, s.site = .objN k 0 → s.queue k = q → q.state = .chained → q.chain = some c → s.chainUp k c = true → c.ending = false →
      c.unack = g :: r → 2 ^ 31 ≤ (g.1 - c.expected).toNat → q.win.pins = 0 → q.stageToks = [] → q.els = el :: es →
      ∃ t, exec .granuleAck s = .next t ∧ (t.queue k).chain = some { c with unack := r } ∧ (t.queue k).els = es ∧ t.mem = s.mem)
    ∧ (∀ s k p o, s.site = .bank k →
      (s.bank k = .draining p o → (∀ e ∈ s.ctxs, e.2.pk = ⟨k.pkg, p⟩ → e.2.fx.q14 = []) → exec .bankDrainDone s = .next (s.setBank k (.scrubbing o)))
      ∧ (s.bank k = .scrubbing o →
        ∃ t, exec .bankScrubDone s = .next t ∧ t.bank k = (match o with | some p => .owned p | none => .unowned) ∧ t.mem = s.mem ∧ t.ctxs = s.ctxs
          ∧ ∀ a, t.bufs.read a = if bufKey k.pkg k.core k.buf (32768 * k.bank) ≤ a ∧ a < bufKey k.pkg k.core k.buf (32768 * k.bank) + 32768 then 0
            else s.bufs.read a))
    ∧ (∀ s n h, s.site = .num n → s.shoots[n]? = some h → s.acknowledged h = true →
      ∃ t, exec .shootDownComplete s = .next t ∧ t.shoots = s.shoots.eraseIdx n ∧ t.mem = s.mem
        ∧ (∀ i, h.key = some i → ((t.pkg h.pk.pkg).key i).valid = false ∧ (t.pkg h.pk.pkg).mbState = 2)
        ∧ (h.key = none → t.pkgs = s.pkgs))

/-- A quiescing device whose contexts are saved or ended and whose store paths are empty is quiesced. An accepted send leaves the source in transit and
the target pulling, or settled where no page moves, with the queues and kernels of the device; a refused one leaves memory, queues and kernels as they
were. The sweep asks for the lowest page left of an address space. A page that arrives leaves the list of pages to come, and the last one settles a
pulling device. A redirect points the pairing at the target and clears the requester's handles of the page. A hang or a detected error ends every
context and replays the device, or fails it; its kernels that have not ended replay. A replay whose recorded kernels that ended can be ended (their
completion words written) ends resident, or as it moved, with the kernels it returns accepted again. A lost die, stack or link is marked; a package
lost without a partner fails its devices. -/
def Obligations.VirtualDeviceEvents : Prop :=
  (∀ s pk, s.site = .part pk →
      ((s.part pk).st = .quiescing → (∀ e ∈ s.ctxs, e.2.pk = pk → (e.2.st = .saved ∨ e.2.st = .ended ∨ e.2.st = .faulted) ∧ e.2.path = []) →
        (∀ a ∈ s.amos, a.pk ≠ pk) → ∃ t, exec .quiesceComplete s = .next t ∧ (t.part pk).st = .quiesced ∧ t.mem = s.mem ∧ t.queues = s.queues ∧ t.kerns = s.kerns)
      ∧ ((s.part pk).st = .resident → fld (s.part pk).vdcfg 0 16 ≠ 0 →
        fld (s.part pk).vdcfg 0 16 * 65536 ≤ (s.cycle pk.pkg 0 - (s.part pk).stamp).toNat → (∃ e ∈ s.kerns, e.1.pk = pk ∧ e.2.runs = true) →
        ∃ t, exec .hangDetect s = .next t ∧ ((t.part pk).st = .replaying ∨ (t.part pk).st = .failed)
          ∧ (∀ e ∈ t.ctxs, e.2.pk = pk → e.2.st = .ended) ∧ t.mem = s.mem
          ∧ ∀ kk n, s.kerns.get? kk = some n → t.kerns.get? kk = some (if kk.pk = pk ∧ n.st ≠ .complete ∧ n.st ≠ .faulted then { n with st := .replaying } else n))
      ∧ ((s.part pk).st = .resident →
        ∃ t, exec .detectedError s = .next t ∧ ((t.part pk).st = .replaying ∨ (t.part pk).st = .failed) ∧ (t.part pk).errs = (s.part pk).errs + 1
          ∧ (∀ e ∈ t.ctxs, e.2.pk = pk → e.2.st = .ended) ∧ t.mem = s.mem
          ∧ ∀ kk n, s.kerns.get? kk = some n → t.kerns.get? kk = some (if kk.pk = pk ∧ n.st ≠ .complete ∧ n.st ≠ .faulted then { n with st := .replaying } else n))
      ∧ (∀ r u, (s.part pk).st = .replaying → (s.part pk).recd = some r → (s.pkg pk.pkg).lost = false → (s.asRecorded pk r).finishAll pk r.ends = ([], u) →
        (u.part pk).wasPull = (s.part pk).wasPull → ((u.part pk).transit = [] ↔ (s.part pk).transit = []) →
        ∃ t, exec .replayComplete s = .next t
          ∧ (t.part pk).st = (if (s.part pk).wasPull = false then .resident else if (s.part pk).transit = [] then .settled else .pulling)
          ∧ (∀ n ∈ r.kerns, n.returns = true → ∀ k, t.kerns.get? ⟨pk, n.lq, n.seq⟩ = some k → k.st = .accepted))
      ∧ (∀ b p q, (s.part pk).st = .inTransit → s.otherSlot (s.part pk) = b → s.part b = p → p.movedIn = true → p.pulls = [] → q ∈ p.transit →
        ∃ t m, exec .sweepSend s = .next t ∧ m ∈ p.transit ∧ (∀ n ∈ p.transit, n.asn = m.asn → m.va ≤ n.va)
          ∧ (t.part b).pulls = [(m.asn, m.va)] ∧ t.mem = s.mem ∧ t.ctxs = s.ctxs))
    ∧ (∀ s a ok c, s.site = .partOk a ok → (s.part a).st = .quiesced → (s.part a).vdBy = some c →
      (ok = false → ∃ t, exec .transferComplete s = .next t ∧ (t.part a).st = .quiesced ∧ t.mem = s.mem ∧ t.queues = s.queues ∧ t.kerns = s.kerns)
      ∧ (∀ b, ok = true → s.otherSlot (s.part a) = b → s.canHost b (s.part a).area = true → (s.transfer a b).groupsFit b = true →
        ∃ t, exec .transferComplete s = .next t ∧ (t.part a).st = .inTransit
          ∧ (t.part b).st = (if (t.part b).transit = [] then .settled else .pulling) ∧ (t.part b).left = BitVec.ofNat 32 (t.part b).transit.length
          ∧ (∀ n, (t.queue ⟨b, n⟩).els = (s.queue ⟨a, n⟩).els ∧ (t.queue ⟨b, n⟩).cask = (s.queue ⟨a, n⟩).cask)
          ∧ ∀ lq n, t.kerns.get? ⟨b, lq, n⟩ = s.kerns.get? ⟨a, lq, n⟩))
    ∧ (∀ s b v p m, s.site = .partV b v → s.part b = p → p.transit.find? (fun m => m.dst * 65536 = v.toNat) = some m → p.movedIn = true → p.asked m = true →
      (s.pkg (s.otherSlot p).pkg).lost = false → s.updatesIn b (s.otherSlot p).pkg m = false →
      (s.pageBad (s.otherSlot p).pkg m = false → s.otherSlot p ≠ b →
        ∃ t, exec .pageArrival s = .next t ∧ (t.part b).transit = p.transit.filter (fun n => n ≠ m)
          ∧ (t.part b).st = (if (t.part b).transit = [] ∧ p.st = .pulling then .settled else p.st)
          ∧ (t.part b).left = BitVec.ofNat 32 (t.part b).transit.length ∧ t.queues = s.queues)
      ∧ (s.pageBad (s.otherSlot p).pkg m = true → p.st = .pulling →
        ∃ t, exec .pageArrival s = .next t ∧ ((t.part b).st = .replaying ∨ (t.part b).st = .failed)))
    ∧ (∀ (s : State) (a b src dst len o : Nat), a ≠ b → s.mem.wf = true → src + len ≤ 2 ^ 52 → dst + len ≤ 2 ^ 52 → o < len →
      (s.carry a src b dst len).mem.read (memKey b (dst + o)) = s.mem.read (memKey a (src + o)))
    ∧ (∀ s k v num off d, s.site = .partV k v → (s.pkg k.pkg).space v.toNat = .remote num off → (s.pkg k.pkg).paired k.part num = true →
      (s.pkg k.pkg).redirs.get? (1024 * k.part + num) = none → s.movedTo k num (off / 65536) = some d →
      ∃ t, exec .redirect s = .next t ∧ (t.pkg k.pkg).redirs.get? (1024 * k.part + num) = some ((s.pkg d.pkg).num.toNat, d.part)
        ∧ (∀ e ∈ t.ctxs, e.2.pk = k → ∀ n u, (vecGet e.2.regs.th n {}).tr = some u → u.names (v.toNat / 65536) = false) ∧ t.mem = s.mem)
    ∧ (∀ s w, s.site = .lost w →
      (∀ k, w = .link k → k.cls ≠ .die → (s.link k).st = .up ∨ (s.link k).st = .retraining → ∃ t, exec .partLoss s = .next t ∧ (t.link k).st = .down ∧ (t.link k).why = 4 ∧ t.mem = s.mem)
      ∧ (∀ k d, w = .die k d → d < 4 → (s.pkg k).dieHere d = true → ∃ t, exec .partLoss s = .next t ∧ ((t.pkg k).die d).lost = true)
      ∧ (∀ k d, w = .stack k d → d < 8 → (s.pkg k).stackHere (d / 2) (d % 2) = true →
        ∃ t, exec .partLoss s = .next t ∧ (t.pkg k).stackHere (d / 2) (d % 2) = false)
      ∧ (∀ k, w = .package k → (s.pkg k).lost = false → (∀ e ∈ s.parts, e.2.movedIn = false) →
        ∃ t, exec .partLoss s = .next t ∧ (t.pkg k).lost = true ∧ t.mem = s.mem
          ∧ ∀ pk, pk.pkg = k → (s.part pk).st ≠ .vacant →
            ((t.part pk).st = .replaying ∨ (t.part pk).st = .failed) ∧ (fld (s.part pk).vdcfg 62 2 ≠ 2 → (t.part pk).st = .failed)))

/-- Device reset vacates every slot of the package and resets its links, keys, receive contexts, cycle and idle counters; its memory reads zero (the
model's choice, log 31). A host write to local memory writes its bytes; to the capability frame or a fenced or protected frame it is discarded and
reported; while a lease of a line or an earlier host write is in its way it waits; outside local memory, or through a virtual function unbound or
passed, it changes nothing. A write of `mbcmd` to a busy mailbox only sets lost; else it starts a command of R482, or is refused: held with why 5 (not
`attest`), hub commands of a bare die why 4, other codes why 1. `pwrlim` and `curlim` store the nearer bound; a block that the host may only read
takes no write. `assign` gives a vacant slot its area, its banks and `cr.vdcfg`; why 2 not vacant, 1 an illegal area, 3 a resource taken. `clear`
vacates a failed slot, or a resident one without a kernel; else why 2. `preempt` holds a resident group and pre-empts it, or releases a held one; else
why 2. `podmap` writes the number or the pairings (why 1 for a pairing with itself), `portmap` an entry (why 3 for a context named twice), `peer` an
entry (why 3 where a chain uses one that loses valid), `linkadm` the right. `keyset` writes an invalid entry and zeroes its material; why 2 for a
vacant slot, 3 for a valid entry. `keyinv` starts a shoot-down; why 2 where the slot does not own the entry. `attest` writes a report that begins with
the nonce. A zero field set is why 1. A trip raises idle insertion to four cycles in eight or more, and a release ends that. An adjustment moves the
level by one step at most and counts the idle cycles. -/
def Obligations.PackageEvents : Prop :=
  (∀ s k p, s.site = .pkg k → s.pkgs.get? k = some p →
      (∃ t, exec .deviceReset s = .next t ∧ (∀ n, t.part ⟨k, n⟩ = {}) ∧ (∀ e ∈ t.ctxs, e.2.pk.pkg ≠ k) ∧ (∀ m n, t.queue ⟨⟨k, m⟩, n⟩ = {} ∧ t.rx ⟨⟨k, m⟩, n⟩ = {})
        ∧ (t.pkg k).lost = false ∧ (t.pkg k).mbState = 0 ∧ (t.pkg k).mbLost = false ∧ (t.pkg k).keys = [] ∧ (t.pkg k).pwrlim = 2000 ∧ (t.pkg k).curlim = 4000
        ∧ (∀ d, d < 4 → ((t.pkg k).die d).cycle = 0 ∧ ((t.pkg k).die d).idle = 0)
        ∧ (∀ c n, t.link ⟨k, c, n⟩ = Link.reset c) ∧ (s.mem.wf = true → ∀ a, memKey k 0 ≤ a → a < memKey (k + 1) 0 → t.mem.read a = 0))
      ∧ (∃ t, exec .currentLimitTrip s = .next t ∧ 4 ≤ (t.pkg k).idleLevel ∧ t.mem = s.mem ∧ t.ctxs = s.ctxs)
      ∧ (∃ t, exec .currentLimitRelease s = .next t ∧ (t.pkg k).idleLevel = p.idleStep ∧ t.mem = s.mem ∧ t.ctxs = s.ctxs))
    ∧ (∀ s k d n p, s.site = .dieN k d n → s.pkgs.get? k = some p → d < 4 →
      ∃ t, exec .powerIdleAdjust s = .next t ∧ (t.pkg k).idleStep ≤ p.idleStep + 1 ∧ p.idleStep ≤ (t.pkg k).idleStep + 1
        ∧ ((t.pkg k).die d).idle = (p.die d).idle + (if p.idleLevel = 0 then 0 else BitVec.ofNat 64 n) ∧ t.mem = s.mem ∧ t.ctxs = s.ctxs)
    ∧ (∀ s k p, s.pkg k = p → p.lost = false →
      (∀ pa l w, w = HostWr.mem pa l → s.site = .host k w → ((∃ d o, p.space pa = .hbm d o) ∨ p.space pa = .lpddr) →
        (p.inLocal pa l.length = false → exec .hostWrite s = .next { s with late := s.late.erase (k, w) })
        ∧ (p.inLocal pa l.length = true → s.hostDiscards k none pa l.length = true →
          exec .hostWrite s = .next (State.report { s with late := s.late.erase (k, w) } k .discarded))
        ∧ (p.inLocal pa l.length = true → s.hostDiscards k none pa l.length = false →
          ((∃ v r, s.late = v :: r ∧ v ≠ (k, w)) ∨ ∃ n ∈ hostLines k pa l.length, s.lineShut .host none n = true) →
          ∃ t, exec .hostWrite s = .next t ∧ (k, w) ∈ t.late ∧ t.mem = s.mem)
        ∧ (p.inLocal pa l.length = true → s.hostDiscards k none pa l.length = false → (∀ v r, s.late = v :: r → v = (k, w)) →
          (∀ n ∈ hostLines k pa l.length, s.lineShut .host none n = false) → s.mem.wf = true → ∃ t, exec .hostWrite s = .next t
          ∧ ∀ a, t.mem.read a = if memKey k pa ≤ a ∧ a < memKey k pa + l.length then l.getD (a - memKey k pa) 0 else s.mem.read a))
      ∧ (∀ n off l w, w = HostWr.vf n off l → s.site = .host k w →
        (s.vfSlot k n = none → exec .hostWrite s = .next { s with late := s.late.erase (k, w) })
        ∧ (∀ pk, s.vfSlot k n = some pk → (areaW (s.part pk).area 30).toNat < off + l.length → exec .hostWrite s = .next { s with late := s.late.erase (k, w) }))
      ∧ (∀ v, s.site = .host k (.pf 0 v) →
        (p.mbState = 1 → ∃ t, exec .hostWrite s = .next t ∧ t.pkg k = { p with mbLost := true } ∧ t.mem = s.mem)
        ∧ (p.mbState ≠ 1 → ∃ t q, exec .hostWrite s = .next t ∧ t.pkg k = q ∧ t.mem = s.mem ∧ q.mbCmd = v ∧ q.mbCode.toNat = fld v 56 8 ∧ q.mbLost = p.mbLost
          ∧ (if p.held = true ∧ fld v 56 8 ≠ 10 then q.mbState = 3 ∧ q.mbWhy = 5
            else if p.form = .bare ∧ 4 ≤ fld v 56 8 ∧ fld v 56 8 ≤ 10 then q.mbState = 3 ∧ q.mbWhy = 4
            else if 1 ≤ fld v 56 8 ∧ fld v 56 8 ≤ 10 then q.mbState = 1 else q.mbState = 3 ∧ q.mbWhy = 1)))
      ∧ (∀ v, (s.site = .host k (.pf 0x10000 v) → ∃ t, exec .hostWrite s = .next t
          ∧ (t.pkg k).pwrlim.toNat = min 2000 (max 500 (v.toNat % 2048)) ∧ t.mem = s.mem)
        ∧ (s.site = .host k (.pf 0x10008 v) → ∃ t, exec .hostWrite s = .next t
          ∧ (t.pkg k).curlim.toNat = min 4000 (max 2600 (v.toNat % 8192)) ∧ t.mem = s.mem))
      ∧ (∀ off v b, s.site = .host k (.pf off v) → regBlk off = some b → b.writable true = false → off % 8 = 0 →
        exec .hostWrite s = .next (s.report k .discarded)))
    ∧ (∀ s k p code slot arg, s.site = .pkg k → s.pkg k = p → p.lost = false → p.mbState = 1 → code = fld p.mbCmd 56 8 → slot = ⟨k, fld p.mbCmd 51 5⟩ →
      arg = fld p.mbCmd 0 51 →
      (code = 1 →
        ((s.part slot).st ≠ .vacant → MbRefuses .mbAssign s k 2)
        ∧ ((s.part slot).st = .vacant → p.areaBad p.argArea = true ∨ (∃ i, 32 ≤ i ∧ i < 512 ∧ p.argW i ≠ 0) → MbRefuses .mbAssign s k 1)
        ∧ ((s.part slot).st = .vacant → p.areaBad p.argArea = false → (∀ i, 32 ≤ i → p.argW i = 0) →
          (s.areaTaken slot p.argArea = true → MbRefuses .mbAssign s k 3)
          ∧ (s.areaTaken slot p.argArea = false → ∃ t, exec .mbAssign s = .next t ∧ (t.part slot).st = .resident ∧ (t.part slot).area = p.argArea
            ∧ (t.part slot).vdcfg = areaW p.argArea 0 ∧ (∀ b ∈ areaBankKeys k p.argArea, (t.bank b).owner = some slot.part)
            ∧ (t.pkg k).mbState = 2 ∧ t.mem = s.mem)))
      ∧ (code = 2 →
        (¬ ((s.part slot).st = .failed ∨ (s.part slot).st = .resident ∧ s.hasKern slot = false) → MbRefuses .mbClear s k 2)
        ∧ ((s.part slot).st = .failed ∨ (s.part slot).st = .resident ∧ s.hasKern slot = false →
          ∃ t, exec .mbClear s = .next t ∧ (t.part slot).st = .vacant ∧ (t.pkg k).mbState = 2 ∧ (∀ c ∈ t.ctxs, c.2.pk ≠ slot) ∧ (∀ n, t.queue ⟨slot, n⟩ = {})
            ∧ (∀ i, ((t.pkg k).key i).owner = slot.part → ((t.pkg k).key i).valid = false)
            ∧ (∀ b, b.pkg = k → s.bank b = .owned slot.part → t.bank b = .draining slot.part none) ∧ t.mem = s.mem))
      ∧ (code = 3 →
        (argF arg 9 42 ≠ 0 → MbRefuses .mbPreempt s k 1)
        ∧ (argF arg 9 42 = 0 → ∀ gk, gk = objKey slot (argF arg 0 8) →
          (s.groups.get? gk = none → MbRefuses .mbPreempt s k 2)
          ∧ ∀ g, s.groups.get? gk = some g →
            (argF arg 8 1 = 0 → g.st ≠ .resident → g.st ≠ .collecting → MbRefuses .mbPreempt s k 2)
            ∧ (argF arg 8 1 = 0 → g.st = .resident ∨ g.st = .collecting → ∃ t g', exec .mbPreempt s = .next t ∧ t.groups.get? gk = some g' ∧ g'.hold = true
              ∧ (g'.st = .saving ∨ g'.st = .saved) ∧ (t.pkg k).mbState = 2 ∧ t.mem = s.mem)
            ∧ (argF arg 8 1 = 1 → g.hold = false → MbRefuses .mbPreempt s k 2)
            ∧ (argF arg 8 1 = 1 → g.hold = true → ∃ t, exec .mbPreempt s = .next t ∧ t.groups.get? gk = some { g with hold := false }
              ∧ (t.pkg k).mbState = 2 ∧ t.mem = s.mem)))
      ∧ (code = 4 →
        (argF arg 50 1 = 1 → argF arg 10 40 ≠ 0 → MbRefuses .mbPodmap s k 1)
        ∧ (argF arg 50 1 = 1 → argF arg 10 40 = 0 → ∃ t, exec .mbPodmap s = .next t ∧ (t.pkg k).num.toNat = argF arg 0 10 ∧ (t.pkg k).mbState = 2 ∧ t.mem = s.mem)
        ∧ (argF arg 50 1 = 0 → arg ≠ 0 ∨ (∃ q, q < 1024 ∧ ((p.argQ q).extractLsb' 5 26 ≠ 0 ∨ (p.argQ q).getLsbD 31 = true ∧ q = p.num.toNat)) →
          MbRefuses .mbPodmap s k 1)
        ∧ (arg = 0 → (∀ q, q < 1024 → (p.argQ q).extractLsb' 5 26 = 0 ∧ ¬ ((p.argQ q).getLsbD 31 = true ∧ q = p.num.toNat)) →
          ∃ t, exec .mbPodmap s = .next t ∧ (∀ q, q < 1024 → (t.pkg k).pairing slot.part q = p.argQ q) ∧ (t.pkg k).mbState = 2 ∧ t.mem = s.mem))
      ∧ (code = 5 → ∀ n twice, n = 1024 * argF arg 48 3 + argF arg 38 10 →
        twice = (argF arg 13 1 = 1 ∧ ∃ e ∈ p.portmap, e.1 ≠ n ∧ e.1 / 1024 = argF arg 48 3 ∧ e.2.getLsbD 63 = true ∧ fld e.2 32 24 = argF arg 14 24) →
        (argF arg 8 5 ≠ 0 → MbRefuses .mbPortmap s k 1)
        ∧ (argF arg 8 5 = 0 → twice → MbRefuses .mbPortmap s k 3)
        ∧ (argF arg 8 5 = 0 → ¬ twice → ∃ t, exec .mbPortmap s = .next t ∧ (t.pkg k).mbState = 2 ∧ (t.pkg k).portmap.get? n
          = some (at' (argF arg 13 1) 63 ||| at' (argF arg 14 24) 32 ||| at' slot.part 8 ||| at' (argF arg 0 8) 0) ∧ t.mem = s.mem))
      ∧ (code = 6 →
        (argF arg 11 37 ≠ 0 → MbRefuses .mbPeer s k 1)
        ∧ (argF arg 11 37 = 0 → argF arg 10 1 = 0 → s.peerUsed k (argF arg 48 3) (argF arg 0 10) = true → MbRefuses .mbPeer s k 3)
        ∧ (argF arg 11 37 = 0 → argF arg 10 1 = 1 ∨ s.peerUsed k (argF arg 48 3) (argF arg 0 10) = false →
          ∃ t, exec .mbPeer s = .next t ∧ (t.pkg k).mbState = 2 ∧ (t.pkg k).peers.get? (1024 * argF arg 48 3 + argF arg 0 10)
            = some { valid := decide (argF arg 10 1 = 1), addrLo := p.argW 0, addrHi := p.argW 1, ident := (p.argW 2).extractLsb' 0 32 } ∧ t.mem = s.mem))
      ∧ (code = 7 →
        (2 ≤ arg → MbRefuses .mbLinkadm s k 1)
        ∧ (arg < 2 → ∃ t, exec .mbLinkadm s = .next t ∧ (t.part slot).linkadm = decide (arg = 1) ∧ (t.pkg k).mbState = 2 ∧ t.mem = s.mem))
      ∧ (code = 8 → ∀ bad, bad = (argF arg 2 14 ≠ 0 ∨ argF arg 29 22 ≠ 0 ∨ argF arg 0 2 = 3) →
        (bad → MbRefuses .mbKeyset s k 1)
        ∧ (¬ bad → (s.part slot).st = .vacant → MbRefuses .mbKeyset s k 2)
        ∧ (¬ bad → (s.part slot).st ≠ .vacant → (p.key (argF arg 16 13)).valid = true → MbRefuses .mbKeyset s k 3)
        ∧ (¬ bad → (s.part slot).st ≠ .vacant → (p.key (argF arg 16 13)).valid = false →
          ∃ t n, exec .mbKeyset s = .next t ∧ (t.pkg k).mbState = 2 ∧ n = (t.pkg k).key (argF arg 16 13) ∧ n.valid = true ∧ n.owner = slot.part
            ∧ n.kind.toNat = argF arg 0 2 ∧ (∀ i, i < 8 → n.mat[i]? = some (p.argW i) ∧ (t.pkg k).argW i = 0) ∧ t.mem = s.mem))
      ∧ (code = 9 → ∀ e, e = p.key (argF arg 16 13) →
        (argF arg 0 16 ≠ 0 ∨ argF arg 29 22 ≠ 0 → MbRefuses .mbKeyinv s k 1)
        ∧ (argF arg 0 16 = 0 → argF arg 29 22 = 0 → e.valid = false ∨ e.owner ≠ slot.part → MbRefuses .mbKeyinv s k 2)
        ∧ (argF arg 0 16 = 0 → argF arg 29 22 = 0 → e.valid = true → e.owner = slot.part → (∀ h ∈ s.shoots, h.key = none) →
          ∃ t, exec .mbKeyinv s = .next t ∧ t.shoots.length = s.shoots.length + 1
            ∧ (∃ h ∈ t.shoots, h.key = some (argF arg 16 13) ∧ h.pk = slot ∧ h.page = none) ∧ (t.pkg k).mbState = 1 ∧ t.mem = s.mem))
      ∧ (code = 10 →
        (arg ≠ 0 → MbRefuses .mbAttest s k 1)
        ∧ (arg = 0 → ∃ t, exec .mbAttest s = .next t ∧ (t.pkg k).mbState = 2 ∧ (∀ i, i < 4 → (t.pkg k).argW i = p.argW i) ∧ t.mem = s.mem)))

/-- On a package with a hub die, a frame that matches no valid entry of its port's map adds one to the port's unmatched counter and to no other counter.
One that maps to an enabled context of the port adds one to received and one to the first row of R433 that matches: key, integrity, oversize, full or
delivered. While the partition does not run, a frame that reaches row 4 is full (log 60). A delivered frame appends ceil((length + 16)/esize) elements
with round prnd: a header of 16 bytes, the payload, and zeros. -/
def Obligations.FrameReceiveClassifies : Prop :=
  (∀ s k port fr, s.site = .frameIn k port fr → (s.pkg k).form ≠ .bare →
      ((s.pkg k).portEntry port fr.dst = none → port < 8 → ∃ t, exec .frameReceive s = .next t
        ∧ vecGet (t.pkg k).unmatched port 0 = vecGet (s.pkg k).unmatched port 0 + 1 ∧ t.rxs = s.rxs ∧ t.queues = s.queues ∧ t.mem = s.mem)
      ∧ (∀ e rk x kq q n, (s.pkg k).portEntry port fr.dst = some e → rk = ⟨⟨k, fld e 8 5⟩, fld e 0 8⟩ → s.rx rk = x → x.cfg.getLsbD 63 = true →
        fld x.cfg 56 3 = port → kq = ⟨rk.pk, fld x.cfg 30 12⟩ → s.queue kq = q → n = (fr.payload.length + 16 + q.size - 1) / q.size →
        (s.keyFails rk x.cfg fr = true →
          exec .frameReceive s = .next (s.setRx rk { x with cnt := { x.cnt with recv := x.cnt.recv + 1, key := x.cnt.key + 1 } }))
        ∧ (s.keyFails rk x.cfg fr = false → fr.tagOk = false ∨ fr.headerOk = false ∨ fr.seqOk = false →
          exec .frameReceive s = .next (s.setRx rk { x with cnt := { x.cnt with recv := x.cnt.recv + 1, int := x.cnt.int + 1 } }))
        ∧ (s.keyFails rk x.cfg fr = false → fr.tagOk = true → fr.headerOk = true → fr.seqOk = true →
          (q.state ≠ .unallocated → 64 < n ∨ q.capacity < n →
            exec .frameReceive s = .next (s.setRx rk { x with cnt := { x.cnt with recv := x.cnt.recv + 1, ovr := x.cnt.ovr + 1 } }))
          ∧ (q.state = .unallocated ∨ n ≤ 64 ∧ n ≤ q.capacity → (s.part rk.pk).st.runs = false →
            exec .frameReceive s = .next (s.setRx rk { x with cnt := { x.cnt with recv := x.cnt.recv + 1, full := x.cnt.full + 1 } }))
          ∧ (q.state = .unallocated ∨ n ≤ 64 ∧ n ≤ q.capacity → (s.part rk.pk).st.runs = true → fld x.cfg 59 2 ≠ 2 →
            (q.state ≠ .open ∧ q.state ≠ .spilling) ∨ q.win.kind ≠ 4 ∨ s.roomFor kq (.port port rk.n) < n →
            exec .frameReceive s = .next (s.setRx rk { x with cnt := { x.cnt with recv := x.cnt.recv + 1, full := x.cnt.full + 1 } }))
          ∧ ((s.part rk.pk).st.runs = true → n ≤ 64 → n ≤ q.capacity → q.state = .open → q.win.kind = 4 → n ≤ s.room kq → q.stage = .pass →
            q.cask = [] → q.journal = false →
            ∃ t l, exec .frameReceive s = .next t ∧ (t.rx rk).cnt = { x.cnt with recv := x.cnt.recv + 1, dlv := x.cnt.dlv + 1 }
              ∧ (t.queue kq).all = q.all ++ l ∧ l.length = n ∧ t.mem = s.mem
              ∧ ∀ i, i < n → ∃ el, l[i]? = some el ∧ el.marker = false ∧ el.round = q.prnd
                ∧ el.bits = BitVec.ofNat 4096 (leNat (((leBytes 2 fr.payload.length ++ leBytes 2 n ++ leBytes 4 (x.cnt.recv + 1).toNat
                    ++ leBytes 4 fr.source.toNat ++ leBytes 4 0 ++ fr.payload).drop (i * q.size)).take q.size))))))

/-- When an instruction with an encoding issues, its effects stand in its block until the block commits: memory, typed buffers, queues, barriers, signals,
groups, kernels, links, packages and receive contexts are unchanged; of a slot only the list of pages asked for can change (a pull fault, R223); every
context keeps its registers, control fields, fault records, ports, store path, engines, selectors, lease, state and place; and every block in another
frame is unchanged or discarded. -/
def Obligations.IssueChangesOnlyItsBlock : Prop :=
  ∀ i w s t, encode i = some w → exec i s = .next t →
    (t.mem = s.mem ∧ t.bufs = s.bufs ∧ t.bad = s.bad ∧ t.encs = s.encs ∧ t.pkgs = s.pkgs ∧ t.banks = s.banks ∧ t.disps = s.disps ∧ t.queues = s.queues
      ∧ t.jrnls = s.jrnls ∧ t.bars = s.bars ∧ t.sigs = s.sigs ∧ t.groups = s.groups ∧ t.kerns = s.kerns ∧ t.rxs = s.rxs ∧ t.links = s.links
      ∧ t.shoots = s.shoots ∧ t.amos = s.amos ∧ t.agenda = s.agenda)
    ∧ (∀ k, ∃ l, t.part k = { s.part k with pulls := l })
    ∧ (∀ c x, s.ctxs.get? c = some x → ∃ y, t.ctxs.get? c = some y ∧ y.regs = x.regs ∧ y.ctl = x.ctl ∧ y.recs = x.recs ∧ y.fx = x.fx
      ∧ y.ports = x.ports ∧ y.path = x.path ∧ y.eng = x.eng ∧ y.sels = x.sels ∧ y.lease = x.lease ∧ y.st = x.st ∧ y.pos = x.pos)
    ∧ (∀ cu, s.site = .slot cu → ∀ e ∈ t.blks, e.1 ≠ cu.frame → e ∈ s.blks)

/-- The majors 0x43 and 0x51 to 0x54, `rfe` and a `crwr` of a register that R312 marks priv need privilege, and a `crwr` of a register that any context
may write does not. In a block dispatched without privilege an instruction that needs it raises a privilege fault (0x04) where no earlier check of
R109 fails; with privilege it raises none; and privilege makes no difference to any other instruction. No write of a control register changes the
privilege. -/
def Obligations.PrivilegeIsCheckedAtDispatch : Prop :=
  (∀ p id t1 sz st q cls, ∀ i ∈ [Instr.rfe p, .rtcfg p id st q, .xshoot p id sz, .pgMap p id sz, .pgUnmap p id sz, .pgPin p id sz, .pgUnpin p id sz,
        .pgPoison p id sz, .pgPromote p id sz, .lnkUp p id cls, .lnkDown p id cls, .lnkRetrain p id cls, .lnkChain p id cls, .lnkUnchain p id cls,
        .vdQuiesce p id, .vdSend p id, .vdResume p id, .vdRelease p id, .vdReplay p id] ++
        ([0, 1, 2, 3, 4, 5, 7, 8, 9, 0xA, 0xB, 0x11, 0x101, 0x102, 0x103, 0x104, 0x105] : List (BitVec 9)).map (fun n => Instr.crwr p id n), needsPriv i = true
        ∧ ∀ n ∈ ([0xC, 0xD, 0xE, 0xF, 0x23, 0x30, 0x31, 0x38, 0x50, 0x51, 0x60, 0x70, 0x80, 0x100] : List (BitVec 9)),
          needsPriv (.crwr p id n) = false ∧ needsPriv (.crrd p id n t1) = false)
    ∧ (∀ h slots gone n sl i, decode sl.plane sl.word = .ok i →
      (needsPriv i = true → slotBreach h slots gone true n sl = 0 → slotBreach h slots gone false n sl = 0x04)
      ∧ (needsPriv i = false → slotBreach h slots gone false n sl = slotBreach h slots gone true n sl)
      ∧ slotBreach h slots gone true n sl ≠ 0x04)
    ∧ (∀ (x : Ctx) p n v, (x.crPut p n v).ctl.pm = x.ctl.pm ∧ (x.crMark n v).ctl.pm = x.ctl.pm)

/-- Every slot is vacant, with `cr.ptcfg` in mode 1 with sizes 0b001; every queue is unallocated, every barrier free, every signal 0, every bank unowned;
die boundaries train and the other links are down with why 0; the mailbox is idle, every key entry invalid, the limits 2,000 W and 4,000 A; the
counters of the dies are 0; no context exists and nothing is in flight. Memory lists nothing (what an unlisted byte reads as is the model's choice,
log 3), and the two invariants hold. -/
def Obligations.ResetLeaves : Prop :=
  (∀ pk, (State.reset.part pk).st = .vacant ∧ fld (State.reset.part pk).ptcfg 63 1 = 1 ∧ fld (State.reset.part pk).ptcfg 54 3 = 1
      ∧ (State.reset.part pk).kfrec = 0 ∧ (State.reset.part pk).ptu = 0 ∧ (State.reset.part pk).ptp = 0)
    ∧ (∀ k, (State.reset.queue k).state = .unallocated ∧ (State.reset.queue k).win.kind = 0 ∧ (State.reset.bar k).st = .free ∧ State.reset.sig k = 0
      ∧ (State.reset.rx k).cfg = 0)
    ∧ (∀ b, State.reset.bank b = .unowned)
    ∧ (∀ k n, (State.reset.link ⟨k, .die, n⟩).st = .training ∧ (State.reset.link ⟨k, .sept, n⟩).st = .down ∧ (State.reset.link ⟨k, .sept, n⟩).why = 0
      ∧ (State.reset.link ⟨k, .ue, n⟩).st = .down ∧ (State.reset.link ⟨k, .ue, n⟩).why = 0)
    ∧ (∀ i d, (State.reset.pkg 0).mbState = 0 ∧ ((State.reset.pkg 0).key i).valid = false ∧ (State.reset.pkg 0).pwrlim = 2000
      ∧ (State.reset.pkg 0).curlim = 4000 ∧ State.reset.cycle 0 d = 0)
    ∧ State.reset.ctxs = [] ∧ State.reset.blks = [] ∧ State.reset.agenda = [] ∧ State.reset.mem = []
    ∧ memWf State.reset = true ∧ countersAddUp State.reset

/-- Where the next act is the issue of a slot whose word decodes in its plane to an instruction, which is then well formed, the step is that instruction's
meaning at that slot. Where the next act is an event, time passes and the step is that event's meaning at its site. A slot that is not there, or a
word that decodes to nothing, is the fault of that name. With nothing placed, the step is the first instruction that can issue where that changes the
state, and every step gives a next state. A word placed for the next step issues (log 8). -/
def Obligations.StepRunsTheDecodedInstruction : Prop :=
  (∀ s cu r b sl i, s.agenda = .issue cu :: r → s.blks.get? cu.frame = some b → b.slots[cu.slot]? = some sl → decode sl.plane sl.word = .ok i →
      i.wf = true ∧ step s = exec i { s with agenda := r, site := .slot cu })
    ∧ (∀ s cu r b sl e, s.agenda = .issue cu :: r → s.blks.get? cu.frame = some b → b.slots[cu.slot]? = some sl → decode sl.plane sl.word = .error e →
      step s = .fault .undecodable)
    ∧ (∀ s cu r, s.agenda = .issue cu :: r → s.blks.get? cu.frame = none → step s = .fault .noSite)
    ∧ (∀ s i site r, s.agenda = .ev i site :: r → step s = exec i { ({ s with agenda := r } : State).tick with site := site })
    ∧ (∀ s cu r b sl i t, s.agenda = [] → s.issueActs = .issue cu :: r → s.blks.get? cu.frame = some b → b.slots[cu.slot]? = some sl →
      decode sl.plane sl.word = .ok i → exec i { s with site := .slot cu } = .next t → s.changed t = true → step s = .next t)
    ∧ (∀ s, s.agenda = [] → ∃ t, step s = .next t)
    ∧ (∀ (s : State) w i, decode .ctl (BitVec.ofNat 32 w) = .ok i → ∃ (cu : Cur) (b : Blk) (sl : Slot), (s.withFetchWord 32 w).agenda = [.issue cu]
      ∧ (s.withFetchWord 32 w).blks.get? cu.frame = some b ∧ b.slots[cu.slot]? = some sl ∧ sl.word = BitVec.ofNat 32 w ∧ sl.plane = .ctl
      ∧ step (s.withFetchWord 32 w) = exec i { s.withFetchWord 32 w with agenda := [], site := .slot cu })

/-- One word of each form, field by field from the tables of chapter 04, decodes to its instruction; a word with a reserved predicate, with no meaning in
its plane, or with a set bit that must be zero is refused by name. -/
def Obligations.WordsDecodeAsTheSpecEncodesThem : Prop :=
  decode .ctl (0b0000110#7 ++ 0b11#2 ++ 0b00010#5 ++ 0b100000101#9 ++ 0b010000011#9) = .ok (.mul ⟨.onTrue, ⟨.right, 5⟩, ⟨.left, 3⟩⟩)
    ∧ decode .ctl (0b0001011#7 ++ 0b00#2 ++ 0b11111111111110#14 ++ 0b010000111#9) = .ok (.addi ⟨.always, 0x3FFE, ⟨.left, 7⟩⟩)
    ∧ decode .ctl (0b0000001#7 ++ 0b0000000000101010#16 ++ 0b110000001#9) = .ok (.const 42 ⟨.pred, 1⟩)
    ∧ decode .ctl (0b0000011#7 ++ 0b0000101#7 ++ 0b000000000#9 ++ 0b010000010#9) = .ok (.read 5 ⟨.none, 0⟩ ⟨.left, 2⟩)
    ∧ decode .ctl (0b0000100#7 ++ 0b10#2 ++ 0b1000001#7 ++ 0b0000000000000000#16) = .ok (.write .onFalse 65)
    ∧ decode .ctl (0b0011000#7 ++ 0b00#2 ++ 0b101#3 ++ 0b11111111111111111111#20) = .ok (.br ⟨.always, 5, 0xFFFFF⟩)
    ∧ decode .ctl (0b0100110#7 ++ 0b00#2 ++ 0b00111#5 ++ 0b111111111#9 ++ 0b010000100#9) = .ok (.ldB64 ⟨.always, 7, 0x1FF, ⟨.left, 4⟩⟩)
    ∧ decode .ctl (0b0110101#7 ++ 0b00#2 ++ 0b00010#5 ++ 0b0001#4 ++ 0b101#3 ++ 0b0#1 ++ 0b1#1 ++ 0b000000000#9) = .ok (.amoAddF32 .always 2 .pd true)
    ∧ decode .dat (0b1011000#7 ++ 0b00#2 ++ 0b1#1 ++ 0b0000#4 ++ 0b000000000#9 ++ 0b100001001#9) = .ok (.vadd ⟨.always, true, .s8, ⟨.none, 0⟩, ⟨.right, 9⟩⟩)
    ∧ decode .ctl (0b0000110#7 ++ 0b01#2 ++ 0b00010#5 ++ 0b100000101#9 ++ 0b010000011#9) = .error .predReserved
    ∧ decode .dat (0b0000110#7 ++ 0b11#2 ++ 0b00010#5 ++ 0b100000101#9 ++ 0b010000011#9) = .error .noMeaning
    ∧ decode .ctl (0b0000100#7 ++ 0b10#2 ++ 0b1000001#7 ++ 0b0000000000000001#16) = .error .illegalField

/-- For every well-formed instruction with an encoding, with every operand at every value that its fields admit, and in every plane in which it stands,
decoding its encoded word gives it back. The instructions without an encoding are the events. -/
def Obligations.DecodeOfEncodeIsTheInstruction : Prop :=
  (∀ i w p, i.wf = true → encode i = some w → i.inPlane p = true → decode p w = .ok i)
    ∧ (∀ i, i.wf = true → (encode i).isSome = true → ∃ p, i.inPlane p = true)
    ∧ (∀ i, (encode i).isSome = false → ∀ p, i.inPlane p = false)

/-- In each plane, a word that decodes to an instruction is the word that the encoder writes for it: no bit of a word is ignored, and no two words decode
to one instruction. What a word decodes to is well formed and stands in that plane. -/
def Obligations.EncodeOfDecodeIsTheWord : Prop :=
  (∀ p w i, decode p w = .ok i → encode i = some w ∧ i.wf = true ∧ i.inPlane p = true)
    ∧ (∀ p v w i, decode p v = .ok i → decode p w = .ok i → v = w)

/-- From every state whose two memories (local memory, typed buffers) are in canonical form, addresses strictly rising and no cell equal to what an
unlisted address reads as, every step that gives a next state gives one in which they are. Equal memories are therefore equal data. -/
def Obligations.MemoryStaysCanonical : Prop :=
  ∀ s t, memWf s = true → step s = .next t → memWf t = true

/-- From every state in which, for each receive context, received = delivered + full + integrity + key + oversize modulo 2^64, every step that gives a
next state gives one in which that holds: frames, evictions, configuration writes, migrations and resets keep it. -/
def Obligations.ReceiveCountersAlwaysAddUp : Prop :=
  ∀ s t, countersAddUp s → step s = .next t → countersAddUp t

/-- The return address of a block is the first multiple of 16 bytes after it: its address plus the least multiple of 16 that is not below its length
16*(w+1) + 4*(c+1), for the w configuration words and the count c of its header; for a block at a multiple of 16 it is a multiple of 16 itself. -/
def Obligations.ReturnAddressOfABlock : Prop :=
  ∀ b : Blk,
    (∃ n, b.returnAddr = b.addr + BitVec.ofNat 64 (16 * n) ∧ 16 * (b.hdr.cwords + 1) + 4 * (b.hdr.count + 1) ≤ 16 * n
      ∧ ∀ m, 16 * (b.hdr.cwords + 1) + 4 * (b.hdr.count + 1) ≤ 16 * m → n ≤ m)
    ∧ (b.addr.toNat % 16 = 0 → b.returnAddr.toNat % 16 = 0)

/-- In a Moantiard chain, a command with waits set whose semaphore is 0 does not begin; with the semaphore at v above 0 it begins, the semaphore becomes v
- 1, and neither memory nor a queue changes. A command that has begun and whose effect ends posts: 1 is added to its post semaphore, on the state that
its effect leaves, and its stream moves to the next command. That an effect ends at once is the model's (log 126). -/
def Obligations.ChainCommandsWaitAndPost : Prop :=
  (∀ (c : MoChain) (depth : Nat → Nat) (e : MoEng) (s : MoSt) (k : MoCmd) (n : Nat),
      (c.stream e)[(s.pos e).at']? = some k → (s.pos e).begun = false → k.waits = some n →
        ((s.sems[n]?).getD 0 = 0 → s.step c depth e = none)
          ∧ (0 < (s.sems[n]?).getD 0 → ∃ t, s.step c depth e = some t ∧ (t.pos e).begun = true ∧ (t.pos e).at' = (s.pos e).at'
              ∧ t.sems = s.sems.set n ((s.sems[n]?).getD 0 - 1) ∧ t.mem = s.mem ∧ t.queues = s.queues))
    ∧ ∀ (c : MoChain) (depth : Nat → Nat) (e : MoEng) (s u : MoSt) (k : MoCmd) (n : Nat),
      (c.stream e)[(s.pos e).at']? = some k → (s.pos e).begun = true → k.posts = some n → s.effect c depth (s.pos e).moved k.op = .done u →
        ∃ t, s.step c depth e = some t ∧ t.pos e = ⟨(s.pos e).at' + 1, false, 0⟩ ∧ t.sems = u.sems.set n ((u.sems[n]?).getD 0 + 1) ∧ t.mem = u.mem
          ∧ t.queues = u.queues

/-- From every state of a Moantiard chain in which each queue holds at most its depth, every step of a stream gives a state in which that holds: a push
waits while its queue holds its depth. -/
def Obligations.ChainQueuesStayWithinDepth : Prop :=
  ∀ (c : MoChain) (depth : Nat → Nat) (e : MoEng) (s t : MoSt), (∀ q, (s.els q).length ≤ depth q) → s.step c depth e = some t →
    ∀ q, (t.els q).length ≤ depth q
end

