-- ==== Sys2Proof/Laws/Exec.lean ====
section
/-!
SUPPORT. The meaning that each constructor dispatches to.
-/
namespace Sys2Proof.Machine

@[simp] theorem exec_const {imm} {t1} (s : State) : exec (.const imm t1) s = execConst imm t1 s := rfl
@[simp] theorem exec_constx {imm} {t1} (s : State) : exec (.constx imm t1) s = execConstx imm t1 s := rfl
@[simp] theorem exec_read {reg} {t2} {t1} (s : State) : exec (.read reg t2 t1) s = execRead reg t2 t1 s := rfl
@[simp] theorem exec_write {p} {reg} (s : State) : exec (.write p reg) s = execWrite p reg s := rfl
@[simp] theorem exec_mov {g} (s : State) : exec (.mov g) s = execMov g s := rfl
@[simp] theorem exec_null {g} (s : State) : exec (.null g) s = execNull g s := rfl
@[simp] theorem exec_movV {g} (s : State) : exec (.movV g) s = execMovV g s := rfl
@[simp] theorem exec_nullV {g} (s : State) : exec (.nullV g) s = execNullV g s := rfl
@[simp] theorem exec_add {g} (s : State) : exec (.add g) s = execAdd g s := rfl
@[simp] theorem exec_sub {g} (s : State) : exec (.sub g) s = execSub g s := rfl
@[simp] theorem exec_mul {g} (s : State) : exec (.mul g) s = execMul g s := rfl
@[simp] theorem exec_mulhS64 {g} (s : State) : exec (.mulhS64 g) s = execMulhS64 g s := rfl
@[simp] theorem exec_mulhN64 {g} (s : State) : exec (.mulhN64 g) s = execMulhN64 g s := rfl
@[simp] theorem exec_divS64 {g} (s : State) : exec (.divS64 g) s = execDivS64 g s := rfl
@[simp] theorem exec_divN64 {g} (s : State) : exec (.divN64 g) s = execDivN64 g s := rfl
@[simp] theorem exec_remS64 {g} (s : State) : exec (.remS64 g) s = execRemS64 g s := rfl
@[simp] theorem exec_remN64 {g} (s : State) : exec (.remN64 g) s = execRemN64 g s := rfl
@[simp] theorem exec_neg {g} (s : State) : exec (.neg g) s = execNeg g s := rfl
@[simp] theorem exec_abs {g} (s : State) : exec (.abs g) s = execAbs g s := rfl
@[simp] theorem exec_minS64 {g} (s : State) : exec (.minS64 g) s = execMinS64 g s := rfl
@[simp] theorem exec_maxS64 {g} (s : State) : exec (.maxS64 g) s = execMaxS64 g s := rfl
@[simp] theorem exec_minN64 {g} (s : State) : exec (.minN64 g) s = execMinN64 g s := rfl
@[simp] theorem exec_maxN64 {g} (s : State) : exec (.maxN64 g) s = execMaxN64 g s := rfl
@[simp] theorem exec_and {g} (s : State) : exec (.and g) s = execAnd g s := rfl
@[simp] theorem exec_or {g} (s : State) : exec (.or g) s = execOr g s := rfl
@[simp] theorem exec_xor {g} (s : State) : exec (.xor g) s = execXor g s := rfl
@[simp] theorem exec_andn {g} (s : State) : exec (.andn g) s = execAndn g s := rfl
@[simp] theorem exec_not {g} (s : State) : exec (.not g) s = execNot g s := rfl
@[simp] theorem exec_shl {g} (s : State) : exec (.shl g) s = execShl g s := rfl
@[simp] theorem exec_shr {g} (s : State) : exec (.shr g) s = execShr g s := rfl
@[simp] theorem exec_sar {g} (s : State) : exec (.sar g) s = execSar g s := rfl
@[simp] theorem exec_rol {g} (s : State) : exec (.rol g) s = execRol g s := rfl
@[simp] theorem exec_ror {g} (s : State) : exec (.ror g) s = execRor g s := rfl
@[simp] theorem exec_popc {g} (s : State) : exec (.popc g) s = execPopc g s := rfl
@[simp] theorem exec_clz {g} (s : State) : exec (.clz g) s = execClz g s := rfl
@[simp] theorem exec_ctz {g} (s : State) : exec (.ctz g) s = execCtz g s := rfl
@[simp] theorem exec_bswap {g} (s : State) : exec (.bswap g) s = execBswap g s := rfl
@[simp] theorem exec_sextS8 {g} (s : State) : exec (.sextS8 g) s = execSextS8 g s := rfl
@[simp] theorem exec_sextS16 {g} (s : State) : exec (.sextS16 g) s = execSextS16 g s := rfl
@[simp] theorem exec_sextS32 {g} (s : State) : exec (.sextS32 g) s = execSextS32 g s := rfl
@[simp] theorem exec_zextN8 {g} (s : State) : exec (.zextN8 g) s = execZextN8 g s := rfl
@[simp] theorem exec_zextN16 {g} (s : State) : exec (.zextN16 g) s = execZextN16 g s := rfl
@[simp] theorem exec_zextN32 {g} (s : State) : exec (.zextN32 g) s = execZextN32 g s := rfl
@[simp] theorem exec_teq {g} (s : State) : exec (.teq g) s = execTeq g s := rfl
@[simp] theorem exec_tne {g} (s : State) : exec (.tne g) s = execTne g s := rfl
@[simp] theorem exec_tltS64 {g} (s : State) : exec (.tltS64 g) s = execTltS64 g s := rfl
@[simp] theorem exec_tleS64 {g} (s : State) : exec (.tleS64 g) s = execTleS64 g s := rfl
@[simp] theorem exec_tgtS64 {g} (s : State) : exec (.tgtS64 g) s = execTgtS64 g s := rfl
@[simp] theorem exec_tgeS64 {g} (s : State) : exec (.tgeS64 g) s = execTgeS64 g s := rfl
@[simp] theorem exec_tltN64 {g} (s : State) : exec (.tltN64 g) s = execTltN64 g s := rfl
@[simp] theorem exec_tleN64 {g} (s : State) : exec (.tleN64 g) s = execTleN64 g s := rfl
@[simp] theorem exec_tgtN64 {g} (s : State) : exec (.tgtN64 g) s = execTgtN64 g s := rfl
@[simp] theorem exec_tgeN64 {g} (s : State) : exec (.tgeN64 g) s = execTgeN64 g s := rfl
@[simp] theorem exec_tbit {g} (s : State) : exec (.tbit g) s = execTbit g s := rfl
@[simp] theorem exec_tz {g} (s : State) : exec (.tz g) s = execTz g s := rfl
@[simp] theorem exec_tnz {g} (s : State) : exec (.tnz g) s = execTnz g s := rfl
@[simp] theorem exec_wsplitB8 {g} (s : State) : exec (.wsplitB8 g) s = execWsplitB8 g s := rfl
@[simp] theorem exec_wsplitB16 {g} (s : State) : exec (.wsplitB16 g) s = execWsplitB16 g s := rfl
@[simp] theorem exec_wsplitB32 {g} (s : State) : exec (.wsplitB32 g) s = execWsplitB32 g s := rfl
@[simp] theorem exec_wjoinB8 {g} (s : State) : exec (.wjoinB8 g) s = execWjoinB8 g s := rfl
@[simp] theorem exec_wjoinB16 {g} (s : State) : exec (.wjoinB16 g) s = execWjoinB16 g s := rfl
@[simp] theorem exec_wjoinB32 {g} (s : State) : exec (.wjoinB32 g) s = execWjoinB32 g s := rfl
@[simp] theorem exec_leaX1 {g} (s : State) : exec (.leaX1 g) s = execLeaX1 g s := rfl
@[simp] theorem exec_leaX2 {g} (s : State) : exec (.leaX2 g) s = execLeaX2 g s := rfl
@[simp] theorem exec_leaX4 {g} (s : State) : exec (.leaX4 g) s = execLeaX4 g s := rfl
@[simp] theorem exec_leaX8 {g} (s : State) : exec (.leaX8 g) s = execLeaX8 g s := rfl
@[simp] theorem exec_addi {f} (s : State) : exec (.addi f) s = execAddi f s := rfl
@[simp] theorem exec_andi {f} (s : State) : exec (.andi f) s = execAndi f s := rfl
@[simp] theorem exec_ori {f} (s : State) : exec (.ori f) s = execOri f s := rfl
@[simp] theorem exec_xori {f} (s : State) : exec (.xori f) s = execXori f s := rfl
@[simp] theorem exec_teqi {f} (s : State) : exec (.teqi f) s = execTeqi f s := rfl
@[simp] theorem exec_shli {f} (s : State) : exec (.shli f) s = execShli f s := rfl
@[simp] theorem exec_shri {f} (s : State) : exec (.shri f) s = execShri f s := rfl
@[simp] theorem exec_sari {f} (s : State) : exec (.sari f) s = execSari f s := rfl
@[simp] theorem exec_tnei {f} (s : State) : exec (.tnei f) s = execTnei f s := rfl
@[simp] theorem exec_tlti {f} (s : State) : exec (.tlti f) s = execTlti f s := rfl
@[simp] theorem exec_tgei {f} (s : State) : exec (.tgei f) s = execTgei f s := rfl
@[simp] theorem exec_tltui {f} (s : State) : exec (.tltui f) s = execTltui f s := rfl
@[simp] theorem exec_tgeui {f} (s : State) : exec (.tgeui f) s = execTgeui f s := rfl
@[simp] theorem exec_br {b} (s : State) : exec (.br b) s = execBr b s := rfl
@[simp] theorem exec_call {b} (s : State) : exec (.call b) s = execCall b s := rfl
@[simp] theorem exec_brr {p} {exit} (s : State) : exec (.brr p exit) s = execBrr p exit s := rfl
@[simp] theorem exec_callr {p} {exit} (s : State) : exec (.callr p exit) s = execCallr p exit s := rfl
@[simp] theorem exec_ret {p} {exit} (s : State) : exec (.ret p exit) s = execRet p exit s := rfl
@[simp] theorem exec_barWait {b} (s : State) : exec (.barWait b) s = execBarWait b s := rfl
@[simp] theorem exec_sigWait {b} (s : State) : exec (.sigWait b) s = execSigWait b s := rfl
@[simp] theorem exec_yield {b} (s : State) : exec (.yield b) s = execYield b s := rfl
@[simp] theorem exec_idle {b} (s : State) : exec (.idle b) s = execIdle b s := rfl
@[simp] theorem exec_ldN8 {l} (s : State) : exec (.ldN8 l) s = execLdN8 l s := rfl
@[simp] theorem exec_ldS8 {l} (s : State) : exec (.ldS8 l) s = execLdS8 l s := rfl
@[simp] theorem exec_ldN16 {l} (s : State) : exec (.ldN16 l) s = execLdN16 l s := rfl
@[simp] theorem exec_ldS16 {l} (s : State) : exec (.ldS16 l) s = execLdS16 l s := rfl
@[simp] theorem exec_ldN32 {l} (s : State) : exec (.ldN32 l) s = execLdN32 l s := rfl
@[simp] theorem exec_ldS32 {l} (s : State) : exec (.ldS32 l) s = execLdS32 l s := rfl
@[simp] theorem exec_ldB64 {l} (s : State) : exec (.ldB64 l) s = execLdB64 l s := rfl
@[simp] theorem exec_ldN82t {l} (s : State) : exec (.ldN82t l) s = execLdN82t l s := rfl
@[simp] theorem exec_ldS82t {l} (s : State) : exec (.ldS82t l) s = execLdS82t l s := rfl
@[simp] theorem exec_ldN162t {l} (s : State) : exec (.ldN162t l) s = execLdN162t l s := rfl
@[simp] theorem exec_ldS162t {l} (s : State) : exec (.ldS162t l) s = execLdS162t l s := rfl
@[simp] theorem exec_ldN322t {l} (s : State) : exec (.ldN322t l) s = execLdN322t l s := rfl
@[simp] theorem exec_ldS322t {l} (s : State) : exec (.ldS322t l) s = execLdS322t l s := rfl
@[simp] theorem exec_ldB642t {l} (s : State) : exec (.ldB642t l) s = execLdB642t l s := rfl
@[simp] theorem exec_xlate {p} {id} {wr} {th} {t1} (s : State) : exec (.xlate p id wr th t1) s = execXlate p id wr th t1 s := rfl
@[simp] theorem exec_xprobe {p} {id} {wr} {th} {t1} (s : State) : exec (.xprobe p id wr th t1) s = execXprobe p id wr th t1 s := rfl
@[simp] theorem exec_pref {l} (s : State) : exec (.pref l) s = execPref l s := rfl
@[simp] theorem exec_stB8 {p} {id} {disp} (s : State) : exec (.stB8 p id disp) s = execStB8 p id disp s := rfl
@[simp] theorem exec_stB16 {p} {id} {disp} (s : State) : exec (.stB16 p id disp) s = execStB16 p id disp s := rfl
@[simp] theorem exec_stB32 {p} {id} {disp} (s : State) : exec (.stB32 p id disp) s = execStB32 p id disp s := rfl
@[simp] theorem exec_stB64 {p} {id} {disp} (s : State) : exec (.stB64 p id disp) s = execStB64 p id disp s := rfl
@[simp] theorem exec_amoAdd {p} {id} {sc} {wide} {ord} (s : State) : exec (.amoAdd p id sc wide ord) s = execAmoAdd p id sc wide ord s := rfl
@[simp] theorem exec_amoAddF32 {p} {id} {sc} {ord} (s : State) : exec (.amoAddF32 p id sc ord) s = execAmoAddF32 p id sc ord s := rfl
@[simp] theorem exec_amoMinS {p} {id} {sc} {wide} {ord} (s : State) : exec (.amoMinS p id sc wide ord) s = execAmoMinS p id sc wide ord s := rfl
@[simp] theorem exec_amoMaxS {p} {id} {sc} {wide} {ord} (s : State) : exec (.amoMaxS p id sc wide ord) s = execAmoMaxS p id sc wide ord s := rfl
@[simp] theorem exec_amoMinN {p} {id} {sc} {wide} {ord} (s : State) : exec (.amoMinN p id sc wide ord) s = execAmoMinN p id sc wide ord s := rfl
@[simp] theorem exec_amoMaxN {p} {id} {sc} {wide} {ord} (s : State) : exec (.amoMaxN p id sc wide ord) s = execAmoMaxN p id sc wide ord s := rfl
@[simp] theorem exec_amoAnd {p} {id} {sc} {wide} {ord} (s : State) : exec (.amoAnd p id sc wide ord) s = execAmoAnd p id sc wide ord s := rfl
@[simp] theorem exec_amoOr {p} {id} {sc} {wide} {ord} (s : State) : exec (.amoOr p id sc wide ord) s = execAmoOr p id sc wide ord s := rfl
@[simp] theorem exec_amoXor {p} {id} {sc} {wide} {ord} (s : State) : exec (.amoXor p id sc wide ord) s = execAmoXor p id sc wide ord s := rfl
@[simp] theorem exec_lease {p} {id} {cyc} (s : State) : exec (.lease p id cyc) s = execLease p id cyc s := rfl
@[simp] theorem exec_unlease {p} {id} (s : State) : exec (.unlease p id) s = execUnlease p id s := rfl
@[simp] theorem exec_fenceAcq {p} {id} {sc} (s : State) : exec (.fenceAcq p id sc) s = execFenceAcq p id sc s := rfl
@[simp] theorem exec_fenceRel {p} {id} {sc} (s : State) : exec (.fenceRel p id sc) s = execFenceRel p id sc s := rfl
@[simp] theorem exec_fenceAr {p} {id} {sc} (s : State) : exec (.fenceAr p id sc) s = execFenceAr p id sc s := rfl
@[simp] theorem exec_qfence {p} {id} {set} (s : State) : exec (.qfence p id set) s = execQfence p id set s := rfl
@[simp] theorem exec_qpop {p} {id} {t1} (s : State) : exec (.qpop p id t1) s = execQpop p id t1 s := rfl
@[simp] theorem exec_qpopBq {p} {id} {t1} (s : State) : exec (.qpopBq p id t1) s = execQpopBq p id t1 s := rfl
@[simp] theorem exec_qpush {p} {id} {q} (s : State) : exec (.qpush p id q) s = execQpush p id q s := rfl
@[simp] theorem exec_qpushCmdq {p} {id} (s : State) : exec (.qpushCmdq p id) s = execQpushCmdq p id s := rfl
@[simp] theorem exec_pop {p} {id} {inl} {t1} (s : State) : exec (.pop p id inl t1) s = execPop p id inl t1 s := rfl
@[simp] theorem exec_popV {p} {id} {inl} {t1} (s : State) : exec (.popV p id inl t1) s = execPopV p id inl t1 s := rfl
@[simp] theorem exec_peek {p} {id} {inl} {t1} (s : State) : exec (.peek p id inl t1) s = execPeek p id inl t1 s := rfl
@[simp] theorem exec_peekV {p} {id} {inl} {t1} (s : State) : exec (.peekV p id inl t1) s = execPeekV p id inl t1 s := rfl
@[simp] theorem exec_push {p} {id} {outl} (s : State) : exec (.push p id outl) s = execPush p id outl s := rfl
@[simp] theorem exec_pushBq {p} {id} (s : State) : exec (.pushBq p id) s = execPushBq p id s := rfl
@[simp] theorem exec_pushV {p} {id} {outl} (s : State) : exec (.pushV p id outl) s = execPushV p id outl s := rfl
@[simp] theorem exec_pushm {p} {id} {outl} (s : State) : exec (.pushm p id outl) s = execPushm p id outl s := rfl
@[simp] theorem exec_strmStage {p} {id} {stg} (s : State) : exec (.strmStage p id stg) s = execStrmStage p id stg s := rfl
@[simp] theorem exec_strmRows {p} {id} (s : State) : exec (.strmRows p id) s = execStrmRows p id s := rfl
@[simp] theorem exec_strmTag {p} {id} (s : State) : exec (.strmTag p id) s = execStrmTag p id s := rfl
@[simp] theorem exec_strmGo {p} {id} (s : State) : exec (.strmGo p id) s = execStrmGo p id s := rfl
@[simp] theorem exec_strmHalt {p} {id} (s : State) : exec (.strmHalt p id) s = execStrmHalt p id s := rfl
@[simp] theorem exec_sphAnd {p} {id} {tree} {q} (s : State) : exec (.sphAnd p id tree q) s = execSphAnd p id tree q s := rfl
@[simp] theorem exec_sphOr {p} {id} {tree} {q} (s : State) : exec (.sphOr p id tree q) s = execSphOr p id tree q s := rfl
@[simp] theorem exec_steer {p} {id} {m} {of} {ot} (s : State) : exec (.steer p id m of ot) s = execSteer p id m of ot s := rfl
@[simp] theorem exec_collect {p} {id} {inl} {t1} (s : State) : exec (.collect p id inl t1) s = execCollect p id inl t1 s := rfl
@[simp] theorem exec_rtcfg {p} {id} {stg} {q} (s : State) : exec (.rtcfg p id stg q) s = execRtcfg p id stg q s := rfl
@[simp] theorem exec_barInit {p} {id} {sc} (s : State) : exec (.barInit p id sc) s = execBarInit p id sc s := rfl
@[simp] theorem exec_barArrive {p} {id} {sc} (s : State) : exec (.barArrive p id sc) s = execBarArrive p id sc s := rfl
@[simp] theorem exec_barBind {p} {id} {sc} (s : State) : exec (.barBind p id sc) s = execBarBind p id sc s := rfl
@[simp] theorem exec_barDrop {p} {id} {sc} (s : State) : exec (.barDrop p id sc) s = execBarDrop p id sc s := rfl
@[simp] theorem exec_sigInc {p} {id} {sc} (s : State) : exec (.sigInc p id sc) s = execSigInc p id sc s := rfl
@[simp] theorem exec_shapeV {p} {id} {sh} (s : State) : exec (.shapeV p id sh) s = execShapeV p id sh s := rfl
@[simp] theorem exec_shapeT {p} {id} {sh} (s : State) : exec (.shapeT p id sh) s = execShapeT p id sh s := rfl
@[simp] theorem exec_shstep {p} {id} {sh} {t1} (s : State) : exec (.shstep p id sh t1) s = execShstep p id sh t1 s := rfl
@[simp] theorem exec_shstepV {p} {id} {sh} {t1} (s : State) : exec (.shstepV p id sh t1) s = execShstepV p id sh t1 s := rfl
@[simp] theorem exec_mma {p} {id} {ty} {sat} {acc} (s : State) : exec (.mma p id ty sat acc) s = execMma p id ty sat acc s := rfl
@[simp] theorem exec_mmaG {p} {id} {ty} {sat} {acc} (s : State) : exec (.mmaG p id ty sat acc) s = execMmaG p id ty sat acc s := rfl
@[simp] theorem exec_tmov {p} {id} {src} {dst} (s : State) : exec (.tmov p id src dst) s = execTmov p id src dst s := rfl
@[simp] theorem exec_tmovT {p} {id} {src} {dst} (s : State) : exec (.tmovT p id src dst) s = execTmovT p id src dst s := rfl
@[simp] theorem exec_acclr {p} {id} {acc} (s : State) : exec (.acclr p id acc) s = execAcclr p id acc s := rfl
@[simp] theorem exec_accst {p} {id} {acc} (s : State) : exec (.accst p id acc) s = execAccst p id acc s := rfl
@[simp] theorem exec_accrd {p} {id} {acc} {t1} (s : State) : exec (.accrd p id acc t1) s = execAccrd p id acc t1 s := rfl
@[simp] theorem exec_trap {p} {code} (s : State) : exec (.trap p code) s = execTrap p code s := rfl
@[simp] theorem exec_svc {p} {code} (s : State) : exec (.svc p code) s = execSvc p code s := rfl
@[simp] theorem exec_brk {p} {code} (s : State) : exec (.brk p code) s = execBrk p code s := rfl
@[simp] theorem exec_rfe {p} (s : State) : exec (.rfe p) s = execRfe p s := rfl
@[simp] theorem exec_crrd {p} {id} {num} {t1} (s : State) : exec (.crrd p id num t1) s = execCrrd p id num t1 s := rfl
@[simp] theorem exec_crwr {p} {id} {num} (s : State) : exec (.crwr p id num) s = execCrwr p id num s := rfl
@[simp] theorem exec_launch {p} {id} {lq} (s : State) : exec (.launch p id lq) s = execLaunch p id lq s := rfl
@[simp] theorem exec_grpMake {p} {id} (s : State) : exec (.grpMake p id) s = execGrpMake p id s := rfl
@[simp] theorem exec_grpSplit {p} {id} (s : State) : exec (.grpSplit p id) s = execGrpSplit p id s := rfl
@[simp] theorem exec_grpJoin {p} {id} (s : State) : exec (.grpJoin p id) s = execGrpJoin p id s := rfl
@[simp] theorem exec_grpFree {p} {id} (s : State) : exec (.grpFree p id) s = execGrpFree p id s := rfl
@[simp] theorem exec_xshoot {p} {id} {sz} (s : State) : exec (.xshoot p id sz) s = execXshoot p id sz s := rfl
@[simp] theorem exec_pgMap {p} {id} {sz} (s : State) : exec (.pgMap p id sz) s = execPgMap p id sz s := rfl
@[simp] theorem exec_pgUnmap {p} {id} {sz} (s : State) : exec (.pgUnmap p id sz) s = execPgUnmap p id sz s := rfl
@[simp] theorem exec_pgPin {p} {id} {sz} (s : State) : exec (.pgPin p id sz) s = execPgPin p id sz s := rfl
@[simp] theorem exec_pgUnpin {p} {id} {sz} (s : State) : exec (.pgUnpin p id sz) s = execPgUnpin p id sz s := rfl
@[simp] theorem exec_pgPoison {p} {id} {sz} (s : State) : exec (.pgPoison p id sz) s = execPgPoison p id sz s := rfl
@[simp] theorem exec_pgPromote {p} {id} {sz} (s : State) : exec (.pgPromote p id sz) s = execPgPromote p id sz s := rfl
@[simp] theorem exec_lnkUp {p} {id} {cls} (s : State) : exec (.lnkUp p id cls) s = execLnkUp p id cls s := rfl
@[simp] theorem exec_lnkDown {p} {id} {cls} (s : State) : exec (.lnkDown p id cls) s = execLnkDown p id cls s := rfl
@[simp] theorem exec_lnkRetrain {p} {id} {cls} (s : State) : exec (.lnkRetrain p id cls) s = execLnkRetrain p id cls s := rfl
@[simp] theorem exec_lnkChain {p} {id} {cls} (s : State) : exec (.lnkChain p id cls) s = execLnkChain p id cls s := rfl
@[simp] theorem exec_lnkUnchain {p} {id} {cls} (s : State) : exec (.lnkUnchain p id cls) s = execLnkUnchain p id cls s := rfl
@[simp] theorem exec_vdQuiesce {p} {id} (s : State) : exec (.vdQuiesce p id) s = execVdQuiesce p id s := rfl
@[simp] theorem exec_vdSend {p} {id} (s : State) : exec (.vdSend p id) s = execVdSend p id s := rfl
@[simp] theorem exec_vdResume {p} {id} (s : State) : exec (.vdResume p id) s = execVdResume p id s := rfl
@[simp] theorem exec_vdRelease {p} {id} (s : State) : exec (.vdRelease p id) s = execVdRelease p id s := rfl
@[simp] theorem exec_vdReplay {p} {id} (s : State) : exec (.vdReplay p id) s = execVdReplay p id s := rfl
@[simp] theorem exec_vadd {v} (s : State) : exec (.vadd v) s = execVadd v s := rfl
@[simp] theorem exec_vsub {v} (s : State) : exec (.vsub v) s = execVsub v s := rfl
@[simp] theorem exec_vmul {v} (s : State) : exec (.vmul v) s = execVmul v s := rfl
@[simp] theorem exec_vmulh {v} (s : State) : exec (.vmulh v) s = execVmulh v s := rfl
@[simp] theorem exec_vmin {v} (s : State) : exec (.vmin v) s = execVmin v s := rfl
@[simp] theorem exec_vmax {v} (s : State) : exec (.vmax v) s = execVmax v s := rfl
@[simp] theorem exec_vabs {v} (s : State) : exec (.vabs v) s = execVabs v s := rfl
@[simp] theorem exec_vneg {v} (s : State) : exec (.vneg v) s = execVneg v s := rfl
@[simp] theorem exec_vand {v} (s : State) : exec (.vand v) s = execVand v s := rfl
@[simp] theorem exec_vor {v} (s : State) : exec (.vor v) s = execVor v s := rfl
@[simp] theorem exec_vxor {v} (s : State) : exec (.vxor v) s = execVxor v s := rfl
@[simp] theorem exec_vnot {v} (s : State) : exec (.vnot v) s = execVnot v s := rfl
@[simp] theorem exec_vshl {v} (s : State) : exec (.vshl v) s = execVshl v s := rfl
@[simp] theorem exec_vshr {v} (s : State) : exec (.vshr v) s = execVshr v s := rfl
@[simp] theorem exec_vsar {v} (s : State) : exec (.vsar v) s = execVsar v s := rfl
@[simp] theorem exec_vclz {v} (s : State) : exec (.vclz v) s = execVclz v s := rfl
@[simp] theorem exec_vpopc {v} (s : State) : exec (.vpopc v) s = execVpopc v s := rfl
@[simp] theorem exec_cmp {p} {ftz} {ty} {cond} {t1} (s : State) : exec (.cmp p ftz ty cond t1) s = execCmp p ftz ty cond t1 s := rfl
@[simp] theorem exec_msel {p} {ty} {m} {t1} (s : State) : exec (.msel p ty m t1) s = execMsel p ty m t1 s := rfl
@[simp] theorem exec_wadd {v} (s : State) : exec (.wadd v) s = execWadd v s := rfl
@[simp] theorem exec_wmul {v} (s : State) : exec (.wmul v) s = execWmul v s := rfl
@[simp] theorem exec_narrow {p} {sat} {ty} {mode} {t1} (s : State) : exec (.narrow p sat ty mode t1) s = execNarrow p sat ty mode t1 s := rfl
@[simp] theorem exec_cvt {p} {sat} {dst} {mode} {src} {t1} (s : State) : exec (.cvt p sat dst mode src t1) s = execCvt p sat dst mode src t1 s := rfl
@[simp] theorem exec_vrcp {p} {ftz} {t2} {t1} (s : State) : exec (.vrcp p ftz t2 t1) s = execVrcp p ftz t2 t1 s := rfl
@[simp] theorem exec_vrsq {p} {ftz} {t2} {t1} (s : State) : exec (.vrsq p ftz t2 t1) s = execVrsq p ftz t2 t1 s := rfl
@[simp] theorem exec_vsqrt {p} {ftz} {t2} {t1} (s : State) : exec (.vsqrt p ftz t2 t1) s = execVsqrt p ftz t2 t1 s := rfl
@[simp] theorem exec_vexp2 {p} {ftz} {t2} {t1} (s : State) : exec (.vexp2 p ftz t2 t1) s = execVexp2 p ftz t2 t1 s := rfl
@[simp] theorem exec_vlog2 {p} {ftz} {t2} {t1} (s : State) : exec (.vlog2 p ftz t2 t1) s = execVlog2 p ftz t2 t1 s := rfl
@[simp] theorem exec_red {p} {md} {ty} {op} {t1} (s : State) : exec (.red p md ty op t1) s = execRed p md ty op t1 s := rfl
@[simp] theorem exec_scan {p} {md} {ty} {excl} {op} {t1} (s : State) : exec (.scan p md ty excl op t1) s = execScan p md ty excl op t1 s := rfl
@[simp] theorem exec_perm {v} (s : State) : exec (.perm v) s = execPerm v s := rfl
@[simp] theorem exec_slideUp {p} {ty} {k} {t1} (s : State) : exec (.slideUp p ty k t1) s = execSlideUp p ty k t1 s := rfl
@[simp] theorem exec_slideDn {p} {ty} {k} {t1} (s : State) : exec (.slideDn p ty k t1) s = execSlideDn p ty k t1 s := rfl
@[simp] theorem exec_bcast {p} {ty} {k} {t1} (s : State) : exec (.bcast p ty k t1) s = execBcast p ty k t1 s := rfl
@[simp] theorem exec_mand {g} (s : State) : exec (.mand g) s = execMand g s := rfl
@[simp] theorem exec_mor {g} (s : State) : exec (.mor g) s = execMor g s := rfl
@[simp] theorem exec_mxor {g} (s : State) : exec (.mxor g) s = execMxor g s := rfl
@[simp] theorem exec_mnot {g} (s : State) : exec (.mnot g) s = execMnot g s := rfl
@[simp] theorem exec_mcnt {g} (s : State) : exec (.mcnt g) s = execMcnt g s := rfl
@[simp] theorem exec_iota {v} (s : State) : exec (.iota v) s = execIota v s := rfl
@[simp] theorem exec_blockFetch (s : State) : exec .blockFetch s = execBlockFetch s := rfl
@[simp] theorem exec_dispatchDecision (s : State) : exec .dispatchDecision s = execDispatchDecision s := rfl
@[simp] theorem exec_heldSlotResume (s : State) : exec .heldSlotResume s = execHeldSlotResume s := rfl
@[simp] theorem exec_blockCommit (s : State) : exec .blockCommit s = execBlockCommit s := rfl
@[simp] theorem exec_incompleteBlockFault (s : State) : exec .incompleteBlockFault s = execIncompleteBlockFault s := rfl
@[simp] theorem exec_trapEntry (s : State) : exec .trapEntry s = execTrapEntry s := rfl
@[simp] theorem exec_streamFault (s : State) : exec .streamFault s = execStreamFault s := rfl
@[simp] theorem exec_waitEnd (s : State) : exec .waitEnd s = execWaitEnd s := rfl
@[simp] theorem exec_loadPerform (s : State) : exec .loadPerform s = execLoadPerform s := rfl
@[simp] theorem exec_storePathPerform (s : State) : exec .storePathPerform s = execStorePathPerform s := rfl
@[simp] theorem exec_amoHomeUpdate (s : State) : exec .amoHomeUpdate s = execAmoHomeUpdate s := rfl
@[simp] theorem exec_leaseHold (s : State) : exec .leaseHold s = execLeaseHold s := rfl
@[simp] theorem exec_leaseExpiry (s : State) : exec .leaseExpiry s = execLeaseExpiry s := rfl
@[simp] theorem exec_cmdqAdopt (s : State) : exec .cmdqAdopt s = execCmdqAdopt s := rfl
@[simp] theorem exec_caskMove (s : State) : exec .caskMove s = execCaskMove s := rfl
@[simp] theorem exec_streamStart (s : State) : exec .streamStart s = execStreamStart s := rfl
@[simp] theorem exec_streamItem (s : State) : exec .streamItem s = execStreamItem s := rfl
@[simp] theorem exec_mmaKGroup (s : State) : exec .mmaKGroup s = execMmaKGroup s := rfl
@[simp] theorem exec_tmovPerform (s : State) : exec .tmovPerform s = execTmovPerform s := rfl
@[simp] theorem exec_acclrPerform (s : State) : exec .acclrPerform s = execAcclrPerform s := rfl
@[simp] theorem exec_accstRowAppend (s : State) : exec .accstRowAppend s = execAccstRowAppend s := rfl
@[simp] theorem exec_accrdDeliver (s : State) : exec .accrdDeliver s = execAccrdDeliver s := rfl
@[simp] theorem exec_preemptBegin (s : State) : exec .preemptBegin s = execPreemptBegin s := rfl
@[simp] theorem exec_drainComplete (s : State) : exec .drainComplete s = execDrainComplete s := rfl
@[simp] theorem exec_kilnStart (s : State) : exec .kilnStart s = execKilnStart s := rfl
@[simp] theorem exec_kilnScanComplete (s : State) : exec .kilnScanComplete s = execKilnScanComplete s := rfl
@[simp] theorem exec_contextRestore (s : State) : exec .contextRestore s = execContextRestore s := rfl
@[simp] theorem exec_launchAccept (s : State) : exec .launchAccept s = execLaunchAccept s := rfl
@[simp] theorem exec_kernelPlacement (s : State) : exec .kernelPlacement s = execKernelPlacement s := rfl
@[simp] theorem exec_kernelQuiet (s : State) : exec .kernelQuiet s = execKernelQuiet s := rfl
@[simp] theorem exec_partitionFence (s : State) : exec .partitionFence s = execPartitionFence s := rfl
@[simp] theorem exec_kctlDone (s : State) : exec .kctlDone s = execKctlDone s := rfl
@[simp] theorem exec_kctlFence (s : State) : exec .kctlFence s = execKctlFence s := rfl
@[simp] theorem exec_kctlFault (s : State) : exec .kctlFault s = execKctlFault s := rfl
@[simp] theorem exec_qctlOpen (s : State) : exec .qctlOpen s = execQctlOpen s := rfl
@[simp] theorem exec_qctlSeal (s : State) : exec .qctlSeal s = execQctlSeal s := rfl
@[simp] theorem exec_qctlClose (s : State) : exec .qctlClose s = execQctlClose s := rfl
@[simp] theorem exec_qwinDescriptorWrite (s : State) : exec .qwinDescriptorWrite s = execQwinDescriptorWrite s := rfl
@[simp] theorem exec_sstatResume (s : State) : exec .sstatResume s = execSstatResume s := rfl
@[simp] theorem exec_sstatAbandon (s : State) : exec .sstatAbandon s = execSstatAbandon s := rfl
@[simp] theorem exec_xcauseResume (s : State) : exec .xcauseResume s = execXcauseResume s := rfl
@[simp] theorem exec_mxprogResume (s : State) : exec .mxprogResume s = execMxprogResume s := rfl
@[simp] theorem exec_mxprogAbandon (s : State) : exec .mxprogAbandon s = execMxprogAbandon s := rfl
@[simp] theorem exec_wstCancel (s : State) : exec .wstCancel s = execWstCancel s := rfl
@[simp] theorem exec_asnWrite (s : State) : exec .asnWrite s = execAsnWrite s := rfl
@[simp] theorem exec_ptcfgWrite (s : State) : exec .ptcfgWrite s = execPtcfgWrite s := rfl
@[simp] theorem exec_rxselSnapshot (s : State) : exec .rxselSnapshot s = execRxselSnapshot s := rfl
@[simp] theorem exec_rxcfgWrite (s : State) : exec .rxcfgWrite s = execRxcfgWrite s := rfl
@[simp] theorem exec_sgvalWrite (s : State) : exec .sgvalWrite s = execSgvalWrite s := rfl
@[simp] theorem exec_groupPreempt (s : State) : exec .groupPreempt s = execGroupPreempt s := rfl
@[simp] theorem exec_groupRestore (s : State) : exec .groupRestore s = execGroupRestore s := rfl
@[simp] theorem exec_groupMemberEnd (s : State) : exec .groupMemberEnd s = execGroupMemberEnd s := rfl
@[simp] theorem exec_shootDownComplete (s : State) : exec .shootDownComplete s = execShootDownComplete s := rfl
@[simp] theorem exec_bankDrainDone (s : State) : exec .bankDrainDone s = execBankDrainDone s := rfl
@[simp] theorem exec_bankScrubDone (s : State) : exec .bankScrubDone s = execBankScrubDone s := rfl
@[simp] theorem exec_linkTrainingComplete (s : State) : exec .linkTrainingComplete s = execLinkTrainingComplete s := rfl
@[simp] theorem exec_linkBudgetExpiry (s : State) : exec .linkBudgetExpiry s = execLinkBudgetExpiry s := rfl
@[simp] theorem exec_flitReplay (s : State) : exec .flitReplay s = execFlitReplay s := rfl
@[simp] theorem exec_farEndLoss (s : State) : exec .farEndLoss s = execFarEndLoss s := rfl
@[simp] theorem exec_granuleReceive (s : State) : exec .granuleReceive s = execGranuleReceive s := rfl
@[simp] theorem exec_granuleAck (s : State) : exec .granuleAck s = execGranuleAck s := rfl
@[simp] theorem exec_chainElementSend (s : State) : exec .chainElementSend s = execChainElementSend s := rfl
@[simp] theorem exec_chainConfirm (s : State) : exec .chainConfirm s = execChainConfirm s := rfl
@[simp] theorem exec_frameReceive (s : State) : exec .frameReceive s = execFrameReceive s := rfl
@[simp] theorem exec_quiesceComplete (s : State) : exec .quiesceComplete s = execQuiesceComplete s := rfl
@[simp] theorem exec_transferComplete (s : State) : exec .transferComplete s = execTransferComplete s := rfl
@[simp] theorem exec_sweepSend (s : State) : exec .sweepSend s = execSweepSend s := rfl
@[simp] theorem exec_pageArrival (s : State) : exec .pageArrival s = execPageArrival s := rfl
@[simp] theorem exec_redirect (s : State) : exec .redirect s = execRedirect s := rfl
@[simp] theorem exec_hangDetect (s : State) : exec .hangDetect s = execHangDetect s := rfl
@[simp] theorem exec_detectedError (s : State) : exec .detectedError s = execDetectedError s := rfl
@[simp] theorem exec_partLoss (s : State) : exec .partLoss s = execPartLoss s := rfl
@[simp] theorem exec_deviceReset (s : State) : exec .deviceReset s = execDeviceReset s := rfl
@[simp] theorem exec_hostWrite (s : State) : exec .hostWrite s = execHostWrite s := rfl
@[simp] theorem exec_mbAssign (s : State) : exec .mbAssign s = execMbAssign s := rfl
@[simp] theorem exec_mbClear (s : State) : exec .mbClear s = execMbClear s := rfl
@[simp] theorem exec_mbPreempt (s : State) : exec .mbPreempt s = execMbPreempt s := rfl
@[simp] theorem exec_mbPodmap (s : State) : exec .mbPodmap s = execMbPodmap s := rfl
@[simp] theorem exec_mbPortmap (s : State) : exec .mbPortmap s = execMbPortmap s := rfl
@[simp] theorem exec_mbPeer (s : State) : exec .mbPeer s = execMbPeer s := rfl
@[simp] theorem exec_mbLinkadm (s : State) : exec .mbLinkadm s = execMbLinkadm s := rfl
@[simp] theorem exec_mbKeyset (s : State) : exec .mbKeyset s = execMbKeyset s := rfl
@[simp] theorem exec_mbKeyinv (s : State) : exec .mbKeyinv s = execMbKeyinv s := rfl
@[simp] theorem exec_mbAttest (s : State) : exec .mbAttest s = execMbAttest s := rfl
@[simp] theorem exec_currentLimitTrip (s : State) : exec .currentLimitTrip s = execCurrentLimitTrip s := rfl
@[simp] theorem exec_currentLimitRelease (s : State) : exec .currentLimitRelease s = execCurrentLimitRelease s := rfl
@[simp] theorem exec_powerIdleAdjust (s : State) : exec .powerIdleAdjust s = execPowerIdleAdjust s := rfl
@[simp] theorem exec_replayComplete (s : State) : exec .replayComplete s = execReplayComplete s := rfl

end Sys2Proof.Machine
end

