-- ==== Sys2Proof/Laws/State.lean ====
section
/-!
SUPPORT. What each change of a table leaves in every field of the state.
-/
namespace Sys2Proof.Machine

/-! ### State.setPkg -/

@[simp] theorem State.setPkg_agenda (s : State) (k : Nat) (p : Pkg) : (s.setPkg k p).agenda = s.agenda := rfl
@[simp] theorem State.setPkg_site (s : State) (k : Nat) (p : Pkg) : (s.setPkg k p).site = s.site := rfl
@[simp] theorem State.setPkg_free (s : State) (k : Nat) (p : Pkg) : (s.setPkg k p).free = s.free := rfl
@[simp] theorem State.setPkg_seq (s : State) (k : Nat) (p : Pkg) : (s.setPkg k p).seq = s.seq := rfl
@[simp] theorem State.setPkg_mem (s : State) (k : Nat) (p : Pkg) : (s.setPkg k p).mem = s.mem := rfl
@[simp] theorem State.setPkg_bufs (s : State) (k : Nat) (p : Pkg) : (s.setPkg k p).bufs = s.bufs := rfl
@[simp] theorem State.setPkg_bad (s : State) (k : Nat) (p : Pkg) : (s.setPkg k p).bad = s.bad := rfl
@[simp] theorem State.setPkg_encs (s : State) (k : Nat) (p : Pkg) : (s.setPkg k p).encs = s.encs := rfl
@[simp] theorem State.setPkg_pkgs (s : State) (k : Nat) (p : Pkg) : (s.setPkg k p).pkgs = s.pkgs.put k p := rfl
@[simp] theorem State.setPkg_banks (s : State) (k : Nat) (p : Pkg) : (s.setPkg k p).banks = s.banks := rfl
@[simp] theorem State.setPkg_disps (s : State) (k : Nat) (p : Pkg) : (s.setPkg k p).disps = s.disps := rfl
@[simp] theorem State.setPkg_blks (s : State) (k : Nat) (p : Pkg) : (s.setPkg k p).blks = s.blks := rfl
@[simp] theorem State.setPkg_ctxs (s : State) (k : Nat) (p : Pkg) : (s.setPkg k p).ctxs = s.ctxs := rfl
@[simp] theorem State.setPkg_parts (s : State) (k : Nat) (p : Pkg) : (s.setPkg k p).parts = s.parts := rfl
@[simp] theorem State.setPkg_queues (s : State) (k : Nat) (p : Pkg) : (s.setPkg k p).queues = s.queues := rfl
@[simp] theorem State.setPkg_jrnls (s : State) (k : Nat) (p : Pkg) : (s.setPkg k p).jrnls = s.jrnls := rfl
@[simp] theorem State.setPkg_bars (s : State) (k : Nat) (p : Pkg) : (s.setPkg k p).bars = s.bars := rfl
@[simp] theorem State.setPkg_sigs (s : State) (k : Nat) (p : Pkg) : (s.setPkg k p).sigs = s.sigs := rfl
@[simp] theorem State.setPkg_groups (s : State) (k : Nat) (p : Pkg) : (s.setPkg k p).groups = s.groups := rfl
@[simp] theorem State.setPkg_kerns (s : State) (k : Nat) (p : Pkg) : (s.setPkg k p).kerns = s.kerns := rfl
@[simp] theorem State.setPkg_rxs (s : State) (k : Nat) (p : Pkg) : (s.setPkg k p).rxs = s.rxs := rfl
@[simp] theorem State.setPkg_links (s : State) (k : Nat) (p : Pkg) : (s.setPkg k p).links = s.links := rfl
@[simp] theorem State.setPkg_walks (s : State) (k : Nat) (p : Pkg) : (s.setPkg k p).walks = s.walks := rfl
@[simp] theorem State.setPkg_shoots (s : State) (k : Nat) (p : Pkg) : (s.setPkg k p).shoots = s.shoots := rfl
@[simp] theorem State.setPkg_amos (s : State) (k : Nat) (p : Pkg) : (s.setPkg k p).amos = s.amos := rfl

/-! ### State.setPart -/

@[simp] theorem State.setPart_agenda (s : State) (k : PartKey) (p : Part) : (s.setPart k p).agenda = s.agenda := rfl
@[simp] theorem State.setPart_site (s : State) (k : PartKey) (p : Part) : (s.setPart k p).site = s.site := rfl
@[simp] theorem State.setPart_free (s : State) (k : PartKey) (p : Part) : (s.setPart k p).free = s.free := rfl
@[simp] theorem State.setPart_seq (s : State) (k : PartKey) (p : Part) : (s.setPart k p).seq = s.seq := rfl
@[simp] theorem State.setPart_mem (s : State) (k : PartKey) (p : Part) : (s.setPart k p).mem = s.mem := rfl
@[simp] theorem State.setPart_bufs (s : State) (k : PartKey) (p : Part) : (s.setPart k p).bufs = s.bufs := rfl
@[simp] theorem State.setPart_bad (s : State) (k : PartKey) (p : Part) : (s.setPart k p).bad = s.bad := rfl
@[simp] theorem State.setPart_encs (s : State) (k : PartKey) (p : Part) : (s.setPart k p).encs = s.encs := rfl
@[simp] theorem State.setPart_pkgs (s : State) (k : PartKey) (p : Part) : (s.setPart k p).pkgs = s.pkgs := rfl
@[simp] theorem State.setPart_banks (s : State) (k : PartKey) (p : Part) : (s.setPart k p).banks = s.banks := rfl
@[simp] theorem State.setPart_disps (s : State) (k : PartKey) (p : Part) : (s.setPart k p).disps = s.disps := rfl
@[simp] theorem State.setPart_blks (s : State) (k : PartKey) (p : Part) : (s.setPart k p).blks = s.blks := rfl
@[simp] theorem State.setPart_ctxs (s : State) (k : PartKey) (p : Part) : (s.setPart k p).ctxs = s.ctxs := rfl
@[simp] theorem State.setPart_parts (s : State) (k : PartKey) (p : Part) : (s.setPart k p).parts = s.parts.put k p := rfl
@[simp] theorem State.setPart_queues (s : State) (k : PartKey) (p : Part) : (s.setPart k p).queues = s.queues := rfl
@[simp] theorem State.setPart_jrnls (s : State) (k : PartKey) (p : Part) : (s.setPart k p).jrnls = s.jrnls := rfl
@[simp] theorem State.setPart_bars (s : State) (k : PartKey) (p : Part) : (s.setPart k p).bars = s.bars := rfl
@[simp] theorem State.setPart_sigs (s : State) (k : PartKey) (p : Part) : (s.setPart k p).sigs = s.sigs := rfl
@[simp] theorem State.setPart_groups (s : State) (k : PartKey) (p : Part) : (s.setPart k p).groups = s.groups := rfl
@[simp] theorem State.setPart_kerns (s : State) (k : PartKey) (p : Part) : (s.setPart k p).kerns = s.kerns := rfl
@[simp] theorem State.setPart_rxs (s : State) (k : PartKey) (p : Part) : (s.setPart k p).rxs = s.rxs := rfl
@[simp] theorem State.setPart_links (s : State) (k : PartKey) (p : Part) : (s.setPart k p).links = s.links := rfl
@[simp] theorem State.setPart_walks (s : State) (k : PartKey) (p : Part) : (s.setPart k p).walks = s.walks := rfl
@[simp] theorem State.setPart_shoots (s : State) (k : PartKey) (p : Part) : (s.setPart k p).shoots = s.shoots := rfl
@[simp] theorem State.setPart_amos (s : State) (k : PartKey) (p : Part) : (s.setPart k p).amos = s.amos := rfl

/-! ### State.setQueue -/

@[simp] theorem State.setQueue_agenda (s : State) (k : PKey) (q : Queue) : (s.setQueue k q).agenda = s.agenda := rfl
@[simp] theorem State.setQueue_site (s : State) (k : PKey) (q : Queue) : (s.setQueue k q).site = s.site := rfl
@[simp] theorem State.setQueue_free (s : State) (k : PKey) (q : Queue) : (s.setQueue k q).free = s.free := rfl
@[simp] theorem State.setQueue_seq (s : State) (k : PKey) (q : Queue) : (s.setQueue k q).seq = s.seq := rfl
@[simp] theorem State.setQueue_mem (s : State) (k : PKey) (q : Queue) : (s.setQueue k q).mem = s.mem := rfl
@[simp] theorem State.setQueue_bufs (s : State) (k : PKey) (q : Queue) : (s.setQueue k q).bufs = s.bufs := rfl
@[simp] theorem State.setQueue_bad (s : State) (k : PKey) (q : Queue) : (s.setQueue k q).bad = s.bad := rfl
@[simp] theorem State.setQueue_encs (s : State) (k : PKey) (q : Queue) : (s.setQueue k q).encs = s.encs := rfl
@[simp] theorem State.setQueue_pkgs (s : State) (k : PKey) (q : Queue) : (s.setQueue k q).pkgs = s.pkgs := rfl
@[simp] theorem State.setQueue_banks (s : State) (k : PKey) (q : Queue) : (s.setQueue k q).banks = s.banks := rfl
@[simp] theorem State.setQueue_disps (s : State) (k : PKey) (q : Queue) : (s.setQueue k q).disps = s.disps := rfl
@[simp] theorem State.setQueue_blks (s : State) (k : PKey) (q : Queue) : (s.setQueue k q).blks = s.blks := rfl
@[simp] theorem State.setQueue_ctxs (s : State) (k : PKey) (q : Queue) : (s.setQueue k q).ctxs = s.ctxs := rfl
@[simp] theorem State.setQueue_parts (s : State) (k : PKey) (q : Queue) : (s.setQueue k q).parts = s.parts := rfl
@[simp] theorem State.setQueue_queues (s : State) (k : PKey) (q : Queue) : (s.setQueue k q).queues = s.queues.put k q := rfl
@[simp] theorem State.setQueue_jrnls (s : State) (k : PKey) (q : Queue) : (s.setQueue k q).jrnls = s.jrnls := rfl
@[simp] theorem State.setQueue_bars (s : State) (k : PKey) (q : Queue) : (s.setQueue k q).bars = s.bars := rfl
@[simp] theorem State.setQueue_sigs (s : State) (k : PKey) (q : Queue) : (s.setQueue k q).sigs = s.sigs := rfl
@[simp] theorem State.setQueue_groups (s : State) (k : PKey) (q : Queue) : (s.setQueue k q).groups = s.groups := rfl
@[simp] theorem State.setQueue_kerns (s : State) (k : PKey) (q : Queue) : (s.setQueue k q).kerns = s.kerns := rfl
@[simp] theorem State.setQueue_rxs (s : State) (k : PKey) (q : Queue) : (s.setQueue k q).rxs = s.rxs := rfl
@[simp] theorem State.setQueue_links (s : State) (k : PKey) (q : Queue) : (s.setQueue k q).links = s.links := rfl
@[simp] theorem State.setQueue_walks (s : State) (k : PKey) (q : Queue) : (s.setQueue k q).walks = s.walks := rfl
@[simp] theorem State.setQueue_shoots (s : State) (k : PKey) (q : Queue) : (s.setQueue k q).shoots = s.shoots := rfl
@[simp] theorem State.setQueue_amos (s : State) (k : PKey) (q : Queue) : (s.setQueue k q).amos = s.amos := rfl

/-! ### State.setJrnl -/

@[simp] theorem State.setJrnl_agenda (s : State) (k : PKey) (j : Jrnl) : (s.setJrnl k j).agenda = s.agenda := rfl
@[simp] theorem State.setJrnl_site (s : State) (k : PKey) (j : Jrnl) : (s.setJrnl k j).site = s.site := rfl
@[simp] theorem State.setJrnl_free (s : State) (k : PKey) (j : Jrnl) : (s.setJrnl k j).free = s.free := rfl
@[simp] theorem State.setJrnl_seq (s : State) (k : PKey) (j : Jrnl) : (s.setJrnl k j).seq = s.seq := rfl
@[simp] theorem State.setJrnl_mem (s : State) (k : PKey) (j : Jrnl) : (s.setJrnl k j).mem = s.mem := rfl
@[simp] theorem State.setJrnl_bufs (s : State) (k : PKey) (j : Jrnl) : (s.setJrnl k j).bufs = s.bufs := rfl
@[simp] theorem State.setJrnl_bad (s : State) (k : PKey) (j : Jrnl) : (s.setJrnl k j).bad = s.bad := rfl
@[simp] theorem State.setJrnl_encs (s : State) (k : PKey) (j : Jrnl) : (s.setJrnl k j).encs = s.encs := rfl
@[simp] theorem State.setJrnl_pkgs (s : State) (k : PKey) (j : Jrnl) : (s.setJrnl k j).pkgs = s.pkgs := rfl
@[simp] theorem State.setJrnl_banks (s : State) (k : PKey) (j : Jrnl) : (s.setJrnl k j).banks = s.banks := rfl
@[simp] theorem State.setJrnl_disps (s : State) (k : PKey) (j : Jrnl) : (s.setJrnl k j).disps = s.disps := rfl
@[simp] theorem State.setJrnl_blks (s : State) (k : PKey) (j : Jrnl) : (s.setJrnl k j).blks = s.blks := rfl
@[simp] theorem State.setJrnl_ctxs (s : State) (k : PKey) (j : Jrnl) : (s.setJrnl k j).ctxs = s.ctxs := rfl
@[simp] theorem State.setJrnl_parts (s : State) (k : PKey) (j : Jrnl) : (s.setJrnl k j).parts = s.parts := rfl
@[simp] theorem State.setJrnl_queues (s : State) (k : PKey) (j : Jrnl) : (s.setJrnl k j).queues = s.queues := rfl
@[simp] theorem State.setJrnl_jrnls (s : State) (k : PKey) (j : Jrnl) : (s.setJrnl k j).jrnls = s.jrnls.put k j := rfl
@[simp] theorem State.setJrnl_bars (s : State) (k : PKey) (j : Jrnl) : (s.setJrnl k j).bars = s.bars := rfl
@[simp] theorem State.setJrnl_sigs (s : State) (k : PKey) (j : Jrnl) : (s.setJrnl k j).sigs = s.sigs := rfl
@[simp] theorem State.setJrnl_groups (s : State) (k : PKey) (j : Jrnl) : (s.setJrnl k j).groups = s.groups := rfl
@[simp] theorem State.setJrnl_kerns (s : State) (k : PKey) (j : Jrnl) : (s.setJrnl k j).kerns = s.kerns := rfl
@[simp] theorem State.setJrnl_rxs (s : State) (k : PKey) (j : Jrnl) : (s.setJrnl k j).rxs = s.rxs := rfl
@[simp] theorem State.setJrnl_links (s : State) (k : PKey) (j : Jrnl) : (s.setJrnl k j).links = s.links := rfl
@[simp] theorem State.setJrnl_walks (s : State) (k : PKey) (j : Jrnl) : (s.setJrnl k j).walks = s.walks := rfl
@[simp] theorem State.setJrnl_shoots (s : State) (k : PKey) (j : Jrnl) : (s.setJrnl k j).shoots = s.shoots := rfl
@[simp] theorem State.setJrnl_amos (s : State) (k : PKey) (j : Jrnl) : (s.setJrnl k j).amos = s.amos := rfl

/-! ### State.setBar -/

@[simp] theorem State.setBar_agenda (s : State) (k : PKey) (b : Bar) : (s.setBar k b).agenda = s.agenda := rfl
@[simp] theorem State.setBar_site (s : State) (k : PKey) (b : Bar) : (s.setBar k b).site = s.site := rfl
@[simp] theorem State.setBar_free (s : State) (k : PKey) (b : Bar) : (s.setBar k b).free = s.free := rfl
@[simp] theorem State.setBar_seq (s : State) (k : PKey) (b : Bar) : (s.setBar k b).seq = s.seq := rfl
@[simp] theorem State.setBar_mem (s : State) (k : PKey) (b : Bar) : (s.setBar k b).mem = s.mem := rfl
@[simp] theorem State.setBar_bufs (s : State) (k : PKey) (b : Bar) : (s.setBar k b).bufs = s.bufs := rfl
@[simp] theorem State.setBar_bad (s : State) (k : PKey) (b : Bar) : (s.setBar k b).bad = s.bad := rfl
@[simp] theorem State.setBar_encs (s : State) (k : PKey) (b : Bar) : (s.setBar k b).encs = s.encs := rfl
@[simp] theorem State.setBar_pkgs (s : State) (k : PKey) (b : Bar) : (s.setBar k b).pkgs = s.pkgs := rfl
@[simp] theorem State.setBar_banks (s : State) (k : PKey) (b : Bar) : (s.setBar k b).banks = s.banks := rfl
@[simp] theorem State.setBar_disps (s : State) (k : PKey) (b : Bar) : (s.setBar k b).disps = s.disps := rfl
@[simp] theorem State.setBar_blks (s : State) (k : PKey) (b : Bar) : (s.setBar k b).blks = s.blks := rfl
@[simp] theorem State.setBar_ctxs (s : State) (k : PKey) (b : Bar) : (s.setBar k b).ctxs = s.ctxs := rfl
@[simp] theorem State.setBar_parts (s : State) (k : PKey) (b : Bar) : (s.setBar k b).parts = s.parts := rfl
@[simp] theorem State.setBar_queues (s : State) (k : PKey) (b : Bar) : (s.setBar k b).queues = s.queues := rfl
@[simp] theorem State.setBar_jrnls (s : State) (k : PKey) (b : Bar) : (s.setBar k b).jrnls = s.jrnls := rfl
@[simp] theorem State.setBar_bars (s : State) (k : PKey) (b : Bar) : (s.setBar k b).bars = s.bars.put k b := rfl
@[simp] theorem State.setBar_sigs (s : State) (k : PKey) (b : Bar) : (s.setBar k b).sigs = s.sigs := rfl
@[simp] theorem State.setBar_groups (s : State) (k : PKey) (b : Bar) : (s.setBar k b).groups = s.groups := rfl
@[simp] theorem State.setBar_kerns (s : State) (k : PKey) (b : Bar) : (s.setBar k b).kerns = s.kerns := rfl
@[simp] theorem State.setBar_rxs (s : State) (k : PKey) (b : Bar) : (s.setBar k b).rxs = s.rxs := rfl
@[simp] theorem State.setBar_links (s : State) (k : PKey) (b : Bar) : (s.setBar k b).links = s.links := rfl
@[simp] theorem State.setBar_walks (s : State) (k : PKey) (b : Bar) : (s.setBar k b).walks = s.walks := rfl
@[simp] theorem State.setBar_shoots (s : State) (k : PKey) (b : Bar) : (s.setBar k b).shoots = s.shoots := rfl
@[simp] theorem State.setBar_amos (s : State) (k : PKey) (b : Bar) : (s.setBar k b).amos = s.amos := rfl

/-! ### State.setSig -/

@[simp] theorem State.setSig_agenda (s : State) (k : PKey) (v : Word) : (s.setSig k v).agenda = s.agenda := rfl
@[simp] theorem State.setSig_site (s : State) (k : PKey) (v : Word) : (s.setSig k v).site = s.site := rfl
@[simp] theorem State.setSig_free (s : State) (k : PKey) (v : Word) : (s.setSig k v).free = s.free := rfl
@[simp] theorem State.setSig_seq (s : State) (k : PKey) (v : Word) : (s.setSig k v).seq = s.seq := rfl
@[simp] theorem State.setSig_mem (s : State) (k : PKey) (v : Word) : (s.setSig k v).mem = s.mem := rfl
@[simp] theorem State.setSig_bufs (s : State) (k : PKey) (v : Word) : (s.setSig k v).bufs = s.bufs := rfl
@[simp] theorem State.setSig_bad (s : State) (k : PKey) (v : Word) : (s.setSig k v).bad = s.bad := rfl
@[simp] theorem State.setSig_encs (s : State) (k : PKey) (v : Word) : (s.setSig k v).encs = s.encs := rfl
@[simp] theorem State.setSig_pkgs (s : State) (k : PKey) (v : Word) : (s.setSig k v).pkgs = s.pkgs := rfl
@[simp] theorem State.setSig_banks (s : State) (k : PKey) (v : Word) : (s.setSig k v).banks = s.banks := rfl
@[simp] theorem State.setSig_disps (s : State) (k : PKey) (v : Word) : (s.setSig k v).disps = s.disps := rfl
@[simp] theorem State.setSig_blks (s : State) (k : PKey) (v : Word) : (s.setSig k v).blks = s.blks := rfl
@[simp] theorem State.setSig_ctxs (s : State) (k : PKey) (v : Word) : (s.setSig k v).ctxs = s.ctxs := rfl
@[simp] theorem State.setSig_parts (s : State) (k : PKey) (v : Word) : (s.setSig k v).parts = s.parts := rfl
@[simp] theorem State.setSig_queues (s : State) (k : PKey) (v : Word) : (s.setSig k v).queues = s.queues := rfl
@[simp] theorem State.setSig_jrnls (s : State) (k : PKey) (v : Word) : (s.setSig k v).jrnls = s.jrnls := rfl
@[simp] theorem State.setSig_bars (s : State) (k : PKey) (v : Word) : (s.setSig k v).bars = s.bars := rfl
@[simp] theorem State.setSig_sigs (s : State) (k : PKey) (v : Word) : (s.setSig k v).sigs = s.sigs.put k v := rfl
@[simp] theorem State.setSig_groups (s : State) (k : PKey) (v : Word) : (s.setSig k v).groups = s.groups := rfl
@[simp] theorem State.setSig_kerns (s : State) (k : PKey) (v : Word) : (s.setSig k v).kerns = s.kerns := rfl
@[simp] theorem State.setSig_rxs (s : State) (k : PKey) (v : Word) : (s.setSig k v).rxs = s.rxs := rfl
@[simp] theorem State.setSig_links (s : State) (k : PKey) (v : Word) : (s.setSig k v).links = s.links := rfl
@[simp] theorem State.setSig_walks (s : State) (k : PKey) (v : Word) : (s.setSig k v).walks = s.walks := rfl
@[simp] theorem State.setSig_shoots (s : State) (k : PKey) (v : Word) : (s.setSig k v).shoots = s.shoots := rfl
@[simp] theorem State.setSig_amos (s : State) (k : PKey) (v : Word) : (s.setSig k v).amos = s.amos := rfl

/-! ### State.setRx -/

@[simp] theorem State.setRx_agenda (s : State) (k : PKey) (r : Rx) : (s.setRx k r).agenda = s.agenda := rfl
@[simp] theorem State.setRx_site (s : State) (k : PKey) (r : Rx) : (s.setRx k r).site = s.site := rfl
@[simp] theorem State.setRx_free (s : State) (k : PKey) (r : Rx) : (s.setRx k r).free = s.free := rfl
@[simp] theorem State.setRx_seq (s : State) (k : PKey) (r : Rx) : (s.setRx k r).seq = s.seq := rfl
@[simp] theorem State.setRx_mem (s : State) (k : PKey) (r : Rx) : (s.setRx k r).mem = s.mem := rfl
@[simp] theorem State.setRx_bufs (s : State) (k : PKey) (r : Rx) : (s.setRx k r).bufs = s.bufs := rfl
@[simp] theorem State.setRx_bad (s : State) (k : PKey) (r : Rx) : (s.setRx k r).bad = s.bad := rfl
@[simp] theorem State.setRx_encs (s : State) (k : PKey) (r : Rx) : (s.setRx k r).encs = s.encs := rfl
@[simp] theorem State.setRx_pkgs (s : State) (k : PKey) (r : Rx) : (s.setRx k r).pkgs = s.pkgs := rfl
@[simp] theorem State.setRx_banks (s : State) (k : PKey) (r : Rx) : (s.setRx k r).banks = s.banks := rfl
@[simp] theorem State.setRx_disps (s : State) (k : PKey) (r : Rx) : (s.setRx k r).disps = s.disps := rfl
@[simp] theorem State.setRx_blks (s : State) (k : PKey) (r : Rx) : (s.setRx k r).blks = s.blks := rfl
@[simp] theorem State.setRx_ctxs (s : State) (k : PKey) (r : Rx) : (s.setRx k r).ctxs = s.ctxs := rfl
@[simp] theorem State.setRx_parts (s : State) (k : PKey) (r : Rx) : (s.setRx k r).parts = s.parts := rfl
@[simp] theorem State.setRx_queues (s : State) (k : PKey) (r : Rx) : (s.setRx k r).queues = s.queues := rfl
@[simp] theorem State.setRx_jrnls (s : State) (k : PKey) (r : Rx) : (s.setRx k r).jrnls = s.jrnls := rfl
@[simp] theorem State.setRx_bars (s : State) (k : PKey) (r : Rx) : (s.setRx k r).bars = s.bars := rfl
@[simp] theorem State.setRx_sigs (s : State) (k : PKey) (r : Rx) : (s.setRx k r).sigs = s.sigs := rfl
@[simp] theorem State.setRx_groups (s : State) (k : PKey) (r : Rx) : (s.setRx k r).groups = s.groups := rfl
@[simp] theorem State.setRx_kerns (s : State) (k : PKey) (r : Rx) : (s.setRx k r).kerns = s.kerns := rfl
@[simp] theorem State.setRx_rxs (s : State) (k : PKey) (r : Rx) : (s.setRx k r).rxs = s.rxs.put k r := rfl
@[simp] theorem State.setRx_links (s : State) (k : PKey) (r : Rx) : (s.setRx k r).links = s.links := rfl
@[simp] theorem State.setRx_walks (s : State) (k : PKey) (r : Rx) : (s.setRx k r).walks = s.walks := rfl
@[simp] theorem State.setRx_shoots (s : State) (k : PKey) (r : Rx) : (s.setRx k r).shoots = s.shoots := rfl
@[simp] theorem State.setRx_amos (s : State) (k : PKey) (r : Rx) : (s.setRx k r).amos = s.amos := rfl

/-! ### State.setLink -/

@[simp] theorem State.setLink_agenda (s : State) (k : LinkKey) (l : Link) : (s.setLink k l).agenda = s.agenda := rfl
@[simp] theorem State.setLink_site (s : State) (k : LinkKey) (l : Link) : (s.setLink k l).site = s.site := rfl
@[simp] theorem State.setLink_free (s : State) (k : LinkKey) (l : Link) : (s.setLink k l).free = s.free := rfl
@[simp] theorem State.setLink_seq (s : State) (k : LinkKey) (l : Link) : (s.setLink k l).seq = s.seq := rfl
@[simp] theorem State.setLink_mem (s : State) (k : LinkKey) (l : Link) : (s.setLink k l).mem = s.mem := rfl
@[simp] theorem State.setLink_bufs (s : State) (k : LinkKey) (l : Link) : (s.setLink k l).bufs = s.bufs := rfl
@[simp] theorem State.setLink_bad (s : State) (k : LinkKey) (l : Link) : (s.setLink k l).bad = s.bad := rfl
@[simp] theorem State.setLink_encs (s : State) (k : LinkKey) (l : Link) : (s.setLink k l).encs = s.encs := rfl
@[simp] theorem State.setLink_pkgs (s : State) (k : LinkKey) (l : Link) : (s.setLink k l).pkgs = s.pkgs := rfl
@[simp] theorem State.setLink_banks (s : State) (k : LinkKey) (l : Link) : (s.setLink k l).banks = s.banks := rfl
@[simp] theorem State.setLink_disps (s : State) (k : LinkKey) (l : Link) : (s.setLink k l).disps = s.disps := rfl
@[simp] theorem State.setLink_blks (s : State) (k : LinkKey) (l : Link) : (s.setLink k l).blks = s.blks := rfl
@[simp] theorem State.setLink_ctxs (s : State) (k : LinkKey) (l : Link) : (s.setLink k l).ctxs = s.ctxs := rfl
@[simp] theorem State.setLink_parts (s : State) (k : LinkKey) (l : Link) : (s.setLink k l).parts = s.parts := rfl
@[simp] theorem State.setLink_queues (s : State) (k : LinkKey) (l : Link) : (s.setLink k l).queues = s.queues := rfl
@[simp] theorem State.setLink_jrnls (s : State) (k : LinkKey) (l : Link) : (s.setLink k l).jrnls = s.jrnls := rfl
@[simp] theorem State.setLink_bars (s : State) (k : LinkKey) (l : Link) : (s.setLink k l).bars = s.bars := rfl
@[simp] theorem State.setLink_sigs (s : State) (k : LinkKey) (l : Link) : (s.setLink k l).sigs = s.sigs := rfl
@[simp] theorem State.setLink_groups (s : State) (k : LinkKey) (l : Link) : (s.setLink k l).groups = s.groups := rfl
@[simp] theorem State.setLink_kerns (s : State) (k : LinkKey) (l : Link) : (s.setLink k l).kerns = s.kerns := rfl
@[simp] theorem State.setLink_rxs (s : State) (k : LinkKey) (l : Link) : (s.setLink k l).rxs = s.rxs := rfl
@[simp] theorem State.setLink_links (s : State) (k : LinkKey) (l : Link) : (s.setLink k l).links = s.links.put k l := rfl
@[simp] theorem State.setLink_walks (s : State) (k : LinkKey) (l : Link) : (s.setLink k l).walks = s.walks := rfl
@[simp] theorem State.setLink_shoots (s : State) (k : LinkKey) (l : Link) : (s.setLink k l).shoots = s.shoots := rfl
@[simp] theorem State.setLink_amos (s : State) (k : LinkKey) (l : Link) : (s.setLink k l).amos = s.amos := rfl

/-! ### State.setDisp -/

@[simp] theorem State.setDisp_agenda (s : State) (k : DispKey) (d : Disp) : (s.setDisp k d).agenda = s.agenda := rfl
@[simp] theorem State.setDisp_site (s : State) (k : DispKey) (d : Disp) : (s.setDisp k d).site = s.site := rfl
@[simp] theorem State.setDisp_free (s : State) (k : DispKey) (d : Disp) : (s.setDisp k d).free = s.free := rfl
@[simp] theorem State.setDisp_seq (s : State) (k : DispKey) (d : Disp) : (s.setDisp k d).seq = s.seq := rfl
@[simp] theorem State.setDisp_mem (s : State) (k : DispKey) (d : Disp) : (s.setDisp k d).mem = s.mem := rfl
@[simp] theorem State.setDisp_bufs (s : State) (k : DispKey) (d : Disp) : (s.setDisp k d).bufs = s.bufs := rfl
@[simp] theorem State.setDisp_bad (s : State) (k : DispKey) (d : Disp) : (s.setDisp k d).bad = s.bad := rfl
@[simp] theorem State.setDisp_encs (s : State) (k : DispKey) (d : Disp) : (s.setDisp k d).encs = s.encs := rfl
@[simp] theorem State.setDisp_pkgs (s : State) (k : DispKey) (d : Disp) : (s.setDisp k d).pkgs = s.pkgs := rfl
@[simp] theorem State.setDisp_banks (s : State) (k : DispKey) (d : Disp) : (s.setDisp k d).banks = s.banks := rfl
@[simp] theorem State.setDisp_disps (s : State) (k : DispKey) (d : Disp) : (s.setDisp k d).disps = s.disps.put k d := rfl
@[simp] theorem State.setDisp_blks (s : State) (k : DispKey) (d : Disp) : (s.setDisp k d).blks = s.blks := rfl
@[simp] theorem State.setDisp_ctxs (s : State) (k : DispKey) (d : Disp) : (s.setDisp k d).ctxs = s.ctxs := rfl
@[simp] theorem State.setDisp_parts (s : State) (k : DispKey) (d : Disp) : (s.setDisp k d).parts = s.parts := rfl
@[simp] theorem State.setDisp_queues (s : State) (k : DispKey) (d : Disp) : (s.setDisp k d).queues = s.queues := rfl
@[simp] theorem State.setDisp_jrnls (s : State) (k : DispKey) (d : Disp) : (s.setDisp k d).jrnls = s.jrnls := rfl
@[simp] theorem State.setDisp_bars (s : State) (k : DispKey) (d : Disp) : (s.setDisp k d).bars = s.bars := rfl
@[simp] theorem State.setDisp_sigs (s : State) (k : DispKey) (d : Disp) : (s.setDisp k d).sigs = s.sigs := rfl
@[simp] theorem State.setDisp_groups (s : State) (k : DispKey) (d : Disp) : (s.setDisp k d).groups = s.groups := rfl
@[simp] theorem State.setDisp_kerns (s : State) (k : DispKey) (d : Disp) : (s.setDisp k d).kerns = s.kerns := rfl
@[simp] theorem State.setDisp_rxs (s : State) (k : DispKey) (d : Disp) : (s.setDisp k d).rxs = s.rxs := rfl
@[simp] theorem State.setDisp_links (s : State) (k : DispKey) (d : Disp) : (s.setDisp k d).links = s.links := rfl
@[simp] theorem State.setDisp_walks (s : State) (k : DispKey) (d : Disp) : (s.setDisp k d).walks = s.walks := rfl
@[simp] theorem State.setDisp_shoots (s : State) (k : DispKey) (d : Disp) : (s.setDisp k d).shoots = s.shoots := rfl
@[simp] theorem State.setDisp_amos (s : State) (k : DispKey) (d : Disp) : (s.setDisp k d).amos = s.amos := rfl

/-! ### State.setBank -/

@[simp] theorem State.setBank_agenda (s : State) (k : BankKey) (b : BankSt) : (s.setBank k b).agenda = s.agenda := rfl
@[simp] theorem State.setBank_site (s : State) (k : BankKey) (b : BankSt) : (s.setBank k b).site = s.site := rfl
@[simp] theorem State.setBank_free (s : State) (k : BankKey) (b : BankSt) : (s.setBank k b).free = s.free := rfl
@[simp] theorem State.setBank_seq (s : State) (k : BankKey) (b : BankSt) : (s.setBank k b).seq = s.seq := rfl
@[simp] theorem State.setBank_mem (s : State) (k : BankKey) (b : BankSt) : (s.setBank k b).mem = s.mem := rfl
@[simp] theorem State.setBank_bufs (s : State) (k : BankKey) (b : BankSt) : (s.setBank k b).bufs = s.bufs := rfl
@[simp] theorem State.setBank_bad (s : State) (k : BankKey) (b : BankSt) : (s.setBank k b).bad = s.bad := rfl
@[simp] theorem State.setBank_encs (s : State) (k : BankKey) (b : BankSt) : (s.setBank k b).encs = s.encs := rfl
@[simp] theorem State.setBank_pkgs (s : State) (k : BankKey) (b : BankSt) : (s.setBank k b).pkgs = s.pkgs := rfl
@[simp] theorem State.setBank_banks (s : State) (k : BankKey) (b : BankSt) : (s.setBank k b).banks = s.banks.put k b := rfl
@[simp] theorem State.setBank_disps (s : State) (k : BankKey) (b : BankSt) : (s.setBank k b).disps = s.disps := rfl
@[simp] theorem State.setBank_blks (s : State) (k : BankKey) (b : BankSt) : (s.setBank k b).blks = s.blks := rfl
@[simp] theorem State.setBank_ctxs (s : State) (k : BankKey) (b : BankSt) : (s.setBank k b).ctxs = s.ctxs := rfl
@[simp] theorem State.setBank_parts (s : State) (k : BankKey) (b : BankSt) : (s.setBank k b).parts = s.parts := rfl
@[simp] theorem State.setBank_queues (s : State) (k : BankKey) (b : BankSt) : (s.setBank k b).queues = s.queues := rfl
@[simp] theorem State.setBank_jrnls (s : State) (k : BankKey) (b : BankSt) : (s.setBank k b).jrnls = s.jrnls := rfl
@[simp] theorem State.setBank_bars (s : State) (k : BankKey) (b : BankSt) : (s.setBank k b).bars = s.bars := rfl
@[simp] theorem State.setBank_sigs (s : State) (k : BankKey) (b : BankSt) : (s.setBank k b).sigs = s.sigs := rfl
@[simp] theorem State.setBank_groups (s : State) (k : BankKey) (b : BankSt) : (s.setBank k b).groups = s.groups := rfl
@[simp] theorem State.setBank_kerns (s : State) (k : BankKey) (b : BankSt) : (s.setBank k b).kerns = s.kerns := rfl
@[simp] theorem State.setBank_rxs (s : State) (k : BankKey) (b : BankSt) : (s.setBank k b).rxs = s.rxs := rfl
@[simp] theorem State.setBank_links (s : State) (k : BankKey) (b : BankSt) : (s.setBank k b).links = s.links := rfl
@[simp] theorem State.setBank_walks (s : State) (k : BankKey) (b : BankSt) : (s.setBank k b).walks = s.walks := rfl
@[simp] theorem State.setBank_shoots (s : State) (k : BankKey) (b : BankSt) : (s.setBank k b).shoots = s.shoots := rfl
@[simp] theorem State.setBank_amos (s : State) (k : BankKey) (b : BankSt) : (s.setBank k b).amos = s.amos := rfl

/-! ### State.setCtx -/

@[simp] theorem State.setCtx_agenda (s : State) (c : Nat) (x : Ctx) : (s.setCtx c x).agenda = s.agenda := rfl
@[simp] theorem State.setCtx_site (s : State) (c : Nat) (x : Ctx) : (s.setCtx c x).site = s.site := rfl
@[simp] theorem State.setCtx_free (s : State) (c : Nat) (x : Ctx) : (s.setCtx c x).free = s.free := rfl
@[simp] theorem State.setCtx_seq (s : State) (c : Nat) (x : Ctx) : (s.setCtx c x).seq = s.seq := rfl
@[simp] theorem State.setCtx_mem (s : State) (c : Nat) (x : Ctx) : (s.setCtx c x).mem = s.mem := rfl
@[simp] theorem State.setCtx_bufs (s : State) (c : Nat) (x : Ctx) : (s.setCtx c x).bufs = s.bufs := rfl
@[simp] theorem State.setCtx_bad (s : State) (c : Nat) (x : Ctx) : (s.setCtx c x).bad = s.bad := rfl
@[simp] theorem State.setCtx_encs (s : State) (c : Nat) (x : Ctx) : (s.setCtx c x).encs = s.encs := rfl
@[simp] theorem State.setCtx_pkgs (s : State) (c : Nat) (x : Ctx) : (s.setCtx c x).pkgs = s.pkgs := rfl
@[simp] theorem State.setCtx_banks (s : State) (c : Nat) (x : Ctx) : (s.setCtx c x).banks = s.banks := rfl
@[simp] theorem State.setCtx_disps (s : State) (c : Nat) (x : Ctx) : (s.setCtx c x).disps = s.disps := rfl
@[simp] theorem State.setCtx_blks (s : State) (c : Nat) (x : Ctx) : (s.setCtx c x).blks = s.blks := rfl
@[simp] theorem State.setCtx_ctxs (s : State) (c : Nat) (x : Ctx) : (s.setCtx c x).ctxs = s.ctxs.put c x := rfl
@[simp] theorem State.setCtx_parts (s : State) (c : Nat) (x : Ctx) : (s.setCtx c x).parts = s.parts := rfl
@[simp] theorem State.setCtx_queues (s : State) (c : Nat) (x : Ctx) : (s.setCtx c x).queues = s.queues := rfl
@[simp] theorem State.setCtx_jrnls (s : State) (c : Nat) (x : Ctx) : (s.setCtx c x).jrnls = s.jrnls := rfl
@[simp] theorem State.setCtx_bars (s : State) (c : Nat) (x : Ctx) : (s.setCtx c x).bars = s.bars := rfl
@[simp] theorem State.setCtx_sigs (s : State) (c : Nat) (x : Ctx) : (s.setCtx c x).sigs = s.sigs := rfl
@[simp] theorem State.setCtx_groups (s : State) (c : Nat) (x : Ctx) : (s.setCtx c x).groups = s.groups := rfl
@[simp] theorem State.setCtx_kerns (s : State) (c : Nat) (x : Ctx) : (s.setCtx c x).kerns = s.kerns := rfl
@[simp] theorem State.setCtx_rxs (s : State) (c : Nat) (x : Ctx) : (s.setCtx c x).rxs = s.rxs := rfl
@[simp] theorem State.setCtx_links (s : State) (c : Nat) (x : Ctx) : (s.setCtx c x).links = s.links := rfl
@[simp] theorem State.setCtx_walks (s : State) (c : Nat) (x : Ctx) : (s.setCtx c x).walks = s.walks := rfl
@[simp] theorem State.setCtx_shoots (s : State) (c : Nat) (x : Ctx) : (s.setCtx c x).shoots = s.shoots := rfl
@[simp] theorem State.setCtx_amos (s : State) (c : Nat) (x : Ctx) : (s.setCtx c x).amos = s.amos := rfl

/-! ### State.updCtx -/

@[simp] theorem State.updCtx_agenda (s : State) (c : Nat) (f : Ctx → Ctx) : (s.updCtx c f).agenda = s.agenda := rfl
@[simp] theorem State.updCtx_site (s : State) (c : Nat) (f : Ctx → Ctx) : (s.updCtx c f).site = s.site := rfl
@[simp] theorem State.updCtx_free (s : State) (c : Nat) (f : Ctx → Ctx) : (s.updCtx c f).free = s.free := rfl
@[simp] theorem State.updCtx_seq (s : State) (c : Nat) (f : Ctx → Ctx) : (s.updCtx c f).seq = s.seq := rfl
@[simp] theorem State.updCtx_mem (s : State) (c : Nat) (f : Ctx → Ctx) : (s.updCtx c f).mem = s.mem := rfl
@[simp] theorem State.updCtx_bufs (s : State) (c : Nat) (f : Ctx → Ctx) : (s.updCtx c f).bufs = s.bufs := rfl
@[simp] theorem State.updCtx_bad (s : State) (c : Nat) (f : Ctx → Ctx) : (s.updCtx c f).bad = s.bad := rfl
@[simp] theorem State.updCtx_encs (s : State) (c : Nat) (f : Ctx → Ctx) : (s.updCtx c f).encs = s.encs := rfl
@[simp] theorem State.updCtx_pkgs (s : State) (c : Nat) (f : Ctx → Ctx) : (s.updCtx c f).pkgs = s.pkgs := rfl
@[simp] theorem State.updCtx_banks (s : State) (c : Nat) (f : Ctx → Ctx) : (s.updCtx c f).banks = s.banks := rfl
@[simp] theorem State.updCtx_disps (s : State) (c : Nat) (f : Ctx → Ctx) : (s.updCtx c f).disps = s.disps := rfl
@[simp] theorem State.updCtx_blks (s : State) (c : Nat) (f : Ctx → Ctx) : (s.updCtx c f).blks = s.blks := rfl
@[simp] theorem State.updCtx_ctxs (s : State) (c : Nat) (f : Ctx → Ctx) : (s.updCtx c f).ctxs = s.ctxs.upd c f := rfl
@[simp] theorem State.updCtx_parts (s : State) (c : Nat) (f : Ctx → Ctx) : (s.updCtx c f).parts = s.parts := rfl
@[simp] theorem State.updCtx_queues (s : State) (c : Nat) (f : Ctx → Ctx) : (s.updCtx c f).queues = s.queues := rfl
@[simp] theorem State.updCtx_jrnls (s : State) (c : Nat) (f : Ctx → Ctx) : (s.updCtx c f).jrnls = s.jrnls := rfl
@[simp] theorem State.updCtx_bars (s : State) (c : Nat) (f : Ctx → Ctx) : (s.updCtx c f).bars = s.bars := rfl
@[simp] theorem State.updCtx_sigs (s : State) (c : Nat) (f : Ctx → Ctx) : (s.updCtx c f).sigs = s.sigs := rfl
@[simp] theorem State.updCtx_groups (s : State) (c : Nat) (f : Ctx → Ctx) : (s.updCtx c f).groups = s.groups := rfl
@[simp] theorem State.updCtx_kerns (s : State) (c : Nat) (f : Ctx → Ctx) : (s.updCtx c f).kerns = s.kerns := rfl
@[simp] theorem State.updCtx_rxs (s : State) (c : Nat) (f : Ctx → Ctx) : (s.updCtx c f).rxs = s.rxs := rfl
@[simp] theorem State.updCtx_links (s : State) (c : Nat) (f : Ctx → Ctx) : (s.updCtx c f).links = s.links := rfl
@[simp] theorem State.updCtx_walks (s : State) (c : Nat) (f : Ctx → Ctx) : (s.updCtx c f).walks = s.walks := rfl
@[simp] theorem State.updCtx_shoots (s : State) (c : Nat) (f : Ctx → Ctx) : (s.updCtx c f).shoots = s.shoots := rfl
@[simp] theorem State.updCtx_amos (s : State) (c : Nat) (f : Ctx → Ctx) : (s.updCtx c f).amos = s.amos := rfl

/-! ### State.updKern -/

@[simp] theorem State.updKern_agenda (s : State) (k : KernKey) (f : Kern → Kern) : (s.updKern k f).agenda = s.agenda := rfl
@[simp] theorem State.updKern_site (s : State) (k : KernKey) (f : Kern → Kern) : (s.updKern k f).site = s.site := rfl
@[simp] theorem State.updKern_free (s : State) (k : KernKey) (f : Kern → Kern) : (s.updKern k f).free = s.free := rfl
@[simp] theorem State.updKern_seq (s : State) (k : KernKey) (f : Kern → Kern) : (s.updKern k f).seq = s.seq := rfl
@[simp] theorem State.updKern_mem (s : State) (k : KernKey) (f : Kern → Kern) : (s.updKern k f).mem = s.mem := rfl
@[simp] theorem State.updKern_bufs (s : State) (k : KernKey) (f : Kern → Kern) : (s.updKern k f).bufs = s.bufs := rfl
@[simp] theorem State.updKern_bad (s : State) (k : KernKey) (f : Kern → Kern) : (s.updKern k f).bad = s.bad := rfl
@[simp] theorem State.updKern_encs (s : State) (k : KernKey) (f : Kern → Kern) : (s.updKern k f).encs = s.encs := rfl
@[simp] theorem State.updKern_pkgs (s : State) (k : KernKey) (f : Kern → Kern) : (s.updKern k f).pkgs = s.pkgs := rfl
@[simp] theorem State.updKern_banks (s : State) (k : KernKey) (f : Kern → Kern) : (s.updKern k f).banks = s.banks := rfl
@[simp] theorem State.updKern_disps (s : State) (k : KernKey) (f : Kern → Kern) : (s.updKern k f).disps = s.disps := rfl
@[simp] theorem State.updKern_blks (s : State) (k : KernKey) (f : Kern → Kern) : (s.updKern k f).blks = s.blks := rfl
@[simp] theorem State.updKern_ctxs (s : State) (k : KernKey) (f : Kern → Kern) : (s.updKern k f).ctxs = s.ctxs := rfl
@[simp] theorem State.updKern_parts (s : State) (k : KernKey) (f : Kern → Kern) : (s.updKern k f).parts = s.parts := rfl
@[simp] theorem State.updKern_queues (s : State) (k : KernKey) (f : Kern → Kern) : (s.updKern k f).queues = s.queues := rfl
@[simp] theorem State.updKern_jrnls (s : State) (k : KernKey) (f : Kern → Kern) : (s.updKern k f).jrnls = s.jrnls := rfl
@[simp] theorem State.updKern_bars (s : State) (k : KernKey) (f : Kern → Kern) : (s.updKern k f).bars = s.bars := rfl
@[simp] theorem State.updKern_sigs (s : State) (k : KernKey) (f : Kern → Kern) : (s.updKern k f).sigs = s.sigs := rfl
@[simp] theorem State.updKern_groups (s : State) (k : KernKey) (f : Kern → Kern) : (s.updKern k f).groups = s.groups := rfl
@[simp] theorem State.updKern_kerns (s : State) (k : KernKey) (f : Kern → Kern) : (s.updKern k f).kerns = s.kerns.upd k f := rfl
@[simp] theorem State.updKern_rxs (s : State) (k : KernKey) (f : Kern → Kern) : (s.updKern k f).rxs = s.rxs := rfl
@[simp] theorem State.updKern_links (s : State) (k : KernKey) (f : Kern → Kern) : (s.updKern k f).links = s.links := rfl
@[simp] theorem State.updKern_walks (s : State) (k : KernKey) (f : Kern → Kern) : (s.updKern k f).walks = s.walks := rfl
@[simp] theorem State.updKern_shoots (s : State) (k : KernKey) (f : Kern → Kern) : (s.updKern k f).shoots = s.shoots := rfl
@[simp] theorem State.updKern_amos (s : State) (k : KernKey) (f : Kern → Kern) : (s.updKern k f).amos = s.amos := rfl

/-! ### State.updGroup -/

@[simp] theorem State.updGroup_agenda (s : State) (k : PKey) (f : Group → Group) : (s.updGroup k f).agenda = s.agenda := rfl
@[simp] theorem State.updGroup_site (s : State) (k : PKey) (f : Group → Group) : (s.updGroup k f).site = s.site := rfl
@[simp] theorem State.updGroup_free (s : State) (k : PKey) (f : Group → Group) : (s.updGroup k f).free = s.free := rfl
@[simp] theorem State.updGroup_seq (s : State) (k : PKey) (f : Group → Group) : (s.updGroup k f).seq = s.seq := rfl
@[simp] theorem State.updGroup_mem (s : State) (k : PKey) (f : Group → Group) : (s.updGroup k f).mem = s.mem := rfl
@[simp] theorem State.updGroup_bufs (s : State) (k : PKey) (f : Group → Group) : (s.updGroup k f).bufs = s.bufs := rfl
@[simp] theorem State.updGroup_bad (s : State) (k : PKey) (f : Group → Group) : (s.updGroup k f).bad = s.bad := rfl
@[simp] theorem State.updGroup_encs (s : State) (k : PKey) (f : Group → Group) : (s.updGroup k f).encs = s.encs := rfl
@[simp] theorem State.updGroup_pkgs (s : State) (k : PKey) (f : Group → Group) : (s.updGroup k f).pkgs = s.pkgs := rfl
@[simp] theorem State.updGroup_banks (s : State) (k : PKey) (f : Group → Group) : (s.updGroup k f).banks = s.banks := rfl
@[simp] theorem State.updGroup_disps (s : State) (k : PKey) (f : Group → Group) : (s.updGroup k f).disps = s.disps := rfl
@[simp] theorem State.updGroup_blks (s : State) (k : PKey) (f : Group → Group) : (s.updGroup k f).blks = s.blks := rfl
@[simp] theorem State.updGroup_ctxs (s : State) (k : PKey) (f : Group → Group) : (s.updGroup k f).ctxs = s.ctxs := rfl
@[simp] theorem State.updGroup_parts (s : State) (k : PKey) (f : Group → Group) : (s.updGroup k f).parts = s.parts := rfl
@[simp] theorem State.updGroup_queues (s : State) (k : PKey) (f : Group → Group) : (s.updGroup k f).queues = s.queues := rfl
@[simp] theorem State.updGroup_jrnls (s : State) (k : PKey) (f : Group → Group) : (s.updGroup k f).jrnls = s.jrnls := rfl
@[simp] theorem State.updGroup_bars (s : State) (k : PKey) (f : Group → Group) : (s.updGroup k f).bars = s.bars := rfl
@[simp] theorem State.updGroup_sigs (s : State) (k : PKey) (f : Group → Group) : (s.updGroup k f).sigs = s.sigs := rfl
@[simp] theorem State.updGroup_groups (s : State) (k : PKey) (f : Group → Group) : (s.updGroup k f).groups = s.groups.upd k f := rfl
@[simp] theorem State.updGroup_kerns (s : State) (k : PKey) (f : Group → Group) : (s.updGroup k f).kerns = s.kerns := rfl
@[simp] theorem State.updGroup_rxs (s : State) (k : PKey) (f : Group → Group) : (s.updGroup k f).rxs = s.rxs := rfl
@[simp] theorem State.updGroup_links (s : State) (k : PKey) (f : Group → Group) : (s.updGroup k f).links = s.links := rfl
@[simp] theorem State.updGroup_walks (s : State) (k : PKey) (f : Group → Group) : (s.updGroup k f).walks = s.walks := rfl
@[simp] theorem State.updGroup_shoots (s : State) (k : PKey) (f : Group → Group) : (s.updGroup k f).shoots = s.shoots := rfl
@[simp] theorem State.updGroup_amos (s : State) (k : PKey) (f : Group → Group) : (s.updGroup k f).amos = s.amos := rfl

/-! ### State.setBlk -/

@[simp] theorem State.setBlk_agenda (s : State) (f : FrameKey) (b : Blk) : (s.setBlk f b).agenda = s.agenda := rfl
@[simp] theorem State.setBlk_site (s : State) (f : FrameKey) (b : Blk) : (s.setBlk f b).site = s.site := rfl
@[simp] theorem State.setBlk_free (s : State) (f : FrameKey) (b : Blk) : (s.setBlk f b).free = s.free := rfl
@[simp] theorem State.setBlk_seq (s : State) (f : FrameKey) (b : Blk) : (s.setBlk f b).seq = s.seq := rfl
@[simp] theorem State.setBlk_mem (s : State) (f : FrameKey) (b : Blk) : (s.setBlk f b).mem = s.mem := rfl
@[simp] theorem State.setBlk_bufs (s : State) (f : FrameKey) (b : Blk) : (s.setBlk f b).bufs = s.bufs := rfl
@[simp] theorem State.setBlk_bad (s : State) (f : FrameKey) (b : Blk) : (s.setBlk f b).bad = s.bad := rfl
@[simp] theorem State.setBlk_encs (s : State) (f : FrameKey) (b : Blk) : (s.setBlk f b).encs = s.encs := rfl
@[simp] theorem State.setBlk_pkgs (s : State) (f : FrameKey) (b : Blk) : (s.setBlk f b).pkgs = s.pkgs := rfl
@[simp] theorem State.setBlk_banks (s : State) (f : FrameKey) (b : Blk) : (s.setBlk f b).banks = s.banks := rfl
@[simp] theorem State.setBlk_disps (s : State) (f : FrameKey) (b : Blk) : (s.setBlk f b).disps = s.disps := rfl
@[simp] theorem State.setBlk_blks (s : State) (f : FrameKey) (b : Blk) : (s.setBlk f b).blks = s.blks.put f b := rfl
@[simp] theorem State.setBlk_ctxs (s : State) (f : FrameKey) (b : Blk) : (s.setBlk f b).ctxs = s.ctxs := rfl
@[simp] theorem State.setBlk_parts (s : State) (f : FrameKey) (b : Blk) : (s.setBlk f b).parts = s.parts := rfl
@[simp] theorem State.setBlk_queues (s : State) (f : FrameKey) (b : Blk) : (s.setBlk f b).queues = s.queues := rfl
@[simp] theorem State.setBlk_jrnls (s : State) (f : FrameKey) (b : Blk) : (s.setBlk f b).jrnls = s.jrnls := rfl
@[simp] theorem State.setBlk_bars (s : State) (f : FrameKey) (b : Blk) : (s.setBlk f b).bars = s.bars := rfl
@[simp] theorem State.setBlk_sigs (s : State) (f : FrameKey) (b : Blk) : (s.setBlk f b).sigs = s.sigs := rfl
@[simp] theorem State.setBlk_groups (s : State) (f : FrameKey) (b : Blk) : (s.setBlk f b).groups = s.groups := rfl
@[simp] theorem State.setBlk_kerns (s : State) (f : FrameKey) (b : Blk) : (s.setBlk f b).kerns = s.kerns := rfl
@[simp] theorem State.setBlk_rxs (s : State) (f : FrameKey) (b : Blk) : (s.setBlk f b).rxs = s.rxs := rfl
@[simp] theorem State.setBlk_links (s : State) (f : FrameKey) (b : Blk) : (s.setBlk f b).links = s.links := rfl
@[simp] theorem State.setBlk_walks (s : State) (f : FrameKey) (b : Blk) : (s.setBlk f b).walks = s.walks := rfl
@[simp] theorem State.setBlk_shoots (s : State) (f : FrameKey) (b : Blk) : (s.setBlk f b).shoots = s.shoots := rfl
@[simp] theorem State.setBlk_amos (s : State) (f : FrameKey) (b : Blk) : (s.setBlk f b).amos = s.amos := rfl

/-! ### State.discard -/

@[simp] theorem State.discard_agenda (s : State) (p : Blk → Bool) : (s.discard p).agenda = s.agenda := rfl
@[simp] theorem State.discard_site (s : State) (p : Blk → Bool) : (s.discard p).site = s.site := rfl
@[simp] theorem State.discard_free (s : State) (p : Blk → Bool) : (s.discard p).free = s.free := rfl
@[simp] theorem State.discard_seq (s : State) (p : Blk → Bool) : (s.discard p).seq = s.seq := rfl
@[simp] theorem State.discard_mem (s : State) (p : Blk → Bool) : (s.discard p).mem = s.mem := rfl
@[simp] theorem State.discard_bufs (s : State) (p : Blk → Bool) : (s.discard p).bufs = s.bufs := rfl
@[simp] theorem State.discard_bad (s : State) (p : Blk → Bool) : (s.discard p).bad = s.bad := rfl
@[simp] theorem State.discard_encs (s : State) (p : Blk → Bool) : (s.discard p).encs = s.encs := rfl
@[simp] theorem State.discard_pkgs (s : State) (p : Blk → Bool) : (s.discard p).pkgs = s.pkgs := rfl
@[simp] theorem State.discard_banks (s : State) (p : Blk → Bool) : (s.discard p).banks = s.banks := rfl
@[simp] theorem State.discard_disps (s : State) (p : Blk → Bool) : (s.discard p).disps = s.disps := rfl
@[simp] theorem State.discard_blks (s : State) (p : Blk → Bool) : (s.discard p).blks = s.blks.filter fun e => !p e.2 := rfl
@[simp] theorem State.discard_ctxs (s : State) (p : Blk → Bool) : (s.discard p).ctxs = s.ctxs := rfl
@[simp] theorem State.discard_parts (s : State) (p : Blk → Bool) : (s.discard p).parts = s.parts := rfl
@[simp] theorem State.discard_queues (s : State) (p : Blk → Bool) : (s.discard p).queues = s.queues := rfl
@[simp] theorem State.discard_jrnls (s : State) (p : Blk → Bool) : (s.discard p).jrnls = s.jrnls := rfl
@[simp] theorem State.discard_bars (s : State) (p : Blk → Bool) : (s.discard p).bars = s.bars := rfl
@[simp] theorem State.discard_sigs (s : State) (p : Blk → Bool) : (s.discard p).sigs = s.sigs := rfl
@[simp] theorem State.discard_groups (s : State) (p : Blk → Bool) : (s.discard p).groups = s.groups := rfl
@[simp] theorem State.discard_kerns (s : State) (p : Blk → Bool) : (s.discard p).kerns = s.kerns := rfl
@[simp] theorem State.discard_rxs (s : State) (p : Blk → Bool) : (s.discard p).rxs = s.rxs := rfl
@[simp] theorem State.discard_links (s : State) (p : Blk → Bool) : (s.discard p).links = s.links := rfl
@[simp] theorem State.discard_walks (s : State) (p : Blk → Bool) : (s.discard p).walks = s.walks := rfl
@[simp] theorem State.discard_shoots (s : State) (p : Blk → Bool) : (s.discard p).shoots = s.shoots := rfl
@[simp] theorem State.discard_amos (s : State) (p : Blk → Bool) : (s.discard p).amos = s.amos := rfl

end Sys2Proof.Machine
end

