-- ==== Sys2Proof/Laws/Store.lean ====
section
/-!
SUPPORT. Tables and byte memory: reading after writing, and that every operation on a memory keeps its canonical form.
-/
namespace Sys2Proof.Machine

/-! ### Tables -/

theorem Tab.get?_put_self {κ α : Type} [DecidableEq κ] (t : Tab κ α) (k : κ) (v : α) : (Tab.put t k v).get? k = some v := by
  induction t with
  | nil => simp [Tab.put, Tab.get?]
  | cons e t ih =>
    obtain ⟨k', v'⟩ := e
    by_cases h : k' = k <;> simp [Tab.put, Tab.get?, h, ih]

theorem Tab.get?_put_ne {κ α : Type} [DecidableEq κ] (t : Tab κ α) (k j : κ) (v : α) (h : j ≠ k) :
    (Tab.put t k v).get? j = t.get? j := by
  induction t with
  | nil => simp [Tab.put, Tab.get?, Ne.symm h]
  | cons e t ih =>
    obtain ⟨k', v'⟩ := e
    by_cases hk : k' = k
    · subst hk; simp [Tab.put, Tab.get?, Ne.symm h]
    · simp [Tab.put, Tab.get?, hk, ih]

theorem Tab.getD_put_self {κ α : Type} [DecidableEq κ] (t : Tab κ α) (k : κ) (v d : α) : (Tab.put t k v).getD k d = v := by
  simp [Tab.getD, Tab.get?_put_self]

theorem Tab.getD_put_ne {κ α : Type} [DecidableEq κ] (t : Tab κ α) (k j : κ) (v d : α) (h : j ≠ k) :
    (Tab.put t k v).getD j d = t.getD j d := by
  simp [Tab.getD, Tab.get?_put_ne t k j v h]

theorem Tab.get?_upd_self {κ α : Type} [DecidableEq κ] (t : Tab κ α) (k : κ) (f : α → α) :
    (Tab.upd t k f).get? k = (t.get? k).map f := by
  induction t with
  | nil => rfl
  | cons e t ih =>
    obtain ⟨k', v'⟩ := e
    by_cases h : k' = k <;> simp [Tab.upd, Tab.get?, h, ih]

theorem Tab.get?_upd_ne {κ α : Type} [DecidableEq κ] (t : Tab κ α) (k j : κ) (f : α → α) (h : j ≠ k) :
    (Tab.upd t k f).get? j = t.get? j := by
  induction t with
  | nil => rfl
  | cons e t ih =>
    obtain ⟨k', v'⟩ := e
    by_cases hk : k' = k
    · subst hk; simp [Tab.upd, Tab.get?, Ne.symm h]
    · simp [Tab.upd, Tab.get?, hk, ih]

/-! ### Byte memory: reading after writing -/

theorem Memory.wfFrom_mono {lo lo' : Nat} (h : lo' ≤ lo) : ∀ {m : Memory}, Memory.wfFrom lo m = true → Memory.wfFrom lo' m = true := by
  intro m hm
  cases m with
  | nil => rfl
  | cons c m =>
    simp only [Memory.wfFrom, Bool.and_eq_true, decide_eq_true_eq] at hm ⊢
    exact ⟨⟨by omega, hm.1.2⟩, hm.2⟩

/-- Below its first cell a memory reads as zero. -/
theorem Memory.read_below {lo a : Nat} : ∀ {m : Memory}, Memory.wfFrom lo m = true → a < lo → m.read a = 0#8 := by
  intro m hm ha
  cases m with
  | nil => rfl
  | cons c m =>
    obtain ⟨b, v⟩ := c
    simp only [Memory.wfFrom, Bool.and_eq_true, decide_eq_true_eq] at hm
    have h1 : ¬ b = a := by omega
    have h2 : a < b := by omega
    simp [Memory.read, h1, h2]

theorem Memory.read_write_self {a : Nat} {v : Byte} : ∀ {lo : Nat} {m : Memory}, Memory.wfFrom lo m = true → (m.write a v).read a = v := by
  intro lo m hm
  induction m generalizing lo with
  | nil => by_cases hv : v = 0#8 <;> simp [Memory.write, Memory.read, hv]
  | cons c m ih =>
    obtain ⟨b, w⟩ := c
    simp only [Memory.wfFrom, Bool.and_eq_true, decide_eq_true_eq] at hm
    unfold Memory.write
    split
    · rename_i hab
      split
      · rename_i hv
        have : ¬ b = a := by omega
        simp [Memory.read, this, hab, hv]
      · simp [Memory.read]
    · split
      · rename_i hab
        subst hab
        split
        · rename_i hv; rw [hv]; exact Memory.read_below hm.2 (by omega)
        · simp [Memory.read]
      · have h1 : ¬ b = a := by omega
        have h2 : ¬ a < b := by omega
        simp [Memory.read, h1, h2, ih hm.2]

theorem Memory.read_write_ne {a c : Nat} {v : Byte} (hne : c ≠ a) :
    ∀ {lo : Nat} {m : Memory}, Memory.wfFrom lo m = true → (m.write a v).read c = m.read c := by
  intro lo m hm
  induction m generalizing lo with
  | nil =>
    by_cases hv : v = 0#8
    · simp [Memory.write, hv]
    · simp [Memory.write, hv, Memory.read, Ne.symm hne]
  | cons d m ih =>
    obtain ⟨b, w⟩ := d
    simp only [Memory.wfFrom, Bool.and_eq_true, decide_eq_true_eq] at hm
    unfold Memory.write
    split
    · split
      · rfl
      · rename_i hab _
        simp only [Memory.read, Ne.symm hne, if_false]
        by_cases hca : c < a
        · have h1 : ¬ b = c := by omega
          have h2 : c < b := by omega
          simp [hca, h1, h2]
        · have : ¬ a > c := by omega
          have h3 : ¬ c < a := hca
          simp [h3]
    · split
      · rename_i hab
        subst hab
        split
        · have h1 : ¬ a = c := Ne.symm hne
          simp only [Memory.read, h1, if_false]
          split
          · exact Memory.read_below hm.2 (by omega)
          · rfl
        · simp [Memory.read, Ne.symm hne]
      · simp only [Memory.read, ih hm.2]

/-! ### The canonical form is kept -/

theorem Memory.wfFrom_write {a : Nat} {v : Byte} :
    ∀ {lo : Nat} {m : Memory}, lo ≤ a → Memory.wfFrom lo m = true → Memory.wfFrom lo (m.write a v) = true := by
  intro lo m hlo hm
  induction m generalizing lo with
  | nil =>
    by_cases hv : v = 0#8
    · simp [Memory.write, hv, Memory.wfFrom]
    · simp [Memory.write, hv, Memory.wfFrom, hlo]
  | cons d m ih =>
    obtain ⟨b, w⟩ := d
    have hm' := hm
    simp only [Memory.wfFrom, Bool.and_eq_true, decide_eq_true_eq] at hm
    unfold Memory.write
    split
    · split
      · exact hm'
      · rename_i hab hv
        simp only [Memory.wfFrom, Bool.and_eq_true, decide_eq_true_eq]
        exact ⟨⟨hlo, by simpa using hv⟩, ⟨by omega, hm.1.2⟩, hm.2⟩
    · split
      · rename_i hab
        subst hab
        split
        · exact Memory.wfFrom_mono (by omega) hm.2
        · rename_i hv
          simp only [Memory.wfFrom, Bool.and_eq_true, decide_eq_true_eq]
          exact ⟨⟨hlo, by simpa using hv⟩, hm.2⟩
      · simp only [Memory.wfFrom, Bool.and_eq_true, decide_eq_true_eq]
        exact ⟨hm.1, ih (by omega) hm.2⟩

theorem Memory.wf_write (m : Memory) (a : Nat) (v : Byte) (h : m.wf = true) : (m.write a v).wf = true :=
  Memory.wfFrom_write (Nat.zero_le _) h

theorem Memory.wf_writeBytes (l : List Byte) : ∀ (m : Memory) (a : Nat), m.wf = true → (m.writeBytes a l).wf = true := by
  induction l with
  | nil => intro m a h; exact h
  | cons b l ih => intro m a h; exact ih _ _ (Memory.wf_write m a b h)

theorem Memory.wfFrom_filter (p : Host.Cell → Bool) :
    ∀ {lo : Nat} {m : Memory}, Memory.wfFrom lo m = true → Memory.wfFrom lo (m.filter p) = true := by
  intro lo m hm
  induction m generalizing lo with
  | nil => rfl
  | cons d m ih =>
    have hm' := hm
    simp only [Memory.wfFrom, Bool.and_eq_true, decide_eq_true_eq] at hm
    simp only [List.filter_cons]
    split
    · simp only [Memory.wfFrom, Bool.and_eq_true, decide_eq_true_eq]
      exact ⟨hm.1, ih hm.2⟩
    · exact Memory.wfFrom_mono (by omega) (ih hm.2)

theorem Memory.wf_clear (m : Memory) (lo hi : Nat) (h : m.wf = true) : (m.clear lo hi).wf = true := Memory.wfFrom_filter _ h

theorem Memory.wf_foldl_write (f : Host.Cell → Nat) (l : List Host.Cell) :
    ∀ (m : Memory), m.wf = true → (l.foldl (fun m c => Memory.write m (f c) c.2) m).wf = true := by
  induction l with
  | nil => intro m h; exact h
  | cons c l ih => intro m h; exact ih _ (Memory.wf_write m _ _ h)

/-- Bytes outside a written range keep their values. -/
theorem Memory.read_writeBytes_out (l : List Byte) :
    ∀ (m : Memory) (a c : Nat), m.wf = true → (c < a ∨ a + l.length ≤ c) → (m.writeBytes a l).read c = m.read c := by
  induction l with
  | nil => intro m a c _ _; rfl
  | cons b l ih =>
    intro m a c hm hc
    simp only [List.length_cons] at hc
    rw [Memory.writeBytes, ih _ _ _ (Memory.wf_write m a b hm) (by omega)]
    exact Memory.read_write_ne (by omega) hm

/-- Bytes inside a written range read as written. -/
theorem Memory.read_writeBytes_in (l : List Byte) :
    ∀ (m : Memory) (a n : Nat) (h : n < l.length), m.wf = true → (m.writeBytes a l).read (a + n) = l[n] := by
  induction l with
  | nil => intro m a n h; exact absurd h (Nat.not_lt_zero _)
  | cons b l ih =>
    intro m a n h hm
    rw [Memory.writeBytes]
    cases n with
    | zero =>
      rw [Memory.read_writeBytes_out l _ _ _ (Memory.wf_write m a b hm) (by omega)]
      simpa using Memory.read_write_self hm
    | succ n =>
      have := ih (m.write a b) (a + 1) n (by simpa using h) (Memory.wf_write m a b hm)
      rw [show a + (n + 1) = a + 1 + n by omega, this]
      rfl

end Sys2Proof.Machine
end

