-- ==== Sys2Proof/Laws/Issue.lean ====
section
/-!
SUPPORT. What the shared forms of issue do on a ready instruction: one lemma for each form.
-/
namespace Sys2Proof.Machine

theorem used_of_operand {u : Bool} {o : Option Tok} {t : Tok} (h : Operand u o t) :
    used u o = some t ∧ t.isNull = false ∧ t.isFault = false := by
  cases u
  · simp only [Operand, Bool.false_eq_true, if_false] at h
    subst h
    exact ⟨rfl, rfl, rfl⟩
  · simpa [Operand, used] using h

theorem gate_of_operands {i : Info} {sl : Slot} {l r : Tok} (hl : Operand i.usesL sl.l l) (hr : Operand i.usesR sl.r r)
    (hp : Fires i.p sl.p) : gate i sl = .go l r := by
  obtain ⟨hl1, hl2, -⟩ := used_of_operand hl
  obtain ⟨hr1, hr2, -⟩ := used_of_operand hr
  have hp' : ∃ t, used (i.p != .always) sl.p = some t ∧ t.isNull = false ∧ t.isFault = false := by
    rcases hp with hp | ⟨t, ht, h1, h2⟩
    · exact ⟨Tok.ofWord 0, by simp [hp, used], rfl, rfl⟩
    · by_cases h : i.p = .always
      · exact ⟨Tok.ofWord 0, by simp [h, used], rfl, rfl⟩
      · exact ⟨t, by simp [h, used, ht], h1, h2⟩
  obtain ⟨t, h0, h1, h2⟩ := hp'
  unfold gate
  rw [hl1, hr1, h0]
  simp [hl2, hr2, h1, h2]

theorem withSlot_inSlot {s : State} {cu : Cur} {b : Blk} {sl : Slot} (h : InSlot s cu b sl) (k : Cur → Blk → Slot → Out State) :
    withSlot s k = k cu b sl := by
  simp [withSlot, h.site, h.blk, h.slot, h.waits]

theorem withCtx_some {s : State} {b : Blk} {x : Ctx} (h : s.ctxs.get? b.ctx = some x) (k : Ctx → Out State) : withCtx s b k = k x := by
  simp [withCtx, h]

theorem tokOp_ready {i : Instr} {s : State} {cu : Cur} {b : Blk} {sl : Slot} {l r : Tok} (h : Ready i s cu b sl l r)
    (f : Tok → Tok → Tok) : tokOp (info i) f s = .next (s.sent cu b sl i (f l r) (f l r)) := by
  have hl := (used_of_operand h.left).2.2
  have hr := (used_of_operand h.right).2.2
  simp [tokOp, withSlot_inSlot h.toInSlot, gate_of_operands h.left h.right h.pred, hl, hr, State.sent]

theorem valOp_ready {i : Instr} {s : State} {cu : Cur} {b : Blk} {sl : Slot} {l r : Tok} (h : Ready i s cu b sl l r)
    (f : Word → Word → Word) :
    valOp (info i) f s = .next (s.sent cu b sl i (Tok.ofWord (f l.val r.val)) (Tok.ofWord (f l.val r.val))) :=
  tokOp_ready h _

theorem testOp_ready {i : Instr} {s : State} {cu : Cur} {b : Blk} {sl : Slot} {l r : Tok} (h : Ready i s cu b sl l r)
    (f : Word → Word → Bool) :
    testOp (info i) f s
      = .next (s.sent cu b sl i (Tok.ofWord (if f l.val r.val then 1 else 0)) (Tok.ofWord (if f l.val r.val then 1 else 0))) :=
  tokOp_ready h _

theorem addrOp_ready {i : Instr} {s : State} {cu : Cur} {b : Blk} {sl : Slot} {l r : Tok} (h : Ready i s cu b sl l r)
    (f : Word → Word → Word) :
    addrOp (info i) f s
      = .next (s.sent cu b sl i (.ctl (f l.val r.val) (sumHandle l r) 8) (.ctl (f l.val r.val) (sumHandle l r) 8)) :=
  tokOp_ready h _

theorem actOp_ready {i : Instr} {s : State} {cu : Cur} {b : Blk} {sl : Slot} {l r : Tok} (h : Ready i s cu b sl l r)
    (n : Cur → Blk → Slot → Blk) (k : Cur → Blk → Slot → Tok → Tok → Out State) : actOp (info i) n k s = k cu b sl l r := by
  have hl := (used_of_operand h.left).2.2
  have hr := (used_of_operand h.right).2.2
  simp [actOp, withSlot_inSlot h.toInSlot, gate_of_operands h.left h.right h.pred, hl, hr]

theorem storeOp_ready {i : Instr} {s : State} {cu : Cur} {b : Blk} {sl : Slot} {l r : Tok} (h : Ready i s cu b sl l r) (id : Ident)
    (k : Cur → Blk → Slot → Tok → Tok → Out State) : storeOp (info i) id k s = k cu b sl l r := actOp_ready h _ k

theorem loadOp_ready {i : Instr} {s : State} {cu : Cur} {b : Blk} {sl : Slot} {l r : Tok} (h : Ready i s cu b sl l r)
    (k : Cur → Blk → Slot → Tok → Tok → Out State) : loadOp (info i) k s = k cu b sl l r := actOp_ready h _ k

theorem branchOp_ready {i : Instr} {s : State} {cu : Cur} {b : Blk} {sl : Slot} {l r : Tok} (h : Ready i s cu b sl l r) (e : BitVec 3)
    (k : Blk → Tok → Tok → BrKind) :
    branchOp (info i) e k s = .next (s.setBlk cu.frame (b.setBranch cu.slot ⟨e, k b l r⟩)) := actOp_ready h _ _

theorem vecOp_ready {i : Instr} {s : State} {cu : Cur} {b : Blk} {sl : Slot} {l r : Tok} {x : Ctx} (h : Ready i s cu b sl l r)
    (hx : s.ctxs.get? b.ctx = some x) {governed rs : Bool} (hw : s.vecWaits x b cu.slot governed rs = false) (two : Bool)
    (f : Ctx → VCtx → VWord → VWord → BitVec 32 → VRes) :
    vecOp (info i) governed rs two f s
      = .next (s.setBlk cu.frame
          (b.vecDone cu.slot sl (info i) x.fx.fpst rs two (f (s.seen b x) (s.seen b x).vctx l.bits r.bits (b.lfsr.getD x.fx.lfsr)))) := by
  simp [vecOp, withSlot_inSlot h.toInSlot, gate_of_operands h.left h.right h.pred, withCtx_some hx, hw]

end Sys2Proof.Machine
end

