-- ==== Sys2Proof/Laws/Vector.lean ====
section
/-!
SUPPORT. What the tokens of the vector forms hold: elements of a packed list, flags of an element-wise form, and the issue of a form that
raises no flag.
-/
namespace Sys2Proof.Machine

theorem packNat_elem (w : Nat) (l : List Nat) (e : Nat) : packNat w l / 2 ^ (w * e) % 2 ^ w = (l[e]?.getD 0) % 2 ^ w := by
  induction l generalizing e with
  | nil => simp [packNat]
  | cons x r ih =>
    cases e with
    | zero => simp [packNat]
    | succ e =>
      have h : (x % 2 ^ w + 2 ^ w * packNat w r) / 2 ^ w = packNat w r := by
        rw [Nat.add_mul_div_left _ _ (Nat.two_pow_pos w), Nat.div_eq_of_lt (Nat.mod_lt _ (Nat.two_pow_pos w)), Nat.zero_add]
      rw [packNat, Nat.mul_succ, Nat.add_comm (w * e) w, Nat.pow_add, ← Nat.div_div_eq_div_mul, h, ih]
      simp

/-- Element `e` of a packed list, where it lies inside the token. -/
theorem elem_pack {w e : Nat} (l : List Nat) (h : w * (e + 1) ≤ 4096) : elem w e (pack w l) = (l[e]?.getD 0) % 2 ^ w := by
  have hm : 2 ^ 4096 = 2 ^ (w * e) * (2 ^ w * 2 ^ (4096 - w * (e + 1))) := by
    rw [← Nat.pow_add, ← Nat.pow_add]
    congr 1
    rw [Nat.mul_succ] at *
    omega
  rw [elem, pack, BitVec.toNat_ofNat, hm, Nat.mod_mul_right_div_self, Nat.mod_mul_right_mod, packNat_elem]

theorem elem_lt (w e : Nat) (v : VWord) : elem w e v < 2 ^ w := Nat.mod_lt _ (Nat.two_pow_pos w)

/-- A token packed from the elements below `n` holds them and zeros above. -/
theorem holds_pack {w n : Nat} {f g : Nat → Nat} (h : ∀ e, e < n → f e % 2 ^ w = g e) : Holds (pack w ((List.range n).map f)) w n g := by
  intro e he
  rw [elem_pack _ he]
  by_cases hn : e < n
  · simp [hn, h e hn]
  · simp [hn]

theorem Flags.or_empty (f : Flags) : f.or {} = f := by simp [Flags.or]

theorem flags_foldl_or (l : List (Nat × Flags)) (a : Flags) : l.foldl (fun a e => a.or e.2) a = a.or (flagUnion l) := by
  induction l generalizing a with
  | nil => simp [flagUnion, Flags.or]
  | cons e r ih =>
    rw [flagUnion, List.foldl_cons, List.foldl_cons, ih, ih]
    simp [Flags.or, Bool.or_assoc]

/-- Leaving out the elements without flags leaves the union as it is. -/
theorem flagUnion_flagList (l : List (Nat × Flags)) : flagUnion (flagList l) = flagUnion l := by
  induction l with
  | nil => rfl
  | cons e r ih =>
    have hc (x : Nat × Flags) (t : List (Nat × Flags)) : flagUnion (x :: t) = x.2.or (flagUnion t) := by
      rw [flagUnion, List.foldl_cons, flags_foldl_or]
      simp [Flags.or]
    by_cases h : e.2 = {}
    · have hf : flagList (e :: r) = flagList r := by simp [flagList, h]
      rw [hf, ih, hc, h]
      simp [Flags.or]
    · have hf : flagList (e :: r) = e :: flagList r := by simp [flagList, h]
      rw [hf, hc, hc, ih]

/-- Sending tokens changes the slots and the faults of a block and nothing else. -/
theorem sends_frame (b : Blk) (n : Nat) (src : Slot) (i : Info) (t1 t2 : Tok) :
    ∃ sls fs, b.sends n src i t1 t2 = { b with slots := sls, faults := fs } := by
  have hs (c : Blk) (t : Tok) (tg : Tgt) : ∃ sls fs, c.send src t tg = { c with slots := sls, faults := fs } := by
    unfold Blk.send
    split
    · exact ⟨_, _, rfl⟩
    · split
      · exact ⟨_, _, rfl⟩
      · split
        · exact ⟨_, _, rfl⟩
        · exact ⟨_, _, rfl⟩
  obtain ⟨s1, f1, h1⟩ := hs (b.fin n) t1 i.t1
  obtain ⟨s2, f2, h2⟩ := hs ((b.fin n).send src t1 i.t1) t2 i.t2
  exact ⟨s2, f2, by rw [Blk.sends, h2, h1]; rfl⟩

theorem sends_same_flags (b : Blk) (n : Nat) (src : Slot) (i : Info) (t1 t2 : Tok) :
    { b.sends n src i t1 t2 with fl := b.fl, lfsr := b.lfsr } = b.sends n src i t1 t2 := by
  obtain ⟨_, _, h⟩ := sends_frame b n src i t1 t2
  rw [h]

/-- A vector form that raises no flag and draws nothing sends one token. -/
theorem vecOp_sends {i : Instr} {s : State} {cu : Cur} {b : Blk} {sl : Slot} {l r : Tok} {x : Ctx} (h : Ready i s cu b sl l r)
    (hx : s.ctxs.get? b.ctx = some x) {governed : Bool} (hw : s.vecWaits x b cu.slot governed false = false)
    {f : Ctx → VCtx → VWord → VWord → BitVec 32 → VRes} {v : VWord}
    (hv : ∀ lf, (f (s.seen b x) (s.seen b x).vctx l.bits r.bits lf).lo = v ∧ flagUnion (f (s.seen b x) (s.seen b x).vctx l.bits r.bits lf).fl = {}) :
    vecOp (info i) governed false false f s = .next (s.sentOne cu b sl i (.vec v)) := by
  rw [vecOp_ready h hx hw]
  obtain ⟨h1, h2⟩ := hv (b.lfsr.getD x.fx.lfsr)
  have h0 : enabledIn x.fx.fpst {} = 0 := by simp [enabledIn, Flags.bits]
  simp only [Blk.vecDone, h2, h0, h1, bne_self_eq_false, Bool.false_eq_true, if_false, Flags.or_empty, State.sentOne, State.sent,
    sends_same_flags]

end Sys2Proof.Machine
end

