-- ==== Sys2Proof/Tests/Slice0.lean ====
section
/-!
SUPPORT. Tests: ill-formed terms, words decoded, one step each of some instructions, and for each statement a state that meets its hypotheses.
-/
open Sys2Proof Sys2Proof.Machine

/-! ### Well-formedness -/

/-- One term for each check of `Instr.wf`, with a field value that chapter 04 gives no meaning, and none is well formed. -/
theorem test_wf_refuses :
    let t : Tgt := ⟨.left, 3⟩
    let z : Tgt := ⟨.none, 1⟩
    let v (ty : ElTy) (md : Bool) : FmtV := ⟨.always, md, ty, t, t⟩
    ([.const 1 z, .constx 1 z, .read 3 z t, .read 3 t z, .read 96 t t, .write .always 72, .mov ⟨.always, z, t⟩, .add ⟨.always, t, z⟩,
      .addi ⟨.always, 1, z⟩, .shli ⟨.always, 64, t⟩, .shri ⟨.always, 64, t⟩, .sari ⟨.always, 64, t⟩, .ldB64 ⟨.always, 1, 0, z⟩,
      .ldN82t ⟨.always, 1, z, t⟩, .xlate .always 1 true 2 z, .xprobe .always 1 true 2 z, .pref ⟨.always, 1, 0, z⟩, .amoAdd .always 1 .ln true false,
      .amoAddF32 .always 1 .ln false, .fenceAcq .always 1 .ln, .fenceRel .always 1 .ln, .fenceAr .always 1 .ln, .qfence .always 1 0, .qpop .always 1 z,
      .qpopBq .always 1 z, .pop .always 1 2 z, .peek .always 1 2 z, .steer .always 1 2 3 3, .collect .always 1 3 t, .collect .always 1 2 z,
      .sigInc .always 1 .ln, .shstep .always 1 2 z, .mma .always 1 .f16 true 2, .mmaG .always 1 .mx8 true 2, .accrd .always 1 2 z,
      .crrd .always 1 0x13 t, .crrd .always 1 1 z, .crwr .always 1 0x109, .vadd (v .e4m3 false), .vsub (v .mx8 false), .vmul (v .e2m1 false),
      .vmulh (v .s16 true), .vmulh (v .f32 false), .vmin (v .s16 true), .vmax (v .e5m2 false), .vabs (v .mx4 false), .vneg (v .e4m3 false),
      .vand (v .s16 false), .vor (v .n16 true), .vxor (v .f32 false), .vnot (v .s8 false), .vshl (v .s8 false), .vshr (v .n8 true), .vsar (v .n8 false),
      .vclz (v .s8 false), .vpopc (v .f16 false), .cmp .always true .s8 0 t, .cmp .always false .s8 6 t, .cmp .always false .e4m3 0 t,
      .msel .always .mx8 0 t, .wadd (v .f32 false), .wmul (v .s8 true), .narrow .always false .f32 .rne t, .narrow .always false .s8 .rz t,
      .narrow .always true .f16 .rne t, .cvt .always false .f32 .rne .f32 t, .cvt .always true .f16 .rne .f32 t, .cvt .always false .s8 .rz .s16 t,
      .vrcp .always false z t, .vlog2 .always false t z, .red .always false .s8 6 t, .red .always true .s8 1 t, .red .always false .f32 3 t,
      .scan .always false .s8 true 3 t, .scan .always true .n8 true 1 t, .perm (v .e4m3 false), .perm (v .s8 true), .slideUp .always .mx8 1 t,
      .slideDn .always .s8 1 z, .bcast .always .e5m2 1 t, .mand ⟨.always, z, t⟩, .mcnt ⟨.always, t, z⟩, .iota (v .f32 false), .iota (v .s8 true)]
        : List Instr).all (fun i => !i.wf) = true := by decide

/-- Whether a word decodes to an instruction. -/
def decodesTo (p : Plane) (w : BitVec 32) (i : Instr) : Bool := match decode p w with | .ok j => decide (j = i) | .error _ => false
/-- Whether a word is refused for a reason. -/
def rejects (p : Plane) (w : BitVec 32) (r : Reject) : Bool := match decode p w with | .ok _ => false | .error q => decide (q = r)

/-- Words that the map or a field makes illegal are refused by name. -/
theorem test_decode_refuses :
    (rejects .ctl 0xFE000000#32 .noMeaning && rejects .dat 0x02000000#32 .noMeaning && rejects .ctl 0x0C820000#32 .predReserved
      && rejects .ctl 0x0C7C0000#32 .noMeaning && rejects .ctl 0x70000000#32 .illegalField && rejects .ctl 0x09000048#32 .illegalField) = true := by decide

/-- Words of chapter 04, field by field from its tables, and what they stand for. -/
theorem test_decode_ctl0 :
    ([
    (0x037DC083#32, .const 0xBEE0 ⟨.left, 3⟩),
    (0x057DC284#32, .constx 0xBEE1 ⟨.left, 4⟩),
    (0x071E0E85#32, .read 71 ⟨.right, 7⟩ ⟨.left, 5⟩),
    (0x08420000#32, .write .always 66),
    (0x0B021287#32, .mov ⟨.onFalse, ⟨.right, 9⟩, ⟨.left, 7⟩⟩),
    (0x0B861488#32, .null ⟨.onTrue, ⟨.right, 10⟩, ⟨.left, 8⟩⟩),
    (0x0D821A8B#32, .add ⟨.onTrue, ⟨.right, 13⟩, ⟨.left, 11⟩⟩),
    (0x0C061C8C#32, .sub ⟨.always, ⟨.right, 14⟩, ⟨.left, 12⟩⟩),
    (0x0D0A1E8D#32, .mul ⟨.onFalse, ⟨.right, 15⟩, ⟨.left, 13⟩⟩),
    (0x0D8E208E#32, .mulhS64 ⟨.onTrue, ⟨.right, 16⟩, ⟨.left, 14⟩⟩),
    (0x0C12228F#32, .mulhN64 ⟨.always, ⟨.right, 17⟩, ⟨.left, 15⟩⟩),
    (0x0D162490#32, .divS64 ⟨.onFalse, ⟨.right, 18⟩, ⟨.left, 16⟩⟩),
    (0x0D9A2691#32, .divN64 ⟨.onTrue, ⟨.right, 19⟩, ⟨.left, 17⟩⟩),
    (0x0C1E2892#32, .remS64 ⟨.always, ⟨.right, 20⟩, ⟨.left, 18⟩⟩),
    (0x0D222A93#32, .remN64 ⟨.onFalse, ⟨.right, 21⟩, ⟨.left, 19⟩⟩),
    (0x0DA62C94#32, .neg ⟨.onTrue, ⟨.right, 22⟩, ⟨.left, 20⟩⟩),
    (0x0C2A2E95#32, .abs ⟨.always, ⟨.right, 23⟩, ⟨.left, 21⟩⟩),
    (0x0D2E3096#32, .minS64 ⟨.onFalse, ⟨.right, 24⟩, ⟨.left, 22⟩⟩),
    (0x0DB23297#32, .maxS64 ⟨.onTrue, ⟨.right, 25⟩, ⟨.left, 23⟩⟩),
    (0x0C363498#32, .minN64 ⟨.always, ⟨.right, 26⟩, ⟨.left, 24⟩⟩),
    (0x0D3A3699#32, .maxN64 ⟨.onFalse, ⟨.right, 27⟩, ⟨.left, 25⟩⟩),
    (0x0F82389A#32, .and ⟨.onTrue, ⟨.right, 28⟩, ⟨.left, 26⟩⟩)] : List (BitVec 32 × Instr)).all (fun e => decodesTo .ctl e.1 e.2) = true := by decide

/-- Words of chapter 04, field by field from its tables, and what they stand for. -/
theorem test_decode_ctl1 :
    ([
    (0x0E063A9B#32, .or ⟨.always, ⟨.right, 29⟩, ⟨.left, 27⟩⟩),
    (0x0F0A3C9C#32, .xor ⟨.onFalse, ⟨.right, 30⟩, ⟨.left, 28⟩⟩),
    (0x0F8E3E9D#32, .andn ⟨.onTrue, ⟨.right, 31⟩, ⟨.left, 29⟩⟩),
    (0x0E12409E#32, .not ⟨.always, ⟨.right, 32⟩, ⟨.left, 30⟩⟩),
    (0x0F16429F#32, .shl ⟨.onFalse, ⟨.right, 33⟩, ⟨.left, 31⟩⟩),
    (0x0F9A44A0#32, .shr ⟨.onTrue, ⟨.right, 34⟩, ⟨.left, 32⟩⟩),
    (0x0E1E46A1#32, .sar ⟨.always, ⟨.right, 35⟩, ⟨.left, 33⟩⟩),
    (0x0F2248A2#32, .rol ⟨.onFalse, ⟨.right, 36⟩, ⟨.left, 34⟩⟩),
    (0x0FA64AA3#32, .ror ⟨.onTrue, ⟨.right, 37⟩, ⟨.left, 35⟩⟩),
    (0x0E2A4CA4#32, .popc ⟨.always, ⟨.right, 38⟩, ⟨.left, 36⟩⟩),
    (0x0F2E4EA5#32, .clz ⟨.onFalse, ⟨.right, 39⟩, ⟨.left, 37⟩⟩),
    (0x0FB250A6#32, .ctz ⟨.onTrue, ⟨.right, 40⟩, ⟨.left, 38⟩⟩),
    (0x0E3652A7#32, .bswap ⟨.always, ⟨.right, 41⟩, ⟨.left, 39⟩⟩),
    (0x0F3A54A8#32, .sextS8 ⟨.onFalse, ⟨.right, 42⟩, ⟨.left, 40⟩⟩),
    (0x0FBE56A9#32, .sextS16 ⟨.onTrue, ⟨.right, 43⟩, ⟨.left, 41⟩⟩),
    (0x0E4258AA#32, .sextS32 ⟨.always, ⟨.right, 44⟩, ⟨.left, 42⟩⟩),
    (0x0F465AAB#32, .zextN8 ⟨.onFalse, ⟨.right, 45⟩, ⟨.left, 43⟩⟩),
    (0x0FCA5CAC#32, .zextN16 ⟨.onTrue, ⟨.right, 46⟩, ⟨.left, 44⟩⟩),
    (0x0E4E5EAD#32, .zextN32 ⟨.always, ⟨.right, 47⟩, ⟨.left, 45⟩⟩),
    (0x110260AE#32, .teq ⟨.onFalse, ⟨.right, 48⟩, ⟨.left, 46⟩⟩),
    (0x118662AF#32, .tne ⟨.onTrue, ⟨.right, 49⟩, ⟨.left, 47⟩⟩),
    (0x100A64B0#32, .tltS64 ⟨.always, ⟨.right, 50⟩, ⟨.left, 48⟩⟩)] : List (BitVec 32 × Instr)).all (fun e => decodesTo .ctl e.1 e.2) = true := by decide

/-- Words of chapter 04, field by field from its tables, and what they stand for. -/
theorem test_decode_ctl2 :
    ([
    (0x110E66B1#32, .tleS64 ⟨.onFalse, ⟨.right, 51⟩, ⟨.left, 49⟩⟩),
    (0x119268B2#32, .tgtS64 ⟨.onTrue, ⟨.right, 52⟩, ⟨.left, 50⟩⟩),
    (0x10166AB3#32, .tgeS64 ⟨.always, ⟨.right, 53⟩, ⟨.left, 51⟩⟩),
    (0x111A6CB4#32, .tltN64 ⟨.onFalse, ⟨.right, 54⟩, ⟨.left, 52⟩⟩),
    (0x119E6EB5#32, .tleN64 ⟨.onTrue, ⟨.right, 55⟩, ⟨.left, 53⟩⟩),
    (0x102270B6#32, .tgtN64 ⟨.always, ⟨.right, 56⟩, ⟨.left, 54⟩⟩),
    (0x112672B7#32, .tgeN64 ⟨.onFalse, ⟨.right, 57⟩, ⟨.left, 55⟩⟩),
    (0x11AA74B8#32, .tbit ⟨.onTrue, ⟨.right, 58⟩, ⟨.left, 56⟩⟩),
    (0x102E76B9#32, .tz ⟨.always, ⟨.right, 59⟩, ⟨.left, 57⟩⟩),
    (0x113278BA#32, .tnz ⟨.onFalse, ⟨.right, 60⟩, ⟨.left, 58⟩⟩),
    (0x13827ABB#32, .wsplitB8 ⟨.onTrue, ⟨.right, 61⟩, ⟨.left, 59⟩⟩),
    (0x12067CBC#32, .wsplitB16 ⟨.always, ⟨.right, 62⟩, ⟨.left, 60⟩⟩),
    (0x130A7EBD#32, .wsplitB32 ⟨.onFalse, ⟨.right, 63⟩, ⟨.left, 61⟩⟩),
    (0x139280BE#32, .wjoinB8 ⟨.onTrue, ⟨.right, 64⟩, ⟨.left, 62⟩⟩),
    (0x12160ABF#32, .wjoinB16 ⟨.always, ⟨.right, 5⟩, ⟨.left, 63⟩⟩),
    (0x131A0CC0#32, .wjoinB32 ⟨.onFalse, ⟨.right, 6⟩, ⟨.left, 64⟩⟩),
    (0x15820EC1#32, .leaX1 ⟨.onTrue, ⟨.right, 7⟩, ⟨.left, 65⟩⟩),
    (0x140610C2#32, .leaX2 ⟨.always, ⟨.right, 8⟩, ⟨.left, 66⟩⟩),
    (0x150A12C3#32, .leaX4 ⟨.onFalse, ⟨.right, 9⟩, ⟨.left, 67⟩⟩),
    (0x158E14C4#32, .leaX8 ⟨.onTrue, ⟨.right, 10⟩, ⟨.left, 68⟩⟩),
    (0x166086C5#32, .addi ⟨.always, 0x3043, ⟨.left, 69⟩⟩),
    (0x196088C6#32, .andi ⟨.onFalse, 0x3044, ⟨.left, 70⟩⟩)] : List (BitVec 32 × Instr)).all (fun e => decodesTo .ctl e.1 e.2) = true := by decide

/-- Words of chapter 04, field by field from its tables, and what they stand for. -/
theorem test_decode_ctl3 :
    ([
    (0x1BE08AC7#32, .ori ⟨.onTrue, 0x3045, ⟨.left, 71⟩⟩),
    (0x1C608CC8#32, .xori ⟨.always, 0x3046, ⟨.left, 72⟩⟩),
    (0x1F608EC9#32, .teqi ⟨.onFalse, 0x3047, ⟨.left, 73⟩⟩),
    (0x218054CA#32, .shli ⟨.onTrue, 0x2A, ⟨.left, 74⟩⟩),
    (0x220054CB#32, .shri ⟨.always, 0x2A, ⟨.left, 75⟩⟩),
    (0x250054CC#32, .sari ⟨.onFalse, 0x2A, ⟨.left, 76⟩⟩),
    (0x27E096CD#32, .tnei ⟨.onTrue, 0x304B, ⟨.left, 77⟩⟩),
    (0x286098CE#32, .tlti ⟨.always, 0x304C, ⟨.left, 78⟩⟩),
    (0x2B609ACF#32, .tgei ⟨.onFalse, 0x304D, ⟨.left, 79⟩⟩),
    (0x2DE09CD0#32, .tltui ⟨.onTrue, 0x304E, ⟨.left, 80⟩⟩),
    (0x2E609ED1#32, .tgeui ⟨.always, 0x304F, ⟨.left, 81⟩⟩),
    (0x31581234#32, .br ⟨.onFalse, 5, 0x81234⟩),
    (0x33D81234#32, .call ⟨.onTrue, 5, 0x81234⟩),
    (0x34000C00#32, .brr .always 6),
    (0x35040C00#32, .callr .onFalse 6),
    (0x35880C00#32, .ret .onTrue 6),
    (0x36581234#32, .barWait ⟨.always, 5, 0x81234⟩),
    (0x39581234#32, .sigWait ⟨.onFalse, 5, 0x81234⟩),
    (0x3BD81234#32, .yield ⟨.onTrue, 5, 0x81234⟩),
    (0x3C581234#32, .idle ⟨.always, 5, 0x81234⟩),
    (0x4146AADB#32, .ldN8 ⟨.onFalse, 17, 0x155, ⟨.left, 91⟩⟩),
    (0x43CAAADC#32, .ldS8 ⟨.onTrue, 18, 0x155, ⟨.left, 92⟩⟩)] : List (BitVec 32 × Instr)).all (fun e => decodesTo .ctl e.1 e.2) = true := by decide

/-- Words of chapter 04, field by field from its tables, and what they stand for. -/
theorem test_decode_ctl4 :
    ([
    (0x444EAA83#32, .ldN16 ⟨.always, 19, 0x155, ⟨.left, 3⟩⟩),
    (0x4752AA84#32, .ldS16 ⟨.onFalse, 20, 0x155, ⟨.left, 4⟩⟩),
    (0x49D6AA85#32, .ldN32 ⟨.onTrue, 21, 0x155, ⟨.left, 5⟩⟩),
    (0x4A5AAA86#32, .ldS32 ⟨.always, 22, 0x155, ⟨.left, 6⟩⟩),
    (0x4D5EAA87#32, .ldB64 ⟨.onFalse, 23, 0x155, ⟨.left, 7⟩⟩),
    (0x51E25088#32, .ldN82t ⟨.onTrue, 24, ⟨.right, 40⟩, ⟨.left, 8⟩⟩),
    (0x52665289#32, .ldS82t ⟨.always, 25, ⟨.right, 41⟩, ⟨.left, 9⟩⟩),
    (0x556A548A#32, .ldN162t ⟨.onFalse, 26, ⟨.right, 42⟩, ⟨.left, 10⟩⟩),
    (0x57EE568B#32, .ldS162t ⟨.onTrue, 27, ⟨.right, 43⟩, ⟨.left, 11⟩⟩),
    (0x5872588C#32, .ldN322t ⟨.always, 28, ⟨.right, 44⟩, ⟨.left, 12⟩⟩),
    (0x5B265A8D#32, .ldS322t ⟨.onFalse, 9, ⟨.right, 45⟩, ⟨.left, 13⟩⟩),
    (0x5DAA5C8E#32, .ldB642t ⟨.onTrue, 10, ⟨.right, 46⟩, ⟨.left, 14⟩⟩),
    (0x4E2C368F#32, .xlate .always 11 true 11 ⟨.left, 15⟩),
    (0x5F303690#32, .xprobe .onFalse 12 true 11 ⟨.left, 16⟩),
    (0x61B6AA91#32, .pref ⟨.onTrue, 13, 0x155, ⟨.left, 17⟩⟩),
    (0x623AABCD#32, .stB8 .always 14 0x2ABCD),
    (0x653EABCD#32, .stB16 .onFalse 15 0x2ABCD),
    (0x67C2ABCD#32, .stB32 .onTrue 16 0x2ABCD),
    (0x6846ABCD#32, .stB64 .always 17 0x2ABCD),
    (0x6B481E00#32, .amoAdd .onFalse 18 .di true true),
    (0x6BCC5A00#32, .amoAddF32 .onTrue 19 .di true),
    (0x6A509E00#32, .amoMinS .always 20 .di true true)] : List (BitVec 32 × Instr)).all (fun e => decodesTo .ctl e.1 e.2) = true := by decide

/-- Words of chapter 04, field by field from its tables, and what they stand for. -/
theorem test_decode_ctl5 :
    ([
    (0x6B54DE00#32, .amoMaxS .onFalse 21 .di true true),
    (0x6BD91E00#32, .amoMinN .onTrue 22 .di true true),
    (0x6A5D5E00#32, .amoMaxN .always 23 .di true true),
    (0x6B619E00#32, .amoAnd .onFalse 24 .di true true),
    (0x6BE5DE00#32, .amoOr .onTrue 25 .di true true),
    (0x6A6A1E00#32, .amoXor .always 26 .di true true),
    (0x6D6C07FF#32, .lease .onFalse 27 0x7FF),
    (0x6DF20000#32, .unlease .onTrue 28),
    (0x6E256000#32, .fenceAcq .always 9 .di),
    (0x6F2A6000#32, .fenceRel .onFalse 10 .di),
    (0x6FAF6000#32, .fenceAr .onTrue 11 .di),
    (0x70308421#32, .qfence .always 12 0x8421),
    (0x733400A5#32, .qpop .onFalse 13 ⟨.left, 37⟩),
    (0x73BA00A6#32, .qpopBq .onTrue 14 ⟨.left, 38⟩),
    (0x743C0ABC#32, .qpush .always 15 0xABC),
    (0x75420000#32, .qpushCmdq .onFalse 16),
    (0x77C42CA9#32, .pop .onTrue 17 22 ⟨.left, 41⟩),
    (0x794C2CAB#32, .peek .onFalse 19 22 ⟨.left, 43⟩),
    (0x7A540013#32, .push .always 21 19),
    (0x7B580020#32, .pushBq .onFalse 22),
    (0x7C600013#32, .pushm .always 24 19),
    (0x7F641400#32, .strmStage .onFalse 25 5)] : List (BitVec 32 × Instr)).all (fun e => decodesTo .ctl e.1 e.2) = true := by decide

/-- Words of chapter 04, field by field from its tables, and what they stand for. -/
theorem test_decode_ctl6 :
    ([
    (0x7FE82000#32, .strmRows .onTrue 26),
    (0x7E6C4000#32, .strmTag .always 27),
    (0x7F706000#32, .strmGo .onFalse 28),
    (0x7FA48000#32, .strmHalt .onTrue 9),
    (0x80290ABC#32, .sphAnd .always 10 true 0xABC),
    (0x812F0ABC#32, .sphOr .onFalse 11 true 0xABC),
    (0x873A0ABC#32, .rtcfg .onFalse 14 .multicast 0xABC),
    (0x89BC3000#32, .barInit .onTrue 15 .di),
    (0x8840B000#32, .barArrive .always 16 .di),
    (0x89453000#32, .barBind .onFalse 17 .di),
    (0x89C9B000#32, .barDrop .onTrue 18 .di),
    (0x8A4C3000#32, .sigInc .always 19 .di),
    (0x8D518000#32, .shapeV .onFalse 20 6),
    (0x8DD78000#32, .shapeT .onTrue 21 6),
    (0x8E580CC2#32, .shstep .always 22 6 ⟨.left, 66⟩),
    (0x91E0DA00#32, .mma .onTrue 24 .bf16 false 13),
    (0x9368C000#32, .tmov .onFalse 26 .a .c),
    (0x93EEC000#32, .tmovT .onTrue 27 .a .c),
    (0x94701A00#32, .acclr .always 28 13),
    (0x95251A00#32, .accst .onFalse 9 13),
    (0x98034A00#32, .trap .always 0x1A5),
    (0x99074A00#32, .svc .onFalse 0x1A5)] : List (BitVec 32 × Instr)).all (fun e => decodesTo .ctl e.1 e.2) = true := by decide

/-- Words of chapter 04, field by field from its tables, and what they stand for. -/
theorem test_decode_ctl7 :
    ([
    (0x998B4A00#32, .brk .onTrue 0x1A5),
    (0x980C0000#32, .rfe .always),
    (0x9B3E06CF#32, .crrd .onFalse 15 0x103 ⟨.left, 79⟩),
    (0x9DC20600#32, .crwr .onTrue 16 0x103),
    (0x9E460000#32, .launch .always 17 2),
    (0xA1480000#32, .grpMake .onFalse 18),
    (0xA1CC4000#32, .grpSplit .onTrue 19),
    (0xA0508000#32, .grpJoin .always 20),
    (0xA154C000#32, .grpFree .onFalse 21),
    (0xA3D90000#32, .xshoot .onTrue 22 .m2),
    (0xA45C1000#32, .pgMap .always 23 .m2),
    (0xA5605000#32, .pgUnmap .onFalse 24 .m2),
    (0xA5E49000#32, .pgPin .onTrue 25 .m2),
    (0xA468D000#32, .pgUnpin .always 26 .m2),
    (0xA56D1000#32, .pgPoison .onFalse 27 .m2),
    (0xA5F15000#32, .pgPromote .onTrue 28 .m2),
    (0xA6241000#32, .lnkUp .always 9 .sept),
    (0xA7285000#32, .lnkDown .onFalse 10 .sept),
    (0xA7AC9000#32, .lnkRetrain .onTrue 11 .sept),
    (0xA630D000#32, .lnkChain .always 12 .sept),
    (0xA7351000#32, .lnkUnchain .onFalse 13 .sept),
    (0xA9B80000#32, .vdQuiesce .onTrue 14)] : List (BitVec 32 × Instr)).all (fun e => decodesTo .ctl e.1 e.2) = true := by decide

/-- Words of chapter 04, field by field from its tables, and what they stand for. -/
theorem test_decode_ctl8 :
    ([
    (0xA83C4000#32, .vdSend .always 15),
    (0xA9408000#32, .vdResume .onFalse 16),
    (0xA9C4C000#32, .vdRelease .onTrue 17),
    (0xA8490000#32, .vdReplay .always 18)] : List (BitVec 32 × Instr)).all (fun e => decodesTo .ctl e.1 e.2) = true := by decide

/-- Words of chapter 04, field by field from its tables, and what they stand for. -/
theorem test_decode_dat0 :
    ([
    (0x0A021689#32, .movV ⟨.always, ⟨.right, 11⟩, ⟨.left, 9⟩⟩),
    (0x0B06188A#32, .nullV ⟨.onFalse, ⟨.right, 12⟩, ⟨.left, 10⟩⟩),
    (0x76482CAA#32, .popV .always 18 22 ⟨.left, 42⟩),
    (0x79D02CAC#32, .peekV .onTrue 20 22 ⟨.left, 44⟩),
    (0x7BDC0013#32, .pushV .onTrue 23 19),
    (0x83B014F8#32, .steer .onTrue 12 5 7 24),
    (0x84342CB9#32, .collect .always 13 22 ⟨.left, 57⟩),
    (0x8F5C0CC3#32, .shstepV .onFalse 23 6 ⟨.left, 67⟩),
    (0x9064DA00#32, .mmaG .always 25 .bf16 false 13),
    (0x97A81ACA#32, .accrd .onTrue 10 13 ⟨.left, 74⟩),
    (0xB1461E8D#32, .vadd ⟨.onFalse, true, .s16, ⟨.right, 15⟩, ⟨.left, 13⟩⟩),
    (0xB38A208E#32, .vsub ⟨.onTrue, false, .s32, ⟨.right, 16⟩, ⟨.left, 14⟩⟩),
    (0xB412228F#32, .vmul ⟨.always, false, .n8, ⟨.right, 17⟩, ⟨.left, 15⟩⟩),
    (0xB7062490#32, .vmulh ⟨.onFalse, false, .s16, ⟨.right, 18⟩, ⟨.left, 16⟩⟩),
    (0xB9A62691#32, .vmin ⟨.onTrue, false, .f16, ⟨.right, 19⟩, ⟨.left, 17⟩⟩),
    (0xBA262892#32, .vmax ⟨.always, false, .f16, ⟨.right, 20⟩, ⟨.left, 18⟩⟩),
    (0xBD262A93#32, .vabs ⟨.onFalse, false, .f16, ⟨.right, 21⟩, ⟨.left, 19⟩⟩),
    (0xBFEA2C94#32, .vneg ⟨.onTrue, true, .bf16, ⟨.right, 22⟩, ⟨.left, 20⟩⟩),
    (0xC01A2E95#32, .vand ⟨.always, false, .n32, ⟨.right, 23⟩, ⟨.left, 21⟩⟩),
    (0xC3123096#32, .vor ⟨.onFalse, false, .n8, ⟨.right, 24⟩, ⟨.left, 22⟩⟩),
    (0xC5963297#32, .vxor ⟨.onTrue, false, .n16, ⟨.right, 25⟩, ⟨.left, 23⟩⟩),
    (0xC61A3498#32, .vnot ⟨.always, false, .n32, ⟨.right, 26⟩, ⟨.left, 24⟩⟩)] : List (BitVec 32 × Instr)).all (fun e => decodesTo .dat e.1 e.2) = true := by decide

/-- Words of chapter 04, field by field from its tables, and what they stand for. -/
theorem test_decode_dat1 :
    ([
    (0xC9163699#32, .vshl ⟨.onFalse, false, .n16, ⟨.right, 27⟩, ⟨.left, 25⟩⟩),
    (0xCB92389A#32, .vshr ⟨.onTrue, false, .n8, ⟨.right, 28⟩, ⟨.left, 26⟩⟩),
    (0xCC0A3A9B#32, .vsar ⟨.always, false, .s32, ⟨.right, 29⟩, ⟨.left, 27⟩⟩),
    (0xCF163C9C#32, .vclz ⟨.onFalse, false, .n16, ⟨.right, 30⟩, ⟨.left, 28⟩⟩),
    (0xD19A3E9D#32, .vpopc ⟨.onTrue, false, .n32, ⟨.right, 31⟩, ⟨.left, 29⟩⟩),
    (0xD2600C9E#32, .cmp .always true .f32 6 ⟨.left, 30⟩),
    (0xD5240A9F#32, .msel .onFalse .f16 5 ⟨.left, 31⟩),
    (0xD7A644A0#32, .wadd ⟨.onTrue, false, .f16, ⟨.right, 34⟩, ⟨.left, 32⟩⟩),
    (0xD81646A1#32, .wmul ⟨.always, false, .n16, ⟨.right, 35⟩, ⟨.left, 33⟩⟩),
    (0xDB2440A2#32, .narrow .onFalse false .f16 .ru ⟨.left, 34⟩),
    (0xDDA450A3#32, .cvt .onTrue false .f16 .ru .f32 ⟨.left, 35⟩),
    (0xDE424CA4#32, .vrcp .always true ⟨.right, 38⟩ ⟨.left, 36⟩),
    (0xDF464EA5#32, .vrsq .onFalse true ⟨.right, 39⟩ ⟨.left, 37⟩),
    (0xDFCA50A6#32, .vsqrt .onTrue true ⟨.right, 40⟩ ⟨.left, 38⟩),
    (0xDE4E52A7#32, .vexp2 .always true ⟨.right, 41⟩ ⟨.left, 39⟩),
    (0xDF5254A8#32, .vlog2 .onFalse true ⟨.right, 42⟩ ⟨.left, 40⟩),
    (0xE1A004A9#32, .red .onTrue false .f32 2 ⟨.left, 41⟩),
    (0xE20414AA#32, .scan .always false .s16 true 2 ⟨.left, 42⟩),
    (0xE52A5AAB#32, .perm ⟨.onFalse, false, .bf16, ⟨.right, 45⟩, ⟨.left, 43⟩⟩),
    (0xE798AAAC#32, .slideUp .onTrue .n32 0x55 ⟨.left, 44⟩),
    (0xE621AAAD#32, .slideDn .always .f32 0x55 ⟨.left, 45⟩),
    (0xE928AAAE#32, .bcast .onFalse .bf16 0x55 ⟨.left, 46⟩)] : List (BitVec 32 × Instr)).all (fun e => decodesTo .dat e.1 e.2) = true := by decide

/-- Words of chapter 04, field by field from its tables, and what they stand for. -/
theorem test_decode_dat2 :
    ([
    (0xEB8262AF#32, .mand ⟨.onTrue, ⟨.right, 49⟩, ⟨.left, 47⟩⟩),
    (0xEA0664B0#32, .mor ⟨.always, ⟨.right, 50⟩, ⟨.left, 48⟩⟩),
    (0xEB0A66B1#32, .mxor ⟨.onFalse, ⟨.right, 51⟩, ⟨.left, 49⟩⟩),
    (0xEB8E68B2#32, .mnot ⟨.onTrue, ⟨.right, 52⟩, ⟨.left, 50⟩⟩),
    (0xEA126AB3#32, .mcnt ⟨.always, ⟨.right, 53⟩, ⟨.left, 51⟩⟩),
    (0xED0A6CB4#32, .iota ⟨.onFalse, false, .s32, ⟨.right, 54⟩, ⟨.left, 52⟩⟩)] : List (BitVec 32 × Instr)).all (fun e => decodesTo .dat e.1 e.2) = true := by decide

/-! ### States that meet the hypotheses of the statements -/

/-- A slot whose three operands have arrived. -/
def wSl (l r : Tok) (pl : Plane := .ctl) (w : IWord := 0) : Slot :=
  { word := w, plane := pl, rep := false, l := some l, r := some r, p := some (Tok.ofWord 1) }
/-- A header of a block of one slot. -/
def wHdr (kind : Nat) : Header := { kind := kind, count := 0, cwords := 0, rpt := 0, pwmask := 0, zero := 0, smask := 0, rwmask := 0 }
/-- A frame of core 0 and its slot 0. -/
def wCu : Cur := ⟨⟨⟨0, 0, true⟩, 0⟩, 0⟩
/-- A block of context 1 with one slot. -/
def wB (sl : Slot) (kind : Nat := 1) : Blk :=
  { ctx := 1, u := if kind = 1 then .thread else .stream, addr := 0x1000, hdr := wHdr kind, slots := [sl] }
/-- A running pair context of slot 0 with privilege. -/
def wX : Ctx := { pk := ⟨0, 0⟩, kern := ⟨⟨0, 0⟩, 0, 0⟩, index := 0, pos := some (0, 0), ctl := { pm := true } }
/-- That context and one block of it in flight. -/
def wS (x : Ctx) (b : Blk) : State := { State.reset with site := .slot wCu, ctxs := [(1, x)], blks := [(wCu.frame, b)] }

/-- An instruction is ready on two operands, in a block of a context without a branch and without a completed identifier, where conditions of its own hold:
the hypotheses of `Sends`, `Completes`, `Raises` and `Branches`. -/
def Meets (i : Instr) (l r : Tok) (ok : State → Blk → Ctx → Tok → Tok → Prop) : Prop :=
  ∃ s cu b sl x, Ready i s cu b sl l r ∧ s.ctxs.get? b.ctx = some x ∧ b.branch = none ∧ (∀ n : Nat, b.idDone.getLsbD n = false) ∧ ok s b x l r

/-- Whether a token serves as an operand. -/
def serves (uses : Bool) (t : Tok) : Bool := if uses then !t.isNull && !t.isFault else decide (t = Tok.ofWord 0)

/-- An operand that serves has arrived. -/
theorem operand_of (uses : Bool) (t : Tok) (h : serves uses t = true) : Operand uses (some t) t := by
  unfold serves at h; unfold Operand
  split <;> rename_i u <;> simp only [u, if_true, if_false, Bool.false_eq_true] at h
  · simp only [Bool.and_eq_true, Bool.not_eq_true'] at h; exact ⟨rfl, h⟩
  · exact of_decide_eq_true h

/-- The slot of a state that holds operands which serve is ready. -/
theorem ready_of (i : Instr) (s : State) (b : Blk) (l r : Tok) (pl : Plane) (w : IWord) (hs : s.site = .slot wCu)
    (hb : s.blks.get? wCu.frame = some b) (h : b.slots[0]? = some (wSl l r pl w)) (hl : serves (info i).usesL l = true)
    (hr : serves (info i).usesR r = true) : Ready i s wCu b (wSl l r pl w) l r :=
  { site := hs, blk := hb, slot := h, waits := rfl, left := operand_of _ _ hl, right := operand_of _ _ hr, pred := .inr ⟨_, rfl, rfl, rfl⟩ }

/-- The same with the conditions. -/
theorem meets (i : Instr) (l r : Tok) (ok : State → Blk → Ctx → Tok → Tok → Prop) (s : State) (x : Ctx) (kind : Nat) (pl : Plane)
    (hs : s.site = .slot wCu) (hb : s.blks.get? wCu.frame = some (wB (wSl l r pl) kind)) (hx : s.ctxs.get? 1 = some x)
    (hl : serves (info i).usesL l = true) (hr : serves (info i).usesR r = true) (h : ok s (wB (wSl l r pl) kind) x l r) : Meets i l r ok :=
  ⟨s, wCu, _, _, x, ready_of i s _ l r pl 0 hs hb rfl hl hr, hx, rfl, fun _ => by simp [wB], h⟩

/-- Every instruction is ready on zeros: the hypotheses of every form without conditions of its own. -/
theorem witness_ready (i : Instr) : Meets i (Tok.ofWord 0) (Tok.ofWord 0) fun _ _ _ _ _ => True :=
  meets i _ _ _ (wS wX (wB (wSl (Tok.ofWord 0) (Tok.ofWord 0)))) wX 1 .ctl rfl rfl rfl
    (by unfold serves; split <;> rfl) (by unfold serves; split <;> rfl) trivial

/-- Instructions of a list are ready on operands that serve. -/
theorem ready_list (is : List Instr) (l r : Tok) (h : (is.all fun i => serves (info i).usesL l && serves (info i).usesR r) = true) :
    ∀ i ∈ is, Meets i l r fun _ _ _ _ _ => True := by
  intro i hi
  have := List.all_eq_true.1 h i hi
  simp only [Bool.and_eq_true] at this
  exact meets i _ _ _ (wS wX (wB (wSl l r))) wX 1 .ctl rfl rfl rfl this.1 this.2 trivial

/-- Two-operand arithmetic on the ends of the ranges, with a handle on the left. -/
theorem witness_IntegerArithmeticResults (g : FmtG) :
    (∀ i ∈ [Instr.add g, .sub g, .mul g, .mulhS64 g, .mulhN64 g, .minS64 g, .maxS64 g, .minN64 g, .maxN64 g],
        Meets i (.ctl 0xFFFFFFFFFFFFFFFF (some 3) 8) (Tok.ofWord 0x8000000000000000) fun _ _ _ _ _ => True)
      ∧ ∀ i ∈ [Instr.neg g, .abs g], Meets i (Tok.ofWord 0x8000000000000000) (Tok.ofWord 0) fun _ _ _ _ _ => True :=
  ⟨ready_list _ _ _ rfl, ready_list _ _ _ rfl⟩

/-- The division that overflows, and a zero divisor. -/
theorem witness_DivisionResults (g : FmtG) : ∀ r ∈ [Tok.ofWord 0, Tok.ofWord 0xFFFFFFFFFFFFFFFF],
    ∀ i ∈ [Instr.divS64 g, .remS64 g, .divN64 g, .remN64 g], Meets i (Tok.ofWord 0x8000000000000000) r fun _ _ _ _ _ => True := by
  intro r hr
  simp only [List.mem_cons, List.not_mem_nil, or_false] at hr
  rcases hr with rfl | rfl <;> exact ready_list _ _ _ rfl

theorem witness_LogicAndBitCountResults (g : FmtG) :
    (∀ i ∈ [Instr.and g, .or g, .xor g, .andn g], Meets i (Tok.ofWord 5) (Tok.ofWord 3) fun _ _ _ _ _ => True)
      ∧ ∀ i ∈ [Instr.not g, .popc g, .clz g, .ctz g, .bswap g, .sextS8 g, .sextS16 g, .sextS32 g, .zextN8 g, .zextN16 g, .zextN32 g],
        Meets i (Tok.ofWord 0x80) (Tok.ofWord 0) fun _ _ _ _ _ => True :=
  ⟨ready_list _ _ _ rfl, ready_list _ _ _ rfl⟩

/-- Amounts of 63 and of 64. -/
theorem witness_ShiftResults (g : FmtG) : ∀ i ∈ [Instr.shl g, .shr g, .sar g, .rol g, .ror g],
    Meets i (Tok.ofWord 0x8000000000000001) (Tok.ofWord 63) (fun _ _ _ _ r => ¬ 64 ≤ r.val.toNat)
      ∧ Meets i (Tok.ofWord 0x8000000000000001) (Tok.ofWord 64) (fun _ _ _ _ r => 64 ≤ r.val.toNat) := by
  intro i hi
  have h : serves (info i).usesL (Tok.ofWord 0x8000000000000001) = true ∧ (info i).usesR = true := by
    simp only [List.mem_cons, List.not_mem_nil, or_false] at hi
    rcases hi with rfl | rfl | rfl | rfl | rfl <;> exact ⟨rfl, rfl⟩
  exact ⟨meets i _ _ _ (wS wX (wB (wSl _ _))) wX 1 .ctl rfl rfl rfl h.1 (by rw [h.2]; rfl) (by decide),
    meets i _ _ _ (wS wX (wB (wSl _ _))) wX 1 .ctl rfl rfl rfl h.1 (by rw [h.2]; rfl) (by decide)⟩

/-- Both outcomes of each test. -/
theorem witness_TestResults (g : FmtG) :
    (∀ l ∈ [Tok.ofWord 0, Tok.ofWord 1, Tok.ofWord 2], ∀ i ∈ [Instr.teq g, .tne g, .tltS64 g, .tleS64 g, .tgtS64 g, .tgeS64 g, .tltN64 g, .tleN64 g,
        .tgtN64 g, .tgeN64 g, .tbit g], Meets i l (Tok.ofWord 1) fun _ _ _ _ _ => True)
      ∧ (∀ l ∈ [Tok.ofWord 0, Tok.ofWord 1], ∀ i ∈ [Instr.tz g, .tnz g], Meets i l (Tok.ofWord 0) fun _ _ _ _ _ => True) := by
  constructor <;> intro l hl <;> simp only [List.mem_cons, List.not_mem_nil, or_false] at hl
  · rcases hl with rfl | rfl | rfl <;> exact ready_list _ _ _ rfl
  · rcases hl with rfl | rfl <;> exact ready_list _ _ _ rfl

/-- Immediate forms, among them a shift by 63. -/
theorem witness_ImmediateFormResults (p : Pred) (t : Tgt) :
    (⟨p, 63, t⟩ : FmtI).imm.toNat < 64 ∧ ∀ f ∈ [(⟨p, 0x2000, t⟩ : FmtI), ⟨p, 63, t⟩],
      ∀ i ∈ [Instr.addi f, .andi f, .ori f, .xori f, .teqi f, .tnei f, .tlti f, .tgei f, .tltui f, .tgeui f, .shli f, .shri f, .sari f],
        Meets i (.ctl 0xFFFFFFFFFFFFE000 (some 15) 8) (Tok.ofWord 0) fun _ _ _ _ _ => True :=
  ⟨show (63#14).toNat < 64 by decide, fun _ _ => ready_list _ _ _ rfl⟩

theorem witness_AddressAndTokenForms (g : FmtG) :
    (∀ i ∈ [Instr.mov g, .movV g, .wsplitB8 g, .wsplitB16 g, .wsplitB32 g, .wjoinB8 g, .wjoinB16 g, .wjoinB32 g],
        Meets i (.ctl 7 (some 2) 4) (Tok.ofWord 0) fun _ _ _ _ _ => True)
      ∧ (∀ i ∈ [Instr.leaX1 g, .leaX2 g, .leaX4 g, .leaX8 g], Meets i (.ctl 7 (some 2) 8) (.ctl 9 (some 1) 8) fun _ _ _ _ _ => True)
      ∧ (∀ i ∈ [Instr.null g, .nullV g], Meets i (Tok.ofWord 0) (Tok.ofWord 0) fun _ _ _ _ _ => True) :=
  ⟨ready_list _ _ _ rfl, ready_list _ _ _ rfl, fun i _ => witness_ready i⟩

/-! ### Registers, branches, tokens -/

/-- A state with a block of a kind whose slot 0 has no operand. -/
def wR (kind : Nat) (x : Ctx := wX) (pl : Plane := .ctl) : State := wS x (wB { word := 0, plane := pl, rep := false } kind)
/-- A state in which port 0 and port 31 are bound to queue 7, of either plane, with one element. -/
def wQ (dat : Bool) (s : State) : State :=
  { s with
    queues := [(⟨⟨0, 0⟩, 7⟩, { state := .open, plane := dat, esize := if dat then 3 else 0, els := [{ bits := 9 }], nprod := 1
                               win := { kind := 1, lsize := 12 } })] }
/-- A context whose inlets 0, 1, 30 and 31 are bound to queue 7, and outlets 0 and 31 too. -/
def wXq (dat : Bool) : Ctx :=
  let b : Bind := { plane := dat, flag := false, queue := 7, round := 0 }
  { wX with ports := { ins := (((Vector.replicate 32 none).set 0 (some b)).set 1 (some b)).set 31 (some b)
                       outs := (((Vector.replicate 32 none).set 0 (some b)).set 1 (some b)).set 31 (some b) } }

/-- A younger block with an older one in flight that names register 5. -/
def wOld (w : List (Nat × Option Tok)) : Blk := { wB { word := 0, plane := .ctl, rep := false } with hdr := { wHdr 1 with rwmask := 32 }, regs := w }
def wYng : Blk := { wB { word := 0, plane := .ctl, rep := false } with seq := 1 }
def wTwo (w : List (Nat × Option Tok)) : State := { wS wX wYng with blks := [(wCu.frame, wYng), (⟨⟨0, 0, true⟩, 1⟩, wOld w)] }

/-- The first and the last register of each range of R196, and an inlet with an element. -/
theorem witness_ReadReturnsRegister :
    (∃ s cu b sl x, InSlot s cu b sl ∧ s.ctxs.get? b.ctx = some x ∧ b.hdr.kind = 1 ∧ s.older b = []
        ∧ ([0, 63].all fun r : Nat => r < 64) ∧ ([64, 71].all fun r : Nat => 64 ≤ r && r < 72) ∧ ([72, 79].all fun r : Nat => 72 ≤ r && r < 80))
      ∧ (∃ s cu b sl x, InSlot s cu b sl ∧ s.ctxs.get? b.ctx = some x ∧ b.hdr.kind ≠ 1 ∧ s.older b = []
        ∧ ([0, 31].all fun r : Nat => r < 32) ∧ ([32, 39].all fun r : Nat => 32 ≤ r && r < 40) ∧ ([40, 47].all fun r : Nat => 40 ≤ r && r < 48)
        ∧ ([48, 55].all fun r : Nat => 48 ≤ r && r < 56))
      ∧ (∃ (s : State) (cu : Cur) (b : Blk) (sl : Slot) (x : Ctx) (reg : Nat) (e : FrameKey × Blk) (w : Tok), InSlot s cu b sl ∧ s.ctxs.get? b.ctx = some x ∧ b.hdr.kind = 1 ∧ 0 < reg ∧ reg < 64
        ∧ s.older b = [e] ∧ e.2.hdr.kind = 1 ∧ e.2.hdr.rwmask.getLsbD reg = true ∧ e.2.regs = [(reg, some w)])
      ∧ (∃ (s : State) (cu : Cur) (b : Blk) (sl : Slot) (x : Ctx) (reg : Nat) (e : FrameKey × Blk), InSlot s cu b sl ∧ s.ctxs.get? b.ctx = some x ∧ e ∈ s.older b ∧ b.hdr.kind = 1 ∧ reg < 64
        ∧ e.2.hdr.rwmask.getLsbD reg = true ∧ ∀ w ∈ e.2.regs, w.1 ≠ reg)
      ∧ ∀ r ∈ [64, 95], ∃ s cu b sl x bd p el, InSlot s cu b sl ∧ s.ctxs.get? b.ctx = some x ∧ b.hdr.kind ≠ 1 ∧ 64 ≤ r ∧ r < 96
        ∧ x.inlet (r - 64) = some bd ∧ (s.queue (objKey x.pk bd.queue)).plane = decide (sl.plane = .dat)
        ∧ s.inletPos b (r - 64) (objKey x.pk bd.queue) cu.slot 0 true = some p ∧ (s.queue (objKey x.pk bd.queue)).availAt p = .elem el := by
  refine ⟨⟨wR 1, wCu, _, _, wX, ⟨rfl, rfl, rfl, rfl⟩, rfl, rfl, rfl, by decide⟩,
    ⟨wR 2, wCu, _, _, wX, ⟨rfl, rfl, rfl, rfl⟩, rfl, by decide, rfl, by decide⟩,
    ⟨wTwo [(5, some (.ofWord 9))], wCu, wYng, _, wX, 5, _, .ofWord 9, ⟨rfl, rfl, rfl, rfl⟩, rfl, rfl, by decide, by decide, rfl, rfl, by decide, rfl⟩,
    ⟨wTwo [], wCu, wYng, _, wX, 5, (⟨⟨0, 0, true⟩, 1⟩, wOld []), ⟨rfl, rfl, rfl, rfl⟩, rfl, List.mem_singleton.2 rfl, rfl, by decide, by decide,
      fun _ h => absurd h List.not_mem_nil⟩, ?_⟩
  intro r hr
  simp only [List.mem_cons, List.not_mem_nil, or_false] at hr
  rcases hr with rfl | rfl <;>
    exact ⟨wQ true (wR 2 (wXq true) .dat), wCu, _, _, wXq true, _, 0, { bits := 9 }, ⟨rfl, rfl, rfl, rfl⟩, rfl, by decide, by decide, by decide, rfl, rfl, rfl, rfl⟩

/-- A register not completed, and one completed. -/
theorem witness_WriteCompletesRegister (p : Pred) (reg : BitVec 7) :
    (∃ s cu b sl l r, Ready (.write p reg) s cu b sl l r ∧ ∀ e ∈ b.regs, e.1 ≠ reg.toNat)
      ∧ ∃ s cu b sl l r, Ready (.write p reg) s cu b sl l r ∧ ∃ e ∈ b.regs, e.1 = reg.toNat := by
  let b : Blk := { wB (wSl (Tok.ofWord 4) (Tok.ofWord 0)) with regs := [(reg.toNat, none)] }
  exact ⟨⟨wS wX (wB (wSl (Tok.ofWord 4) (Tok.ofWord 0))), wCu, _, _, _, _, ready_of _ _ _ _ _ .ctl 0 rfl rfl rfl rfl rfl, by simp [wB]⟩,
    ⟨wS wX b, wCu, _, _, _, _, ready_of _ _ b _ _ .ctl 0 rfl rfl rfl rfl rfl, (reg.toNat, none), by simp [b], rfl⟩⟩

/-- A context with a number of return addresses. -/
def wDeep (n : Nat) : Ctx := { wX with thr := { wX.thr with depth := n } }

/-- A barrier and a signal that the context may name, for the wait forms; return stacks that are full and empty, and that are not, for the call forms. -/
theorem witness_BranchesIssue (f : FmtB) (p : Pred) (exit : BitVec 3) :
    (∃ l r, Meets (.barWait f) l r fun s b x l r =>
        barTokOk l.val = true ∧ fld r.val 0 4 = 0 ∧ s.barSub x b.ctx (decide (b.hdr.kind = 1)) l.val none = 0)
      ∧ (∃ l r, Meets (.sigWait f) l r fun s _ x l _ => s.sigSub x l.val = 0)
      ∧ (∀ i ∈ [Instr.call f, .callr p exit], ∃ l r, Meets i l r fun s b x _ _ =>
        (s.isOldest b = true → (x.lane b.u).depth < 16) ∧ ∀ e, s.oldest b.ctx b.u = some e → e.2.stackFault (x.lane b.u) = none)
      ∧ (∃ l r, Meets (.ret p exit) l r fun s b x _ _ =>
        (s.isOldest b = true → (x.lane b.u).depth ≠ 0) ∧ ∀ e, s.oldest b.ctx b.u = some e → e.2.stackFault (x.lane b.u) = none)
      ∧ (∀ i ∈ [(Instr.call f, 16, 0x08), (.callr p exit, 16, 0x08), (.ret p exit, 0, 0x09)], ∃ s cu b sl l r x, Ready i.1 s cu b sl l r
        ∧ s.oldest b.ctx b.u = some (cu.frame, b) ∧ s.ctxs.get? b.ctx = some x ∧ b.branch = none ∧ (x.lane b.u).depth = i.2.1 ∧ ∀ e ∈ b.faults, e.code ≠ i.2.2) := by
  have h (n : Nat) : ∀ e, (wS (wDeep n) (wB (wSl (Tok.ofWord 0) (Tok.ofWord 0)))).oldest 1 .thread = some e → e.2.stackFault (wDeep n).thr = none := by
    intro e he
    have : e = (wCu.frame, wB (wSl (Tok.ofWord 0) (Tok.ofWord 0))) := (Option.some.inj he).symm
    subst this; rfl
  refine ⟨⟨Tok.ofWord 0, Tok.ofWord 0, meets _ _ _ _
      { wS wX (wB (wSl (Tok.ofWord 0) (Tok.ofWord 0))) with bars := [(⟨⟨0, 0⟩, 0⟩, { st := .armed, level := .co })] } wX 1 .ctl rfl rfl rfl rfl rfl ?_⟩,
    ⟨Tok.ofWord 0, Tok.ofWord 0, meets _ _ _ _ (wS wX (wB (wSl _ _))) wX 1 .ctl rfl rfl rfl rfl rfl ?_⟩, ?_,
    ⟨Tok.ofWord 0, Tok.ofWord 0, meets _ _ _ _ (wS (wDeep 1) (wB (wSl _ _))) (wDeep 1) 1 .ctl rfl rfl rfl rfl rfl ⟨fun _ => by decide, h 1⟩⟩, ?_⟩
  · decide
  · decide
  · intro i hi
    simp only [List.mem_cons, List.not_mem_nil, or_false] at hi
    rcases hi with rfl | rfl <;>
      exact ⟨Tok.ofWord 0, Tok.ofWord 0, meets _ _ _ _ (wS (wDeep 15) (wB (wSl _ _))) (wDeep 15) 1 .ctl rfl rfl rfl rfl rfl ⟨fun _ => by decide, h 15⟩⟩
  · intro i hi
    simp only [List.mem_cons, List.not_mem_nil, or_false] at hi
    rcases hi with rfl | rfl | rfl
    all_goals
      exact ⟨wS (wDeep _) (wB (wSl (Tok.ofWord 0) (Tok.ofWord 0))), wCu, _, _, _, _, _, ready_of _ _ _ _ _ .ctl 0 rfl rfl rfl rfl rfl, rfl, rfl, rfl, rfl,
        fun _ h => absurd h List.not_mem_nil⟩

/-- A block without a branch, and one with a branch. -/
theorem witness_BreakAndSecondBranchFault (i : Instr) :
    Meets i (Tok.ofWord 0) (Tok.ofWord 0) (fun _ b _ _ _ => b.branch = none)
      ∧ ∃ s cu b sl l r x, Ready i s cu b sl l r ∧ s.ctxs.get? b.ctx = some x ∧ b.branch.isSome = true := by
  let b : Blk := { wB (wSl (Tok.ofWord 0) (Tok.ofWord 0)) with branch := some ⟨0, .jump 0⟩ }
  obtain ⟨s, cu, b', sl, x, h⟩ := witness_ready i
  refine ⟨⟨s, cu, b', sl, x, h.1, h.2.1, h.2.2.1, h.2.2.2.1, h.2.2.1⟩, wS wX b, wCu, b, wSl (Tok.ofWord 0) (Tok.ofWord 0), .ofWord 0, .ofWord 0, wX, ?_, rfl, rfl⟩
  exact ready_of i _ b _ _ .ctl 0 rfl rfl rfl (by unfold serves; split <;> rfl) (by unfold serves; split <;> rfl)

/-- A null operand, a fault token on the left, and one on the right. -/
theorem witness_NullAndFaultTokens : ∀ e ∈ [(Tok.null, Tok.fault 1 0x10 3 0), (.fault 1 0x10 3 0, .ofWord 0), (.ofWord 0, .fault 1 0x10 3 0)],
    ∃ s cu b sl, InSlot s cu b sl ∧ sl.l = some e.1 ∧ sl.r = some e.2 :=
  fun e _ => ⟨wS wX (wB (wSl e.1 e.2)), wCu, _, _, ⟨rfl, rfl, rfl, rfl⟩, rfl, rfl⟩

/-- A target that is none, an operand that is empty and one that is taken, in the last of 128 slots. -/
theorem witness_DeliveryAndCollision : ∃ (b : Blk) (src dst e : Slot) (tg tn : Tgt), b.slots[tg.slot.toNat]? = some dst ∧ tg.slot = 127 ∧ src.plane = .ctl
    ∧ dst.plane = .ctl ∧ tg.kind ≠ .none ∧ (dst.operand tg.kind).isSome = true ∧ dst.operand .right = none ∧ tn.kind = .none
    ∧ e.plane = .ctl ∧ b.slots[0]? = some e :=
  ⟨{ wB (wSl (.ofWord 0) (.ofWord 0)) with slots := List.replicate 127 (wSl (.ofWord 0) (.ofWord 0)) ++ [{ wSl (.ofWord 0) (.ofWord 0) with r := none }] },
    wSl (.ofWord 0) (.ofWord 0), _, _, ⟨.left, 127⟩, ⟨.none, 0⟩, rfl, rfl, rfl, rfl, by decide, rfl, rfl, rfl, rfl, rfl⟩

/-! ### Memory -/

/-- A page of 64 KiB under key 1, and a handle of it. -/
def wTr : Trans := { size := .k64, vbase := 0x10000, asn := 0, frame := 0x20000, key := 1, rd := true, wr := true }
/-- A context whose handle 3 is that page. -/
def wXm : Ctx := { wX with regs := { th := (Vector.replicate 16 {}).set 3 { tr := some wTr } } }
/-- An address of that page with its handle. -/
def wA (n : Word) : Tok := .ctl (0x10000 + n) (some 3) 8
/-- A state in which key 1 is slot 0's and block 0 has two operands. -/
def wM (l r : Tok) (w : IWord := 0) : State :=
  { wS wXm (wB (wSl l r .ctl w)) with pkgs := [(0, { keys := [(1, { valid := true, owner := 0, kind := 0 })] })] }

/-- A load with displacement 0, and one with two targets. -/
def wL : FmtL := ⟨.always, 5, 0, ⟨.left, 1⟩⟩
def wL2 : FmtL2 := ⟨.always, 5, ⟨.left, 2⟩, ⟨.left, 1⟩⟩
/-- A load of the last bytes of a page that passes its checks, and one of an address that is not canonical. -/
theorem witness_LoadsCheckAndStandOutstanding :
    ∀ q ∈ ([(Instr.ldN8 wL, 1, wL.disp), (.ldS8 wL, 1, wL.disp), (.ldN16 wL, 2, wL.disp), (.ldS16 wL, 2, wL.disp), (.ldN32 wL, 4, wL.disp), (.ldS32 wL, 4, wL.disp),
        (.ldB64 wL, 8, wL.disp), (.ldN82t wL2, 1, 0#9), (.ldS82t wL2, 1, 0#9), (.ldN162t wL2, 2, 0#9), (.ldS162t wL2, 2, 0#9), (.ldN322t wL2, 4, 0#9),
        (.ldS322t wL2, 4, 0#9), (.ldB642t wL2, 8, 0#9)] : List (Instr × Nat × BitVec 9)),
      (∃ l r, Meets q.1 l r fun s b x l _ => ∃ ps s',
          s.access (b.who x) (l.val + BitVec.ofInt 64 (q.2.2.toInt * q.2.1)) q.2.1 l.ew true false true (b.handleOf x l) = (.ok ps, s')
            ∧ (s'.blks.get? wCu.frame).isSome = true)
        ∧ ∃ l r, Meets q.1 l r fun s b x l _ => ∃ e s',
          s.access (b.who x) (l.val + BitVec.ofInt 64 (q.2.2.toInt * q.2.1)) q.2.1 l.ew true false true (b.handleOf x l) = (.error e, s') ∧ e.pull = none := by
  intro q hq
  simp only [List.mem_cons, List.not_mem_nil, or_false] at hq
  rcases hq with rfl | rfl | rfl | rfl | rfl | rfl | rfl | rfl | rfl | rfl | rfl | rfl | rfl | rfl <;>
    exact ⟨⟨wA 0xFFF8, .ofWord 0, meets _ _ _ _ (wM _ _) wXm 1 .ctl rfl rfl rfl rfl rfl ⟨_, _, rfl, rfl⟩⟩,
      ⟨.ofWord 0x0100000000000000, .ofWord 0, meets _ _ _ _ (wM _ _) wXm 1 .ctl rfl rfl rfl rfl rfl
        ⟨{ code := 0x12, step := 2 }, _, rfl, rfl⟩⟩⟩

/-- A block with an outstanding load of eight bytes, and a state with it. -/
def wLb (v : Word) : Blk := wB { wSl (wA v) (.ofWord 0) .ctl (0b0100110#7 ++ 0b00#2 ++ 0b00111#5 ++ 0b000000000#9 ++ 0b010000100#9) with st := .out }
def wLd (v : Word) : State := { wM (wA v) (.ofWord 0) with blks := [(wCu.frame, wLb v)] }
/-- An outstanding load whose store order and bytes are ready: with one event, and with two. -/
theorem witness_LoadPerformDeliversBytes (two : Bool) : ∃ (s : State) (cu : Cur) (b : Blk) (sl : Slot) (x : Ctx) (i : Instr) (id : Ident) (l : LoadSpec) (a : Tok) (ps : List Part') (s' : State)
    (p : Part') (u : State) (got : List (List Byte)),
    s.site = .slot cu ∧ s.blks.get? cu.frame = some b ∧ b.slots[cu.slot]? = some sl
    ∧ sl.st = .out ∧ s.ctxs.get? b.ctx = some x ∧ decode sl.plane sl.word = .ok i ∧ (info i).id = some id ∧ loadSpec i = some l ∧ sl.l = some a
    ∧ s.access (b.who x) (l.ea a.val) l.size a.ew true false true (b.handleOf x a) = (.ok ps, s') ∧ (s'.blks.get? cu.frame).isSome = true
    ∧ ps[sl.got.length]? = some p ∧ s'.redirected x.pk p.pa = u ∧ sl.got ++ [u.loadPart x.pk (x.pathEvents ++ b.eventsBelow id.toNat) p] = got
    ∧ s'.loadReady x (b.sawPages ps) id.toNat (ps.drop sl.got.length) = true
    ∧ s'.waitAt (.load cu.frame b.seq cu.slot) (some b.ctx) [s'.lineOf x.pk p.pa] = none
    ∧ u.loadFails x.pk (x.pathEvents ++ b.eventsBelow id.toNat) p = false ∧ sl.got.length + (if two then 2 else 1) = ps.length := by
  cases two
  · exact ⟨wLd 0x40, wCu, wLb 0x40, _, wXm, .ldB64 ⟨.always, 7, 0, ⟨.left, 4⟩⟩, 7, _, _, _, _, _, _, _, rfl, rfl, rfl, rfl,
      rfl, rfl, rfl, rfl, rfl, rfl, rfl, rfl, rfl, rfl, by decide, by decide, by decide, rfl⟩
  · exact ⟨wLd 0x3C, wCu, wLb 0x3C, _, wXm, .ldB64 ⟨.always, 7, 0, ⟨.left, 4⟩⟩, 7, _, _, _, _, _, _, _, rfl, rfl, rfl, rfl,
      rfl, rfl, rfl, rfl, rfl, rfl, rfl, rfl, rfl, rfl, by decide, by decide, by decide, rfl⟩

/-- An address that a handle translates, and one that is not canonical. -/
theorem witness_TranslationsAndPrefetch (p : Pred) (id : Ident) (wr : Bool) (th : BitVec 4) (t1 : Tgt) (f : FmtL) :
    (∀ i ∈ [Instr.xlate p id wr th t1, .xprobe p id wr th t1], ∃ l r, Meets i l r fun s b x l _ => b.storesBelow id.toNat = true
        ∧ (∃ t s', s.probeAddr (b.who x) l.val wr (b.handleOf x l) = (.ok t, s')) ∧ ∀ e ∈ b.handles, e.1 ≠ th.toNat)
      ∧ (∃ l r, Meets (.xlate p id wr th t1) l r fun s b x l _ => b.storesBelow id.toNat = true
        ∧ ∃ e s', s.probeAddr (b.who x) l.val wr (b.handleOf x l) = (.error e, s') ∧ e.pull = none)
      ∧ (∃ l r, Meets (.xprobe p id wr th t1) l r fun s b x l _ => b.storesBelow id.toNat = true
        ∧ ∃ e s', s.probeAddr (b.who x) l.val wr (b.handleOf x l) = (.error e, s') ∧ s.probedPage (b.who x) l.val wr (b.handleOf x l) = none ∧ e.pull = none)
      ∧ ∃ l r, Meets (.pref f) l r fun s b x l _ => b.storesBelow f.id.toNat = true
        ∧ ∃ sent s', s.prefSent (b.who x) (l.val + BitVec.ofInt 64 (f.disp.toInt * 128)) (b.handleOf x l) = (sent, s') := by
  have hb (n : Nat) (l r : Tok) : (wB (wSl l r)).storesBelow n = true := by
    have h : (wB (wSl l r)).instrs = [] := by
      simp [Blk.instrs, instrsOf, wB, wSl, show decode .ctl 0#32 = .error .noMeaning from rfl]
    rw [Blk.storesBelow, h]; rfl
  refine ⟨?_, ⟨.ofWord 0x0100000000000000, .ofWord 0, meets _ _ _ _ (wM _ _) wXm 1 .ctl rfl rfl rfl rfl rfl ⟨hb _ _ _, ?_⟩⟩,
    ⟨.ofWord 0x0100000000000000, .ofWord 0, meets _ _ _ _ (wM _ _) wXm 1 .ctl rfl rfl rfl rfl rfl ⟨hb _ _ _, ?_⟩⟩,
    ⟨.ofWord 0, .ofWord 0, meets _ _ _ _ (wM _ _) wXm 1 .ctl rfl rfl rfl rfl rfl ⟨hb _ _ _, _, _, rfl⟩⟩⟩
  · intro i hi
    simp only [List.mem_cons, List.not_mem_nil, or_false] at hi
    rcases hi with rfl | rfl <;> cases wr <;>
      exact ⟨wA 8, .ofWord 0, meets _ _ _ _ (wM _ _) wXm 1 .ctl rfl rfl rfl rfl rfl ⟨hb _ _ _, ⟨_, _, rfl⟩, by simp [wB]⟩⟩
  · cases wr <;> exact ⟨{ code := 0x12, step := 2 }, _, rfl, rfl⟩
  · cases wr <;> exact ⟨{ code := 0x12, step := 2 }, _, rfl, rfl, rfl⟩

/-- Addresses at which stores, updates and leases pass their checks. -/
theorem witness_StoresAndUpdatesArrive (p : Pred) (id : Ident) :
    (∀ q ∈ [(Instr.stB8 .always 5 0, 1), (.stB16 .always 5 0, 2), (.stB32 .always 5 0, 4), (.stB64 .always 5 0, 8)], ∃ l r, Meets q.1 l r fun s b x l r => ∃ ps s',
        s.access (b.who x) (l.val + BitVec.ofInt 64 (0#14).toInt) q.2 r.ew false true true (b.handleOf x l) = (.ok ps, s')
          ∧ (s'.blks.get? wCu.frame).isSome = true)
      ∧ (∀ wide : Bool, ∀ i ∈ [Instr.amoAdd p id .co wide true, .amoAddF32 p id .co true, .amoMinS p id .co wide true, .amoMaxS p id .co wide true,
          .amoMinN p id .co wide true, .amoMaxN p id .co wide true, .amoAnd p id .co wide true, .amoOr p id .co wide true, .amoXor p id .co wide true],
        ∃ l r, Meets i l r fun s b x l _ => ∀ w : Bool, s.forwarded (b.who x) l.val (amoLen w) = none ∧ l.val.toNat % amoLen w = 0
          ∧ ∃ q ps s', s.access (b.who x) l.val (amoLen w) (amoLen w) true true false (b.handleOf x l) = (.ok (q :: ps), s')
            ∧ (s'.blks.get? wCu.frame).isSome = true)
      ∧ (∀ i ∈ [Instr.lease p id 0, .unlease p id], ∃ l r, Meets i l r fun s b x l _ => ∃ q ps s' t s'',
        s.access (b.who x) l.val 1 8 true true false (b.handleOf x l) = (.ok (q :: ps), s') ∧ (s'.blks.get? wCu.frame).isSome = true
          ∧ s'.translate (b.who x) l.val 1 true true true (b.handleOf x l) = (.ok t, s'')) := by
  refine ⟨?_, ?_, ?_⟩
  · intro q hq
    simp only [List.mem_cons, List.not_mem_nil, or_false] at hq
    rcases hq with rfl | rfl | rfl | rfl <;>
      exact ⟨wA 0, .ofWord 9, meets _ _ _ _ (wM _ _) wXm 1 .ctl rfl rfl rfl rfl rfl ⟨_, _, rfl, rfl⟩⟩
  · intro wide i hi
    simp only [List.mem_cons, List.not_mem_nil, or_false] at hi
    rcases hi with rfl | rfl | rfl | rfl | rfl | rfl | rfl | rfl | rfl <;>
      exact ⟨wA 0xFFF8, .ofWord 9, meets _ _ _ _ (wM _ _) wXm 1 .ctl rfl rfl rfl rfl rfl fun w => by
        cases w <;> exact ⟨by decide, by decide, _, _, _, rfl, rfl⟩⟩
  · intro i hi
    simp only [List.mem_cons, List.not_mem_nil, or_false] at hi
    rcases hi with rfl | rfl <;>
      exact ⟨wA 0, .ofWord 0, meets _ _ _ _ (wM _ _) wXm 1 .ctl rfl rfl rfl rfl rfl ⟨_, _, _, _, _, rfl, rfl, rfl⟩⟩

/-- Fences with nothing before them. -/
theorem witness_FencesArrive (p : Pred) (id : Ident) (sc : Scope) : Meets (.fenceAr p id sc) (.ofWord 0) (.ofWord 0) fun s b x _ _ =>
    b.loadsBelow id.toNat = true ∧ (∀ e ∈ s.older b, e.2.loadsBelow 32 = true) ∧ (∀ e ∈ x.path, e.eff.isQfence = true) ∧ ∀ e ∈ s.older b, e.2.hdr.smask = 0 := by
  refine meets _ _ _ _ (wS wX (wB (wSl _ _))) wX 1 .ctl rfl rfl rfl rfl rfl ⟨?_, fun e h => ?_, fun e h => ?_, fun e h => ?_⟩
  · rfl
  · exact absurd (show e ∈ [] from h) List.not_mem_nil
  · exact absurd (show e ∈ [] from h) List.not_mem_nil
  · exact absurd (show e ∈ [] from h) List.not_mem_nil

/-- An update of the last double word of local HBM, alone on its way. -/
theorem witness_AtomicUpdateAtHome : ∃ (s : State) (n : Nat) (r : AmoReq) (u t : State), s.site = .num n ∧ s.amos[n]? = some r
    ∧ ((s.amos.take n).filter (s.sameHome r)).length < 64 ∧ ordBefore r (s.amos.take n) = false
    ∧ s.amoWaits r = false ∧ s.amoShut r = false ∧ (∀ o ∈ s.amos.eraseIdx n, r.merges o = false)
    ∧ ({ s with amos := s.amos.eraseIdx n } : State).redirected r.pk r.pa = u ∧ (u.part r.pk).movingAt r.pa = none
    ∧ u.writeEv r.pk r.pa r.key (leBytes (if r.wide then 8 else 4)
      (updated r.op (if r.wide then 64 else 32)
        (leNat (u.peeks (u.reach r.pk r.pa).1 (u.reach r.pk r.pa).2 (if r.wide then 8 else 4))) (r.v.toNat % (if r.wide then 2 ^ 64 else 2 ^ 32)))) = some t := by
  refine ⟨{ State.reset with
      site := .num 0, amos := [{ srcs := [], op := .add, pk := ⟨0, 0⟩, pa := 2 ^ 39 - 8, key := 0, wide := true, v := 5, ord := false }] },
    0, _, _, _, rfl, rfl, by decide, rfl, by decide, by decide, ?_, rfl, rfl, rfl⟩
  intro o h
  exact absurd (show o ∈ [] from h) List.not_mem_nil

/-- The state of a context with one entry in its store path. -/
def wP (e : PathEff) : State := { wS { wX with path := [{ stamp := 7, eff := e }] } (wB (wSl (.ofWord 0) (.ofWord 0))) with site := .ctxQ 1 7 }

theorem witness_StorePathPerforms :
    (∃ (s : State) (c n : Nat) (x : Ctx) (e : PathEnt) (v : StEvent) (u t : State), s.site = .ctxQ c n ∧ s.ctxs.get? c = some x ∧ (x.path.find? fun e => e.stamp = n) = some e ∧ e.eff = .store [v]
        ∧ s.storeWaits x e v = false ∧ s.waitAt (.path c n) (some c) [s.lineOf x.pk v.pa] = none ∧ s.movingOf x.pk v.pa = none ∧ s.redirected x.pk v.pa = u
        ∧ u.writeEv x.pk v.pa v.key v.bytes = some t)
      ∧ (∃ (s : State) (c n : Nat) (x : Ctx) (e : PathEnt) (op : AmoOp) (pa key : Nat) (vp : PgUse) (wide : Bool) (v : Word) (sc : Scope) (ord : Bool), s.site = .ctxQ c n ∧ s.ctxs.get? c = some x ∧ (x.path.find? fun e => e.stamp = n) = some e
        ∧ e.eff = .amo op pa key vp wide v sc ord false ∧ s.amoHeld x e pa wide ord = false)
      ∧ (∃ (s : State) (c n : Nat) (x : Ctx) (e : PathEnt) (below : Nat), s.site = .ctxQ c n ∧ s.ctxs.get? c = some x ∧ (x.path.find? fun e => e.stamp = n) = some e
        ∧ e.eff = .fence below ∧ ∀ g ∈ x.path, g.stamp < below → g.eff.isQfence = true)
      ∧ ∃ (s : State) (c n : Nat) (x : Ctx) (e : PathEnt) (sc : Scope) (tok v : Word), s.site = .ctxQ c n ∧ s.ctxs.get? c = some x ∧ (x.path.find? fun e => e.stamp = n) = some e
        ∧ e.eff = .cmd (.sig sc tok v) ∧ s.cmdWaits c x e (.sig sc tok v) = false := by
  refine ⟨⟨wP (.store [{ pa := 0x20000, key := 0, vp := {}, bytes := [1, 2] }]), 1, 7, _, _, _, _, _, rfl, rfl, rfl, rfl, by decide, by decide, rfl, rfl, rfl⟩,
    ⟨wP (.amo .add 0x20000 0 {} true 3 .co false false), 1, 7, _, _, _, _, _, _, _, _, _, _, rfl, rfl, rfl, rfl, by decide⟩,
    ⟨wP (.fence 7), 1, 7, _, _, 7, rfl, rfl, rfl, rfl, ?_⟩,
    ⟨wP (.cmd (.sig .co 5 1)), 1, 7, _, _, .co, 5, 1, rfl, rfl, rfl, rfl, by decide⟩⟩
  intro g hg
  have : g = { stamp := 7, eff := .fence 7 } := List.mem_singleton.1 hg
  subst this
  exact fun h => absurd h (by decide)

/-- Events at the lowest byte above the capability frame, at the last byte of local HBM and inside the frame. -/
theorem witness_StoreEventWritesItsBytes : ∀ e ∈ [(0x10000, [1, 2]), (2 ^ 39 - 2, [1, 2]), (0xFFFE, [1, 2])], ∃ (s : State) (t : State),
    memWf s = true ∧ s.writeEv ⟨0, 0⟩ e.1 0 e.2 = some t ∧ e.1 + e.2.length ≤ 2 ^ 39 ∧ (s.pkg 0).hbmHere e.1 = true ∧ fld (s.part ⟨0, 0⟩).vdcfg 62 2 = 0 := by
  intro e he
  simp only [List.mem_cons, List.not_mem_nil, or_false] at he
  rcases he with rfl | rfl | rfl <;> exact ⟨State.reset, _, rfl, rfl, by decide, by decide, by decide⟩

/-- A lease that may take hold, and one whose cycles have just passed. -/
theorem witness_LeaseHoldAndExpiry :
    (∃ (s : State) (c : Nat) (x : Ctx) (line : Nat) (tr : Trans) (cycles : Nat), s.site = .ctx c ∧ s.ctxs.get? c = some x ∧ x.lease.st = .waiting line tr cycles ∧ s.leasedFrom (some c) line = false
        ∧ s.firstAt (.lease c) line = true)
      ∧ ∃ (s : State) (c : Nat) (x : Ctx) (line : Nat) (tr : Trans) (till : Word), s.site = .ctx c ∧ s.ctxs.get? c = some x ∧ x.lease.st = .held line tr till ∧ (s.homeCycle line - till).toNat < 2 ^ 63 :=
  ⟨⟨{ wS { wX with lease := { st := .waiting 0x400 wTr 5 } } (wB (wSl (.ofWord 0) (.ofWord 0))) with site := .ctx 1 }, 1, _, _, _, _, rfl, rfl, rfl, rfl, by decide⟩,
    ⟨{ wS { wX with lease := { st := .held 0x400 wTr 0 } } (wB (wSl (.ofWord 0) (.ofWord 0))) with site := .ctx 1 }, 1, _, _, _, 0, rfl, rfl, rfl, by decide⟩⟩

/-! ### Queues, streams, commands -/

/-- A block of one word without a meaning holds no instruction. -/
theorem no_instrs (l r : Tok) (kind : Nat) : (wB (wSl l r .ctl) kind).instrs = [] := by
  simp [Blk.instrs, instrsOf, wB, wSl, show decode .ctl 0#32 = .error .noMeaning from rfl]
/-- The same in the data plane. -/
theorem no_instrs_dat (l r : Tok) (kind : Nat) : (wB (wSl l r .dat) kind).instrs = [] := by
  simp [Blk.instrs, instrsOf, wB, wSl, show decode .dat 0#32 = .error .noMeaning from rfl]
theorem stores_below (n : Nat) (l r : Tok) (kind : Nat) (pl : Plane) : (wB (wSl l r pl) kind).storesBelow n = true := by
  cases pl
  · rw [Blk.storesBelow, no_instrs]; rfl
  · rw [Blk.storesBelow, no_instrs_dat]; rfl

/-- A queue of an access consumer and producer with one element. -/
def wQc : Queue :=
  { state := .open, consk := true, prodk := true, nprod := 1, els := [{ bits := 9 }], win := { kind := 1, lsize := 12 } }
/-- Queue 7 in a state. -/
def wK (q : Queue) (s : State) : State := { s with queues := [(⟨⟨0, 0⟩, 7⟩, q)] }

theorem witness_QueueTakesDeliver (p : Pred) (t1 : Tgt) :
    (∃ l r, Meets (.qpop p 4 t1) l r fun s b x l _ => s.qpopFault x l.val = 0 ∧ b.storesBelow 4 = true
        ∧ ∃ e, s.popFind b x (.part (objKey x.pk (l.val.toNat % 4096))) 4 = .elem e)
      ∧ (∃ l r, Meets (.qpop p 4 t1) l r fun s b x l _ => s.qpopFault x l.val = 0 ∧ b.storesBelow 4 = true
        ∧ s.popFind b x (.part (objKey x.pk (l.val.toNat % 4096))) 4 = .ended)
      ∧ (∃ l r, Meets (.qpopBq p 4 t1) l r fun s b x _ _ => x.ctl.aonly = false ∧ b.storesBelow 4 = true ∧ ∃ e, s.popFind b x .bq 4 = .elem e)
      ∧ (∀ inl : BitVec 5, inl = 0 ∨ inl = 31 → ∀ i ∈ [Instr.pop p 4 inl t1, .popV p 4 inl t1, .peekV p 4 inl t1, .peek p 4 inl t1],
        Meets i (.ofWord 0) (.ofWord 0) fun s b x _ _ => b.storesBelow 4 = true ∧ ∃ bd e, x.inlet inl.toNat = some bd
          ∧ (s.queue (objKey x.pk bd.queue)).plane = decide (Plane.dat = .dat)
          ∧ s.inletPos b inl.toNat (objKey x.pk bd.queue) 0 4 false = some 0 ∧ (s.queue (objKey x.pk bd.queue)).availAt 0 = .elem e)
      ∧ Meets (.collect p 4 0 t1) (.ofWord 0) (.ofWord 0) fun s b x _ _ => b.storesBelow 4 = true ∧ s.vecWaits x b 0 true false = false
        ∧ ∃ t u q q', s.readInlet x b 0 0 4 false .dat = .tok t q ∧ s.readInlet x b 1 0 4 false .dat = .tok u q' := by
  refine ⟨⟨.ofWord 7, .ofWord 0, meets _ _ _ _ (wK wQc (wS wX (wB (wSl _ _)))) wX 1 .ctl rfl rfl rfl rfl rfl ⟨by decide, rfl, { bits := 9 }, rfl⟩⟩,
    ⟨.ofWord 7, .ofWord 0, meets _ _ _ _ (wK { wQc with state := .sealed, els := [] } (wS wX (wB (wSl _ _)))) wX 1 .ctl rfl rfl rfl rfl rfl
      ⟨by decide, rfl, rfl⟩⟩,
    ⟨.ofWord 0, .ofWord 0, meets _ _ _ _ (wS { wX with ports := { bq := [5] } } (wB (wSl _ _))) { wX with ports := { bq := [5] } } 1 .ctl rfl rfl rfl rfl rfl
      ⟨rfl, rfl, _, rfl⟩⟩, ?_,
    meets _ _ _ _ (wQ true (wS (wXq true) (wB (wSl _ _ .dat) 2))) (wXq true) 2 .dat rfl rfl rfl rfl rfl ⟨rfl, rfl, _, _, _, _, rfl, rfl⟩⟩
  intro inl hin i hi
  have hl : serves (info i).usesL (.ofWord 0) = true := by unfold serves; split <;> rfl
  have hr : serves (info i).usesR (.ofWord 0) = true := by unfold serves; split <;> rfl
  refine meets i _ _ _ (wQ true (wS (wXq true) (wB (wSl _ _ .dat) 2))) (wXq true) 2 .dat rfl rfl rfl hl hr ?_
  rcases hin with rfl | rfl <;> exact ⟨rfl, _, { bits := 9 }, rfl, rfl, rfl, rfl⟩

theorem witness_QueueAppendsComplete (p : Pred) (id : Ident) :
    Meets (.qpush p id 7) (.ofWord 3) (.ofWord 0) (fun s _ x _ _ => s.qpushFault (objKey x.pk 7) = 0 ∧ s.roomOf x (objKey x.pk 7) ≠ 0)
      ∧ Meets (.qpushCmdq p id) (.ofWord 0x1000000000000000) (.ofWord 0) (fun s b x l _ => x.ctl.aonly = false ∧ bindOk l.val = true ∧ s.cmdqRoom b.ctx x ≠ 0)
      ∧ (∀ o : BitVec 5, o = 0 ∨ o = 31 → ∀ i ∈ [Instr.push p id o, .pushV p id o, .pushm p id o], Meets i (.ofWord 0) (.ofWord 0) fun s _ x _ _ =>
        ∃ bd, x.outlet o.toNat = some bd ∧ s.outFault (objKey x.pk bd.queue) (Plane.dat = .dat) false = 0
          ∧ s.outFault (objKey x.pk bd.queue) (Plane.dat = .dat) true = 0)
      ∧ Meets (.steer p id 7 1 0) (.ofWord 0) (.ofWord 0) (fun s b x _ _ => s.regPending b (fun h => h.pwmask.getLsbD 7) 39 = false ∧ s.vecWaits x b 0 false false = false
        ∧ ∃ bt bf, x.outlet 0 = some bt ∧ x.outlet 1 = some bf ∧ s.outFault (objKey x.pk bt.queue) (Plane.dat = .dat) false = 0
          ∧ s.outFault (objKey x.pk bf.queue) (Plane.dat = .dat) false = 0)
      ∧ Meets (.rtcfg p id .pass 7) (.ofWord 0) (.ofWord 0) fun s _ x l _ => (s.queue (objKey x.pk 7)).state ≠ .unallocated
        ∧ s.stageOk (objKey x.pk 7) .pass l.val = true ∧ (s.queue (objKey x.pk 7)).all = [] ∧ (s.queue (objKey x.pk 7)).stageToks = [] ∧ s.reserved (objKey x.pk 7) = 0 := by
  refine ⟨meets _ _ _ _ (wK wQc (wS wX (wB (wSl _ _)))) wX 1 .ctl rfl rfl rfl rfl rfl (by decide),
    meets _ _ _ _ (wS wX (wB (wSl _ _))) wX 1 .ctl rfl rfl rfl rfl rfl (by decide), ?_,
    meets _ _ _ _ (wQ true (wS (wXq true) (wB (wSl _ _ .dat) 2))) (wXq true) 2 .dat rfl rfl rfl rfl rfl ⟨rfl, rfl, _, _, rfl, rfl, rfl, rfl⟩,
    meets _ _ _ _ (wK { wQc with els := [] } (wS wX (wB (wSl _ _)))) wX 1 .ctl rfl rfl rfl rfl rfl ⟨by decide, by decide, rfl, rfl, by decide⟩⟩
  intro o ho i hi
  have hl : serves (info i).usesL (.ofWord 0) = true := by unfold serves; split <;> rfl
  have hr : serves (info i).usesR (.ofWord 0) = true := by unfold serves; split <;> rfl
  refine meets i _ _ _ (wQ true (wS (wXq true) (wB (wSl _ _ .dat) 2))) (wXq true) 2 .dat rfl rfl rfl hl hr ?_
  rcases ho with rfl | rfl <;> exact ⟨_, rfl, rfl, rfl⟩

/-- The least number that is too large, and each kind of queue that a command may not name. -/
theorem witness_QueueFaultSubcodes (p : Pred) (id : Ident) (t1 : Tgt) (stg : RtStage) :
    Meets (.qpop p id t1) (.ofWord 4096) (.ofWord 0) (fun _ _ _ l _ => 4096 ≤ l.val.toNat)
      ∧ Meets (.qpop p id t1) (.ofWord 4095) (.ofWord 0) (fun s _ x l _ => l.val.toNat < 4096 ∧ (s.queue (objKey x.pk l.val.toNat)).state = .unallocated)
      ∧ Meets (.qpush p id 9) (.ofWord 0) (.ofWord 0) (fun s _ x _ _ => (s.queue (objKey x.pk 9)).state = .unallocated)
      ∧ Meets (.qpush p id 7) (.ofWord 0) (.ofWord 0) (fun s _ x _ _ => (s.queue (objKey x.pk 7)).state ≠ .unallocated ∧ (s.queue (objKey x.pk 7)).plane = true)
      ∧ Meets (.qpush p id 7) (.ofWord 0) (.ofWord 0) (fun s _ x _ _ => (s.queue (objKey x.pk 7)).state ≠ .unallocated ∧ (s.queue (objKey x.pk 7)).plane = false
        ∧ (s.queue (objKey x.pk 7)).prodk = false)
      ∧ Meets (.qpush p id 7) (.ofWord 0) (.ofWord 0) (fun s _ x _ _ => (s.queue (objKey x.pk 7)).state = .sealed ∧ (s.queue (objKey x.pk 7)).plane = false
        ∧ (s.queue (objKey x.pk 7)).prodk = true)
      ∧ Meets (.rtcfg p id stg 9) (.ofWord 0) (.ofWord 0) fun s _ x _ _ => (s.queue (objKey x.pk 9)).state = .unallocated :=
  ⟨meets _ _ _ _ (wS wX (wB (wSl _ _))) wX 1 .ctl rfl rfl rfl rfl rfl (by decide),
    meets _ _ _ _ (wS wX (wB (wSl _ _))) wX 1 .ctl rfl rfl rfl rfl rfl (by decide),
    meets _ _ _ _ (wK wQc (wS wX (wB (wSl _ _)))) wX 1 .ctl rfl rfl rfl rfl rfl (by decide),
    meets _ _ _ _ (wK { wQc with plane := true, esize := 1 } (wS wX (wB (wSl _ _)))) wX 1 .ctl rfl rfl rfl rfl rfl (by decide),
    meets _ _ _ _ (wK { wQc with prodk := false } (wS wX (wB (wSl _ _)))) wX 1 .ctl rfl rfl rfl rfl rfl (by decide),
    meets _ _ _ _ (wK { wQc with state := .sealed } (wS wX (wB (wSl _ _)))) wX 1 .ctl rfl rfl rfl rfl rfl (by decide),
    meets _ _ _ _ (wK wQc (wS wX (wB (wSl _ _)))) wX 1 .ctl rfl rfl rfl rfl rfl (by decide)⟩

/-- A read of one item of 8 bytes into queue 7 by engine queue 13: its go word, and contexts that staged it. -/
def wGo : Word := 0xD180000000000007
def wXg (aonly : Bool) : Ctx :=
  { wX with
    ctl := { pm := true, aonly := aonly }
    eng := { staging := Vector.replicate 14 { stride := Vector.replicate 8 8, count := Vector.replicate 8 1 } } }
/-- A queue that a stream may feed. -/
def wQf : Queue := { wQc with prodk := false }

theorem witness_StreamCommandsComplete (p : Pred) (id : Ident) (tree : Bool) :
    (∀ stg : BitVec 3, Meets (.strmStage p id stg) (.ofWord 8) (.ofWord 1) fun _ _ _ l r => strmSub (.stage stg.toNat) l.val r.val = 0)
      ∧ Meets (.strmRows p id) (.ofWord 8) (.ofWord 0x1000000) (fun _ _ _ l r => strmSub .rows l.val r.val = 0)
      ∧ Meets (.strmTag p id) (.ofWord 63) (.ofWord 0) (fun _ _ _ l r => strmSub .tag l.val r.val = 0)
      ∧ Meets (.strmHalt p id) (.ofWord 1) (.ofWord 0) (fun _ _ _ l r => strmSub .halt l.val r.val = 0)
      ∧ (∀ aonly : Bool, Meets (.strmGo p id) (.ofWord 0x1000) (.ofWord wGo) fun s b x l r => x.ctl.aonly = aonly ∧ s.goSub x.pk l.val r.val = 0
        ∧ s.isOldest b = true ∧ b.storesBelow id.toNat = true ∧ stagingSub (b.stagingFor x (fld r.val 60 4) id.toNat) r.val = 0 ∧ goCopy r.val = false
        ∧ s.engRoom b.ctx x (fld r.val 60 4) ≠ 0 ∧ s.cmdqRoom b.ctx x ≠ 0)
      ∧ ∀ i ∈ [Instr.sphAnd p id tree 7, .sphOr p id tree 7], Meets i (.ofWord 8) (.ofWord 16) fun s b x l r => (s.queue (objKey x.pk 7)).plane = false
        ∧ s.feedable (objKey x.pk 7) = true ∧ l.val.toNat % 8 = 0 ∧ r.val.toNat % 8 = 0 ∧ s.engRoom b.ctx x 15 ≠ 0 := by
  refine ⟨fun stg => meets _ _ _ _ (wS wX (wB (wSl _ _))) wX 1 .ctl rfl rfl rfl rfl rfl rfl,
    meets _ _ _ _ (wS wX (wB (wSl _ _))) wX 1 .ctl rfl rfl rfl rfl rfl (by decide),
    meets _ _ _ _ (wS wX (wB (wSl _ _))) wX 1 .ctl rfl rfl rfl rfl rfl (by decide),
    meets _ _ _ _ (wS wX (wB (wSl _ _))) wX 1 .ctl rfl rfl rfl rfl rfl (by decide), ?_, ?_⟩
  · intro aonly
    cases aonly
    · exact meets _ _ _ _ (wK wQf (wS (wXg false) (wB (wSl _ _)))) (wXg false) 1 .ctl rfl rfl rfl rfl rfl
        ⟨rfl, by decide, rfl, stores_below _ _ _ _ _, show stagingSub (vecGet (wXg false).eng.staging 13 {}) wGo = 0 by decide, by decide, by decide⟩
    · exact meets _ _ _ _ (wK wQf (wS (wXg true) (wB (wSl _ _)))) (wXg true) 1 .ctl rfl rfl rfl rfl rfl
        ⟨rfl, by decide, rfl, stores_below _ _ _ _ _, show stagingSub (vecGet (wXg true).eng.staging 13 {}) wGo = 0 by decide, by decide, by decide⟩
  · intro i hi
    simp only [List.mem_cons, List.not_mem_nil, or_false] at hi
    rcases hi with rfl | rfl <;>
      exact meets _ _ _ _ (wK wQf (wS wX (wB (wSl _ _)))) wX 1 .ctl rfl rfl rfl rfl rfl (by decide)

/-! ### Synchronisation, matrix, control registers, system commands -/

/-- A loaded vector shape of 5 elements left, and a tile shape of extents 8. -/
def wVshape : Word := 0x4000000000000005
def wTshape : Word := 0x8000008008008008
/-- A context with those shapes, the tile shape active, and one accumulator page. -/
def wXt : Ctx :=
  { wXq true with
    regs := { shA := (Vector.replicate 8 0).set 7 wVshape, shE := ((Vector.replicate 8 0).set 7 wVshape).set 3 wTshape, actT := some 3 }
    fx := { accSize := 1 } }
/-- Banks 0 of the three typed buffers of core 0 are slot 0's, and queue 7 holds data. -/
def wT (s : State) : State := { wQ true s with banks := [(⟨0, 0, .w, 0⟩, .owned 0), (⟨0, 0, .a, 0⟩, .owned 0), (⟨0, 0, .c, 0⟩, .owned 0)] }

theorem witness_SynchronisationAndShapeCommandsComplete (t1 : Tgt) :
    (∀ e ∈ [(Instr.barInit .always 5 .co, BarCmd.init, Tok.ofWord 0), (.barArrive .always 5 .co, .arrive, .ofWord 1), (.barBind .always 5 .co, .bind, .ofWord 0),
        (.barDrop .always 5 .co, .drop, .ofWord 65535)], Meets e.1 (.ofWord 0) e.2.2 fun s b x l r =>
          s.barCmdSub x b.ctx (decide (b.hdr.kind = 1)) e.2.1 .co l.val r.val = 0)
      ∧ (∀ sc, Meets (.sigInc .always 5 sc) (.ofWord 0xFFF) (.ofWord 1) fun s _ x l _ => s.sigSub x l.val = 0)
      ∧ (∀ aonly : Bool, ∀ e ∈ [(Instr.shapeV .always 5 7, false), (.shapeT .always 5 7, true)], ∃ l, Meets e.1 l (.ofWord 0) fun s b x l _ =>
        x.ctl.aonly = aonly ∧ shapeOk e.2 l.val = true ∧ s.cmdqRoom b.ctx x ≠ 0)
      ∧ ∀ i ∈ [Instr.shstep .always 5 7 t1, .shstepV .always 5 7 t1], Meets i (.ofWord 0) (.ofWord 0) fun s b x _ _ =>
        s.stepWaits b 7 (5 : Ident).toNat = false ∧ fld (vecGet x.regs.shA 7 0) 62 2 ≠ 0 ∧ fld (vecGet x.regs.shE 7 0) 62 2 ≠ 0 := by
  refine ⟨?_, fun sc => meets _ _ _ _ (wS wX (wB (wSl _ _))) wX 1 .ctl rfl rfl rfl rfl rfl (by decide), ?_, ?_⟩
  · intro e he
    simp only [List.mem_cons, List.not_mem_nil, or_false] at he
    rcases he with rfl | rfl | rfl | rfl <;>
      exact meets _ _ _ _ { wS wX (wB (wSl _ _)) with bars := [(⟨⟨0, 0⟩, 0⟩, { st := .armed, level := .co })] } wX 1 .ctl rfl rfl rfl rfl rfl (by decide)
  · intro aonly e he
    simp only [List.mem_cons, List.not_mem_nil, or_false] at he
    rcases he with rfl | rfl <;> cases aonly <;>
      first
        | exact ⟨.ofWord 0, meets _ _ _ _ (wS (wXg true) (wB (wSl _ _))) (wXg true) 1 .ctl rfl rfl rfl rfl rfl (by decide)⟩
        | exact ⟨.ofWord 0, meets _ _ _ _ (wS (wXg false) (wB (wSl _ _))) (wXg false) 1 .ctl rfl rfl rfl rfl rfl (by decide)⟩
  · intro i hi
    have hw : (wS wXt (wB (wSl (.ofWord 0) (.ofWord 0)))).stepWaits (wB (wSl (.ofWord 0) (.ofWord 0))) 7 (5 : Ident).toNat = false := by
      rw [State.stepWaits, no_instrs]; rfl
    simp only [List.mem_cons, List.not_mem_nil, or_false] at hi
    rcases hi with rfl | rfl <;>
      exact meets _ _ _ _ (wS wXt (wB (wSl _ _))) wXt 1 .ctl rfl rfl rfl rfl rfl ⟨hw, by decide, by decide⟩

/-- Operands under which each matrix command passes its checks with the tile shape; a context without one is `wX`. -/
theorem witness_MatrixCommandsComplete :
    (∀ e ∈ [(Instr.mma .always 5 .s8 false 15, Tok.ofWord 0x100000, Tok.ofWord 0x100000, MxKind.mma .s8 false 15 0x100000 0x100000),
        (.mmaG .always 5 .s8 false 0, .ofWord 0, .ofWord 0x100000, .mmaG .s8 false 0 0 0x100000),
        (.tmov .always 5 .a .w, .ofWord 0x100000, .ofWord 0x100000, .tmov false .a .w 0x100000 0x100000),
        (.tmovT .always 5 .a .w, .ofWord 0x100000, .ofWord 0x100000, .tmov true .a .w 0x100000 0x100000),
        (.acclr .always 5 15, .ofWord 0, .ofWord 0, .acclr 15), (.accst .always 5 15, .ofWord 0x1001F, .ofWord 0, .accst 15 0x1001F)],
      Meets e.1 e.2.1 e.2.2.1 fun s b x l _ => l.bits = e.2.1.bits ∧ s.tileWaits x b = false ∧ ∃ v, x.regs.tShape = some v
        ∧ s.mxCheck x (extentsOf v.2) e.2.2.2 = 0 ∧ s.mxRoom b.ctx x ≠ 0)
      ∧ (Meets (.accrd .always 5 15 ⟨.none, 0⟩) (.ofWord 7) (.ofWord 0) fun s b x l _ => s.tileWaits x b = false ∧ b.storesBelow (5 : Ident).toNat = true
        ∧ (b.rds.any fun e => e.1 = wCu.slot) = false ∧ ∃ v, x.regs.tShape = some v
        ∧ elem 32 0 l.bits < (extentsOf v.2).gM ∧ s.accOk x (extentsOf v.2) 15 = true)
      ∧ ∀ i, Meets i (.ofWord 0) (.ofWord 0) fun s b x _ _ => s.tileWaits x b = false ∧ x.regs.tShape = none := by
  refine ⟨?_, meets _ _ _ _ (wT (wS wXt (wB (wSl _ _)))) wXt 1 .ctl rfl rfl rfl rfl rfl ⟨rfl, stores_below _ _ _ _ _, rfl, _, rfl, by decide, by decide⟩,
    fun i => meets i _ _ _ (wS wX (wB (wSl _ _))) wX 1 .ctl rfl rfl rfl (by unfold serves; split <;> rfl) (by unfold serves; split <;> rfl) ⟨rfl, rfl⟩⟩
  intro e he
  simp only [List.mem_cons, List.not_mem_nil, or_false] at he
  rcases he with rfl | rfl | rfl | rfl | rfl | rfl <;>
    exact meets _ _ _ _ (wT (wS wXt (wB (wSl _ _)))) wXt 1 .ctl rfl rfl rfl rfl rfl ⟨rfl, rfl, _, rfl, by decide, by decide⟩

theorem witness_ControlRegisterAccess (t1 : Tgt) :
    (∀ num ∈ ([0x00, 0x30] : List (BitVec 9)), Meets (.crrd .always 5 num t1) (.ofWord 0) (.ofWord 0) fun s b x _ _ => s.isOldest b = true
        ∧ b.storesBelow (5 : Ident).toNat = true ∧ (crMarker num.toNat = true → x.ctl.aonly = true ∨ x.ports.cmdq = []))
      ∧ (∀ num ∈ ([0x00, 0x30] : List (BitVec 9)), Meets (.crwr .always 5 num) (.ofWord 3) (.ofWord 0) fun _ _ x _ _ =>
        (crPlaces num.toNat = true → x.ctl.aonly = true) ∧ num ≠ 0x102 ∧ num ≠ 0x184)
      ∧ (∀ num ∈ ([0x102, 0x184] : List (BitVec 9)), Meets (.crwr .always 5 num) (.ofWord 0) (.ofWord 0) fun s b x l _ => s.isOldest b = true
        ∧ b.storesBelow (5 : Ident).toNat = true ∧ s.crwrFault b x (5 : Ident).toNat num.toNat l.val = none)
      ∧ Meets (.crwr .always 5 0x30) (.ofWord 3) (.ofWord 0) fun s b x _ _ => crPlaces 0x30 = true ∧ x.ctl.aonly = false ∧ s.cmdqRoom b.ctx x ≠ 0 := by
  refine ⟨?_, ?_, ?_, meets _ _ _ _ (wS wX (wB (wSl _ _))) wX 1 .ctl rfl rfl rfl rfl rfl (by decide)⟩ <;> intro num hn <;>
    simp only [List.mem_cons, List.not_mem_nil, or_false] at hn
  · rcases hn with rfl | rfl <;>
      exact meets _ _ _ _ (wS wX (wB (wSl _ _))) wX 1 .ctl rfl rfl rfl rfl rfl ⟨rfl, stores_below _ _ _ _ _, fun _ => .inr rfl⟩
  · rcases hn with rfl | rfl <;>
      exact meets _ _ _ _ (wS (wXg true) (wB (wSl _ _))) (wXg true) 1 .ctl rfl rfl rfl rfl rfl ⟨fun _ => rfl, by decide, by decide⟩
  · rcases hn with rfl | rfl
    · exact meets _ _ _ _ (wS wX (wB (wSl _ _))) wX 1 .ctl rfl rfl rfl rfl rfl ⟨rfl, stores_below _ _ _ _ _, rfl⟩
    · exact meets _ _ _ _ { wS wX (wB (wSl _ _)) with rxs := [(⟨⟨0, 0⟩, 0⟩, { cfg := 0x8000000000000000 })] } wX 1 .ctl rfl rfl rfl rfl rfl
        ⟨rfl, stores_below _ _ _ _ _, by rfl⟩

/-- A running kernel's group 0, another of that kernel, and package number 5 paired with slot 0. -/
def wG (s : State) : State :=
  { s with
    groups := [(⟨⟨0, 0⟩, 0⟩, { level := 1, unit := 0, die := 0, kern := ⟨⟨0, 0⟩, 0, 0⟩, members := [1] }),
      (⟨⟨0, 0⟩, 3⟩, { level := 1, unit := 0, die := 0, kern := ⟨⟨0, 0⟩, 0, 0⟩, members := [] })]
    pkgs := [(0, { podmap := [(5, 0x80000000)], keys := [(1, { valid := true, owner := 0, kind := 0 })] })]
    parts := [(⟨0, 0⟩, { st := .resident, lq := Vector.replicate 4 (4 <<< 58) })] }

theorem witness_SystemCommandsComplete :
    (∀ e ∈ [(Instr.grpMake .always 5, GrpCmd.make, Tok.ofWord 0x10000), (.grpSplit .always 5, .split, .ofWord 0), (.grpJoin .always 5, .join, .ofWord 3),
        (.grpFree .always 5, .free, .ofWord 3)], Meets e.1 e.2.2 (.ofWord 0) fun s _ x l r => s.grpSub x e.2.1 l.val r.val = 0)
      ∧ (∀ e ∈ [(Instr.pgMap .always 5 .k64, PgCmd.map), (.pgUnmap .always 5 .k64, .unmap), (.pgPin .always 5 .k64, .pin), (.pgUnpin .always 5 .k64, .unpin),
        (.pgPoison .always 5 .k64, .poison)], Meets e.1 (.ofWord 0) (.ofWord 0) fun s _ x l r => s.pgSub x e.2 .k64 l.val r.val = 0)
      ∧ Meets (.pgPromote .always 5 .m2) (.ofWord 0) (.ofWord 0) (fun s _ x l r => s.pgSub x .promote .m2 l.val r.val = 0)
      ∧ (∀ z, Meets (.xshoot .always 5 z) (.ofWord 0xFFFFFFFFFFFF) (.ofWord 0xFFFF) fun _ b _ l r => canonical l.val b.pm = true ∧ r.val.toNat < 2 ^ 16)
      ∧ (∀ cls, ∀ e ∈ [(Instr.lnkUp .always 5 cls, LnkCmd.up), (.lnkDown .always 5 cls, .down), (.lnkRetrain .always 5 cls, .retrain)],
        Meets e.1 (.ofWord 0) (.ofWord 0) fun s _ x l _ => s.lnkSub x e.2 cls l.val = 0)
      ∧ (∀ cls, cls ≠ LnkCls.die → Meets (.lnkChain .always 5 cls) (.ofWord 0) (.ofWord 0) fun s _ x l _ => s.lnkSub x .chain cls l.val = 0)
      ∧ (∀ cls, cls ≠ LnkCls.die → Meets (.lnkUnchain .always 5 cls) (.ofWord 0) (.ofWord 0) fun s _ x l _ => s.lnkSub x .unchain cls l.val = 0)
      ∧ (∀ e ∈ [(Instr.vdQuiesce .always 5, VdCmd.quiesce, Tok.ofWord 31), (.vdSend .always 5, .send, .ofWord 0x50000000000), (.vdResume .always 5, .resume, .ofWord 31),
        (.vdRelease .always 5, .release, .ofWord 31), (.vdReplay .always 5, .replay, .ofWord 31)], Meets e.1 e.2.2 (.ofWord 0) fun s _ x l _ =>
          s.vdSub x e.2.1 l.val = 0)
      ∧ Meets (.launch .always 5 3) (.ctl 0x10080 (some 3) 8) (.ofWord 0) fun s b x l _ => ∃ s' q ps,
        s.access (b.who x) l.val 8 8 true false false (b.handleOf x l) = (.ok (q :: ps), s') ∧ (s'.blks.get? wCu.frame).isSome = true
          ∧ l.val.toNat % 128 = 0 ∧ (s'.part x.pk).lqCap 3 ≠ 0 ∧ (b.pm = true ∨ x.ctl.prio.toNat ≤ 3) ∧ s'.lqRoom x.pk 3 ≠ 0
          ∧ ∀ t, s'.lqBefore x.pk 3 t = false := by
  let q0 (st : QState) (c : Option Chain) : Queue := { wQc with els := [], state := st, chain := c }
  refine ⟨?_, ?_, ?_, fun z => meets _ _ _ _ (wS wX (wB (wSl _ _))) wX 1 .ctl rfl rfl rfl rfl rfl (by decide), ?_, ?_, ?_, ?_, ?_⟩
  · intro e he
    simp only [List.mem_cons, List.not_mem_nil, or_false] at he
    rcases he with rfl | rfl | rfl | rfl <;> exact meets _ _ _ _ (wG (wS wX (wB (wSl _ _)))) wX 1 .ctl rfl rfl rfl rfl rfl (by decide)
  · intro e he
    simp only [List.mem_cons, List.not_mem_nil, or_false] at he
    rcases he with rfl | rfl | rfl | rfl | rfl <;> exact meets _ _ _ _ (wS wX (wB (wSl _ _))) wX 1 .ctl rfl rfl rfl rfl rfl (by decide)
  · exact meets _ _ _ _ { wS wX (wB (wSl _ _)) with parts := [(⟨0, 0⟩, { ptcfg := 3 <<< 54 })] } wX 1 .ctl rfl rfl rfl rfl rfl (by decide)
  · intro cls e he
    simp only [List.mem_cons, List.not_mem_nil, or_false] at he
    rcases he with rfl | rfl | rfl <;> cases cls <;> exact meets _ _ _ _ (wS wX (wB (wSl _ _))) wX 1 .ctl rfl rfl rfl rfl rfl (by decide)
  · intro cls h
    cases cls
    · exact absurd rfl h
    · exact meets _ _ _ _ { wS wX (wB (wSl _ _)) with queues := [(⟨⟨0, 0⟩, 0⟩, q0 .open none)] } wX 1 .ctl rfl rfl rfl rfl rfl (by decide)
    · exact meets _ _ _ _ { wS wX (wB (wSl _ _)) with queues := [(⟨⟨0, 0⟩, 0⟩, q0 .open none)] } wX 1 .ctl rfl rfl rfl rfl rfl (by decide)
  · intro cls h
    cases cls
    · exact absurd rfl h
    · exact meets _ _ _ _ { wS wX (wB (wSl _ _)) with queues := [(⟨⟨0, 0⟩, 0⟩, q0 .chained (some { cls := 1 }))] } wX 1 .ctl rfl rfl rfl rfl rfl (by decide)
    · exact meets _ _ _ _ { wS wX (wB (wSl _ _)) with queues := [(⟨⟨0, 0⟩, 0⟩, q0 .chained (some { cls := 2 }))] } wX 1 .ctl rfl rfl rfl rfl rfl (by decide)
  · intro e he
    simp only [List.mem_cons, List.not_mem_nil, or_false] at he
    rcases he with rfl | rfl | rfl | rfl | rfl <;> exact meets _ _ _ _ (wG (wS wX (wB (wSl _ _)))) wX 1 .ctl rfl rfl rfl rfl rfl (by decide)
  · exact meets _ _ _ _ (wG (wS wXm (wB (wSl _ _)))) wXm 1 .ctl rfl rfl rfl rfl rfl ⟨_, _, _, rfl, rfl, by decide, by decide, by decide, by decide, fun _ => rfl⟩

/-! ### Vector forms -/

/-- Every vector form is ready, in the oldest block of a context that waits for nothing and enables no flag. -/
theorem witness_vector (i : Instr) : Meets i (.ofWord 0) (.ofWord 0) fun s b x _ _ =>
    s.vecWaits x b 0 true true = false ∧ s.vecWaits x b 0 true false = false ∧ s.vecWaits x b 0 false false = false ∧ x.fx.fpst.extractLsb' 8 5 = 0
      ∧ s.older b = [] :=
  meets i _ _ _ (wS wX (wB (wSl _ _ .dat) 2)) wX 2 .dat rfl rfl rfl (by unfold serves; split <;> rfl) (by unfold serves; split <;> rfl)
    ⟨by rw [State.vecWaits, State.rsReady, no_instrs_dat]; rfl, rfl, rfl, rfl, rfl⟩

/-- A form of a type. -/
def wV (ty : ElTy) (md : Bool := false) : FmtV := ⟨.always, md, ty, ⟨.none, 0⟩, ⟨.none, 0⟩⟩

theorem witness_IntegerVectorResults : ∀ ty ∈ [ElTy.s8, .n8, .s16, .n16, .s32, .n32], (wV ty).ty.isI = true ∧ (wV ty).md = false
    ∧ Meets (.vadd (wV ty)) (.ofWord 0) (.ofWord 0) fun s b x _ _ => s.vecWaits x b 0 true false = false := by
  intro ty h
  obtain ⟨s, cu, b, sl, x, h1, h2, h3, h4, h5⟩ := witness_vector (.vadd (wV ty))
  refine ⟨?_, rfl, s, cu, b, sl, x, h1, h2, h3, h4, h5.2.1⟩
  simp only [List.mem_cons, List.not_mem_nil, or_false] at h
  rcases h with rfl | rfl | rfl | rfl | rfl | rfl <;> rfl

/-- A context that enables every flag. -/
def wXf : Ctx := { wX with fx := { fpst := 0x1F00 } }

/-- The types of each part, and element 0 of an operand that raises an enabled flag (the hypotheses without one are `witness_vector`). -/
theorem witness_SaturatingAndFloatingVectorResults :
    (wV .s8 true).ty.isI = true ∧ (wV .f32).ty.isF = true ∧ ElTy.ffmt .f32 = some f32Fmt
      ∧ (Meets (.vadd (wV .f32)) (.vec 0x7F800000) (.vec 0xFF800000) fun s b x l r => s.vecWaits x b 0 true false = false ∧ 0 < x.vctx.n 32
        ∧ enabledIn x.fx.fpst (fltBin .add f32Fmt false (elem 32 0 l.bits) (elem 32 0 r.bits)).2 ≠ 0)
      ∧ Meets (.vrcp .always false ⟨.none, 0⟩ ⟨.none, 0⟩) (.vec 0) (.ofWord 0) fun s b x l _ => s.vecWaits x b 0 true false = false ∧ 0 < x.vctx.n 32
        ∧ enabledIn x.fx.fpst (transElem .rcp false (elem 32 0 l.bits)).2 ≠ 0 :=
  ⟨rfl, rfl, rfl, meets _ _ _ _ (wS wXf (wB (wSl _ _ .dat) 2)) wXf 2 .dat rfl rfl rfl rfl rfl ⟨rfl, by decide, by decide +kernel⟩,
    meets _ _ _ _ (wS wXf (wB (wSl _ _ .dat) 2)) wXf 2 .dat rfl rfl rfl rfl rfl ⟨rfl, by decide, by decide +kernel⟩⟩

theorem witness_FloatingSpecialResults :
    f32Fmt.decode 0x7FC00000 = .nan ∧ f32Fmt.decode 0x7F800000 = .inf false ∧ f32Fmt.decode 0xFF800000 = .inf true
      ∧ (∃ e, f32Fmt.decode 0x80000000 = .fin true 0 e) ∧ ∃ m e, f32Fmt.decode 0xBF800000 = .fin true m e ∧ m ≠ 0 :=
  ⟨rfl, rfl, rfl, ⟨_, rfl⟩, _, _, rfl, by decide⟩

/-- The conditions of the typed forms; the rest of their hypotheses is `witness_vector`. -/
theorem witness_CompareSelectAndMaskResults :
    ElTy.isI .n8 = true ∧ ElTy.isF .bf16 = true ∧ (∃ f, ElTy.ffmt .bf16 = some f) ∧ ((wV .n8).ty.isI = true ∨ (wV .n8).ty.isF = true)
      ∧ Meets (.msel .always .s8 7 ⟨.none, 0⟩) (.ofWord 0) (.ofWord 0) fun s b x _ _ =>
        s.regPending b (fun h => h.pwmask.getLsbD 7) 39 = false ∧ s.vecWaits x b 0 false false = false := by
  obtain ⟨s, cu, b, sl, x, h1, h2, h3, h4, h5⟩ := witness_vector (.msel .always .s8 7 ⟨.none, 0⟩)
  exact ⟨rfl, rfl, ⟨_, rfl⟩, .inl rfl, s, cu, b, sl, x, h1, h2, h3, h4, by rw [State.regPending, h5.2.2.2.2]; rfl, h5.2.2.1⟩

/-- A wide product, a narrowing and a conversion that raise an enabled flag in element 0. -/
theorem witness_WideningNarrowingAndConversionResults :
    (wV .f16).ty.isNarrow = true ∧ ElTy.isNarrow .f16 = true ∧ RMode.rne ≠ .rs ∧ mxOf .f16 = none
      ∧ (Meets (.wmul (wV .f16)) (.vec 0x7C00) (.vec 0) fun s b x l r => s.vecWaits x b 0 true false = false ∧ 0 < x.vctx.n 16
        ∧ enabledIn x.fx.fpst (wideElem true .f16 (elem 16 0 l.bits) (elem 16 0 r.bits)).2 ≠ 0)
      ∧ (Meets (.narrow .always false .f16 .rne ⟨.none, 0⟩) (.vec 0x7F7FFFFF) (.vec 0) fun s b x l _ => s.vecWaits x b 0 true false = false ∧ 0 < x.vctx.n 16
        ∧ enabledIn x.fx.fpst (convVal false .f16 { mode := .rne, sat := false, q := 0 } (elemVal .f32 (elem 32 0 l.bits))).2 ≠ 0)
      ∧ (∀ m : Bool, Meets (.cvt .always false (if m then .mx4 else .mx8) .rne .f32 ⟨.none, 0⟩) (.vec 0x7F800000) (.ofWord 0) fun s b x l _ =>
        s.vecWaits x b 0 true false = false ∧ 0 < min (capacity x.vctx .f32) ((if m then 224 else 96) * x.vctx.beats)
        ∧ enabledIn x.fx.fpst (blockElem m .rne 0 (fun i => if i = 0 then elemVal .f32 (elem 32 0 l.bits) else .fin false 0 0) 0).2 ≠ 0)
      ∧ Meets (.cvt .always false .f16 .rne .f32 ⟨.none, 0⟩) (.vec 0x7F7FFFFF) (.ofWord 0) fun s b x l _ => s.vecWaits x b 0 true false = false
        ∧ 0 < min (capacity x.vctx .f32) (capacity x.vctx .f16)
        ∧ enabledIn x.fx.fpst (convVal false .f16 { mode := .rne, sat := false, q := 0 } (elemVal .f32 (elem 32 0 l.bits))).2 ≠ 0 :=
  ⟨rfl, rfl, by decide, rfl, meets _ _ _ _ (wS wXf (wB (wSl _ _ .dat) 2)) wXf 2 .dat rfl rfl rfl rfl rfl ⟨rfl, by decide, by decide +kernel⟩,
    meets _ _ _ _ (wS wXf (wB (wSl _ _ .dat) 2)) wXf 2 .dat rfl rfl rfl rfl rfl ⟨rfl, by decide, by decide +kernel⟩,
    fun m => by cases m <;> exact meets _ _ _ _ (wS wXf (wB (wSl _ _ .dat) 2)) wXf 2 .dat rfl rfl rfl rfl rfl ⟨rfl, by decide, by decide +kernel⟩,
    meets _ _ _ _ (wS wXf (wB (wSl _ _ .dat) 2)) wXf 2 .dat rfl rfl rfl rfl rfl ⟨rfl, by decide, by decide +kernel⟩⟩

/-- The first and the last operation of `red` on integers, and the last that floats have. -/
theorem witness_ReductionAndScanResults :
    (identities .s8)[(0#3).toNat]? = some 0 ∧ (identities .n32)[(5#3).toNat]? = some 0 ∧ (∃ id, (identities .f32)[(2#3).toNat]? = some id)
      ∧ (∃ id, (identities .s16)[(2#3).toNat]? = some id) ∧ ElTy.isF .f32 = true ∧ ElTy.isI .n32 = true :=
  ⟨rfl, rfl, ⟨_, rfl⟩, ⟨_, rfl⟩, rfl, rfl⟩

/-! ### Fetch, dispatch, commit, traps -/

/-- The entry of the page at 0x10000: frame 2, key 1, readable, writable and executable. -/
def wPte : Pte := { tag := 1, asn := 0, frame := 2, key := 1, sidx := 0, state := 1, size := 0, x := true, w := true, r := true }
/-- A hashed table of two buckets at 0x30000, with that entry in both. -/
def wTab (s : State) : State :=
  { (s.poke128 0 0x30000 wPte.bits).poke128 0 0x30080 wPte.bits with
    parts := [(⟨0, 0⟩, { st := .resident, ptcfg := 1 <<< 54, ptu := (1 <<< 58) ||| (0x600 <<< 7) })]
    pkgs := [(0, { keys := [(1, { valid := true, owner := 0, kind := 0 })] })] }
/-- A context about to fetch at 0x10000, where an access block of one slot stands. -/
def wXn (a : Word) : Ctx := { wX with thr := { next := a } }
def wF (a : Word) : State := { wTab (State.reset.poke 0 0x2000F [0x10]) with site := .ctxU 1 .thread, ctxs := [(1, wXn a)] }
def wWho : Who := ⟨⟨0, 0⟩, 0, 0, true⟩

/-- An entry that the core holds and that a walk finds serves a translation, whichever of the two is used. -/
theorem lookup_held (s : State) (pk : PartKey) (core : Nat) (asn : BitVec 16) (va : Nat) (w : WalkEnt) (l : PteLoc)
    (hw : (s.walks.find? fun w => w.hits pk core asn va) = some w) (h : ({ s with free := s.free + 1 } : State).walk pk asn va = some (l, w.e)) :
    s.lookup pk core asn va = (some w.e, { s with free := s.free + 1 }) := by
  unfold State.lookup
  rw [hw]
  simp only [State.drawBool, h, Option.map_some]
  cases Config.freeBool s.free <;> rfl

/-- Whether a result is one value. -/
def isOk {ε α : Type} [DecidableEq α] (e : Except ε α) (a : α) : Bool := match e with | .ok b => decide (b = a) | .error _ => false
theorem ok_of {ε α : Type} [DecidableEq α] {e : Except ε α} {a : α} (h : isOk e a = true) : e = .ok a := by
  cases e with
  | error _ => exact absurd h Bool.false_ne_true
  | ok b => exact congrArg _ (of_decide_eq_true h)

/-- The state after the first translation of the fetch. -/
def wF1 : State := { wF 0x10000 with walks := [⟨0, 0, 0, false, wPte⟩] }
/-- The state after the second. -/
def wF2 : State := { wF1 with free := 1 }

/-- The block at 0x10000 is fetched: its header, then the whole of it. -/
theorem fetch_image : (wF 0x10000).fetchAt wWho .thread 0x10000 = (.image { addr := 0x10000, hdr := wHdr 1, slots := [{ word := 0, plane := .ctl, rep := false }] }, wF2) := by
  have hk : (wF 0x10000).lookup ⟨0, 0⟩ 0 0 0x10000 = (some wPte, wF1) := by
    have hw : (wF 0x10000).walk ⟨0, 0⟩ 0 0x10000 = some (.hashed 0x30080, wPte) := by decide +kernel
    unfold State.lookup
    simp only [show (wF 0x10000).walks = [] from rfl, List.find?_nil, hw]
    rfl
  have h0 : (wF 0x10000).code wWho .thread 0x10000 = (.ok ⟨0x20000, 0x10000, 1⟩, wF1) := by
    unfold State.code
    rw [if_neg (by decide)]
    simp only [show wWho.pk = ⟨0, 0⟩ from rfl, show wWho.core = 0 from rfl, show wWho.asn = 0 from rfl, show (0x10000 : Word).toNat = 0x10000 from rfl, hk]
    rw [show wF1.gradeCode wWho .thread 0x10000 (some wPte) = .ok ⟨0x20000, 0x10000, 1⟩ from ok_of (by decide +kernel)]
  have h1 : (wF 0x10000).codeBytes wWho .thread 0x10000 16 2 = (.ok [⟨0x20000, 16, 1, {}⟩], wF1) := by
    unfold State.codeBytes
    rw [if_neg (by decide), h0]
    rfl
  have hl : wF1.lookup ⟨0, 0⟩ 0 0 0x10000 = (some wPte, wF2) := lookup_held wF1 ⟨0, 0⟩ 0 0 0x10000 ⟨0, 0, 0, false, wPte⟩ (.hashed 0x30080) rfl
    (by decide +kernel)
  have h2 : wF1.code wWho .thread 0x10000 = (.ok ⟨0x20000, 0x10000, 1⟩, wF2) := by
    unfold State.code
    rw [if_neg (by decide)]
    simp only [show wWho.pk = ⟨0, 0⟩ from rfl, show wWho.core = 0 from rfl, show wWho.asn = 0 from rfl, show (0x10000 : Word).toNat = 0x10000 from rfl, hl]
    rw [show wF2.gradeCode wWho .thread 0x10000 (some wPte) = .ok ⟨0x20000, 0x10000, 1⟩ from ok_of (by decide +kernel)]
  have h3 : wF1.codeBytes wWho .thread 0x10000 20 2 = (.ok [⟨0x20000, 20, 1, {}⟩], wF2) := by
    unfold State.codeBytes
    rw [if_neg (by decide), h2]
    rfl
  have hb : ([⟨0x20000, 16, 1, {}⟩] : List Part').any (wF1.codeFails ⟨0, 0⟩) = false := by rfl
  have hc : ([⟨0x20000, 20, 1, {}⟩] : List Part').any (wF2.codeFails ⟨0, 0⟩) = false := by rfl
  have hh : Header.ofBits (BitVec.ofNat 128 (leNat (([⟨0x20000, 16, 1, {}⟩] : List Part').flatMap (wF1.readEv ⟨0, 0⟩)))) = wHdr 1 := by rfl
  have c1 : wF1.codeUp wWho [⟨0x20000, 16, 1, {}⟩] = true := by rfl
  have c2 : wF2.codeUp wWho [⟨0x20000, 20, 1, {}⟩] = true := by rfl
  have hi : imageOf 0x10000 (wHdr 1) (([⟨0x20000, 20, 1, {}⟩] : List Part').flatMap (wF2.readEv ⟨0, 0⟩))
      = some { addr := 0x10000, hdr := wHdr 1, slots := [{ word := 0, plane := .ctl, rep := false }] } := by rfl
  unfold State.fetchAt
  rw [if_neg (by decide), h1]
  simp only [show wWho.pk = ⟨0, 0⟩ from rfl, hb, hh, show (wHdr 1).ok .thread = true from rfl, show (wHdr 1).len = 20 from rfl, h3, hc, hi, c1, c2,
    Bool.false_eq_true, if_false, Bool.not_true]

/-- A context whose fetched block has one slot. -/
def wXi (w : IWord) : Ctx := { wX with thr := { img := some { addr := 0x1000, hdr := wHdr 1, slots := [{ word := w, plane := .ctl, rep := false }] } } }
/-- A dispatcher with that context and no block in flight. -/
def wD (w : IWord) : State := { State.reset with site := .disp ⟨0, 0, true⟩, ctxs := [(1, wXi w)] }

/-- A block to fetch, an address that is not a multiple of 16, a block to dispatch with and without a breach, and a held slot. -/
theorem witness_FetchDispatchAndResume :
    (∃ (s : State) (c : Nat) (u : Fetcher) (x : Ctx) (i : Image) (s' : State), s.site = .ctxU c u ∧ s.ctxs.get? c = some x ∧ x.mayRun u = true ∧ (x.lane u).img = none ∧ (x.lane u).fetchFault = none
        ∧ s.flight c u = [] ∧ s.fetchAt ⟨x.pk, x.core, x.ctl.asn, x.ctl.pm⟩ u (x.lane u).next = (.image i, s'))
      ∧ (∃ (s : State) (c : Nat) (u : Fetcher) (x : Ctx), s.site = .ctxU c u ∧ s.ctxs.get? c = some x ∧ x.mayRun u = true ∧ (x.lane u).img = none ∧ (x.lane u).fetchFault = none
        ∧ s.flight c u = [] ∧ u = .thread ∧ (x.lane u).next.toNat % 16 ≠ 0 ∧ x.thr.succ = false)
      ∧ (∀ e ∈ [(0x30500001#32, true), (0#32, false)], ∃ (s : State) (d : DispKey) (f : FrameKey) (k : Cand) (x : Ctx) (im : Image), s.site = .disp d ∧ s.freeFrame d = some f
        ∧ (s.disp d).choose d.acc ((s.cands d).filter s.readyCand) = some k ∧ s.ctxs.get? k.c = some x ∧ (x.lane k.u).img = some im
        ∧ (dispatchFault im.hdr im.slots (s.gone x.pk) x.ctl.pm).isNone = e.2 ∧ (∀ o ∈ s.cands d, (s.disp d).passes o < 256)
        ∧ ∃ o ∈ s.cands d, s.readyCand o = true)
      ∧ ∃ (s : State) (cu : Cur) (b : Blk) (sl : Slot) (x : Ctx), s.site = .slot cu ∧ s.blks.get? cu.frame = some b ∧ b.slots[cu.slot]? = some sl ∧ s.ctxs.get? b.ctx = some x ∧ sl.st = .held
        ∧ s.unheld b x sl = true := by
  refine ⟨⟨wF 0x10000, 1, .thread, wXn 0x10000, _, _, rfl, rfl, rfl, rfl, rfl, rfl, fetch_image⟩,
    ⟨wF 8, 1, .thread, wXn 8, rfl, rfl, rfl, rfl, rfl, rfl, rfl, by decide, rfl⟩, ?_,
    ⟨wS wX (wB { wSl (.ofWord 0) (.ofWord 0) with st := .held, why := some .cmdq }), wCu, _, _, wX, rfl, rfl, rfl, rfl, rfl, by decide⟩⟩
  intro e he
  simp only [List.mem_cons, List.not_mem_nil, or_false] at he
  rcases he with rfl | rfl
  · exact ⟨wD 0x30500001, ⟨0, 0, true⟩, ⟨⟨0, 0, true⟩, 0⟩, ⟨0, 0, 0, 1, .thread⟩, wXi 0x30500001, _, rfl, rfl, by decide, rfl, rfl, by decide, by decide,
      ⟨0, 0, 0, 1, .thread⟩, by decide, by decide⟩
  · exact ⟨wD 0, ⟨0, 0, true⟩, ⟨⟨0, 0, true⟩, 0⟩, ⟨0, 0, 0, 1, .thread⟩, wXi 0, _, rfl, rfl, by decide, rfl, rfl, by decide, by decide,
      ⟨0, 0, 0, 1, .thread⟩, by decide, by decide⟩

/-- A block whose one slot has issued, with a branch. -/
def wDone (k : BrKind) (regs : List (Nat × Option Tok) := []) : Blk :=
  { wB { wSl (.ofWord 0) (.ofWord 0) with st := .done } with branch := some ⟨1, k⟩, regs := regs, hdr := { wHdr 1 with rwmask := 0x8000000000000002 } }
/-- A context with a return stack of a depth. -/
def wXd (n : Nat) : Ctx := { wX with thr := { depth := n } }
def wC (n : Nat) (k : BrKind) : State :=
  { wS (wXd n) (wDone k [(1, some (.ofWord 5)), (63, none)]) with site := .frame wCu.frame }

/-- Each branch kind, a call at depths 15 and 16, a return at depths 1 and 0; `g1` is written, `g63` completed by a null. -/
theorem witness_BlockCommit :
    (∀ e ∈ [(0, BrKind.jump 0x2000), (15, .call 0x2000), (16, .call 0x2000), (1, .ret 0), (0, .ret 0), (0, .wait .idle 0x2000), (0, .trap 5), (0, .svc 5), (0, .rfe)],
        ∃ (s : State) (f : FrameKey) (b : Blk) (x : Ctx) (br : Branch), s.site = .frame f ∧ s.blks.get? f = some b ∧ s.ctxs.get? b.ctx = some x ∧ b.branch = some br ∧ x.live = true
          ∧ s.isOldest b = true ∧ b.ruleMet = true ∧ s.commitWaits b x = false ∧ b.u = .thread ∧ b.hdr.kind = 1 ∧ b.hdr.rpt = 0
          ∧ b.effs = [] ∧ b.takes = [] ∧ b.handles = [] ∧ x.eventsDue = false ∧ s.commitSealed b x = false ∧ br.kind = e.2 ∧ x.thr.depth = e.1 ∧ x.ctl.hm = false
          ∧ (1, some (Tok.ofWord 5)) ∈ b.regs ∧ ∀ r ∈ b.regs, r.1 = 1 → r.2 = some (Tok.ofWord 5))
      ∧ ∀ st ∈ [SlotSt.waiting, .done], ∃ (s : State) (f : FrameKey) (b : Blk) (x : Ctx), s.site = .frame f ∧ s.blks.get? f = some b ∧ s.ctxs.get? b.ctx = some x ∧ s.isOldest b = true
        ∧ b.faults = [] ∧ b.ruleMet = false ∧ b.instrs = [] ∧ (∀ sl ∈ b.slots, sl.st ≠ .out ∧ sl.st ≠ .held) ∧ b.slots.map Slot.st = [st] := by
  constructor
  · intro e he
    have hr : ∀ r ∈ ([(1, some (Tok.ofWord 5)), (63, none)] : List (Nat × Option Tok)), r.1 = 1 → r.2 = some (Tok.ofWord 5) := by
      intro r hr h
      simp only [List.mem_cons, List.not_mem_nil, or_false] at hr
      rcases hr with rfl | rfl
      · rfl
      · exact absurd h (by decide)
    simp only [List.mem_cons, List.not_mem_nil, or_false] at he
    rcases he with rfl | rfl | rfl | rfl | rfl | rfl | rfl | rfl | rfl <;>
      exact ⟨wC _ _, wCu.frame, _, wXd _, _, rfl, rfl, rfl, rfl, rfl, rfl, by decide, by decide, rfl, rfl, rfl, rfl, rfl, rfl, rfl, rfl, rfl, rfl, rfl, by simp [wDone], hr⟩
  · intro st hst
    simp only [List.mem_cons, List.not_mem_nil, or_false] at hst
    rcases hst with rfl | rfl
    · exact ⟨{ wS wX (wB (wSl (.ofWord 0) (.ofWord 0))) with site := .frame wCu.frame }, wCu.frame, _, wX, rfl, rfl, rfl, rfl, rfl, rfl, no_instrs _ _ _, by decide, rfl⟩
    · refine ⟨{ wS wX (wB { wSl (.ofWord 0) (.ofWord 0) with st := .done }) with site := .frame wCu.frame }, wCu.frame, _, wX, rfl, rfl, rfl, rfl, rfl, rfl, ?_, by decide, rfl⟩
      simp [Blk.instrs, instrsOf, wB, wSl, show decode .ctl 0#32 = .error .noMeaning from rfl]

/-- A fault held outside and inside handler mode, pending events, a stream's fault, a stopped stream, a wait that has ended. -/
theorem witness_TrapsStopsAndWaits :
    (∀ hm : Bool, ∃ (s : State) (c : Nat) (x : Ctx) (f : FrameKey) (b : Blk) (r : FaultRec) (rs : List FaultRec), s.site = .ctx c ∧ s.ctxs.get? c = some x ∧ x.live = true ∧ s.oldest c .thread = some (f, b) ∧ b.faults = r :: rs
        ∧ x.ctl.hm = hm)
      ∧ (∃ (s : State) (c : Nat) (x : Ctx) (w : Wait) (tok : Word) (thr : Word), s.site = .ctx c ∧ s.ctxs.get? c = some x ∧ x.live = true ∧ (∀ e, s.oldest c .thread = some e → e.2.faults = [])
        ∧ x.thr.fetchFault = none ∧ x.ctl.evpend ≠ 0 ∧ x.ctl.hm = false ∧ x.done = false ∧ x.thr.wait = some w ∧ w.kind = .sig tok thr)
      ∧ (∃ (s : State) (f : FrameKey) (b : Blk) (x : Ctx) (r : FaultRec) (rs : List FaultRec), s.site = .frame f ∧ s.blks.get? f = some b ∧ s.ctxs.get? b.ctx = some x ∧ x.live = true ∧ x.recs.xvalid = false
        ∧ b.u = .stream ∧ s.isOldest b = true ∧ b.faults = r :: rs)
      ∧ (∃ (s : State) (c : Nat) (x : Ctx), s.site = .ctx c ∧ s.ctxs.get? c = some x ∧ x.recs.xvalid = true ∧ x.recs.xact = none)
      ∧ ∀ u ∈ [Fetcher.thread, .stream], ∃ (s : State) (c : Nat) (x : Ctx) (w : Wait) (v : Bool), s.site = .ctxU c u ∧ s.ctxs.get? c = some x ∧ x.live = true ∧ (x.lane u).wait = some w
        ∧ s.waitStatus c x u w = some v ∧ ∀ n, u ≠ .act n := by
  refine ⟨?_, ?_, ?_, ?_, ?_⟩
  · intro hm
    let b : Blk := { wB (wSl (.ofWord 0) (.ofWord 0)) with faults := [{ code := 2 }] }
    exact ⟨{ wS { wX with ctl := { pm := true, hm := hm } } b with site := .ctx 1 }, 1, _, wCu.frame, b, _, _, rfl, rfl, rfl, rfl, rfl, rfl⟩
  · refine ⟨{ State.reset with
        site := .ctx 1, ctxs := [(1, { wX with ctl := { evpend := 0x80 }, thr := { wait := some { kind := .sig 0 1, next := 0x40 } } })] },
      1, _, _, 0, 1, rfl, rfl, rfl, ?_, rfl, by decide, rfl, rfl, rfl, rfl⟩
    intro e h
    exact absurd (show none = some e from h) (by simp)
  · let b : Blk := { wB (wSl (.ofWord 0) (.ofWord 0)) 2 with faults := [{ code := 2 }] }
    exact ⟨{ wS wX b with site := .frame wCu.frame }, wCu.frame, b, wX, _, _, rfl, rfl, rfl, rfl, rfl, rfl, rfl, rfl⟩
  · exact ⟨{ State.reset with site := .ctx 1, ctxs := [(1, { wX with recs := { xvalid := true, xepc := 0x40 } })] }, 1, _, rfl, rfl, rfl, rfl⟩
  · intro u hu
    let w : Wait := { kind := .bar 0 0x80, next := 0x40, met := some true }
    simp only [List.mem_cons, List.not_mem_nil, or_false] at hu
    rcases hu with rfl | rfl
    · exact ⟨{ State.reset with site := .ctxU 1 .thread, ctxs := [(1, { wX with thr := { wait := some w } })] }, 1, _, w, true, rfl, rfl, rfl, rfl, rfl, by simp⟩
    · exact ⟨{ State.reset with site := .ctxU 1 .stream, ctxs := [(1, { wX with str := { wait := some w } })] }, 1, _, w, true, rfl, rfl, rfl, rfl, rfl, by simp⟩

/-- A block of count 1 without configuration words is 24 bytes long (16 + 8, R70), so the block after it stands 32 bytes on. -/
theorem witness_ReturnAddressOfABlock :
    ∃ b : Blk, b.addr.toNat % 16 = 0 ∧ b.hdr.cwords = 0 ∧ b.hdr.count = 1 ∧ b.returnAddr = b.addr + 32#64 :=
  ⟨{ wB (wSl (Tok.ofWord 0) (Tok.ofWord 0)) with addr := 0x40, hdr := { wHdr 1 with count := 1, cwords := 0 } }, by decide⟩

/-! ### Command queues, streams, matrix -/

/-- A pair context with one entry in `cmdq`. -/
def wXc (e : CmdEnt) : Ctx := { wX with ports := { cmdq := [e] } }
/-- An operation of an engine queue that feeds queue 7 with one item of 8 bytes from 0x10000. -/
def wOp (running noticed : Bool) (gen : Nat) (park : Option ParkRec) : StrmOp :=
  { kind := .go wGo 0x10000 { stride := Vector.replicate 8 8, count := Vector.replicate 8 1 }, stamp := 9, noticed := noticed, running := running, gen := gen
    park := park }
def wXo (op : StrmOp) : Ctx := { wX with eng := { eqs := (Vector.replicate 16 []).set 13 [op] } }
/-- The page table, queue 7 and that context. -/
def wO (op : StrmOp) : State := { wK wQf (wTab State.reset) with site := .ctxQ 1 13, ctxs := [(1, wXo op)] }

theorem fst_ok {α β : Type} {p : α × β} {a : α} (h : p.1 = a) : p = (a, p.2) := by cases p; cases h; rfl

theorem witness_CommandQueueAndStreamEvents :
    (∀ e ∈ [(⟨.start, 0, 13, 9⟩ : CmdEnt), ⟨.shape 7, 0, 0, 0⟩, ⟨.creg 0x31, 0, 0, 0⟩, ⟨.binding, 0x10001F0000000007, 0, 0⟩, ⟨.binding, 0x20001F0000000007, 0, 0⟩,
        ⟨.binding, 0x1000000000000008, 0, 0⟩, ⟨.binding, 0x3000000000000000, 0, 0⟩, ⟨.binding, 0x4000000000000000, 0, 0⟩],
        ∃ (s : State) (c : Nat) (x : Ctx), s.site = .ctx c ∧ s.ctxs.get? c = some x ∧ x.ports.cmdq = e :: [] ∧ s.adoptable c x = true
          ∧ s.bindRefused (objKey x.pk 7) true = false ∧ s.bindRefused (objKey x.pk 7) false = false ∧ s.bindRefused (objKey x.pk 8) true = true)
      ∧ (∃ (s : State) (k : PKey) (e : QElem) (r : List QElem), s.site = .obj k ∧ (s.queue k).cask = e :: r ∧ (s.queue k).state ≠ .frozen
        ∧ (s.queue k).els.length < (s.queue k).capacity ∧ (s.queue k).caskBad = false)
      ∧ (∃ (s : State) (c q : Nat) (x : Ctx) (op : StrmOp) (w base : Word) (g : Staging), s.site = .ctxQ c q ∧ s.ctxs.get? c = some x ∧ x.head q = some op
        ∧ q ≠ 14 ∧ x.live = true ∧ op.running = false ∧ op.park = none ∧ op.noticed = true ∧ op.kind = .go w base g
        ∧ (fld w 57 3 = 0 ∨ fld w 57 3 = 1) ∧ (s.queue (objKey x.pk (fld w 0 12))).state ≠ .frozen
        ∧ s.roleHeld c q (objKey x.pk (fld w 0 12)) (fld w 57 3 = 0) = false ∧ s.roleAwaited op.stamp (objKey x.pk (fld w 0 12)) (fld w 57 3 = 0) = false)
      ∧ (∀ gen ∈ [0, 1], ∃ (s : State) (c q : Nat) (x : Ctx) (op : StrmOp) (w base : Word) (g : Staging), s.site = .ctxQ c q ∧ s.ctxs.get? c = some x
        ∧ x.head q = some op ∧ q < 14 ∧ x.live = true ∧ op.running = true ∧ x.fenced op = false ∧ op.kind = .go w base g ∧ fld w 57 3 = 0
        ∧ (s.queue (objKey x.pk (fld w 0 12))).state = .open ∧ op.packed = [] ∧ op.ahead = [] ∧ op.markDue = false
        ∧ op.nextGen w base g = (if gen = 0 then .item 0x10000 else .done))
      ∧ (∃ (s' u : State) (ps : List Part'), (wO (wOp true true 0 none)).access wWho 0x10000 8 8 true false false none = (.ok ps, s')
        ∧ (∀ p ∈ ps, s'.homeUp ⟨0, 0⟩ (s'.dieN (wXo (wOp true true 0 none))) p.pa = true)
        ∧ s'.waitAt (.engine 1 13) none (ps.map fun p => s'.lineOf ⟨0, 0⟩ p.pa) = none
        ∧ ps.foldl (fun s p => s.redirected ⟨0, 0⟩ p.pa) s' = u ∧ ∀ p ∈ ps, u.evFails ⟨0, 0⟩ p.pa p.key = false)
      ∧ ∃ (s : State) (c q : Nat) (x : Ctx) (op : StrmOp) (p : ParkRec), s.site = .ctxQ c q ∧ s.ctxs.get? c = some x ∧ x.head q = some op ∧ q < 16
        ∧ op.park = some p := by
  refine ⟨?_, ⟨{ wK { wQc with els := [], cask := [{ bits := 3 }], state := .spilling } State.reset with site := .obj ⟨⟨0, 0⟩, 7⟩ }, ⟨⟨0, 0⟩, 7⟩, _, _, rfl, rfl,
      by decide, by decide, rfl⟩,
    ⟨wO (wOp false true 0 none), 1, 13, _, wOp false true 0 none, _, _, _, rfl, rfl, rfl, by decide, rfl, rfl, rfl, rfl, rfl, .inl rfl, by decide, by decide, by decide⟩,
    ?_, ?_, ⟨wO (wOp false true 0 (some ⟨1, 0, 0⟩)), 1, 13, _, wOp false true 0 (some ⟨1, 0, 0⟩), _, rfl, rfl, rfl, by decide, rfl⟩⟩
  · intro e he
    simp only [List.mem_cons, List.not_mem_nil, or_false] at he
    rcases he with rfl | rfl | rfl | rfl | rfl | rfl | rfl | rfl <;>
      exact ⟨{ wK { wQc with consk := false, prodk := false } State.reset with site := .ctx 1, ctxs := [(1, wXc _)] }, 1, wXc _, rfl, rfl, rfl,
        by decide, by decide, by decide, by decide⟩
  · intro gen hg
    simp only [List.mem_cons, List.not_mem_nil, or_false] at hg
    rcases hg with rfl | rfl
    · exact ⟨wO (wOp true true 0 none), 1, 13, _, wOp true true 0 none, _, _, _, rfl, rfl, rfl, by decide, rfl, rfl, rfl, rfl, by decide, rfl, rfl, rfl, rfl, rfl⟩
    · exact ⟨wO (wOp true true 1 none), 1, 13, _, wOp true true 1 none, _, _, _, rfl, rfl, rfl, by decide, rfl, rfl, rfl, rfl, by decide, rfl, rfl, rfl, rfl, rfl⟩
  · exact ⟨((wO (wOp true true 0 none)).access wWho 0x10000 8 8 true false false none).2, _,
      [⟨0x20000, 8, 1, { asn := 0, va := 0x10000, len := 0x10000 }⟩], fst_ok (ok_of (by decide +kernel)), by decide +kernel, by decide +kernel, rfl,
      by decide +kernel⟩

/-- A matrix operation at the head of queue 14 with extents 8. -/
def wMx (k : MxKind) (stop : Option (Nat × Nat) := none) : MxOp :=
  { kind := k, ext := extentsOf wTshape, accBase := 0, accSize := 1, stamp := 4, pins := [], stop := stop }
def wXq14 (op : MxOp) : Ctx := { wXt with fx := { accSize := 1, q14 := [op] } }
def wMs (op : MxOp) : State := { wQ true State.reset with site := .ctx 1, ctxs := [(1, wXq14 op)] }

theorem witness_MatrixEvents :
    (∃ (s : State) (c : Nat) (x : Ctx) (op : MxOp) (ty : MmaTy) (sat : Bool) (acc : Nat) (a w : Word) (as ws : List Nat), s.site = .ctx c ∧ s.ctxs.get? c = some x
        ∧ x.fx.q14 = op :: [] ∧ op.stop = none ∧ x.live = true ∧ s.mxComes x op = false ∧ s.bufs.wf = true ∧ op.kind = .mma ty sat acc a w ∧ op.ext.aK ≠ 0 ∧ op.ext.aN ≤ op.ext.gN
        ∧ s.beats x (op.src a .a 0) a (groupBeat (mmaEl ty) op.next) op.ext.aM = some as
        ∧ s.beats x (op.src w .w (if descWin a then 1 else 0)) w (groupBeat (mmaEl ty) op.next) op.ext.aN = some ws)
      ∧ (∀ i ∈ [0, 7], ∃ (s : State) (c : Nat) (x : Ctx) (op : MxOp) (src dst : Buf) (sd dd : Word) (ty : ElTy), s.site = .ctx c ∧ s.ctxs.get? c = some x
        ∧ x.fx.q14 = op :: [] ∧ op.stop = none ∧ x.live = true ∧ s.mxComes x op = false ∧ s.bufs.wf = true ∧ op.kind = .tmov false src dst sd dd ∧ descTy sd = some ty
        ∧ descTy dd = some ty ∧ mxOf ty = none ∧ 128 * rowBeats ty (tmovDims op.ext sd).2 ≤ descPitch dd ∧ i < (tmovDims op.ext sd).1)
      ∧ (∃ (s : State) (c : Nat) (x : Ctx) (op : MxOp) (acc : Nat), s.site = .ctx c ∧ s.ctxs.get? c = some x ∧ x.fx.q14 = op :: [] ∧ op.stop = none
        ∧ x.live = true ∧ s.mxComes x op = false ∧ s.bufs.wf = true ∧ op.kind = .acclr acc)
      ∧ (∃ (s : State) (c : Nat) (x : Ctx) (op : MxOp) (acc : Nat) (st : Word) (b : Bind), s.site = .ctx c ∧ s.ctxs.get? c = some x ∧ x.fx.q14 = op :: []
        ∧ op.stop = none ∧ x.live = true ∧ s.mxComes x op = false ∧ s.bufs.wf = true ∧ op.kind = .accst acc st ∧ op.next < op.ext.aM ∧ x.outlet (fld st 0 5) = some b
        ∧ s.roomOf x (objKey x.pk b.queue) ≠ 0 ∧ s.outOfTurn (objKey x.pk b.queue) b.round = false
        ∧ s.reachesSealed (objKey x.pk b.queue) = false ∧ (s.queue (objKey x.pk b.queue)).stage = .pass
        ∧ (s.queue (objKey x.pk b.queue)).journal = false)
      ∧ (∃ (s : State) (cu : Cur) (b : Blk) (sl : Slot) (x : Ctx) (p : Pred) (id : Ident) (acc : BitVec 4) (t1 : Tgt) (l : Tok) (m : Nat), s.site = .slot cu
        ∧ s.blks.get? cu.frame = some b ∧ b.slots[cu.slot]? = some sl ∧ s.ctxs.get? b.ctx = some x ∧ decode sl.plane sl.word = .ok (.accrd p id acc t1)
        ∧ sl.l = some l ∧ sl.st = .out ∧ b.rds.find? (fun r => r.1 = cu.slot) = some (cu.slot, m) ∧ x.accrdWaits b.u m = false ∧ s.accComes x acc.toNat = false)
      ∧ ∃ (s : State) (c : Nat) (x : Ctx) (op : MxOp) (p : Nat × Nat), s.site = .ctx c ∧ s.ctxs.get? c = some x ∧ x.fx.q14 = op :: [] ∧ op.stop = some p := by
  refine ⟨⟨wMs (wMx (.mma .s8 false 15 0x100000 0x100000)), 1, _, _, _, _, _, _, _, _, _, rfl, rfl, rfl, rfl, rfl, by decide, rfl, rfl, by decide, by decide, rfl, rfl⟩, ?_,
    ⟨wMs (wMx (.acclr 15)), 1, _, _, _, rfl, rfl, rfl, rfl, rfl, by decide, rfl, rfl⟩,
    ⟨wMs (wMx (.accst 15 0x1001F)), 1, _, _, _, _, _, rfl, rfl, rfl, rfl, rfl, by decide, rfl, rfl, by decide, rfl, by decide, by decide, by decide, rfl, rfl⟩, ?_,
    ⟨wMs (wMx (.mmaG .s8 false 0 0 0x100000) (some (3, 1))), 1, _, _, _, rfl, rfl, rfl, rfl⟩⟩
  · intro i hi
    simp only [List.mem_cons, List.not_mem_nil, or_false] at hi
    rcases hi with rfl | rfl <;>
      exact ⟨wMs (wMx (.tmov false .a .w 0x100000 0x100000)), 1, _, _, _, _, _, _, _, rfl, rfl, rfl, rfl, rfl, by decide, rfl, rfl, rfl, rfl, rfl, by decide, by decide⟩
  · let b : Blk := { wB { wSl (.ofWord 0) (.ofWord 0) .dat 0x96001E00 with st := .out } 2 with rds := [(0, 3)] }
    exact ⟨wS wXt b, wCu, b, _, wXt, .always, 0, 15, ⟨.none, 0⟩, _, 3, rfl, rfl, rfl, rfl, rfl, rfl, rfl, rfl, by decide, by decide⟩

/-! ### Saving, restoring, kernels -/

/-- The kernel of launch queue 3 with sequence 2, and its group 0. -/
def wKk (lq : Nat) : KernKey := ⟨⟨0, 0⟩, lq, 2⟩
def wGr (st : GState) (lq : Nat) : Group := { st := st, level := 1, unit := 0, die := 0, kern := wKk lq, members := [1] }
/-- An access-only context of that group whose image stands at 0x2A000. -/
def wXs (st : CtxState) (ao : Bool := true) : Ctx :=
  { wX with kern := wKk 3, st := st, pos := if st = .saved then none else some (0, 4), ctl := { pm := true, aonly := ao, simg := 0x2A000 } }
/-- Slot 0 resident with a core, the page table, the group and the context; a valid image where `img`. -/
def wU (gst : GState) (cst : CtxState) (img : Bool) (site : Site) (ao : Bool := true) (cores : Word := 1) : State :=
 
  { wTab (if img then State.reset.poke 0 0x2A000 [1] else State.reset) with
    site := site, ctxs := [(1, wXs cst ao)], groups := [(⟨⟨0, 0⟩, 0⟩, wGr gst 3)]
    parts := [(⟨0, 0⟩, { st := .resident, ptcfg := 1 <<< 54, ptu := (1 <<< 58) ||| (0x600 <<< 7), area := (Vector.replicate 32 0).set 1 cores, look := [0] })] }

/-- A descriptor of one group of one access-only context, read from VA 0x18000, as a `launch` names it. -/
def wDesc : Vector Word 16 :=
  ((((((Vector.replicate 16 0).set 0 0x10001).set 1 0x10000).set 3 0x10000).set 7 0x1A000).set 8 0x1000).set 10 0x19000
/-- A kernel at the head of queue 0 of slot 0 whose descriptor stands in memory; with or without cores. -/
def wN (cores : Word) (site : Site) (kst : KState) : State :=
  { wTab ((((((State.reset.poke 0 0x28000 (leBytes 8 0x10001)).poke 0 0x28008 (leBytes 8 0x10000)).poke 0 0x28018 (leBytes 8 0x10000)).poke 0 0x28038
      (leBytes 8 0x1A000)).poke 0 0x28040 (leBytes 8 0x1000)).poke 0 0x28050 (leBytes 8 0x19000) |>.poke 0 0x29000 (leBytes 8 0x10001)) with
    site := site, groups := [(⟨⟨0, 0⟩, 0⟩, wGr .resident 3)]
    kerns := [(⟨⟨0, 0⟩, 0, 0⟩, { st := kst, pa := 0x28000, va := 0x18000, srcPriv := false, host := false, desc := wDesc })]
    parts := [(⟨0, 0⟩, { st := .resident, ptcfg := 1 <<< 54, ptu := (1 <<< 58) ||| (0x600 <<< 7), area := (Vector.replicate 32 0).set 1 cores
                         tail := Vector.replicate 4 1 })] }

theorem witness_SaveRestoreAndGroupEvents :
    (∃ (s : State) (c : Nat) (x : Ctx) (g : Group), s.site = .ctx c ∧ s.ctxs.get? c = some x ∧ s.groups.get? (objKey x.pk x.group) = some g ∧ x.live = true
        ∧ g.st = .saving)
      ∧ (∃ (s : State) (c : Nat) (x : Ctx), s.site = .ctx c ∧ s.ctxs.get? c = some x ∧ x.st = .sparging ∧ x.ctl.drain ≠ 0 ∧ s.drained x = true ∧ s.mem.wf = true
        ∧ fld (s.part x.pk).vdcfg 62 2 = 0 ∧ 65536 ≤ x.image ∧ (s.pkg x.pk.pkg).inLocal x.image x.imageLen = true)
      ∧ (∀ b : Bool, ∃ (s : State) (c : Nat) (x : Ctx), s.site = .ctx c ∧ s.ctxs.get? c = some x ∧ x.st = .sparging ∧ decide (x.ctl.drain = 0) = b
        ∧ s.drained x = b ∧ x.ctl.drain.toNat ≤ (s.cycle x.pk.pkg (s.dieN x) - x.pre.start).toNat)
      ∧ (∃ (s : State) (c : Nat) (x : Ctx), s.site = .ctx c ∧ s.ctxs.get? c = some x ∧ x.st = .kilning)
      ∧ (∀ ao : Bool, ∃ (s : State) (c core pos : Nat) (x : Ctx) (g : Group) (die : Nat) (u : Seats) (base : Nat), s.site = .ctxAt c core pos
        ∧ s.ctxs.get? c = some x ∧ s.groups.get? (objKey x.pk x.group) = some g ∧ x.st = .saved ∧ (s.part x.pk).look.contains x.group = true
        ∧ s.eligible (objKey x.pk x.group) g = true ∧ s.groups = [(objKey x.pk x.group, g)] ∧ g.before g = false ∧ s.groupErr g = 0
        ∧ s.groupSeats (objKey x.pk x.group) g = some (die, u) ∧ s.savedMembers g = [(c, x)] ∧ x.ctl.aonly = ao
        ∧ if x.ctl.aonly then u.accs.head? = some (core, pos) else u.pairs.head? = some ((core, pos), base))
      ∧ (∃ (s : State) (k : PKey) (g : Group) (kk : KernKey) (kn : Kern), s.site = .obj k ∧ s.groups.get? k = some g
        ∧ s.kerns.find? (fun e => e.1.pk = k.pk && s.victim e.1 e.2 = some k) = some (kk, kn))
      ∧ (∃ (s : State) (k : PKey) (g : Group), s.site = .obj k ∧ s.groups.get? k = some g ∧ (s.part k.pk).look.contains k.n = true ∧ s.eligible k g = true
        ∧ s.groups = [(k, g)] ∧ g.before g = false ∧ s.groupErr g ≠ 0)
      ∧ (∃ (s : State) (k : PKey) (g : Group), s.site = .obj k ∧ s.groups.get? k = some g ∧ (s.part k.pk).look.contains k.n = true ∧ s.eligible k g = true
        ∧ s.groups = [(k, g)] ∧ g.before g = false ∧ s.groupErr g = 0 ∧ s.groupSeats k g = none)
      ∧ (∃ (s : State) (k : PKey) (g : Group) (die : Nat) (u : Seats), s.site = .obj k ∧ s.groups.get? k = some g ∧ (s.part k.pk).look.contains k.n = true ∧ s.eligible k g = true
        ∧ s.groups = [(k, g)] ∧ g.before g = false ∧ s.groupErr g = 0 ∧ s.groupSeats k g = some (die, u))
      ∧ ∃ (s : State) (c : Nat) (x : Ctx) (g : Group), s.site = .ctx c ∧ s.ctxs.get? c = some x ∧ s.groups.get? (objKey x.pk x.group) = some g
        ∧ g.st = .freeing ∧ g.members.contains c = true ∧ x.live = true ∧ s.quiet c x = true := by
  refine ⟨⟨wU .saving .running false (.ctx 1), 1, wXs .running, _, rfl, rfl, rfl, rfl, rfl⟩,
    ⟨wU .saving .sparging false (.ctx 1), 1, wXs .sparging, rfl, rfl, rfl, by decide, by decide, by decide +kernel, by decide, by decide, by decide⟩, ?_,
    ⟨wU .saving .kilning false (.ctx 1), 1, wXs .kilning, rfl, rfl, rfl⟩,
    ?_,
    ⟨wN 0 (.obj ⟨⟨0, 0⟩, 0⟩) .placing, ⟨⟨0, 0⟩, 0⟩, wGr .resident 3, ⟨⟨0, 0⟩, 0, 0⟩,
      { st := .placing, pa := 0x28000, va := 0x18000, srcPriv := false, host := false, desc := wDesc }, rfl, rfl, by decide +kernel⟩,
    ⟨wU .saved .saved false (.obj ⟨⟨0, 0⟩, 0⟩), ⟨⟨0, 0⟩, 0⟩, wGr .saved 3, rfl, rfl, by decide, by decide, rfl, by decide, by decide +kernel⟩,
    ⟨wU .saved .saved true (.obj ⟨⟨0, 0⟩, 0⟩) true 0, ⟨⟨0, 0⟩, 0⟩, wGr .saved 3, rfl, rfl, by decide, by decide, rfl, by decide, by decide +kernel, by decide +kernel⟩,
    ⟨wU .saved .saved true (.obj ⟨⟨0, 0⟩, 0⟩), ⟨⟨0, 0⟩, 0⟩, wGr .saved 3, 0, ⟨0, [], [(0, 4)]⟩, rfl, rfl, by decide, by decide, rfl, by decide, by decide +kernel, by decide +kernel⟩, ?_⟩
  · intro b
    let x : Ctx := { wXs .sparging with ctl := { drain := if b then 0 else 5 }, pre := { start := 1 }, fx := { q14 := if b then [] else [wMx (.acclr 0)] } }
    refine ⟨{ wU .saving .sparging false (.ctx 1) with ctxs := [(1, x)] }, 1, x, rfl, rfl, rfl, ?_⟩
    cases b <;> decide
  · intro ao
    cases ao
    · exact ⟨wU .saved .saved true (.ctxAt 1 0 0) false, 1, 0, 0, wXs .saved false, wGr .saved 3, 0, ⟨0, [((0, 0), 0)], []⟩, 0, rfl, rfl, rfl, rfl, by decide, by decide,
        rfl, by decide, by decide +kernel, by decide +kernel, rfl, rfl, rfl⟩
    · exact ⟨wU .saved .saved true (.ctxAt 1 0 4), 1, 0, 4, wXs .saved, wGr .saved 3, 0, ⟨0, [], [(0, 4)]⟩, 0, rfl, rfl, rfl, rfl, by decide, by decide,
        rfl, by decide, by decide +kernel, by decide +kernel, rfl, rfl, rfl⟩
  · let x : Ctx := { wXs .running with done := true }
    exact ⟨{ wU .freeing .running false (.ctx 1) with ctxs := [(1, x)] }, 1, x, _, rfl, rfl, rfl, rfl, rfl, rfl, by decide⟩

/-- Whether a placement goes on with one value. -/
def placesWith {α : Type} [DecidableEq α] (e : Placed α) (a : α) : Bool := match e with | .ok b => decide (b = a) | .wait _ | .broken | .refused _ => false
theorem placed_of {α : Type} [DecidableEq α] {e : Placed α} {a : α} (h : placesWith e a = true) : e = .ok a := by
  cases e with
  | ok b => exact congrArg _ (of_decide_eq_true h)
  | wait _ => exact absurd h Bool.false_ne_true
  | broken => exact absurd h Bool.false_ne_true
  | refused _ => exact absurd h Bool.false_ne_true

/-- The completion word of a kernel has to wait, or it need not and its write is plain memory: the cases of `FenceEnds`. -/
def Ends (u : State) (kk : KernKey) (k : Kern) (w : Bool) : Prop :=
  (u.doneWaits kk k).1 = w ∧ (w = false →
    let v := ((u.updKern kk fun k => { k with st := .complete, status := 1, ended := true }).promoteAll kk k).unpinCode kk k
    (v.putDone kk k 1).kerns = v.kerns ∧ (v.putDone kk k 1).parts = v.parts)
/-- A completing kernel of queue 0 with sequence 0. -/
def wKd : Kern := { st := .completing, pa := 0, va := 0x18000, srcPriv := false, host := false, desc := wDesc }
/-- Slot 0 with that kernel; one of its contexts has a store that is not performed where `w` holds. -/
def wE (p : Part) (w : Bool) : State :=
  { State.reset with
    site := .part ⟨0, 0⟩, parts := [(⟨0, 0⟩, { p with st := .resident })], kerns := [(⟨⟨0, 0⟩, 0, 0⟩, wKd)]
    ctxs := if w then [(1, { wX with path := [{ stamp := 7, eff := .fence 7 }] })] else [] }

theorem witness_KernelEvents :
    (∃ (s : State) (pk : PartKey) (n : Nat) (w0 w1 : Word) (b : Bool), s.site = .partLq pk n ∧ n < 4 ∧ (s.part pk).st.runs = true ∧ (s.part pk).lqCap n ≠ 0 ∧ s.lqRoom pk n ≠ 0
        ∧ s.peekW pk.pkg ((s.part pk).ringAddr n ((vecGet (s.part pk).tail n 0).toNat % (s.part pk).lqCap n)) = w0
        ∧ s.peekW pk.pkg ((s.part pk).ringAddr n ((vecGet (s.part pk).tail n 0).toNat % (s.part pk).lqCap n) + 8) = w1
        ∧ (s.part pk).rings.getD (n, (vecGet (s.part pk).tail n 0).toNat % (s.part pk).lqCap n) {} = { bytes := 0xFFFF, pf := b, at' := 3 } ∧ s.lqBefore pk n 3 = false
        ∧ w1.toNat = (vecGet (s.part pk).tail n 0).toNat * 2 ^ 32 ∧ w0.toNat / 2 ^ 52 = 0 ∧ w0.toNat % 128 = 0)
      ∧ (∀ pa ∈ [0x28000, 0x28080], ∃ (s : State) (pk : PartKey) (n : Nat) (kk : KernKey) (k k1 : Kern), s.site = .partLq pk n
        ∧ kk = ⟨pk, n, (vecGet (s.part pk).head n 0).toNat⟩ ∧ s.kerns.get? kk = some k ∧ (s.part pk).st.runs = true
        ∧ vecGet (s.part pk).head n 0 ≠ vecGet (s.part pk).tail n 0 ∧ (k.st = .accepted ∨ k.st = .placing)
        ∧ ((List.range (min n 4)).any (s.headMoves pk)) = false ∧ (s.part pk).movingAt k.pa = none
        ∧ s.targetOk (unitWho pk 0 false) k.pa 128 false false false = true ∧ s.evFails pk k.pa 0 = false
        ∧ k1 = { k with desc := s.descOf pk k.pa, st := .placing } ∧ ((k1.dw 0).getLsbD 9 = false ∨ s.earlierRuns kk = false)
        ∧ k1.bad = decide (pa = 0x28080)
        ∧ (pa = 0x28000 → ∃ pl s1 s2, s.plan pk { k with desc := s.descOf pk k.pa } = .ok pl
          ∧ ({ s with kerns := s.kerns.put kk k1 } : State).placeGroups kk k1 pl.groups 0 0 = some s1
          ∧ s1.openQueues pk (((s1.groups.filter fun e => e.2.kern = kk).map fun e => e.2.die).headD 0) pl.queues = some s2))
      ∧ (∃ (s : State) (kk : KernKey) (k : Kern), s.site = .kern kk ∧ s.kerns.get? kk = some k ∧ k.st = .running
        ∧ ∀ e ∈ s.ctxs, e.2.kern = kk → e.2.st = .ended ∨ s.quiet e.1 e.2 = true)
      ∧ (∃ (s : State) (pk : PartKey), s.site = .part pk ∧ (s.part pk).st = .resident ∧ (s.part pk).fencing = false ∧ (s.part pk).ending = []
        ∧ (s.part pk).fenceReq = true ∧ fld (s.part pk).kfrec 52 12 = 0 ∧ (s.recordOf pk ((s.part pk).fseq + 1)).ends = [])
      ∧ (∀ w : Bool, ∃ (s : State) (pk : PartKey) (kk : KernKey) (k : Kern), s.site = .part pk ∧ (s.part pk).st = .resident ∧ (s.part pk).fencing = false
        ∧ (s.part pk).ending = [] ∧ (s.part pk).fenceReq = true ∧ fld (s.part pk).kfrec 52 12 = 0 ∧ kk.pk = pk ∧ s.kerns.get? kk = some k ∧ k.st = .completing
        ∧ (s.recordOf pk ((s.part pk).fseq + 1)).ends = [(kk.lq, kk.seq)]
        ∧ Ends ((s.setPart pk { s.part pk with fenceReq := false }).setPart pk { s.part pk with fenceReq := false, fseq := (s.part pk).fseq + 1 }) kk k w)
      ∧ (∃ (s : State) (pk : PartKey), s.site = .part pk ∧ (s.part pk).st = .resident ∧ (s.part pk).fencing = false ∧ (s.part pk).ending = [] ∧ (s.part pk).fenceReq = true
        ∧ fld (s.part pk).kfrec 52 12 ≠ 0 ∧ (s.recordOf pk ((s.part pk).fseq + 1)).size ≤ fld (s.part pk).kfrec 52 12 * 65536)
      ∧ (∀ w : Bool, ∃ (s : State) (pk : PartKey) (kk : KernKey) (r : FenceRec) (k : Kern), s.site = .part pk ∧ (s.part pk).st = .resident ∧ kk.pk = pk
        ∧ s.kerns.get? kk = some k ∧ k.st = .completing ∧ (s.part pk).fencing = true ∧ (s.part pk).recd = some r ∧ r.ends = [(kk.lq, kk.seq)]
        ∧ Ends (s.setPart pk { s.part pk with fencing := false }) kk k w)
      ∧ (∀ w : Bool, ∃ (s : State) (pk : PartKey) (kk : KernKey) (k : Kern), s.site = .part pk ∧ (s.part pk).st = .resident ∧ kk.pk = pk
        ∧ s.kerns.get? kk = some k ∧ k.st = .completing ∧ (s.part pk).fencing = false ∧ (s.part pk).ending = [(kk.lq, kk.seq)] ∧ Ends s kk k w)
      ∧ ∃ (s : State) (c : Nat) (v : Word) (x : Ctx) (k : Kern), s.site = .ctxV c v ∧ s.ctxs.get? c = some x ∧ s.kerns.get? x.kern = some k
        ∧ k.st ≠ .complete ∧ k.st ≠ .faulted := by
  let kn (st : KState) (pa : Nat) : Kern := { st := st, pa := pa, va := 0x18000, srcPriv := false, host := false, desc := wDesc }
  refine ⟨⟨{ State.reset with
        site := .partLq ⟨0, 0⟩ 3, parts := [(⟨0, 0⟩, { st := .resident, lq := Vector.replicate 4 0x1000000000020000, rings := [((3, 0), { bytes := 0xFFFF, pf := true, at' := 3 })] })] },
      ⟨0, 0⟩, 3, _, _, true, rfl, by decide, rfl, by decide, by decide, rfl, rfl, rfl, by decide, by decide, by decide, by decide⟩, ?_,
    ⟨{ State.reset with site := .kern ⟨⟨0, 0⟩, 0, 0⟩, kerns := [(⟨⟨0, 0⟩, 0, 0⟩, kn .running 0)] }, ⟨⟨0, 0⟩, 0, 0⟩, _, rfl, rfl, rfl, fun e h _ => ?_⟩,
    ⟨{ State.reset with site := .part ⟨0, 0⟩, parts := [(⟨0, 0⟩, { st := .resident, fenceReq := true })] }, ⟨0, 0⟩, rfl, rfl, rfl, rfl, rfl, by decide, rfl⟩,
    ?_,
    ⟨{ State.reset with site := .part ⟨0, 0⟩, parts := [(⟨0, 0⟩, { st := .resident, fenceReq := true, kfrec := 1 <<< 52 })]
                        kerns := [(⟨⟨0, 0⟩, 0, 0⟩, kn .completing 0)] }, ⟨0, 0⟩, rfl, rfl, rfl, rfl, rfl, by decide, by decide⟩,
    ?_, ?_,
    ⟨{ State.reset with site := .ctxV 1 7, ctxs := [(1, wX)], kerns := [(⟨⟨0, 0⟩, 0, 0⟩, kn .running 0)] }, 1, 7, wX, _, rfl, rfl, rfl, by decide, by decide⟩⟩
  · intro pa hpa
    simp only [List.mem_cons, List.not_mem_nil, or_false] at hpa
    rcases hpa with rfl | rfl
    · let s : State := wN 1 (.partLq ⟨0, 0⟩ 0) .accepted
      let k1 : Kern := { kn .accepted 0x28000 with desc := s.descOf ⟨0, 0⟩ 0x28000, st := .placing }
      have hp : s.plan ⟨0, 0⟩ { kn .accepted 0x28000 with desc := s.descOf ⟨0, 0⟩ 0x28000 } = .ok ⟨[], [⟨1, 0, 1, []⟩], [], []⟩ :=
        placed_of (by decide +kernel)
      have hg : (({ s with kerns := s.kerns.put ⟨⟨0, 0⟩, 0, 0⟩ k1 } : State).placeGroups ⟨⟨0, 0⟩, 0, 0⟩ k1 [⟨1, 0, 1, []⟩] 0 0).isSome = true := by
        decide +kernel
      obtain ⟨s1, h1⟩ := Option.isSome_iff_exists.1 hg
      exact ⟨s, ⟨0, 0⟩, 0, ⟨⟨0, 0⟩, 0, 0⟩, kn .accepted 0x28000, k1, rfl, rfl, rfl, rfl, by decide, .inl rfl, rfl, rfl, by decide +kernel, by decide +kernel, rfl,
        .inr (by decide +kernel), by decide +kernel, fun _ => ⟨_, s1, s1, hp, h1, rfl⟩⟩
    · let s : State := { wN 1 (.partLq ⟨0, 0⟩ 0) .accepted with kerns := [(⟨⟨0, 0⟩, 0, 0⟩, kn .accepted 0x28080)] }
      exact ⟨s, ⟨0, 0⟩, 0, ⟨⟨0, 0⟩, 0, 0⟩, kn .accepted 0x28080, _, rfl, rfl, rfl, rfl, by decide, .inl rfl, rfl, rfl, by decide +kernel, by decide +kernel, rfl,
        .inr (by decide +kernel), by decide +kernel, fun h => absurd h (by decide)⟩
  · exact absurd (show e ∈ [] from h) List.not_mem_nil
  · intro w
    refine ⟨wE { fenceReq := true } w, ⟨0, 0⟩, ⟨⟨0, 0⟩, 0, 0⟩, wKd, rfl, rfl, rfl, rfl, rfl, by cases w <;> decide, rfl, rfl, rfl, rfl, ?_⟩
    cases w
    · exact ⟨by decide +kernel, fun _ => ⟨by decide +kernel, by decide +kernel⟩⟩
    · exact ⟨by decide +kernel, fun h => absurd h (by decide)⟩
  · intro w
    refine ⟨wE { fencing := true, recd := some { kerns := [⟨0, 0, .completing, []⟩] } } w, ⟨0, 0⟩, ⟨⟨0, 0⟩, 0, 0⟩, _, wKd, rfl, rfl, rfl, rfl, rfl, rfl, rfl, rfl, ?_⟩
    cases w
    · exact ⟨by decide +kernel, fun _ => ⟨by decide +kernel, by decide +kernel⟩⟩
    · exact ⟨by decide +kernel, fun h => absurd h (by decide)⟩
  · intro w
    refine ⟨wE { ending := [(0, 0)] } w, ⟨0, 0⟩, ⟨⟨0, 0⟩, 0, 0⟩, wKd, rfl, rfl, rfl, rfl, rfl, rfl, rfl, ?_⟩
    cases w
    · exact ⟨by decide +kernel, fun _ => ⟨by decide +kernel, by decide +kernel⟩⟩
    · exact ⟨by decide +kernel, fun h => absurd h (by decide)⟩

/-! ### Queue records, links, virtual devices, packages, frames -/

/-- The key of queue 7 of slot 0, and slot 0. -/
def wQk : PKey := ⟨⟨0, 0⟩, 7⟩
def wP0 : PartKey := ⟨0, 0⟩
/-- A state with queue 7 at a site. -/
def wAt (q : Queue) (site : Site) : State := { wK q State.reset with site := site }
/-- A window of 4 KiB for a queue that is not allocated. -/
def wWin : Win := { kind := 1, lsize := 12 }

/-- Each outcome of `open`, `seal`, `close`, of a descriptor write, of a write of `cr.rxcfg` and of `cr.ptcfg`. -/
theorem witness_QueueAndRegisterEvents :
    (∃ q : Queue, (wAt q (.obj wQk)).queue wQk = q ∧ q.state = .unallocated ∧ (q.plane = true ↔ q.esize ≠ 0) ∧ 0 < q.nprod ∧ q.win.kind = 1
        ∧ (q.spill = true → q.caskLen ≠ 0) ∧ (q.caskLen = 0 ∨ (State.reset.pkg 0).inHbm (q.caskBase * 65536) (q.caskLen * 65536) = true))
      ∧ (∀ st ∈ [QState.unallocated, .open, .spilling, .chained, .sealed, .frozen], ∃ q : Queue, (wAt q (.obj wQk)).queue wQk = q ∧ q.state = st)
      ∧ (∀ st ∈ [QState.open, .sealed], ∃ q : Queue, let s := wAt q (.obj wQk); s.site = .obj wQk ∧ s.queue wQk = q ∧ q.state = st ∧ q.els = [] ∧ q.cask = []
        ∧ q.stageToks = [] ∧ s.inletOf wQk = none ∧ s.outletsOf wQk = 0 ∧ q.strmProd = none ∧ q.strmCons = none)
      ∧ (∀ st ∈ [QState.open, .sealed], ∃ q : Queue, (wAt q (.obj wQk)).queue wQk = q ∧ q.state = st ∧ q.els ≠ [])
      ∧ (∃ d : BitVec 128, (wAt {} (.objV wQk d)).winRefused wQk (Win.ofBits 0 d) = false)
      ∧ (∃ d : BitVec 128, (wAt {} (.objV wQk d)).winRefused wQk (Win.ofBits 0 d) = true)
      ∧ (∃ (s : State) (c : Nat) (v : Word) (x : Ctx), s.site = .ctxV c v ∧ s.ctxs.get? c = some x)
      ∧ (∀ form ∈ [Form.bare, .fiveDie, .onModule], ∃ (s : State) (c : Nat) (v : Word) (x : Ctx), s.site = .ctxV c v ∧ s.ctxs.get? c = some x ∧ (s.pkg x.pk.pkg).form = form)
      ∧ (∀ form ∈ [Form.bare, .fiveDie, .onModule], ∃ (s : State) (k : PKey) (v : BitVec 128), s.site = .objV k v ∧ (s.pkg k.pk.pkg).form = form ∧ (s.rx k).cfg.getLsbD 63 = true)
      ∧ (∃ (s : State) (k : PKey) (v : BitVec 128), s.site = .objV k v ∧ (s.pkg k.pk.pkg).bare = false ∧ (s.rx k).cfg.getLsbD 63 = false ∧ s.rxRefused k (v.extractLsb' 0 64) = false)
      ∧ ∃ (s : State) (pk : PartKey) (v : Word), s.site = .partV pk v ∧ v.getLsbD 63 ≠ (s.part pk).ptcfg.getLsbD 63 := by
  refine ⟨⟨{ nprod := 1, win := wWin }, rfl, rfl, by decide, by decide, rfl, by decide, .inl rfl⟩, ?_, ?_, ?_, ⟨0, by decide⟩,
    ⟨2 <<< 120, by decide⟩, ⟨{ State.reset with site := .ctxV 1 5, ctxs := [(1, wX)] }, 1, 5, wX, rfl, rfl⟩, ?_, ?_,
    ⟨wAt { wQc with state := .open, win := { kind := 4, lsize := 12 } } (.objV wQk (0x8800000000000000 ||| 7 <<< 30)), wQk, _, rfl, rfl, rfl, by decide⟩,
    ⟨{ State.reset with site := .partV wP0 0 }, wP0, 0, rfl, by decide⟩⟩ <;> intro st h
  · exact ⟨{ state := st }, rfl, rfl⟩
  · simp only [List.mem_cons, List.not_mem_nil, or_false] at h
    rcases h with rfl | rfl
    · exact ⟨{ state := .open }, rfl, rfl, rfl, rfl, rfl, rfl, rfl, rfl, rfl, rfl⟩
    · exact ⟨{ state := .sealed }, rfl, rfl, rfl, rfl, rfl, rfl, rfl, rfl, rfl, rfl⟩
  · exact ⟨{ state := st, els := [{}] }, rfl, rfl, by simp⟩
  · exact ⟨{ State.reset with site := .ctxV 1 5, ctxs := [(1, wX)], pkgs := [(0, { form := st })] }, 1, 5, wX, rfl, rfl, rfl⟩
  · exact ⟨{ State.reset with site := .objV wQk 0, pkgs := [(0, { form := st })], rxs := [(wQk, { cfg := 0x8000000000000000 })] }, wQk, 0, rfl, rfl, by show (0x8000000000000000 : Word).getLsbD 63 = true; decide⟩

/-- A link in a state. -/
def wLk (k : LinkKey) (l : Link) : State := { State.reset with site := .link k, links := [(k, l)] }
/-- A chain over Septermoon link 0 to queue 9 of package 5, and its queue in package 0, with package 5 present and the link up. -/
def wCh (conf : Bool) (n : Nat) (expected : BitVec 32) : Chain :=
  { cls := 1, remPkg := 5, remQ := 9, conf := conf, sent := 3, unack := (List.range n).map fun i => (BitVec.ofNat 32 i, { bits := 1 }), expected := expected }
def wCs (st : QState) (c : Chain) (far : Bool) (dest : Queue) (site : Site) : State :=
  { State.reset with
    site := site, links := [(⟨0, .sept, 0⟩, { st := .up })]
    queues := [(wQk, { state := st, nprod := 1, els := [{ bits := 1 }, { bits := 2 }], chain := some c, win := wWin }), (⟨⟨5, 0⟩, 9⟩, dest)]
    pkgs := if far then [(0, { podmap := [(5, 0x80000000)] }), (5, { num := 5 })] else [(0, {})] }

theorem witness_LinkAndChainEvents :
    (∀ cls ∈ [LnkCls.die, .sept, .ue], ∀ st ∈ [LState.down, .training, .up, .retraining], ∃ (s : State) (k : LinkKey) (l : Link), s.site = .link k ∧ s.link k = l ∧ l.st = st ∧ k.cls = cls
        ∧ l.fails = 7)
      ∧ (∀ st ∈ [LState.training, .retraining], ∃ (s : State) (k : LinkKey) (l : Link), s.site = .link k ∧ s.link k = l ∧ k.cls ≠ .die
        ∧ 2 ^ 20 ≤ (s.cycle k.pkg 0 - l.start).toNat ∧ l.st = st)
      ∧ (∀ e ∈ [(QState.open, true), (.unallocated, false)], ∃ (s : State) (k : PKey) (q : Queue) (c : Chain) (d : PKey), s.site = .objOk k true ∧ s.queue k = q
        ∧ q.state ≠ .unallocated ∧ q.chain = some c ∧ c.link ≠ 31 ∧ c.conf = false ∧ c.ending = false ∧ s.chainUp k c = true
        ∧ s.chainDest k c = some d ∧ s.chainMeets q d = e.2)
      ∧ (∀ prodk : Bool, ∃ (s : State) (k : PKey) (q : Queue) (c : Chain) (e : QElem), s.site = .obj k ∧ s.queue k = q ∧ q.state = .chained ∧ q.chain = some c ∧ c.link ≠ 31
        ∧ c.conf = true ∧ c.ending = false ∧ s.chainUp k c = true ∧ q.els[c.unack.length]? = some e
        ∧ q.state ≠ .frozen ∧ q.prodk = prodk
        ∧ ∃ d, s.chainDest k c = some d ∧ 0 < s.roomFor d .chain ∧ (s.queue d).state ≠ .sealed ∧ s.outOfTurn d e.round = prodk)
      ∧ (∃ (s : State) (k : PKey) (n : Nat) (q : Queue) (c : Chain) (g : BitVec 32 × QElem), s.site = .objN k n ∧ s.queue k = q ∧ q.state = .chained
        ∧ q.chain = some c ∧ s.chainUp k c = true ∧ c.unack[n]? = some g ∧ s.chainDest k c = none ∧ g.1 = c.expected ∧ c.held = [])
      ∧ (∃ (s : State) (k : PKey) (n : Nat) (q : Queue) (c : Chain) (g : BitVec 32 × QElem), s.site = .objN k n ∧ s.queue k = q ∧ q.state = .chained
        ∧ q.chain = some c ∧ s.chainUp k c = true ∧ c.unack[n]? = some g ∧ s.chainDest k c = none ∧ 2 ^ 31 ≤ (g.1 - c.expected).toNat)
      ∧ (∃ (s : State) (k d : PKey) (q : Queue) (c : Chain) (g : BitVec 32 × QElem), s.site = .objN k 0 ∧ s.queue k = q ∧ q.state = .chained
        ∧ q.chain = some c ∧ s.chainUp k c = true ∧ c.unack.head? = some g ∧ s.chainDest k c = some d ∧ d ≠ k ∧ (s.queue d).state = .open
        ∧ (s.queue d).stage = .pass ∧ (s.queue d).cask = [] ∧ (s.queue d).journal = false
        ∧ (g.2.marker = false ∨ (s.queue k).consMarkers ≤ c.cm + 1) ∧ g.1 = c.expected ∧ c.held = [])
      ∧ (∃ (s : State) (k : PKey) (q : Queue) (c : Chain) (g : BitVec 32 × QElem) (r : List (BitVec 32 × QElem)) (el : QElem) (es : List QElem),
        s.site = .objN k 0 ∧ s.queue k = q ∧ q.state = .chained ∧ q.chain = some c ∧ s.chainUp k c = true ∧ c.ending = false ∧ c.unack = g :: r
        ∧ 2 ^ 31 ≤ (g.1 - c.expected).toNat ∧ q.win.pins = 0 ∧ q.stageToks = [] ∧ q.els = el :: es)
      ∧ (∀ b ∈ [BankSt.draining 3 (some 4), .scrubbing (some 4)], ∃ (s : State) (k : BankKey), s.site = .bank k ∧ s.bank k = b
        ∧ ∀ e ∈ s.ctxs, e.2.pk = ⟨k.pkg, 3⟩ → e.2.fx.q14 = [])
      ∧ ∀ key ∈ [none, some 8191], ∃ (s : State) (n : Nat) (h : Shoot), s.site = .num n ∧ s.shoots[n]? = some h ∧ s.acknowledged h = true ∧ h.key = key := by
  refine ⟨?_, fun st _ => ⟨wLk ⟨0, .ue, 7⟩ { st := st, start := 1 }, ⟨0, .ue, 7⟩, _, rfl, rfl, by decide, by show 2 ^ 20 ≤ ((0 : Word) - 1).toNat; decide, rfl⟩, ?_,
    ?_,
    ⟨wCs .chained (wCh true 1 0) false {} (.objN wQk 0), wQk, 0, _, wCh true 1 0, _, rfl, rfl, rfl, rfl, by decide, rfl, by decide, rfl, rfl⟩,
    ⟨wCs .chained (wCh true 1 1) false {} (.objN wQk 0), wQk, 0, _, wCh true 1 1, _, rfl, rfl, rfl, rfl, by decide, rfl, by decide, by decide⟩,
    ⟨wCs .chained (wCh true 1 0) true { wQc with els := [] } (.objN wQk 0), wQk, ⟨⟨5, 0⟩, 9⟩, _, wCh true 1 0, _, rfl, rfl, rfl, rfl, by decide, rfl,
      by decide, by decide, rfl, rfl, rfl, rfl, .inl rfl, rfl, rfl⟩,
    ⟨wCs .chained (wCh true 2 1) false {} (.objN wQk 0), wQk, _, wCh true 2 1, _, _, _, _, rfl, rfl, rfl, rfl, by decide, rfl, rfl, by decide, rfl, rfl, rfl⟩, ?_, ?_⟩
  · intro cls _ st _
    exact ⟨wLk ⟨0, cls, 3⟩ { st := st, fails := 7 }, ⟨0, cls, 3⟩, { st := st, fails := 7 }, rfl, by cases cls <;> rfl, rfl, rfl, rfl⟩
  · intro e he
    simp only [List.mem_cons, List.not_mem_nil, or_false] at he
    rcases he with rfl | rfl
    · exact ⟨wCs .open (wCh false 0 0) true { wQc with prodk := false } (.objOk wQk true), wQk, _, wCh false 0 0, ⟨⟨5, 0⟩, 9⟩, rfl, rfl, by decide, rfl,
        by decide, rfl, rfl, by decide, by decide, by decide⟩
    · exact ⟨wCs .open (wCh false 0 0) true {} (.objOk wQk true), wQk, _, wCh false 0 0, ⟨⟨5, 0⟩, 9⟩, rfl, rfl, by decide, rfl, by decide, rfl, rfl,
        by decide, by decide, by decide⟩
  · intro prodk
    let s : State := wCs .chained (wCh true 1 0) true { wQc with els := [], plane := false, prodk := false, arnd := if prodk then 1 else 0 } (.obj wQk)
    let t : State := { s with queues := s.queues.map fun e => if e.1 = wQk then (e.1, { e.2 with prodk := prodk }) else e }
    refine ⟨t, wQk, t.queue wQk, wCh true 1 0, { bits := 2 }, ?_⟩
    cases prodk
    · exact ⟨rfl, rfl, rfl, rfl, by decide, rfl, rfl, by decide, rfl, by decide, rfl, ⟨⟨5, 0⟩, 9⟩, by decide, by decide, by decide, by decide⟩
    · exact ⟨rfl, rfl, rfl, rfl, by decide, rfl, rfl, by decide, rfl, by decide, rfl, ⟨⟨5, 0⟩, 9⟩, by decide, by decide, by decide, by decide⟩
  · intro b hb
    exact ⟨{ State.reset with site := .bank ⟨0, 0, .c, 7⟩, banks := [(⟨0, 0, .c, 7⟩, b)] }, ⟨0, 0, .c, 7⟩, rfl, rfl,
      fun e h _ => absurd (show e ∈ [] from h) List.not_mem_nil⟩
  · intro key _
    exact ⟨{ State.reset with site := .num 0, shoots := [{ pk := wP0, page := none, key := key }] }, 0, _, rfl, rfl, rfl, rfl⟩

/-- Slot 0 of package 0 in a state, at a site. -/
def wPt (p : Part) (site : Site) : State := { State.reset with site := site, parts := [(wP0, p)] }
/-- Packages 0 and 1 of a pod, with slot 0 of each. -/
def wPod (a b : Part) (site : Site) : State :=
  { State.reset with site := site, pkgs := [(0, {}), (1, { num := 1 })], parts := [(wP0, a), (⟨1, 0⟩, b)] }
/-- A page that moves from frame 2 of package 1 to frame 9 of package 0. -/
def wMv (va : Nat) : Moving := { asn := 0, va := va, size := 0, st := 1, src := 2, dst := 9 }
/-- A device that pulls that page from package 1. -/
def wPull (pulls : List (BitVec 16 × Nat)) : Part := { st := .pulling, opkg := 1, transit := [wMv 0x10000, wMv 0x20000], pulls := pulls }

theorem witness_VirtualDeviceEvents :
    (∃ (s : State) (pk : PartKey), s.site = .part pk ∧ (s.part pk).st = .quiescing ∧ (∀ e ∈ s.ctxs, e.2.pk = pk → (e.2.st = .saved ∨ e.2.st = .ended ∨ e.2.st = .faulted)
        ∧ e.2.path = []) ∧ ∀ a ∈ s.amos, a.pk ≠ pk)
      ∧ (∃ (s : State) (pk : PartKey), s.site = .part pk ∧ (s.part pk).st = .resident ∧ fld (s.part pk).vdcfg 0 16 ≠ 0
        ∧ fld (s.part pk).vdcfg 0 16 * 65536 ≤ (s.cycle pk.pkg 0 - (s.part pk).stamp).toNat ∧ ∃ e ∈ s.kerns, e.1.pk = pk ∧ e.2.runs = true)
      ∧ (∀ wasPull : Bool, ∃ (s : State) (pk : PartKey) (r : FenceRec) (u : State), s.site = .part pk ∧ (s.part pk).st = .replaying ∧ (s.part pk).recd = some r ∧ (s.pkg pk.pkg).lost = false
        ∧ (s.part pk).wasPull = wasPull ∧ (s.asRecorded pk r).finishAll pk r.ends = ([], u) ∧ (u.part pk).wasPull = wasPull
        ∧ ((u.part pk).transit = [] ↔ (s.part pk).transit = []))
      ∧ (∃ (s : State) (pk : PartKey) (b : PartKey) (p : Part) (q : Moving), s.site = .part pk ∧ (s.part pk).st = .inTransit ∧ s.otherSlot (s.part pk) = b ∧ s.part b = p ∧ p.movedIn = true ∧ p.pulls = []
        ∧ q ∈ p.transit)
      ∧ (∃ (s : State) (a : PartKey) (c : Nat), s.site = .partOk a false ∧ (s.part a).st = .quiesced ∧ (s.part a).vdBy = some c)
      ∧ (∃ (s : State) (a : PartKey) (c : Nat) (b : PartKey), s.site = .partOk a true ∧ (s.part a).st = .quiesced ∧ (s.part a).vdBy = some c ∧ s.otherSlot (s.part a) = b
        ∧ s.canHost b (s.part a).area = true ∧ (s.transfer a b).groupsFit b = true)
      ∧ (∀ bad : Bool, ∃ (s : State) (b : PartKey) (v : Word) (p : Part) (m : Moving), s.site = .partV b v ∧ s.part b = p ∧ p.transit.find? (fun m => m.dst * 65536 = v.toNat) = some m ∧ p.movedIn = true
        ∧ p.asked m = true ∧ (s.pkg (s.otherSlot p).pkg).lost = false ∧ s.updatesIn b (s.otherSlot p).pkg m = false
        ∧ s.pageBad (s.otherSlot p).pkg m = bad ∧ s.otherSlot p ≠ b ∧ p.st = .pulling)
      ∧ (∃ (s : State) (k : PartKey) (v : Word) (num : Nat) (off : Nat) (d : PartKey), s.site = .partV k v ∧ (s.pkg k.pkg).space v.toNat = .remote num off ∧ (s.pkg k.pkg).paired k.part num = true
        ∧ (s.pkg k.pkg).redirs.get? (1024 * k.part + num) = none ∧ s.movedTo k num (off / 65536) = some d)
      ∧ (∀ st ∈ [LState.up, .retraining], ∃ (s : State) (w : LostPart) (k : LinkKey), s.site = .lost w ∧ w = .link k ∧ k.cls ≠ .die ∧ (s.link k).st = st)
      ∧ (∃ (s : State) (w : LostPart), s.site = .lost w ∧ w = .die 0 3 ∧ (s.pkg 0).dieHere 3 = true)
      ∧ (∃ (s : State) (w : LostPart), s.site = .lost w ∧ w = .stack 0 7 ∧ (s.pkg 0).stackHere (7 / 2) (7 % 2) = true)
      ∧ ∃ (s : State) (w : LostPart) (pk : PartKey), s.site = .lost w ∧ w = .package 0 ∧ (s.pkg 0).lost = false ∧ (∀ e ∈ s.parts, e.2.movedIn = false) ∧ pk.pkg = 0
        ∧ (s.part pk).st ≠ .vacant ∧ fld (s.part pk).vdcfg 62 2 ≠ 2 := by
  refine ⟨⟨wPt { st := .quiescing } (.part wP0), wP0, rfl, rfl, fun e h _ => absurd (show e ∈ [] from h) List.not_mem_nil,
      fun e h => absurd (show e ∈ [] from h) List.not_mem_nil⟩,
    ⟨{ wPt { st := .resident, vdcfg := 1, stamp := -65536 } (.part wP0) with
        kerns := [(wKk 0, { st := .running, pa := 0, va := 0, srcPriv := false, host := false })] }, wP0, rfl, rfl, by decide, by decide,
      _, List.mem_singleton.2 rfl, rfl, rfl⟩, fun w => ?_,
    ⟨wPod { st := .inTransit, opkg := 1 } (wPull []) (.part wP0), wP0, ⟨1, 0⟩, wPull [], wMv 0x10000, rfl, rfl, by decide, rfl, rfl, rfl, by simp [wPull]⟩,
    ⟨wPt { st := .quiesced, vdBy := some 1 } (.partOk wP0 false), wP0, 1, rfl, rfl, rfl⟩,
    ⟨wPod { st := .quiesced, opkg := 1, vdBy := some 1 } {} (.partOk wP0 true), wP0, 1, ⟨1, 0⟩, rfl, rfl, rfl, by decide, by decide, by decide⟩, fun b => ?_,
    ⟨{ State.reset with
        site := .partV wP0 0x4050000020000, pkgs := [(0, { podmap := [(5, 0x80000000)] }), (1, { num := 1 })]
        parts := [(⟨1, 0⟩, { st := .settled, opkg := 5, aliases := [(2, 7)] })] },
      wP0, 0x4050000020000, 5, 0x20000, ⟨1, 0⟩, rfl, by decide, by decide, rfl, by decide⟩,
    fun st _ => ⟨{ State.reset with site := .lost (.link ⟨0, .ue, 3⟩), links := [(⟨0, .ue, 3⟩, { st := st })] }, _, ⟨0, .ue, 3⟩, rfl, rfl, by decide, rfl⟩,
    ⟨{ State.reset with site := .lost (.die 0 3) }, _, rfl, rfl, by decide⟩, ⟨{ State.reset with site := .lost (.stack 0 7) }, _, rfl, rfl, by decide⟩,
    ⟨wPt { st := .resident } (.lost (.package 0)), _, wP0, rfl, rfl, rfl, ?_, rfl, by decide, by decide⟩⟩
  · exact ⟨wPt { st := .replaying, recd := some {}, wasPull := w } (.part wP0), wP0, _, _, rfl, rfl, rfl, rfl, rfl, rfl, rfl, .rfl⟩
  · let s : State := { wPod (wPull [(0, 0x10000)]) { st := .inTransit } (.partV wP0 0x90000) with bad := if b then [granule (memKey 1 0x20000)] else [] }
    cases b
    · exact ⟨s, wP0, 0x90000, _, wMv 0x10000, rfl, rfl, by decide, rfl, by decide, by decide, by decide, by decide, by decide, rfl⟩
    · exact ⟨s, wP0, 0x90000, _, wMv 0x10000, rfl, rfl, by decide, rfl, by decide, by decide, by decide, by decide, by decide, rfl⟩
  · intro e h
    have : e = (wP0, { st := .resident }) := List.mem_singleton.1 h
    subst this
    rfl

/-- A package that performs the command `v`, with slot 0 a given one, its argument area, keys and port map, and the group 255 of slot 0. -/
def wMb (v : Word) (p : Part) (keys : Tab Nat KeyEnt := []) (arg : Vector Word 512 := Vector.replicate 512 0) (g : Group := wGr .resident 3)
    (ports : Tab Nat Word := []) : State :=
  { wPt p (.pkg 0) with pkgs := [(0, { mbState := 1, mbCmd := v, keys := keys, arg := arg, portmap := ports })], groups := [(⟨wP0, 255⟩, g)] }
/-- The slot and the argument of the command that package 0 performs. -/
abbrev wSlot (s : State) : PartKey := ⟨0, fld (s.pkg 0).mbCmd 51 5⟩
abbrev wArg (s : State) : Nat := fld (s.pkg 0).mbCmd 0 51
/-- Package 0 performs a command of a code. -/
abbrev Mb (s : State) (code : Nat) : Prop := s.site = .pkg 0 ∧ (s.pkg 0).lost = false ∧ (s.pkg 0).mbState = 1 ∧ fld (s.pkg 0).mbCmd 56 8 = code
/-- A key entry of slot 0. -/
def wKy (owner : Nat) : Tab Nat KeyEnt := [(8191, { valid := true, owner := owner })]
/-- A queue chained to peer 0 of port 0. -/
def wPeerQ (s : State) : State := { s with queues := [(wQk, { state := .open, chain := some { cls := 2 } })] }
/-- Slots 0 and 1, each assigned frame 2 of local HBM. -/
def wBoth (s : State) : State := { s with parts := s.parts ++ [(⟨0, 1⟩, { st := .resident, area := (s.pkg 0).argArea })] }
theorem argW_zeros (v : Word) (p : Part) (i : Nat) : ((wMb v p).pkg 0).argW i = 0 := by
  show ((Vector.replicate 512 (0 : Word))[i]?).getD 0 = 0
  rcases Nat.lt_or_ge i 512 with h | h
  · simp [h]
  · simp [Vector.getElem?_eq_none h]

/-- Each refusal and each acceptance of `assign`, `clear`, `preempt` and `podmap`. -/
theorem witness_PackageEvents_slots :
    (∃ s, Mb s 1 ∧ (s.part (wSlot s)).st ≠ .vacant)
      ∧ (∃ s, Mb s 1 ∧ (s.part (wSlot s)).st = .vacant ∧ (s.pkg 0).areaBad (s.pkg 0).argArea = true)
      ∧ (∃ s, Mb s 1 ∧ (s.part (wSlot s)).st = .vacant ∧ ∃ i, 32 ≤ i ∧ i < 512 ∧ (s.pkg 0).argW i ≠ 0)
      ∧ (∀ b : Bool, ∃ s, Mb s 1 ∧ (s.part (wSlot s)).st = .vacant ∧ (s.pkg 0).areaBad (s.pkg 0).argArea = false ∧ (∀ i, 32 ≤ i → (s.pkg 0).argW i = 0)
        ∧ s.areaTaken (wSlot s) (s.pkg 0).argArea = b)
      ∧ (∀ e ∈ [(VState.vacant, false), (.resident, true)], ∃ s, Mb s 2 ∧ (s.part (wSlot s)).st = e.1 ∧ s.hasKern (wSlot s) = e.2)
      ∧ (∀ st ∈ [VState.failed, .resident], ∃ s, Mb s 2 ∧ (s.part (wSlot s)).st = st ∧ s.hasKern (wSlot s) = false)
      ∧ (∃ s, Mb s 3 ∧ argF (wArg s) 9 42 ≠ 0)
      ∧ (∃ s, Mb s 3 ∧ argF (wArg s) 9 42 = 0 ∧ s.groups.get? (objKey (wSlot s) (argF (wArg s) 0 8)) = none)
      ∧ (∀ st ∈ [GState.resident, .collecting, .saved], ∃ s g, Mb s 3 ∧ argF (wArg s) 9 42 = 0 ∧ s.groups.get? (objKey (wSlot s) (argF (wArg s) 0 8)) = some g
        ∧ argF (wArg s) 8 1 = 0 ∧ g.st = st)
      ∧ (∀ hold : Bool, ∃ s g, Mb s 3 ∧ argF (wArg s) 9 42 = 0 ∧ s.groups.get? (objKey (wSlot s) (argF (wArg s) 0 8)) = some g
        ∧ argF (wArg s) 8 1 = 1 ∧ g.hold = hold)
      ∧ (∀ b : Bool, ∃ s, Mb s 4 ∧ argF (wArg s) 50 1 = 1 ∧ decide (argF (wArg s) 10 40 = 0) = b)
      ∧ (∃ s, Mb s 4 ∧ argF (wArg s) 50 1 = 0 ∧ wArg s ≠ 0)
      ∧ (∃ s, Mb s 4 ∧ argF (wArg s) 50 1 = 0 ∧ ((s.pkg 0).argQ 1023).extractLsb' 5 26 ≠ 0)
      ∧ (∃ s, Mb s 4 ∧ argF (wArg s) 50 1 = 0 ∧ ((s.pkg 0).argQ 0).getLsbD 31 = true ∧ 0 = (s.pkg 0).num.toNat)
      ∧ ∃ s, Mb s 4 ∧ wArg s = 0 ∧ ∀ q, q < 1024 → ((s.pkg 0).argQ q).extractLsb' 5 26 = 0 ∧ ¬ (((s.pkg 0).argQ q).getLsbD 31 = true ∧ q = (s.pkg 0).num.toNat) := by
  let z : Vector Word 512 := Vector.replicate 512 0
  refine ⟨⟨wMb (1 <<< 56) { st := .resident }, by decide, by decide⟩, ⟨wMb (1 <<< 56) {} [] (z.set 31 1), by decide, by decide, by decide +kernel⟩,
    ⟨wMb (1 <<< 56) {} [] (z.set 511 1), by decide, by decide, 511, by decide, by decide, by decide +kernel⟩, ?_, ?_, ?_,
    ⟨wMb ((3 <<< 56) ||| 512) {}, by decide, by decide⟩, ⟨wMb ((3 <<< 56) ||| 254) {}, by decide, by decide, by decide⟩, ?_, ?_, ?_,
    ⟨wMb ((4 <<< 56) ||| 1) {}, by decide, by decide, by decide⟩, ⟨wMb (4 <<< 56) {} [] (z.set 511 0x2000000000), by decide, by decide, by decide +kernel⟩,
    ⟨wMb (4 <<< 56) {} [] (z.set 0 0x80000000), by decide, by decide, by decide +kernel, by decide⟩,
    ⟨wMb (4 <<< 56) {}, by decide, by decide, fun q _ => ?_⟩⟩
  · intro b
    cases b
    · exact ⟨wMb (1 <<< 56) {}, by decide, by decide, by decide +kernel, fun i _ => argW_zeros _ _ i, by decide +kernel⟩
    · refine ⟨wBoth (wMb (1 <<< 56) {} [] ((z.set 12 0x20000).set 13 0x10000)), by decide, by decide, by decide +kernel, fun i h => ?_, by decide +kernel⟩
      have h13 : i ≠ 13 := fun e => by omega
      have h12 : i ≠ 12 := fun e => by omega
      show ((((Vector.replicate 512 (0 : Word)).set 12 0x20000).set 13 0x10000)[i]?).getD 0 = 0
      rw [Vector.getElem?_set_ne (by decide) (Ne.symm h13), Vector.getElem?_set_ne (by decide) (Ne.symm h12)]
      exact argW_zeros 0 {} i
  · intro e he
    simp only [List.mem_cons, List.not_mem_nil, or_false] at he
    rcases he with rfl | rfl
    · exact ⟨wMb (2 <<< 56) {}, by decide, by decide, by decide⟩
    · exact ⟨{ wMb (2 <<< 56) { st := .resident } with kerns := [(⟨wP0, 0, 0⟩, wKd)] }, by decide, by decide, by decide⟩
  · intro st h
    simp only [List.mem_cons, List.not_mem_nil, or_false] at h
    rcases h with rfl | rfl
    · exact ⟨wMb (2 <<< 56) { st := .failed }, by decide, by decide, by decide⟩
    · exact ⟨wMb (2 <<< 56) { st := .resident }, by decide, by decide, by decide⟩
  · intro st h
    refine ⟨wMb ((3 <<< 56) ||| 255) {} [] z (wGr st 3), wGr st 3, ?_⟩
    simp only [List.mem_cons, List.not_mem_nil, or_false] at h
    rcases h with rfl | rfl | rfl <;> decide
  · intro hold
    refine ⟨wMb ((3 <<< 56) ||| 256 ||| 255) {} [] z { wGr .saved 3 with hold := hold }, { wGr .saved 3 with hold := hold }, ?_⟩
    cases hold <;> decide
  · intro b
    cases b
    · exact ⟨wMb ((4 <<< 56) ||| 0x4000000000400) {}, by decide, by decide, by decide⟩
    · exact ⟨wMb ((4 <<< 56) ||| 0x40000000003FF) {}, by decide, by decide, by decide⟩
  · have h : ((wMb (4 <<< 56) {}).pkg 0).argQ q = 0 := by
      unfold Pkg.argQ
      rw [argW_zeros]
      simp
    rw [h]
    exact ⟨by decide, fun e => absurd e.1 (by decide)⟩

/-- Each refusal and each acceptance of `portmap`, `peer`, `linkadm`, `keyset`, `keyinv` and `attest`. -/
theorem witness_PackageEvents_tables :
    (∃ s, Mb s 5 ∧ argF (wArg s) 8 5 ≠ 0)
      ∧ (∃ s, ∃ e ∈ (s.pkg 0).portmap, Mb s 5 ∧ argF (wArg s) 8 5 = 0 ∧ argF (wArg s) 13 1 = 1 ∧ e.1 ≠ 1024 * argF (wArg s) 48 3 + argF (wArg s) 38 10
        ∧ e.1 / 1024 = argF (wArg s) 48 3 ∧ e.2.getLsbD 63 = true ∧ fld e.2 32 24 = argF (wArg s) 14 24)
      ∧ (∃ s, Mb s 5 ∧ argF (wArg s) 8 5 = 0 ∧ argF (wArg s) 13 1 = 0)
      ∧ (∃ s, Mb s 6 ∧ argF (wArg s) 11 37 ≠ 0)
      ∧ (∀ b : Bool, ∃ s, Mb s 6 ∧ argF (wArg s) 11 37 = 0 ∧ argF (wArg s) 10 1 = 0 ∧ s.peerUsed 0 (argF (wArg s) 48 3) (argF (wArg s) 0 10) = b)
      ∧ (∃ s, Mb s 6 ∧ argF (wArg s) 11 37 = 0 ∧ argF (wArg s) 10 1 = 1)
      ∧ (∀ n ∈ [1, 2], ∃ s, Mb s 7 ∧ wArg s = n)
      ∧ (∃ s, Mb s 8 ∧ argF (wArg s) 2 14 ≠ 0) ∧ (∃ s, Mb s 8 ∧ argF (wArg s) 29 22 ≠ 0) ∧ (∃ s, Mb s 8 ∧ argF (wArg s) 0 2 = 3)
      ∧ (∀ e ∈ [(VState.vacant, false), (.resident, true), (.resident, false)], ∃ s, Mb s 8 ∧ ¬ (argF (wArg s) 2 14 ≠ 0 ∨ argF (wArg s) 29 22 ≠ 0 ∨ argF (wArg s) 0 2 = 3)
        ∧ (s.part (wSlot s)).st = e.1 ∧ ((s.pkg 0).key (argF (wArg s) 16 13)).valid = e.2)
      ∧ (∃ s, Mb s 9 ∧ argF (wArg s) 0 16 ≠ 0) ∧ (∃ s, Mb s 9 ∧ argF (wArg s) 29 22 ≠ 0)
      ∧ (∃ s, Mb s 9 ∧ argF (wArg s) 0 16 = 0 ∧ argF (wArg s) 29 22 = 0 ∧ ((s.pkg 0).key (argF (wArg s) 16 13)).valid = false)
      ∧ (∀ o ∈ [0, 1], ∃ s, Mb s 9 ∧ argF (wArg s) 0 16 = 0 ∧ argF (wArg s) 29 22 = 0 ∧ ((s.pkg 0).key (argF (wArg s) 16 13)).valid = true
        ∧ ((s.pkg 0).key (argF (wArg s) 16 13)).owner = (wSlot s).part + o ∧ s.shoots = [])
      ∧ ∀ n ∈ [0, 1], ∃ s, Mb s 10 ∧ wArg s = n := by
  refine ⟨⟨wMb ((5 <<< 56) ||| 0x1F00) {}, by decide, by decide⟩,
    ⟨wMb ((5 <<< 56) ||| 0x2000) {} [] (Vector.replicate 512 0) (wGr .resident 3) [(1023, 1 <<< 63)], _, .head _, by decide⟩,
    ⟨wMb ((5 <<< 56) ||| 0xFF) {}, by decide, by decide, by decide⟩, ⟨wMb ((6 <<< 56) ||| 0x800) {}, by decide, by decide⟩, ?_,
    ⟨wMb ((6 <<< 56) ||| 0x7FF) {}, by decide, by decide, by decide⟩, ?_, ⟨wMb ((8 <<< 56) ||| 0x8000) {}, by decide, by decide⟩,
    ⟨wMb ((8 <<< 56) ||| (1 <<< 29)) {}, by decide, by decide⟩, ⟨wMb ((8 <<< 56) ||| 3) {}, by decide, by decide⟩, ?_,
    ⟨wMb ((9 <<< 56) ||| 0x8000) {}, by decide, by decide⟩, ⟨wMb ((9 <<< 56) ||| (1 <<< 50)) {}, by decide, by decide⟩,
    ⟨wMb ((9 <<< 56) ||| (8191 <<< 16)) {}, by decide, by decide, by decide, by decide⟩, ?_, ?_⟩
  · intro b
    cases b
    · exact ⟨wMb ((6 <<< 56) ||| 0x3FF) {}, by decide, by decide, by decide, by decide⟩
    · exact ⟨wPeerQ (wMb (6 <<< 56) {}), by decide, by decide, by decide, by decide⟩
  · intro n h
    simp only [List.mem_cons, List.not_mem_nil, or_false] at h
    rcases h with rfl | rfl
    · exact ⟨wMb ((7 <<< 56) ||| 1) {}, by decide, by decide⟩
    · exact ⟨wMb ((7 <<< 56) ||| 2) {}, by decide, by decide⟩
  · intro e h
    simp only [List.mem_cons, List.not_mem_nil, or_false] at h
    rcases h with rfl | rfl | rfl
    · exact ⟨wMb ((8 <<< 56) ||| (8191 <<< 16) ||| 2) {}, by decide, by decide, by decide, by decide⟩
    · exact ⟨wMb ((8 <<< 56) ||| (8191 <<< 16) ||| 2) { st := .resident } (wKy 0), by decide, by decide, by decide, by decide⟩
    · exact ⟨wMb ((8 <<< 56) ||| (8191 <<< 16) ||| 2) { st := .resident }, by decide, by decide, by decide, by decide⟩
  · intro o h
    simp only [List.mem_cons, List.not_mem_nil, or_false] at h
    rcases h with rfl | rfl
    · exact ⟨wMb ((9 <<< 56) ||| (8191 <<< 16)) {} (wKy 0), by decide, by decide, by decide, by decide, by decide, rfl⟩
    · exact ⟨wMb ((9 <<< 56) ||| (8191 <<< 16)) {} (wKy 1), by decide, by decide, by decide, by decide, by decide, rfl⟩
  · intro n h
    simp only [List.mem_cons, List.not_mem_nil, or_false] at h
    rcases h with rfl | rfl
    · exact ⟨wMb (10 <<< 56) {}, by decide, by decide⟩
    · exact ⟨wMb ((10 <<< 56) ||| 1) {}, by decide, by decide⟩

/-- A package that the host writes to. -/
def wHw (w : HostWr) (p : Pkg := {}) : State := { State.reset with site := .host 0 w, pkgs := [(0, p)] }
/-- The lease of a context on the line of frame 2. -/
def wHold : Ctx := { wX with lease := { st := .held (memKey 0 0x20000 / 128) wTr 5 } }

/-- Device reset, an adjustment of a die, and each case of a host write. -/
theorem witness_PackageEvents :
    (∃ (s : State) (k : Nat) (p : Pkg), s.site = .pkg k ∧ s.pkgs.get? k = some p ∧ s.mem.wf = true)
      ∧ (∀ d ∈ [0, 3], ∃ (s : State) (k : Nat) (n : Nat) (p : Pkg), s.site = .dieN k d n ∧ s.pkgs.get? k = some p ∧ d < 4)
      ∧ (∀ e ∈ [(2 ^ 39 - 1, false, false), (0xFFF8, true, true), (0x20000, true, false), (2 ^ 39 - 2, true, false), (2 ^ 40, true, false)],
        ∃ (s : State) (pa : Nat) (l : List Byte), s.site = .host 0 (.mem pa l) ∧ (s.pkg 0).lost = false ∧ pa = e.1
        ∧ ((∃ d o, (s.pkg 0).space pa = .hbm d o) ∨ (s.pkg 0).space pa = .lpddr) ∧ (s.pkg 0).inLocal pa l.length = e.2.1
        ∧ s.hostDiscards 0 none pa l.length = e.2.2 ∧ s.late = [] ∧ (∀ n ∈ hostLines 0 pa l.length, s.lineShut .host none n = false) ∧ s.mem.wf = true)
      ∧ (∀ b : Bool, ∃ (s : State) (l : List Byte), s.site = .host 0 (.mem 0x20000 l) ∧ (s.pkg 0).lost = false ∧ (s.pkg 0).inLocal 0x20000 l.length = true
        ∧ s.hostDiscards 0 none 0x20000 l.length = false
        ∧ if b then ∃ v r, s.late = v :: r ∧ v ≠ (0, .mem 0x20000 l) else ∃ n ∈ hostLines 0 0x20000 l.length, s.lineShut .host none n = true)
      ∧ (∃ s : State, s.site = .host 0 (.vf 5 0 [1]) ∧ (s.pkg 0).lost = false ∧ s.vfSlot 0 5 = none)
      ∧ (∃ (s : State) (pk : PartKey), s.site = .host 0 (.vf 5 7 [1, 2]) ∧ (s.pkg 0).lost = false ∧ s.vfSlot 0 5 = some pk ∧ (areaW (s.part pk).area 30).toNat < 7 + 2)
      ∧ (∀ v : Word, ∃ s : State, s.site = .host 0 (.pf 0 v) ∧ (s.pkg 0).lost = false ∧ (s.pkg 0).mbState = 1)
      ∧ (∀ e ∈ [((9 : Word) <<< 56, true, Form.onModule), (10 <<< 56, true, .onModule), (4 <<< 56, false, .bare), (10 <<< 56, false, .bare), (1 <<< 56, false, .bare),
          (10 <<< 56, false, .fiveDie), (0, false, .onModule), (11 <<< 56, false, .onModule)],
        ∃ s : State, s.site = .host 0 (.pf 0 e.1) ∧ (s.pkg 0).lost = false ∧ (s.pkg 0).mbState ≠ 1 ∧ (s.pkg 0).held = e.2.1 ∧ (s.pkg 0).form = e.2.2)
      ∧ (∀ off ∈ [0x10000, 0x10008], ∀ v ∈ [(0 : Word), 8191], ∃ s : State, s.site = .host 0 (.pf off v) ∧ (s.pkg 0).lost = false)
      ∧ ∀ off ∈ [0x100000, 0x2000000], ∃ (s : State) (b : RegBlk), s.site = .host 0 (.pf off 5) ∧ (s.pkg 0).lost = false ∧ regBlk off = some b ∧ b.writable true = false ∧ off % 8 = 0 := by
  refine ⟨⟨{ State.reset with site := .pkg 0 }, 0, _, rfl, rfl, rfl⟩, fun d hd => ⟨{ State.reset with site := .dieN 0 d 9 }, 0, 9, _, rfl, rfl, ?_⟩, ?_, ?_,
    ⟨wHw (.vf 5 0 [1]), rfl, rfl, rfl⟩,
    ⟨{ wHw (.vf 5 7 [1, 2]) with parts := [(wP0, { st := .resident, area := ((Vector.replicate 32 0).set 28 0x85).set 30 8 })] }, wP0, rfl, rfl, by decide, by decide⟩,
    fun v => ⟨wHw (.pf 0 v) { mbState := 1 }, rfl, rfl, rfl⟩, fun e _ => ⟨wHw (.pf 0 e.1) { held := e.2.1, form := e.2.2 }, rfl, rfl, (by decide : (0 : BitVec 2) ≠ 1), rfl, rfl⟩,
    fun off _ v _ => ⟨wHw (.pf off v), rfl, rfl⟩, ?_⟩
  · simp only [List.mem_cons, List.not_mem_nil, or_false] at hd
    rcases hd with rfl | rfl <;> decide
  · intro e he
    simp only [List.mem_cons, List.not_mem_nil, or_false] at he
    rcases he with rfl | rfl | rfl | rfl | rfl
    · exact ⟨wHw (.mem (2 ^ 39 - 1) [1, 2]), _, [1, 2], rfl, rfl, rfl, .inl ⟨_, _, rfl⟩, by decide, by decide, rfl, by decide, rfl⟩
    · exact ⟨wHw (.mem 0xFFF8 [1, 2]), _, [1, 2], rfl, rfl, rfl, .inl ⟨_, _, rfl⟩, by decide, by decide, rfl, by decide, rfl⟩
    · exact ⟨wHw (.mem 0x20000 [1, 2]), _, [1, 2], rfl, rfl, rfl, .inl ⟨_, _, rfl⟩, by decide, by decide, rfl, by decide, rfl⟩
    · exact ⟨wHw (.mem (2 ^ 39 - 2) [1, 2]), _, [1, 2], rfl, rfl, rfl, .inl ⟨_, _, rfl⟩, by decide, by decide, rfl, by decide, rfl⟩
    · exact ⟨wHw (.mem (2 ^ 40) [1, 2]), _, [1, 2], rfl, rfl, rfl, .inr rfl, by decide, by decide, rfl, by decide, rfl⟩
  · intro b
    cases b
    · exact ⟨{ wHw (.mem 0x20000 [1, 2]) with ctxs := [(1, wHold)] }, [1, 2], rfl, rfl, by decide, by decide, _, .head _, by decide⟩
    · exact ⟨{ wHw (.mem 0x20000 [1, 2]) with late := [(0, .mem 0x30000 [7])] }, [1, 2], rfl, rfl, by decide, by decide, _, _, rfl, by decide⟩
  · intro off h
    simp only [List.mem_cons, List.not_mem_nil, or_false] at h
    rcases h with rfl | rfl
    · exact ⟨wHw (.pf 0x100000 5), _, rfl, rfl, rfl, rfl, by decide⟩
    · exact ⟨wHw (.pf 0x2000000 5), _, rfl, rfl, rfl, rfl, by decide⟩

/-- A frame of a payload for Ultra Ethernet destination 0xABCDE, plain and well formed. -/
def wFr (key tag : Bool) (n : Nat) : Frame :=
  { dst := 0xABCDE, secured := false, cipherGcm := key, tagOk := tag, headerOk := true, seqOk := true, source := 3, payload := List.replicate n 0xAA }
/-- Port 2 maps that destination to receive context 0 of slot 0, which lands in queue 7 under key 1. -/
def wRx (p : VState) (room : Nat) (fr : Frame) (secure : Bool := false) : State :=
  { wK { wQc with esize := 1, els := List.replicate room {}, win := { kind := 4, lsize := 12 } } State.reset with
    site := .frameIn 0 2 fr
    parts := [(wP0, { st := p })]
    pkgs := [(0, { portmap := [(2048, 0x800ABCDE00000000)], keys := [(1, { valid := true, owner := 0, kind := 2 })] })]
    rxs := [(⟨wP0, 0⟩, { cfg := 0x8A000001C0000000 ||| (1 <<< 43) ||| (if secure then 1 <<< 42 else 0) })] }

/-- A destination without an entry, and a frame for each row of R433: key, integrity, the partition not running, too long (65 elements and 33), no room,
and delivered with the last element of the window. -/
theorem witness_FrameReceiveClassifies :
    (∃ (s : State) (k : Nat) (port : Nat) (fr : Frame), s.site = .frameIn k port fr ∧ (s.pkg k).form ≠ .bare ∧ (s.pkg k).portEntry port fr.dst = none ∧ port < 8)
      ∧ ∀ e ∈ [(VState.resident, 0, 16, true, true, 0), (.resident, 0, 16, false, false, 1), (.replaying, 0, 16, false, true, 2), (.resident, 0, 8200, false, true, 3),
          (.resident, 0, 4096, false, true, 3), (.resident, 32, 16, false, true, 4), (.resident, 31, 16, false, true, 5)],
        let s := wRx e.1 e.2.1 (wFr false e.2.2.2.2.1 e.2.2.1) e.2.2.2.1
        let fr := wFr false e.2.2.2.2.1 e.2.2.1
        let x := s.rx ⟨wP0, 0⟩
        let q := s.queue wQk
        let n := (fr.payload.length + 16 + q.size - 1) / q.size
        (s.pkg 0).form ≠ .bare ∧ (s.pkg 0).portEntry 2 fr.dst = some 0x800ABCDE00000000 ∧ fld (0x800ABCDE00000000 : Word) 8 5 = 0 ∧ x.cfg.getLsbD 63 = true ∧ fld x.cfg 56 3 = 2
          ∧ fld x.cfg 30 12 = 7 ∧ s.keyFails ⟨wP0, 0⟩ x.cfg fr = decide (e.2.2.2.2.2 = 0)
          ∧ (e.2.2.2.2.2 = 1 → fr.tagOk = false) ∧ (2 ≤ e.2.2.2.2.2 → fr.tagOk = true ∧ fr.headerOk = true ∧ fr.seqOk = true)
          ∧ (e.2.2.2.2.2 = 2 → (s.part wP0).st.runs = false ∧ n ≤ 64 ∧ n ≤ q.capacity)
          ∧ (e.2.2.2.2.2 = 3 → q.state ≠ .unallocated ∧ (64 < n ∨ q.capacity < n))
          ∧ (e.2.2.2.2.2 = 4 → (s.part wP0).st.runs = true ∧ n ≤ 64 ∧ n ≤ q.capacity ∧ fld x.cfg 59 2 ≠ 2 ∧ s.roomFor wQk (.port 2 0) < n)
          ∧ (e.2.2.2.2.2 = 5 → (s.part wP0).st.runs = true ∧ n ≤ 64 ∧ n ≤ q.capacity ∧ q.state = .open ∧ q.win.kind = 4 ∧ n ≤ s.room wQk ∧ q.stage = .pass
            ∧ q.cask = [] ∧ q.journal = false) := by
  refine ⟨⟨{ State.reset with site := .frameIn 0 7 (wFr false true 1) }, 0, 7, _, rfl, by decide, rfl, by decide⟩, ?_⟩
  intro e he
  simp only [List.mem_cons, List.not_mem_nil, or_false] at he
  rcases he with rfl | rfl | rfl | rfl | rfl | rfl | rfl <;> decide +kernel

/-- A `null` word's block, whose issue changes the block. -/
def wI (w : IWord) : State := wS wX (wB (wSl (.ofWord 0) (.ofWord 0) .ctl w))

/-- The issue of an `add` answers a next state. -/
theorem witness_IssueChangesOnlyItsBlock :
    ∃ (i : Instr) (w : IWord) (s t : State) (x : Ctx), encode i = some w ∧ exec i s = .next t ∧ s.ctxs.get? 1 = some x ∧ s.site = .slot wCu := by
  have h : ∃ t, exec (.add ⟨.onTrue, ⟨.right, 13⟩, ⟨.left, 11⟩⟩) (wI 0) = .next t := ⟨_, rfl⟩
  obtain ⟨t, h⟩ := h
  exact ⟨_, 0x0D821A8B, wI 0, t, wX, by decide, h, rfl, rfl⟩

/-- An `rfe` that breaches nothing with privilege, and a `brk`. -/
theorem witness_PrivilegeIsCheckedAtDispatch :
    ∀ i ∈ [Instr.rfe .always, .brk .always 3], ∃ (h : Header) (slots : List Slot) (n : Nat) (sl : Slot), decode sl.plane sl.word = .ok i
      ∧ slotBreach h slots (fun _ => false) true n sl = 0 ∧ needsPriv i = decide (i ≠ .brk .always 3) := by
  intro i hi
  simp only [List.mem_cons, List.not_mem_nil, or_false] at hi
  rcases hi with rfl | rfl
  · exact ⟨wHdr 1, [], 0, { word := (encode (.rfe .always)).getD 0, plane := .ctl, rep := false }, rfl, by decide, by decide⟩
  · exact ⟨wHdr 1, [], 0, { word := (encode (.brk .always 3)).getD 0, plane := .ctl, rep := false }, rfl, by decide, by decide⟩

/-- A slot to issue that decodes, one whose word does not, a block that is gone, an event, and a machine by itself that issues a slot. -/
theorem witness_StepRunsTheDecodedInstruction :
    (∃ (s : State) (cu : Cur) (b : Blk) (sl : Slot) (i : Instr), s.agenda = [.issue cu] ∧ s.blks.get? cu.frame = some b ∧ b.slots[cu.slot]? = some sl
        ∧ decode sl.plane sl.word = .ok i)
      ∧ (∃ (s : State) (cu : Cur) (b : Blk) (sl : Slot) (e : Reject), s.agenda = [.issue cu] ∧ s.blks.get? cu.frame = some b ∧ b.slots[cu.slot]? = some sl
        ∧ decode sl.plane sl.word = .error e)
      ∧ (∃ (s : State) (cu : Cur), s.agenda = [.issue cu] ∧ s.blks.get? cu.frame = none)
      ∧ (∃ (s : State), s.agenda = [.ev .deviceReset (.pkg 0)])
      ∧ (∃ (s t : State) (cu : Cur) (r : List Act) (b : Blk) (sl : Slot) (i : Instr), s.agenda = [] ∧ s.issueActs = .issue cu :: r ∧ s.blks.get? cu.frame = some b
        ∧ b.slots[cu.slot]? = some sl ∧ decode sl.plane sl.word = .ok i ∧ exec i { s with site := .slot cu } = .next t ∧ s.changed t = true)
      ∧ ∃ (w : Nat) (i : Instr), decode .ctl (BitVec.ofNat 32 w) = .ok i := by
  refine ⟨⟨({ wI 0x0D821A8B with agenda := [.issue wCu] } : State), wCu, _, _, _, rfl, rfl, rfl, rfl⟩,
    ⟨({ wI 0xFE000000 with agenda := [.issue wCu] } : State), wCu, _, _, _, rfl, rfl, rfl, rfl⟩, ⟨{ State.reset with agenda := [.issue wCu] }, wCu, rfl, rfl⟩,
    ⟨{ State.reset with agenda := [.ev .deviceReset (.pkg 0)] }, rfl⟩, ?_, 0x0D821A8B, _, rfl⟩
  have h : ∃ t, exec (.add ⟨.onTrue, ⟨.right, 13⟩, ⟨.left, 11⟩⟩) { wI 0x0D821A8B with site := .slot wCu } = .next t ∧ (wI 0x0D821A8B).changed t = true :=
    ⟨_, rfl, by decide +kernel⟩
  obtain ⟨t, h, hc⟩ := h
  exact ⟨wI 0x0D821A8B, t, wCu, [], _, _, _, rfl, rfl, rfl, rfl, rfl, h, hc⟩

/-- An instruction that is well formed and encodes, and the word it decodes from. -/
theorem witness_DecodeOfEncodeIsTheInstruction :
    ∃ (i : Instr) (w : IWord) (p : Plane), i.wf = true ∧ encode i = some w ∧ i.inPlane p = true ∧ (encode .deviceReset).isSome = false :=
  ⟨.add ⟨.onTrue, ⟨.right, 13⟩, ⟨.left, 11⟩⟩, 0x0D821A8B, .ctl, by decide, by decide, by decide, by decide⟩

/-- A word that decodes. -/
theorem witness_EncodeOfDecodeIsTheWord : ∃ (p : Plane) (w : IWord) (i : Instr), decode p w = .ok i := ⟨.ctl, 0x0D821A8B, _, rfl⟩

/-- The machine after reset meets both invariants, and takes a step. -/
theorem witness_MemoryStaysCanonical : memWf State.reset = true ∧ ∃ t, step State.reset = .next t := ⟨rfl, _, rfl⟩

/-- A receive context that has counted a frame twice, once as received and once as delivered, and a step of that machine. -/
theorem witness_ReceiveCountersAlwaysAddUp :
    ∃ (s t : State) (e : PKey × Rx), countersAddUp s ∧ e ∈ s.rxs ∧ e.2.cnt.recv = 1 ∧ step s = .next t := by
  refine ⟨{ State.reset with rxs := [(⟨wP0, 0⟩, { cnt := { recv := 1, dlv := 1 } })], agenda := [.ev .powerIdleAdjust (.dieN 0 0 9)] }, _, _, ?_, List.mem_singleton.2 rfl, rfl, rfl⟩
  intro e h
  have : e = (⟨wP0, 0⟩, { cnt := { recv := 1, dlv := 1 } }) := List.mem_singleton.1 h
  subst this
  decide

/-! ### Assembly, linking and chains -/

/-- The execute block of the example of R126. -/
def wTwice : SrcBlk := { kern := "k", name := "twice", line := 1, kind := 2, rpt := 0, handler := none, rate := some [(0, 1), (32, 1)], instrs := [
  ⟨1, some "a", ["pop", "v"], .always, [[.word "ls0"], [.word "in0"]], [("m", .left)]⟩,
  ⟨2, some "k", ["const"], .always, [[.int 0x4000]], [("x", .left)]⟩,
  ⟨3, some "x", ["constx"], .always, [[.int 0]], [("m", .right)]⟩,
  ⟨4, some "m", ["mul", "f32"], .always, [], [("o", .left)]⟩,
  ⟨5, some "o", ["push", "v"], .always, [[.word "ls1"], [.word "ot0"]], []⟩,
  ⟨6, none, ["br"], .always, [[.word "twice"]], []⟩] }

/-- R126's example: the header and the six words that it prints. -/
theorem test_assemble_twice : ((wTwice.assemble ".text.exe" 0 (fun _ _ => .ok .ext)).toOption.map fun b => (b.hdr.bits.toNat, leNat (b.bytes.drop 48))) =
    some (0x20B00000000000020000000000000000, 0x300000007A040000B4200084040001030280008276000083) := by decide +kernel

/-- A line of R126's example as tokens. -/
theorem test_tokens : tokensOf "mul.f32 -> o.l".toList = some [.word "mul.f32", .arrow, .word "o.l"] := by decide +kernel

/-- R125: `BOFF20` is the distance in units of 16 bytes, and one that is no whole number is an error. -/
theorem test_boff20 : (RelType.boff20.value 0x10000 0x10050).toOption = some (0xFFFFB, 4) ∧ (RelType.boff20.value 0x10008 0x10050).toOption = none := by decide +kernel

/-- R124: the pieces of a value. -/
theorem test_pieces : wordPiece 3 0x1122334455667788 = 0x1122 ∧ wordPiece 0 0x1122334455667788 = 0x7788 := by decide

/-- R475's example: the control word of the LDT posts to semaphore 4, and that of the MMT waits on it. -/
theorem test_moantiard_controls :
    (moCmd .load 5 0 [0x08200001, 0x10000, 0x0001008000000080, 1]).map (fun k => (k.waits, k.posts)) = some (none, some 4)
      ∧ (moCmd .compute 5 0 [0x41110, 0x00000101, 0x0000000008008080, 0]).map (fun k => (k.waits, k.posts)) = some (some 4, none)
      ∧ moCmd .store 5 0 [0x41110, 0x00000101, 0x0000000008008080, 0] = none := by decide +kernel

/-- A chain of one command on each stream: the load stream feeds queue 0 after it takes from semaphore 0, and the store stream is a NOP that posts it. -/
def wChain : MoChain := { load := [⟨some 0, .ldq ⟨0x10000, 1, 3, 8, 0⟩, none⟩], compute := [], store := [⟨none, .nop, some 0⟩], sems := [0], queues := [⟨1, 8, false⟩] }

/-- The command that waits at 0 and at 1, and the one that posts. -/
theorem witness_ChainCommandsWaitAndPost :
    (∀ v ∈ [0, 1], ∃ (s : MoSt) (k : MoCmd), (wChain.stream .load)[(s.pos .load).at']? = some k ∧ (s.pos .load).begun = false ∧ k.waits = some 0
        ∧ (s.sems[0]?).getD 0 = v)
      ∧ ∃ (s u : MoSt) (k : MoCmd), (wChain.stream .store)[(s.pos .store).at']? = some k ∧ (s.pos .store).begun = true ∧ k.posts = some 0
        ∧ s.effect wChain (fun _ => 1) (s.pos .store).moved k.op = .done u := by
  refine ⟨fun v hv => ⟨{ wChain.start [] with sems := [v] }, _, rfl, rfl, rfl, rfl⟩, ⟨(wChain.start []).setPos .store ⟨0, true, 0⟩, _, _, rfl, rfl, rfl, rfl⟩⟩

/-- A load that appends to an empty queue of depth 1. -/
theorem witness_ChainQueuesStayWithinDepth : ∃ (s t : MoSt), (∀ q, (s.els q).length ≤ 1) ∧ s.step wChain (fun _ => 1) .load = some t ∧ (t.els 0).length = 1 :=
  ⟨(wChain.start []).setPos .load ⟨0, true, 0⟩, _, fun q => by rcases q with _ | q <;> exact Nat.zero_le _, rfl, rfl⟩
end

section
/-!
SUPPORT. Fetch, dispatch and the resumption of held slots (02 R54 to R61, 03 R71, R80, R90, 04 R109): what a translation of a fetch and the counting of a
decision leave unchanged, and which candidate a decision takes.
-/
namespace Sys2Proof.Machine

/-! ### Lanes of a context -/

/-- A context has a lane for a fetcher: that of an activation is there while the activation is. -/
def Ctx.HasLane (x : Ctx) : Fetcher → Prop
  | .thread | .stream => True
  | .act n => (Tab.get? x.acts n).isSome = true

theorem Ctx.hasLane_of_mayRun {x : Ctx} {u : Fetcher} (h : x.mayRun u = true) : x.HasLane u := by
  cases u with
  | thread => trivial
  | stream => trivial
  | act n =>
    simp only [Ctx.mayRun, Bool.and_eq_true] at h
    exact h.2.2

theorem Ctx.hasLane_of_img {x : Ctx} {u : Fetcher} {im : Image} (h : (x.lane u).img = some im) : x.HasLane u := by
  cases u with
  | thread => trivial
  | stream => trivial
  | act n => cases ha : Tab.get? x.acts n <;> simp_all [Ctx.lane, Ctx.HasLane]

theorem Ctx.lane_setLane {x : Ctx} {u : Fetcher} (h : x.HasLane u) (l : Lane) : (x.setLane u l).lane u = l := by
  cases u with
  | thread => rfl
  | stream => rfl
  | act n =>
    obtain ⟨a, ha⟩ := Option.isSome_iff_exists.1 h
    simp [Ctx.setLane, Ctx.lane, Tab.get?_upd_self, ha]

@[simp] theorem Ctx.setLane_regs (x : Ctx) (u : Fetcher) (l : Lane) : (x.setLane u l).regs = x.regs := by cases u <;> rfl

@[simp] theorem Lane.meetRpt_img (l : Lane) (b : Bool) (a : Word) : (l.meetRpt b a).img = l.img := by
  unfold Lane.meetRpt
  split
  · rfl
  · split <;> rfl

@[simp] theorem Lane.meetRpt_next (l : Lane) (b : Bool) (a : Word) : (l.meetRpt b a).next = l.next := by
  unfold Lane.meetRpt
  split
  · rfl
  · split <;> rfl

/-- No fetched block is the first that the repeat record awaits where it awaits none (03 R94). -/
theorem Lane.startAt_of_not_due {l : Lane} (h : l.rptDue = false) (a : Word) (hm : Bool) : l.startAt a hm = (0, false) := by
  simp [Lane.startAt, h]

theorem State.updCtx_ctx {s : State} {c : Nat} {x : Ctx} (hx : s.ctxs.get? c = some x) (f : Ctx → Ctx) :
    (s.updCtx c f).ctxs.get? c = some (f x) := by
  simp [Tab.get?_upd_self, hx]

/-! ### What a fetch changes -/

/-- Two states differ at most in the walk caches and in how many free values have been drawn. -/
def State.SameButWalks (s t : State) : Prop := ∃ w n, t = { s with walks := w, free := n }

theorem State.SameButWalks.refl (s : State) : s.SameButWalks s := ⟨s.walks, s.free, rfl⟩

theorem State.SameButWalks.trans {s t r : State} (h : s.SameButWalks t) (h' : t.SameButWalks r) : s.SameButWalks r := by
  obtain ⟨_, _, rfl⟩ := h
  obtain ⟨w, n, rfl⟩ := h'
  exact ⟨w, n, rfl⟩

theorem State.lookup_sameButWalks (s : State) (pk : PartKey) (core : Nat) (asn : BitVec 16) (va : Nat) :
    s.SameButWalks (s.lookup pk core asn va).2 := by
  unfold State.lookup
  split
  · dsimp only
    split
    · exact ⟨_, _, rfl⟩
    · exact ⟨_, _, rfl⟩
  · split
    · exact ⟨_, _, rfl⟩
    · exact .refl s

theorem State.code_sameButWalks (s : State) (w : Who) (u : Fetcher) (va : Word) : s.SameButWalks (s.code w u va).2 := by
  unfold State.code
  split
  · exact .refl s
  · exact s.lookup_sameButWalks _ _ _ _

theorem State.codeBytes_sameButWalks (w : Who) (u : Fetcher) (fuel : Nat) :
    ∀ (s : State) (va : Word) (len : Nat), s.SameButWalks (s.codeBytes w u va len fuel).2 := by
  induction fuel with
  | zero => exact fun s _ _ => .refl s
  | succ fuel ih =>
    intro s va len
    rw [State.codeBytes]
    split
    · exact .refl s
    · have hcode := s.code_sameButWalks w u va
      generalize s.code w u va = e at hcode ⊢
      obtain ⟨_ | c, t⟩ := e
      · exact hcode
      · have hrest := hcode.trans (ih t (va + BitVec.ofNat 64 (min len c.room)) (len - min len c.room))
        dsimp only
        generalize t.codeBytes w u _ _ fuel = e at hrest ⊢
        obtain ⟨_ | _, r⟩ := e
        · exact hrest
        · exact hrest

theorem State.fetchAt_sameButWalks (s : State) (w : Who) (u : Fetcher) (va : Word) : s.SameButWalks (s.fetchAt w u va).2 := by
  unfold State.fetchAt
  split
  · exact .refl s
  · have hhdr := State.codeBytes_sameButWalks w u 2 s va 16
    generalize s.codeBytes w u va 16 2 = e at hhdr ⊢
    obtain ⟨_ | hp, t⟩ := e
    · exact hhdr
    · dsimp only
      split
      · exact hhdr
      split
      · exact hhdr
      split
      · exact hhdr
      · have hblk := hhdr.trans
          (State.codeBytes_sameButWalks w u 2 t va (Header.ofBits (BitVec.ofNat 128 (leNat (hp.flatMap (t.readEv w.pk))))).len)
        generalize t.codeBytes w u va _ 2 = e at hblk ⊢
        obtain ⟨_ | ps, r⟩ := e
        · exact hblk
        · dsimp only
          split
          · exact hblk
          split
          · exact hblk
          · split <;> exact hblk

theorem State.fetchAt_misaligned {va : Word} (h : va.toNat % 16 ≠ 0) (s : State) (w : Who) (u : Fetcher) :
    s.fetchAt w u va = (.fails .block, s) := by
  simp [State.fetchAt, h]

/-- The record of a failed fetch whose address is no successor that a branch gave (03 R71). -/
theorem Lane.fetchRec_block {l : Lane} (h : l.succ = false) (a : Word) : l.fetchRec a .block = { code := 0x01, faddr := a } := by
  simp [Lane.fetchRec, h]

theorem execBlockFetch_settled {s : State} {c : Nat} {u : Fetcher} {x : Ctx} (hsite : s.site = .ctxU c u) (hx : s.ctxs.get? c = some x)
    (hrun : x.mayRun u = true) (himg : (x.lane u).img = none) (hff : (x.lane u).fetchFault = none) (hfl : s.flight c u = []) :
    execBlockFetch s = .next (fetchSettled s c u x (x.lane u).next) := by
  simp [execBlockFetch, hsite, hx, hrun, himg, hff, State.nextAt, hfl, youngestOf]

/-- A fetch on the settled path that finds a block loads it into its lane and changes nothing else that a program sees (03 R90, R94). -/
theorem fetchSettled_image {s s' : State} {c : Nat} {u : Fetcher} {x : Ctx} {a : Word} {i : Image} (hx : s.ctxs.get? c = some x)
    (hu : x.HasLane u) (hi : s.fetchAt ⟨x.pk, x.core, x.ctl.asn, x.ctl.pm⟩ u a = (.image i, s')) :
    ∃ y, (fetchSettled s c u x a).ctxs.get? c = some y
      ∧ (∃ r, (y.lane u).img = some { i with first := r } ∧ ((x.lane u).rptDue = false → r = false))
      ∧ (y.lane u).next = (x.lane u).next ∧ y.regs = x.regs ∧ (fetchSettled s c u x a).blks = s.blks
      ∧ (fetchSettled s c u x a).mem = s.mem ∧ (fetchSettled s c u x a).bufs = s.bufs := by
  obtain ⟨w, n, rfl⟩ : s.SameButWalks s' := by simpa [hi] using s.fetchAt_sameButWalks ⟨x.pk, x.core, x.ctl.asn, x.ctl.pm⟩ u a
  simp only [fetchSettled, hi]
  refine ⟨_, State.updCtx_ctx hx _, ⟨((x.lane u).startAt a (decide (u = .thread) && x.ctl.hm)).2, ?_, ?_⟩, ?_, ?_, rfl, rfl, rfl⟩
  · rw [Ctx.lane_setLane hu]
    simp [Lane.load]
  · intro hdue
    rw [Lane.startAt_of_not_due hdue]
  · rw [Ctx.lane_setLane hu]
    simp [Lane.load]
  · simp

/-- A fetch of a thread at a misaligned address leaves a block-fetch fault that waits for the thread's boundary (03 R71). -/
theorem fetchSettled_misaligned {x : Ctx} (ha : x.thr.next.toNat % 16 ≠ 0) (hsucc : x.thr.succ = false) (s : State) (c : Nat) :
    fetchSettled s c .thread x x.thr.next
      = s.updCtx c fun y => y.setLane .thread { x.thr with fetchFault := some { code := 0x01, faddr := x.thr.next } } := by
  simp [fetchSettled, State.fetchAt_misaligned ha, State.fetchFails, Ctx.lane, Lane.fetchRec_block hsucc]

/-! ### What the counting of a decision keeps -/

/-- What dispatch reads of a context is the same in another, and so are its registers. -/
structure Ctx.SameBlocks (x y : Ctx) : Prop where
  pk : y.pk = x.pk
  regs : y.regs = x.regs
  pm : y.ctl.pm = x.ctl.pm
  img : ∀ u, (y.lane u).img = (x.lane u).img
  firing : ∀ u, (y.lane u).firing = (x.lane u).firing

theorem Ctx.SameBlocks.refl (x : Ctx) : x.SameBlocks x := ⟨rfl, rfl, rfl, fun _ => rfl, fun _ => rfl⟩

theorem Ctx.SameBlocks.trans {x y z : Ctx} (h : x.SameBlocks y) (h' : y.SameBlocks z) : x.SameBlocks z :=
  ⟨h'.pk.trans h.pk, h'.regs.trans h.regs, h'.pm.trans h.pm, fun u => (h'.img u).trans (h.img u), fun u => (h'.firing u).trans (h.firing u)⟩

/-- A state reached by counting alone: every context keeps its fetched blocks and registers, and the frames, the dispatchers' memories, the memories and
what tells which instructions a part lacks are the same. -/
structure State.Counted (s t : State) : Prop where
  blks : t.blks = s.blks
  mem : t.mem = s.mem
  bufs : t.bufs = s.bufs
  disps : t.disps = s.disps
  pkgs : t.pkgs = s.pkgs
  queues : t.queues = s.queues
  ctx : ∀ c x, s.ctxs.get? c = some x → ∃ y, t.ctxs.get? c = some y ∧ x.SameBlocks y

theorem State.Counted.refl (s : State) : s.Counted s := ⟨rfl, rfl, rfl, rfl, rfl, rfl, fun _ x h => ⟨x, h, .refl x⟩⟩

theorem State.Counted.trans {s t r : State} (h : s.Counted t) (h' : t.Counted r) : s.Counted r where
  blks := h'.blks.trans h.blks
  mem := h'.mem.trans h.mem
  bufs := h'.bufs.trans h.bufs
  disps := h'.disps.trans h.disps
  pkgs := h'.pkgs.trans h.pkgs
  queues := h'.queues.trans h.queues
  ctx c x hx := by
    obtain ⟨y, hy, hxy⟩ := h.ctx c x hx
    obtain ⟨z, hz, hyz⟩ := h'.ctx c y hy
    exact ⟨z, hz, hxy.trans hyz⟩

theorem State.Counted.ite {s t r : State} {p : Prop} [Decidable p] (ht : s.Counted t) (hr : s.Counted r) : s.Counted (if p then t else r) := by
  split
  · exact ht
  · exact hr

/-- A change of a context that keeps what dispatch reads of the context that stands there. -/
theorem State.updCtx_counted {s : State} {c : Nat} {f : Ctx → Ctx} (hf : ∀ x, s.ctxs.get? c = some x → x.SameBlocks (f x)) :
    s.Counted (s.updCtx c f) where
  blks := rfl
  mem := rfl
  bufs := rfl
  disps := rfl
  pkgs := rfl
  queues := rfl
  ctx j x hx := by
    by_cases hj : j = c
    · subst hj
      exact ⟨f x, State.updCtx_ctx hx f, hf x hx⟩
    · exact ⟨x, by simp [Tab.get?_upd_ne _ _ _ _ hj, hx], .refl x⟩

theorem State.raise_counted (s : State) (c bit : Nat) : s.Counted (s.raise c bit) :=
  State.updCtx_counted fun _ _ => ⟨rfl, rfl, rfl, fun u => by cases u <;> rfl, fun u => by cases u <;> rfl⟩

/-- A change of the decoupling record alone. -/
theorem Ctx.sameBlocks_dec (x : Ctx) (d : Dec) : x.SameBlocks { x with dec := d } :=
  ⟨rfl, rfl, rfl, fun u => by cases u <;> rfl, fun u => by cases u <;> rfl⟩

theorem State.countHold_counted (s : State) (c kind : Nat) : s.Counted (s.countHold c kind) := by
  unfold State.countHold
  split
  · exact .refl s
  · have hcount (d : Dec) : s.Counted (s.updCtx c fun x => { x with dec := d }) := State.updCtx_counted fun x _ => x.sameBlocks_dec d
    exact .ite ((hcount _).trans (State.raise_counted _ _ _)) (hcount _)

theorem State.beginHold_counted (s : State) (c : Nat) (u : Fetcher) (h : Short) : s.Counted (s.beginHold c u h) := by
  cases h with
  | inlet n => exact (State.updCtx_counted fun x _ => x.sameBlocks_dec _).trans (State.countHold_counted _ _ _)
  | outlet n => exact State.updCtx_counted fun x _ => x.sameBlocks_dec _

theorem State.episode_counted (s : State) (k : Cand) : s.Counted (s.episode k) := by
  unfold State.episode
  split
  · exact .refl s
  · refine .ite ?_ (.refl s)
    split
    · exact s.beginHold_counted _ _ _
    · exact .refl s

theorem State.episodes_counted (l : List Cand) : ∀ s : State, s.Counted (l.foldl State.episode s) := by
  induction l with
  | nil => exact State.Counted.refl
  | cons k l ih => exact fun s => (s.episode_counted k).trans (ih _)

/-! ### A decision is made -/

/-- The entry of a key in a table whose entries have all been changed. -/
theorem Tab.get?_map {κ α β : Type} [DecidableEq κ] (t : Tab κ α) (f : α → β) (k : κ) :
    Tab.get? (t.map fun e => (e.1, f e.2)) k = (Tab.get? t k).map f := by
  induction t with
  | nil => rfl
  | cons e t ih =>
    obtain ⟨j, v⟩ := e
    by_cases h : j = k <;> simp [Tab.get?, h, ih]

@[simp] theorem Lane.yielded_img (l : Lane) : l.yielded.img = l.img := by
  unfold Lane.yielded
  split
  · split <;> rfl
  · rfl

@[simp] theorem Lane.yielded_firing (l : Lane) : l.yielded.firing = l.firing := by
  unfold Lane.yielded
  split
  · split <;> rfl
  · rfl

/-- A context of a dispatcher once the dispatcher has decided (13 R313). -/
def Ctx.decided (x : Ctx) (d : DispKey) : Ctx :=
  if x.pk.pkg = d.pkg && x.pos.isSome && decide (x.core = d.core) then
    if d.acc then { x with thr := x.thr.yielded }
    else { x with str := x.str.yielded, acts := x.acts.map fun a => (a.1, { a.2 with lane := a.2.lane.yielded }) }
  else x

theorem State.decided_eq (s : State) (d : DispKey) : s.decided d = { s with ctxs := s.ctxs.map fun e => (e.1, e.2.decided d) } := by
  unfold State.decided Ctx.decided
  congr
  funext e
  dsimp only
  split <;> rfl

/-- A decision touches no lane but to end its wait in `yield`. -/
theorem Ctx.lane_decided (x : Ctx) (d : DispKey) (u : Fetcher) :
    (x.decided d).lane u = x.lane u ∨ (x.decided d).lane u = (x.lane u).yielded := by
  unfold Ctx.decided
  split
  · split
    · cases u with
      | thread => exact .inr rfl
      | stream => exact .inl rfl
      | act n => exact .inl rfl
    · cases u with
      | thread => exact .inl rfl
      | stream => exact .inr rfl
      | act n =>
        simp only [Ctx.lane, Tab.get?_map x.acts fun a : Activation => { a with lane := a.lane.yielded }]
        cases Tab.get? x.acts n with
        | none => exact .inl rfl
        | some a => exact .inr rfl
  · exact .inl rfl

theorem Ctx.decided_rest (x : Ctx) (d : DispKey) : (x.decided d).pk = x.pk ∧ (x.decided d).regs = x.regs ∧ (x.decided d).ctl = x.ctl := by
  unfold Ctx.decided
  split
  · split <;> exact ⟨rfl, rfl, rfl⟩
  · exact ⟨rfl, rfl, rfl⟩

theorem Ctx.decided_sameBlocks (x : Ctx) (d : DispKey) : x.SameBlocks (x.decided d) := by
  obtain ⟨hpk, hregs, hctl⟩ := x.decided_rest d
  refine ⟨hpk, hregs, by rw [hctl], fun u => ?_, fun u => ?_⟩
  · rcases x.lane_decided d u with h | h
    · rw [h]
    · rw [h, Lane.yielded_img]
  · rcases x.lane_decided d u with h | h
    · rw [h]
    · rw [h, Lane.yielded_firing]

theorem State.decided_counted (s : State) (d : DispKey) : s.Counted (s.decided d) := by
  rw [State.decided_eq]
  exact ⟨rfl, rfl, rfl, rfl, rfl, rfl, fun c x hx => ⟨x.decided d, by simp [Tab.get?_map s.ctxs fun x => x.decided d, hx], x.decided_sameBlocks d⟩⟩

/-! ### The candidate that a decision takes -/

theorem leastBy_eq_none {f : Cand → Nat} {l : List Cand} (h : leastBy f l = none) : l = [] := by
  cases l with
  | nil => rfl
  | cons a l =>
    rw [leastBy] at h
    split at h
    · cases h
    · split at h <;> cases h

theorem leastBy_some {f : Cand → Nat} {l : List Cand} {k : Cand} (h : leastBy f l = some k) : k ∈ l ∧ ∀ o ∈ l, f k ≤ f o := by
  induction l generalizing k with
  | nil => simp [leastBy] at h
  | cons a l ih =>
    rw [leastBy] at h
    cases hl : leastBy f l with
    | none =>
      simp only [hl, Option.some.injEq] at h
      simp [leastBy_eq_none hl, h]
    | some b =>
      obtain ⟨hb, hmin⟩ := ih hl
      simp only [hl] at h
      split at h
      · next hlt =>
        cases h
        exact ⟨List.mem_cons_of_mem a hb, List.forall_mem_cons.2 ⟨Nat.le_of_lt hlt, hmin⟩⟩
      · next hge =>
        cases h
        exact ⟨List.mem_cons_self, List.forall_mem_cons.2 ⟨Nat.le_refl _, fun o ho => Nat.le_trans (Nat.le_of_not_lt hge) (hmin o ho)⟩⟩

/-- Where no candidate has been passed over 256 times, the choice has the highest priority, the lowest number of a launch queue (02 R60, R61). -/
theorem Disp.choose_prio_le {p : Disp} {acc : Bool} {l : List Cand} {k : Cand} (h : p.choose acc l = some k)
    (hlate : ∀ o ∈ l, p.passes o < 256) : ∀ o ∈ l, k.prio ≤ o.prio := by
  have hnone : (l.filter fun o => decide (256 ≤ p.passes o)) = [] :=
    List.filter_eq_nil_iff.2 fun o ho => by simpa using hlate o ho
  simp only [Disp.choose, hnone, ne_eq, not_true_eq_false, if_false] at h
  cases ht : leastBy Cand.prio l with
  | none => simp [ht] at h
  | some t =>
    simp only [ht] at h
    have hk := (leastBy_some h).1
    have hkt : k.prio = t.prio := by simpa using (List.mem_filter.1 hk).2
    exact fun o ho => hkt ▸ (leastBy_some ht).2 o ho

/-! ### The dispatch of a block -/

/-- Counting alone changes no check of a fetched block (04 R108, R109): which instructions a part lacks is told by its package and its queues. -/
theorem State.Counted.dispatchFault_eq {s t : State} {x y : Ctx} (h : s.Counted t) (hxy : x.SameBlocks y) (hdr : Header) (slots : List Slot) :
    dispatchFault hdr slots (t.gone y.pk) y.ctl.pm = dispatchFault hdr slots (s.gone x.pk) x.ctl.pm := by
  have hgone : t.gone x.pk = s.gone x.pk := by
    funext i
    simp only [State.gone, State.pkg, State.queue, h.pkgs, h.queues]
  rw [hxy.pk, hxy.pm, hgone]

/-- The block of a fetched image but for what it reserves of its ports. -/
theorem Ctx.newBlk_eq (x : Ctx) (c : Nat) (u : Fetcher) (im : Image) (firing seq : Nat) :
    ∃ inRes outRes bqRes, x.newBlk c u im firing seq
      = { ctx := c, u := u, addr := im.addr, hdr := im.hdr, firing := firing, first := im.first, seq := seq, slots := im.slots, pm := x.ctl.pm,
          inRes := inRes, outRes := outRes, bqRes := bqRes } := by
  unfold Ctx.newBlk
  dsimp only
  split <;> exact ⟨_, _, _, rfl⟩

/-- Dispatch of a block that meets every check puts it into its frame with its slots waiting (02 R54, 03 R90). -/
theorem State.dispatch_block {s : State} {f : FrameKey} {c : Nat} {u : Fetcher} {x : Ctx} {im : Image} (hx : s.ctxs.get? c = some x)
    (him : (x.lane u).img = some im) (hok : dispatchFault im.hdr im.slots (s.gone x.pk) x.ctl.pm = none) :
    ∃ b, (s.dispatch f c u).blks = s.blks.put f b ∧ b.ctx = c ∧ b.u = u ∧ b.addr = im.addr ∧ b.hdr = im.hdr ∧ b.firing = (x.lane u).firing
      ∧ b.pm = x.ctl.pm ∧ b.slots = im.slots ∧ b.faults = [] ∧ (s.dispatch f c u).mem = s.mem ∧ (s.dispatch f c u).bufs = s.bufs := by
  simp only [State.dispatch, hx, him, hok]
  obtain ⟨_, _, _, hb⟩ := Ctx.newBlk_eq { x with dec := { x.dec with hold := x.dec.hold.filter fun h => h ≠ u } } c u im (x.lane u).firing s.stamp.1
  rw [hb]
  exact ⟨_, rfl, rfl, rfl, rfl, rfl, rfl, rfl, rfl, rfl, rfl, rfl⟩

/-- Dispatch of a block that fails a check leaves the fault with its fetcher and every frame as it was (03 R80, 04 R109). -/
theorem State.dispatch_fault {s : State} {f : FrameKey} {c : Nat} {u : Fetcher} {x : Ctx} {im : Image} {r : FaultRec} (hx : s.ctxs.get? c = some x)
    (him : (x.lane u).img = some im) (hbad : dispatchFault im.hdr im.slots (s.gone x.pk) x.ctl.pm = some r) :
    ∃ y, (s.dispatch f c u).ctxs.get? c = some y ∧ (y.lane u).fetchFault = some r ∧ y.regs = x.regs ∧ (s.dispatch f c u).blks = s.blks
      ∧ (s.dispatch f c u).mem = s.mem ∧ (s.dispatch f c u).bufs = s.bufs := by
  simp only [State.dispatch, hx, him, hbad]
  refine ⟨_, Tab.get?_put_self _ _ _, ?_, by simp, rfl, rfl, rfl⟩
  rw [Ctx.lane_setLane]
  exact Ctx.hasLane_of_img him

/-! ### The decision -/

theorem State.freeFrame_disp {s : State} {d : DispKey} {f : FrameKey} (h : s.freeFrame d = some f) : f.disp = d := by
  obtain ⟨i, -, rfl⟩ := List.mem_map.1 (List.mem_of_find?_eq_some h)
  rfl

/-- A decision into a free frame that finds a choice counts, remembers it, and dispatches its block (02 R60). -/
theorem execDispatchDecision_choice {s : State} {d : DispKey} {f : FrameKey} {k : Cand} (hsite : s.site = .disp d) (hf : s.freeFrame d = some f)
    (hk : (s.disp d).choose d.acc ((s.cands d).filter s.readyCand) = some k) :
    ∃ t p, s.Counted t ∧ execDispatchDecision s = .next ((t.setDisp d p).dispatch f k.c k.u) := by
  have hcount := (State.episodes_counted (s.cands d) s).trans (State.decided_counted _ d)
  have hall : ((s.cands d).filter s.readyCand).filter (fun k => (s.cands d).contains k) = (s.cands d).filter s.readyCand :=
    List.filter_eq_self.2 fun o ho => by simpa using (List.mem_filter.1 ho).1
  have hk' : State.disp (((s.cands d).foldl State.episode s).decided d) d = s.disp d := by simp only [State.disp, hcount.disps]
  refine ⟨((s.cands d).foldl State.episode s).decided d, (s.disp d).took ((s.cands d).filter s.readyCand) k, hcount, ?_⟩
  simp only [execDispatchDecision, hsite, hf, State.decideIn, State.freeFrame_disp hf, hall, hk', hk]

/-- A choice whose block meets every check stands in the free frame, with its slots waiting (02 R60, 03 R90). -/
theorem execDispatchDecision_block {s : State} {d : DispKey} {f : FrameKey} {k : Cand} {x : Ctx} {im : Image} (hsite : s.site = .disp d)
    (hf : s.freeFrame d = some f) (hk : (s.disp d).choose d.acc ((s.cands d).filter s.readyCand) = some k) (hx : s.ctxs.get? k.c = some x)
    (him : (x.lane k.u).img = some im) (hok : dispatchFault im.hdr im.slots (s.gone x.pk) x.ctl.pm = none) :
    ∃ t b, execDispatchDecision s = .next t ∧ t.blks = s.blks.put f b ∧ b.ctx = k.c ∧ b.u = k.u ∧ b.addr = im.addr ∧ b.hdr = im.hdr
      ∧ b.firing = (x.lane k.u).firing ∧ b.pm = x.ctl.pm ∧ b.slots = im.slots ∧ b.faults = [] ∧ t.mem = s.mem ∧ t.bufs = s.bufs := by
  obtain ⟨t, p, hcount, hstep⟩ := execDispatchDecision_choice hsite hf hk
  obtain ⟨y, hy, hxy⟩ := hcount.ctx k.c x hx
  rw [← hcount.dispatchFault_eq hxy] at hok
  obtain ⟨b, hblks, hctx, hu, haddr, hhdr, hfiring, hpm, hslots, hfaults, hmem, hbufs⟩ :=
    State.dispatch_block (s := t.setDisp d p) (f := f) hy ((hxy.img k.u).trans him) hok
  exact ⟨_, b, hstep, hblks.trans (congrArg (Tab.put · f b) hcount.blks), hctx, hu, haddr, hhdr, hfiring.trans (hxy.firing k.u), hpm.trans hxy.pm, hslots,
    hfaults, hmem.trans hcount.mem, hbufs.trans hcount.bufs⟩

/-- A choice whose block fails a check leaves every frame as it was, and its fetcher holds the fault (03 R80, 04 R109). -/
theorem execDispatchDecision_fault {s : State} {d : DispKey} {f : FrameKey} {k : Cand} {x : Ctx} {im : Image} {r : FaultRec} (hsite : s.site = .disp d)
    (hf : s.freeFrame d = some f) (hk : (s.disp d).choose d.acc ((s.cands d).filter s.readyCand) = some k) (hx : s.ctxs.get? k.c = some x)
    (him : (x.lane k.u).img = some im) (hbad : dispatchFault im.hdr im.slots (s.gone x.pk) x.ctl.pm = some r) :
    ∃ t y, execDispatchDecision s = .next t ∧ t.ctxs.get? k.c = some y ∧ (y.lane k.u).fetchFault = some r ∧ y.regs = x.regs ∧ t.blks = s.blks
      ∧ t.mem = s.mem ∧ t.bufs = s.bufs := by
  obtain ⟨t, p, hcount, hstep⟩ := execDispatchDecision_choice hsite hf hk
  obtain ⟨y, hy, hxy⟩ := hcount.ctx k.c x hx
  rw [← hcount.dispatchFault_eq hxy] at hbad
  obtain ⟨z, hz, hfault, hregs, hblks, hmem, hbufs⟩ :=
    State.dispatch_fault (s := t.setDisp d p) (f := f) hy ((hxy.img k.u).trans him) hbad
  exact ⟨_, z, hstep, hz, hfault, hregs.trans hxy.regs, hblks.trans hcount.blks, hmem.trans hcount.mem, hbufs.trans hcount.bufs⟩

/-! ### The statement -/

/-- Settles O37: a settled fetch loads the block that it finds or leaves its fault, a decision dispatches its choice from a state that counting alone has
changed, and a held slot waits to issue again. -/
theorem fetchDispatchAndResume : Obligations.FetchDispatchAndResume := by
  unfold Obligations.FetchDispatchAndResume
  refine ⟨fun s c u x hsite hx hrun himg hff hfl => ?fetch,
    fun s d f k x im hsite hf hk hx him => ⟨fun hok => ?block, fun r => execDispatchDecision_fault hsite hf hk hx him, fun hlate o ho hready => ?choice⟩,
    fun s cu b sl x hsite hb hsl hx hheld hun => ?resume⟩
  case fetch =>
    have hstep : exec .blockFetch s = .next (fetchSettled s c u x (x.lane u).next) := execBlockFetch_settled hsite hx hrun himg hff hfl
    refine ⟨fun i s' hi => ⟨_, (fetchSettled_image hx (Ctx.hasLane_of_mayRun hrun) hi).imp fun y hy => ⟨hstep, hy⟩⟩, ?_⟩
    rintro rfl ha hsucc
    rw [show (x.lane .thread).next = x.thr.next from rfl, fetchSettled_misaligned ha hsucc] at hstep
    exact ⟨_, _, hstep, State.updCtx_ctx hx _, rfl, rfl, rfl, rfl, rfl⟩
  case block =>
    obtain ⟨t, b, hstep, hblks, hctx, hu, haddr, hhdr, hfiring, hpm, hslots, hfaults, hframe⟩ := execDispatchDecision_block hsite hf hk hx him hok
    exact ⟨t, b, hstep, by rw [hblks, Tab.get?_put_self], hctx, hu, haddr, hhdr, hfiring, hpm, hslots, hfaults,
      fun g hg => by rw [hblks, Tab.get?_put_ne _ _ _ _ hg], hframe⟩
  case choice => exact Disp.choose_prio_le hk (fun o ho => hlate o (List.mem_filter.1 ho).1) o (List.mem_filter.2 ⟨ho, hready⟩)
  case resume => simp [execHeldSlotResume, hsite, hb, hsl, hx, hheld, hun]

end Sys2Proof.Machine
end

section
/-!
SUPPORT. Tokens on their way (03 R81 to R83, 09 R192, R193): null tokens and fault tokens through the two-operand forms, and the delivery of a token to
its consumer.
-/
namespace Sys2Proof.Machine

/-! ### Null tokens and fault tokens -/

/-- What an unpredicated two-operand form finds once both of its operands have arrived (03 R82, 09 R192). -/
theorem gate_two_operands {g : FmtG} {sl : Slot} {l r : Tok} (hl : sl.l = some l) (hr : sl.r = some r) (hp : g.p = .always) :
    gate (infoG g true true) sl = if l.isNull || r.isNull then .null else .go l r := by
  simp [gate, infoG, used, hl, hr, hp, Tok.ofWord, Tok.isNull, Tok.isFault]

theorem tokOp_null {i : Info} {s : State} {cu : Cur} {b : Blk} {sl : Slot} (h : InSlot s cu b sl) (hg : gate i sl = .null) (f : Tok → Tok → Tok) :
    tokOp i f s = .next (s.setBlk cu.frame (b.sends cu.slot sl i .null .null)) := by
  simp [tokOp, withSlot_inSlot h, hg]

/-- A fault token on the left is sent on, else one on the right (09 R193). -/
theorem tokOp_go {i : Info} {s : State} {cu : Cur} {b : Blk} {sl : Slot} {l r t : Tok} (h : InSlot s cu b sl) (hg : gate i sl = .go l r)
    {f : Tok → Tok → Tok} (ht : (if l.isFault then l else if r.isFault then r else f l r) = t) :
    tokOp i f s = .next (s.setBlk cu.frame (b.sends cu.slot sl i t t)) := by
  simp [tokOp, withSlot_inSlot h, hg, ht]

/-- What an unpredicated two-operand form sends where an operand is a null or a fault token (03 R82, 09 R192, R193). -/
theorem exec_two_operands {g : FmtG} {i : Instr} {s : State} {cu : Cur} {b : Blk} {sl : Slot} {l r : Tok} {f : Tok → Tok → Tok} (h : InSlot s cu b sl)
    (hl : sl.l = some l) (hr : sl.r = some r) (hp : g.p = .always) (hinfo : info i = infoG g true true)
    (hexec : exec i s = tokOp (infoG g true true) f s) :
    ((l.isNull = true ∨ r.isNull = true) → exec i s = .next (s.sent cu b sl i .null .null))
      ∧ (l.isNull = false → r.isNull = false → l.isFault = true → exec i s = .next (s.sent cu b sl i l l))
      ∧ (l.isNull = false → r.isNull = false → l.isFault = false → r.isFault = true → exec i s = .next (s.sent cu b sl i r r)) := by
  have hg := gate_two_operands hl hr hp
  simp only [hexec, State.sent, hinfo]
  refine ⟨fun hnull => ?null, fun hnl hnr hfault => ?left, fun hnl hnr hfl hfault => ?right⟩
  case null => exact tokOp_null h (hg.trans (if_pos (by simpa only [Bool.or_eq_true] using hnull))) f
  case left => exact tokOp_go h (hg.trans (if_neg (by simp [hnl, hnr]))) (by simp [hfault])
  case right => exact tokOp_go h (hg.trans (if_neg (by simp [hnl, hnr]))) (by simp [hfl, hfault])

/-- Settles O12: each form of the list is `tokOp` on two operands, whose gate tells a null token before a fault token. -/
theorem nullAndFaultTokens : Obligations.NullAndFaultTokens := by
  unfold Obligations.NullAndFaultTokens
  intro g s cu b sl l r h hl hr hp
  iterate 37 refine List.forall_mem_cons.2 ⟨exec_two_operands h hl hr hp rfl rfl, ?_⟩
  exact fun _ hnil => absurd hnil List.not_mem_nil

/-! ### Delivery -/

theorem Blk.send_none {tg : Tgt} (h : tg.kind = .none) (b : Blk) (src : Slot) (t : Tok) : b.send src t tg = b := by
  simp [Blk.send, h]

/-- A second token at an operand is a collision (03 R83), recorded at the slot of its consumer (log 20). -/
theorem Blk.send_taken {b : Blk} {dst : Slot} {tg : Tgt} (hdst : b.slots[tg.slot.toNat]? = some dst) (hk : tg.kind ≠ .none)
    (hop : (dst.operand tg.kind).isSome = true) (src : Slot) (t : Tok) : b.send src t tg = b.raise (slotFault 0x05 tg.slot.toNat) := by
  simp [Blk.send, hdst, hk, hop]

/-- Between slots of the control plane a token is put into an empty operand as it is (03 R74, R81). -/
theorem Blk.send_empty {b : Blk} {src dst : Slot} {tg : Tgt} (hdst : b.slots[tg.slot.toNat]? = some dst) (hp : dst.plane = .ctl) (hk : tg.kind ≠ .none)
    (hop : dst.operand tg.kind = none) (t : Tok) : b.send src t tg = b.updSlot tg.slot.toNat fun d => d.put tg.kind t := by
  have hsame : b.slots.modify tg.slot.toNat (fun d => d.put tg.kind (asOperand src dst tg.kind t)) = b.slots.modify tg.slot.toNat fun d => d.put tg.kind t := by
    simp [asOperand, hp]
  simp [Blk.send, hdst, hk, hop, Blk.updSlot, hsame]

theorem Slot.operand_put {k : TKind} (h : k ≠ .none) (sl : Slot) (t : Tok) : (sl.put k t).operand k = some t := by
  cases k with
  | none => exact absurd rfl h
  | left | right | pred => rfl

theorem Slot.put_word (sl : Slot) (k : TKind) (t : Tok) : (sl.put k t).word = sl.word := by cases k <;> rfl

/-- Only a predicate that does not fire quenches, and only an instruction that has not issued (03 R81). -/
theorem Slot.put_st (sl : Slot) (k : TKind) (t : Tok) :
    (sl.put k t).st = if k = .pred ∧ sl.st = .waiting ∧ quenches sl.pred t then .quenched else sl.st := by
  cases k <;> simp [Slot.put]

/-- Settles O13, by the three cases of a delivery: no target, an operand that is taken, an empty one. -/
theorem deliveryAndCollision : Obligations.DeliveryAndCollision := by
  unfold Obligations.DeliveryAndCollision
  intro b src dst t tg hdst _ hplane
  refine ⟨fun hk => Blk.send_none hk b src t, fun hk hop => ?taken, fun hk hop => ?empty⟩
  case taken =>
    rw [Blk.send_taken hdst hk hop]
    exact ⟨rfl, by simp [Blk.raise, slotFault]⟩
  case empty =>
    rw [Blk.send_empty hdst hplane hk hop]
    refine ⟨rfl, fun n hn => by simp [Blk.updSlot, Ne.symm hn], dst.put tg.kind t, ?_, Slot.operand_put hk dst t, Slot.put_word dst _ t,
      Slot.put_st dst _ t⟩
    simp [Blk.updSlot, hdst]

end Sys2Proof.Machine
end

section
/-!
SUPPORT. One step (03 R76, 95): the act at the head of the agenda, and what the machine does by itself (logs 2, 5, 8, 15).
-/
namespace Sys2Proof.Machine

theorem wf_of_decode {pl : Plane} {w : IWord} {i : Instr} (h : decode pl w = .ok i) : i.wf = true := by
  unfold decode at h
  split at h
  · cases h
  · split at h
    · next hwf => cases h; exact hwf
    · cases h

/-- The act that issues a slot of a block in flight is the meaning of what the slot's word decodes to (03 R76). -/
theorem performAct_issue {ex : Instr → State → Out State} {s : State} {cu : Cur} {b : Blk} {sl : Slot} {i : Instr} (hb : s.blks.get? cu.frame = some b)
    (hsl : b.slots[cu.slot]? = some sl) (hd : decode sl.plane sl.word = .ok i) : performAct ex (.issue cu) s = ex i { s with site := .slot cu } := by
  simp [performAct, hb, hsl, hd]

theorem performAct_undecodable {ex : Instr → State → Out State} {s : State} {cu : Cur} {b : Blk} {sl : Slot} {e : Reject}
    (hb : s.blks.get? cu.frame = some b) (hsl : b.slots[cu.slot]? = some sl) (hd : decode sl.plane sl.word = .error e) :
    performAct ex (.issue cu) s = .fault .undecodable := by
  simp [performAct, hb, hsl, hd]

theorem performAct_noBlk {ex : Instr → State → Out State} {s : State} {cu : Cur} (hb : s.blks.get? cu.frame = none) :
    performAct ex (.issue cu) s = .fault .noSite := by
  simp [performAct, hb]

theorem step_issue {s : State} {cu : Cur} {r : List Act} (h : s.agenda = .issue cu :: r) : step s = performAct exec (.issue cu) { s with agenda := r } := by
  simp [step, stepWith, h]

theorem step_event {s : State} {i : Instr} {site : Site} {r : List Act} (h : s.agenda = .ev i site :: r) :
    step s = exec i { ({ s with agenda := r } : State).tick with site := site } := by
  simp [step, stepWith, h, performAct]

theorem step_byItself {s : State} (h : s.agenda = []) : step s = .next (s.byItself exec) := by
  simp [step, stepWith, h]

/-- The machine by itself takes the first instruction that can issue, where its issue changes the state (log 2). -/
theorem byItself_issue {ex : Instr → State → Out State} {s t : State} {a : Act} {r : List Act} (ha : s.issueActs = a :: r)
    (hp : performAct ex a s = .next t) (hc : s.changed t = true) : s.byItself ex = t := by
  simp [State.byItself, firstAct, ha, hp, hc]

/-- A placed word stands in a slot of a block in flight, and its issue is the next act (log 8). -/
theorem placeWord_issue {s : State} {w : IWord} {i : Instr} (h : decode .ctl w = .ok i) :
    ∃ (cu : Cur) (b : Blk) (sl : Slot), (s.placeWord w).agenda = [.issue cu] ∧ (s.placeWord w).blks.get? cu.frame = some b ∧ b.slots[cu.slot]? = some sl
      ∧ sl.word = w ∧ sl.plane = .ctl := by
  have hpl : planeOf w = .ctl := by simp [planeOf, h]
  simp only [State.placeWord, hpl, h]
  exact ⟨_, _, readySlot .ctl w (info i).p, rfl, Tab.get?_put_self _ _ _, rfl, rfl, rfl⟩

/-- Settles O52, one case for each act that a step can perform: an act of the agenda (logs 5, 15), what the machine does by itself (log 2), a placed
word (log 8). -/
theorem stepRunsTheDecodedInstruction : Obligations.StepRunsTheDecodedInstruction := by
  unfold Obligations.StepRunsTheDecodedInstruction
  refine ⟨fun s cu r b sl i ha hb hsl hd => ⟨wf_of_decode hd, ?issue⟩, fun s cu r b sl e ha hb hsl hd => ?undecodable, fun s cu r ha hb => ?noBlk,
    fun s i site r ha => step_event ha, fun s cu r b sl i t ha hacts hb hsl hd hex hc => ?byItself, fun s ha => ⟨_, step_byItself ha⟩, fun s w i hd => ?placed⟩
  case issue => exact (step_issue ha).trans (performAct_issue hb hsl hd)
  case undecodable => exact (step_issue ha).trans (performAct_undecodable hb hsl hd)
  case noBlk => exact (step_issue ha).trans (performAct_noBlk hb)
  case byItself => rw [step_byItself ha, byItself_issue hacts ((performAct_issue hb hsl hd).trans hex) hc]
  case placed =>
    obtain ⟨cu, b, sl, ha, hb, hsl, hw, hp⟩ := placeWord_issue (s := s) hd
    exact ⟨cu, b, sl, ha, hb, hsl, hw, hp, (step_issue ha).trans (performAct_issue hb hsl (by rwa [hp, hw]))⟩

end Sys2Proof.Machine
end

section
/-!
SUPPORT. The commit of a thread's block that has no store-class effects (03 R86, R87, R89, 09 R197, R212 to R217, 13 R308 to R310): the registers that it
completes, its branch, and what the end of the commit leaves as the branch has left it.
-/
namespace Sys2Proof.Machine

/-! ### Tables -/

theorem Tab.get?_eq_none {κ α : Type} [DecidableEq κ] {t : Tab κ α} {k : κ} : Tab.get? t k = none ↔ ∀ e ∈ t, e.1 ≠ k := by
  induction t with
  | nil => simp [Tab.get?]
  | cons e t ih =>
    obtain ⟨j, v⟩ := e
    by_cases h : j = k
    · simp [Tab.get?, h]
    · simpa [Tab.get?, h] using ih

theorem Tab.get?_del_self {κ α : Type} [DecidableEq κ] (t : Tab κ α) (k : κ) : (Tab.del t k).get? k = none :=
  Tab.get?_eq_none.2 fun _ he => by simpa using (List.mem_filter.1 he).2

theorem vecGet_vecSet_self {α : Type} {n i : Nat} (h : i < n) (v : Vector α n) (a d : α) : vecGet (vecSet v i a) i d = a := by
  simp [vecGet, vecSet, h]

theorem vecGet_vecSet_ne {α : Type} {n i j : Nat} (h : i ≠ j) (v : Vector α n) (a d : α) : vecGet (vecSet v i a) j d = vecGet v j d := by
  simp [vecGet, vecSet, h]

/-! ### The general registers that a block of an access kind completes -/

theorem Regs.commit_null (r : Regs) (kind n : Nat) : r.commit kind (n, none) = r := rfl

theorem Regs.commit_access (r : Regs) (n : Nat) (t : Tok) :
    r.commit 1 (n, some t) = if n < 64 then r.writeG n t.val t.handle else r.writeP (n - 64) t.val := rfl

/-- A write of another register, or of `g0`, leaves a general register as it is (09 R196, R197). -/
theorem Regs.writeG_ne {n m : Nat} (h : m ≠ n ∨ m = 0) (r : Regs) (v : Word) (hd : Option (BitVec 4)) :
    vecGet (r.writeG m v hd).g n 0 = vecGet r.g n 0 ∧ vecGet (r.writeG m v hd).gh n none = vecGet r.gh n none := by
  unfold Regs.writeG
  split
  · exact ⟨rfl, rfl⟩
  · next hm =>
    have hne : m ≠ n := h.resolve_right hm
    exact ⟨vecGet_vecSet_ne hne _ _ _, vecGet_vecSet_ne hne _ _ _⟩

theorem Regs.writeG_self {n : Nat} (h0 : 0 < n) (h : n < 64) (r : Regs) (v : Word) (hd : Option (BitVec 4)) :
    vecGet (r.writeG n v hd).g n 0 = v ∧ vecGet (r.writeG n v hd).gh n none = hd := by
  rw [Regs.writeG, if_neg (by omega)]
  exact ⟨vecGet_vecSet_self h _ _ _, vecGet_vecSet_self h _ _ _⟩

/-- A general register keeps its value where a write is null, of another register or of `g0` (09 R197). -/
theorem Regs.commit_keeps {n : Nat} {w : Nat × Option Tok} (h : w.1 ≠ n ∨ w.1 = 0 ∨ w.2 = none) (r : Regs) :
    vecGet (r.commit 1 w).g n 0 = vecGet r.g n 0 ∧ vecGet (r.commit 1 w).gh n none = vecGet r.gh n none := by
  obtain ⟨m, _ | t⟩ := w
  · exact ⟨rfl, rfl⟩
  · rw [Regs.commit_access]
    split
    · exact Regs.writeG_ne (by simpa using h) r _ _
    · exact ⟨rfl, rfl⟩

theorem Regs.commits_keep {n : Nat} {l : List (Nat × Option Tok)} (h : ∀ w ∈ l, w.1 ≠ n ∨ w.1 = 0 ∨ w.2 = none) (r : Regs) :
    vecGet (l.foldl (fun r w => r.commit 1 w) r).g n 0 = vecGet r.g n 0
      ∧ vecGet (l.foldl (fun r w => r.commit 1 w) r).gh n none = vecGet r.gh n none := by
  induction l generalizing r with
  | nil => exact ⟨rfl, rfl⟩
  | cons w l ih =>
    obtain ⟨hw, hl⟩ := List.forall_mem_cons.1 h
    obtain ⟨hg, hgh⟩ := Regs.commit_keeps hw r
    obtain ⟨hg', hgh'⟩ := ih hl (r.commit 1 w)
    exact ⟨hg'.trans hg, hgh'.trans hgh⟩

/-- A general register holds what every write of it in a block gives, once it holds it or one such write is still to come. -/
theorem Regs.commits_write {n : Nat} {t : Tok} (h0 : 0 < n) (hn : n < 64) {l : List (Nat × Option Tok)} (h : ∀ w ∈ l, w.1 = n → w.2 = some t) {r : Regs}
    (hr : (n, some t) ∈ l ∨ vecGet r.g n 0 = t.val ∧ vecGet r.gh n none = t.handle) :
    vecGet (l.foldl (fun r w => r.commit 1 w) r).g n 0 = t.val ∧ vecGet (l.foldl (fun r w => r.commit 1 w) r).gh n none = t.handle := by
  induction l generalizing r with
  | nil => simpa using hr
  | cons w l ih =>
    obtain ⟨hw, hl⟩ := List.forall_mem_cons.1 h
    simp only [List.foldl_cons]
    refine ih hl ?_
    obtain ⟨m, o⟩ := w
    by_cases hm : m = n
    · obtain rfl : o = some t := hw hm
      subst hm
      rw [Regs.commit_access, if_pos hn]
      exact .inr (Regs.writeG_self h0 hn r _ _)
    · obtain ⟨hg, hgh⟩ := Regs.commit_keeps (w := (m, o)) (.inl hm) r
      rw [hg, hgh]
      exact hr.imp_left fun hmem => by simpa [Ne.symm hm] using hmem

/-! ### What the end of a commit leaves as it is -/

/-- Two contexts whose threads stand at the same point, with the same control fields and fault records. -/
structure Ctx.SameThread (x y : Ctx) : Prop where
  ctl : y.ctl = x.ctl
  recs : y.recs = x.recs
  next : y.thr.next = x.thr.next
  depth : y.thr.depth = x.thr.depth
  stk : y.thr.stk = x.thr.stk
  wait : y.thr.wait = x.thr.wait

theorem Ctx.SameThread.refl (x : Ctx) : x.SameThread x := ⟨rfl, rfl, rfl, rfl, rfl, rfl⟩

theorem Ctx.SameThread.trans {x y z : Ctx} (h : x.SameThread y) (h' : y.SameThread z) : x.SameThread z :=
  ⟨h'.ctl.trans h.ctl, h'.recs.trans h.recs, h'.next.trans h.next, h'.depth.trans h.depth, h'.stk.trans h.stk, h'.wait.trans h.wait⟩

/-- The same data in memory, and no block in a frame that was free. -/
structure State.Trimmed (s t : State) : Prop where
  mem : t.mem = s.mem
  bufs : t.bufs = s.bufs
  free : ∀ f, s.blks.get? f = none → t.blks.get? f = none

theorem State.Trimmed.refl (s : State) : s.Trimmed s := ⟨rfl, rfl, fun _ h => h⟩

theorem State.Trimmed.trans {s t r : State} (h : s.Trimmed t) (h' : t.Trimmed r) : s.Trimmed r :=
  ⟨h'.mem.trans h.mem, h'.bufs.trans h.bufs, fun f hf => h'.free f (h.free f hf)⟩

theorem State.updCtx_trimmed (s : State) (c : Nat) (f : Ctx → Ctx) : s.Trimmed (s.updCtx c f) := ⟨rfl, rfl, fun _ h => h⟩

theorem State.setCtx_trimmed (s : State) (c : Nat) (x : Ctx) : s.Trimmed (s.setCtx c x) := ⟨rfl, rfl, fun _ h => h⟩

theorem State.discard_trimmed (s : State) (p : Blk → Bool) : s.Trimmed (s.discard p) :=
  ⟨rfl, rfl, fun _ h => Tab.get?_eq_none.2 fun e he => Tab.get?_eq_none.1 h e (List.mem_filter.1 he).1⟩

theorem State.discardLane_trimmed (s : State) (c : Nat) (u : Fetcher) : s.Trimmed (s.discardLane c u) :=
  (s.discard_trimmed _).trans (State.updCtx_trimmed _ _ _)

/-- A context whose thread fetches again after its blocks in flight are gone (03 R90). -/
def Ctx.refetched (x : Ctx) : Ctx := { x with dec := { x.dec with hold := x.dec.hold.filter fun h => h ≠ .thread }, thr := x.thr.refetch }

theorem State.discardLane_ctx {s : State} {c : Nat} {x : Ctx} (hx : s.ctxs.get? c = some x) : (s.discardLane c .thread).ctxs.get? c = some x.refetched :=
  State.updCtx_ctx (s := s.discard _) hx _

theorem Ctx.refetched_sameThread (x : Ctx) : x.SameThread x.refetched := ⟨rfl, rfl, rfl, rfl, rfl, rfl⟩

/-- A step that keeps the data and a context's registers, and at which its thread stays where it stands. -/
structure State.Settles (c : Nat) (s t : State) : Prop where
  trimmed : s.Trimmed t
  ctx : ∀ x, s.ctxs.get? c = some x → ∃ y, t.ctxs.get? c = some y ∧ y.regs = x.regs ∧ x.SameThread y

theorem State.Settles.refl (c : Nat) (s : State) : s.Settles c s := ⟨.refl s, fun x h => ⟨x, h, rfl, .refl x⟩⟩

theorem State.Settles.trans {c : Nat} {s t r : State} (h : s.Settles c t) (h' : t.Settles c r) : s.Settles c r where
  trimmed := h.trimmed.trans h'.trimmed
  ctx x hx := by
    obtain ⟨y, hy, hr, hxy⟩ := h.ctx x hx
    obtain ⟨z, hz, hr', hyz⟩ := h'.ctx y hy
    exact ⟨z, hz, hr'.trans hr, hxy.trans hyz⟩

theorem State.updCtx_settles {c : Nat} {f : Ctx → Ctx} (hr : ∀ x : Ctx, (f x).regs = x.regs) (hf : ∀ x : Ctx, x.SameThread (f x)) (s : State) :
    s.Settles c (s.updCtx c f) :=
  ⟨s.updCtx_trimmed c f, fun x hx => ⟨f x, State.updCtx_ctx hx f, hr x, hf x⟩⟩

theorem State.discardLane_settles (s : State) (c : Nat) : s.Settles c (s.discardLane c .thread) :=
  ⟨s.discardLane_trimmed c .thread, fun x hx => ⟨x.refetched, State.discardLane_ctx hx, rfl, x.refetched_sameThread⟩⟩

/-- Discarding the blocks that do not lie at a successor moves no thread (09 R212). -/
theorem State.follow_settles (s : State) (c : Nat) (a : Word) : s.Settles c (s.follow c .thread a) := by
  unfold State.follow
  split
  · split
    · exact .refl c s
    · exact s.discardLane_settles c
  · split
    · exact .refl c s
    · split
      · split
        · exact .refl c s
        · exact s.discardLane_settles c
      · exact .refl c s

/-- Two lanes that differ at most in their repeat records. -/
structure Lane.SamePlace (l m : Lane) : Prop where
  next : m.next = l.next
  depth : m.depth = l.depth
  stk : m.stk = l.stk
  wait : m.wait = l.wait

theorem Lane.meetRpt_samePlace (l : Lane) (first : Bool) (a : Word) : l.SamePlace (l.meetRpt first a) := by
  unfold Lane.meetRpt
  split
  · exact ⟨rfl, rfl, rfl, rfl⟩
  · split <;> exact ⟨rfl, rfl, rfl, rfl⟩

theorem Lane.takeRpt_samePlace (l : Lane) (b : Blk) (hm : Bool) : l.SamePlace (l.takeRpt b hm) := by
  unfold Lane.takeRpt
  split <;> exact ⟨rfl, rfl, rfl, rfl⟩

theorem Lane.SamePlace.trans {l m n : Lane} (h : l.SamePlace m) (h' : m.SamePlace n) : l.SamePlace n :=
  ⟨h'.next.trans h.next, h'.depth.trans h.depth, h'.stk.trans h.stk, h'.wait.trans h.wait⟩

theorem Lane.SamePlace.sameThread {x : Ctx} {m : Lane} (h : x.thr.SamePlace m) : x.SameThread (x.setLane .thread m) :=
  ⟨rfl, rfl, h.next, h.depth, h.stk, h.wait⟩

theorem State.nextRpt_settles (s : State) (c : Nat) : s.Settles c (s.nextRpt c .thread) := by
  unfold State.nextRpt
  split
  · refine State.updCtx_settles (fun x => ?_) (fun x => ?_) s
    · rfl
    · exact ((x.thr.meetRpt_samePlace _ _).trans (Lane.takeRpt_samePlace _ _ _)).sameThread
  · refine State.updCtx_settles (fun x => ?_) (fun x => ?_) s
    · split <;> rfl
    · split
      · exact (x.thr.meetRpt_samePlace _ _).sameThread
      · exact .refl x

theorem oldestOf_mem {l : List (FrameKey × Blk)} {e : FrameKey × Blk} (h : oldestOf l = some e) : e ∈ l := by
  induction l generalizing e with
  | nil => cases h
  | cons a l ih =>
    rw [oldestOf] at h
    split at h
    · cases h; exact List.mem_cons_self
    · next o ho =>
      split at h
      · cases h; exact List.mem_cons_of_mem a (ih ho)
      · cases h; exact List.mem_cons_self

theorem State.oldest_mem {s : State} {c : Nat} {u : Fetcher} {e : FrameKey × Blk} (h : s.oldest c u = some e) : e ∈ s.blks :=
  (List.mem_filter.1 (oldestOf_mem h)).1

/-- A block that stands in a frame already changes in its frame. -/
theorem State.setBlk_trimmed {s : State} {e : FrameKey × Blk} (he : e ∈ s.blks) (b : Blk) : s.Trimmed (s.setBlk e.1 b) :=
  ⟨rfl, rfl, fun _ hf => (Tab.get?_put_ne _ _ _ _ (Ne.symm (Tab.get?_eq_none.1 hf e he))).trans hf⟩

theorem State.stackCheck_settles (s : State) (c d : Nat) (u : Fetcher) : s.Settles c (s.stackCheck d u) := by
  unfold State.stackCheck
  split
  · next e _ he _ =>
    have hset (b : Blk) : s.Settles c (s.setBlk e.1 b) := ⟨State.setBlk_trimmed (State.oldest_mem he) b, (State.Settles.refl c s).ctx⟩
    split
    · split
      · exact .refl c s
      · exact hset _
    · exact .refl c s
  · exact .refl c s

/-! ### The branch -/

/-- How a thread's context stands once the branch of its block has acted (09 R212 to R217, 13 R308 to R310): its place, its stack and its wait, or the
handler that it enters or leaves. -/
def Branch.Acted (br : Branch) (ret : Word) (x y : Ctx) : Prop :=
  match br.kind with
  | .jump a => y.thr.next = a ∧ y.thr.depth = x.thr.depth ∧ y.thr.stk = x.thr.stk ∧ y.ctl = x.ctl
  | .call a => y.thr.next = a ∧ y.thr.depth = x.thr.depth + 1 ∧ y.ctl = x.ctl ∧ y.thr.stk = vecSet x.thr.stk x.thr.depth (align16 ret)
  | .ret k => y.thr.next = (vecGet x.thr.stk (x.thr.depth - 1) 0 : Word) + k <<< 4 ∧ y.thr.depth = x.thr.depth - 1 ∧ y.ctl = x.ctl
  | .wait w a => (∃ m, y.thr.wait = some { kind := w, next := a, met := m } ∧ (w = .yield ∨ w = .idle → m = none)) ∧ y.ctl = x.ctl
  | .trap k => y.recs.code = 0x20 ∧ y.recs.epc = align16 ret ∧ y.recs.finfo = k.setWidth 64 <<< 16 ∧ y.thr.next = align16 x.ctl.tvec
      ∧ y.ctl = { x.ctl with spm := x.ctl.pm, pm := true, hm := true }
  | .svc k => y.recs.code = 0x21 ∧ y.recs.epc = align16 ret ∧ y.recs.finfo = k.setWidth 64 <<< 16 ∧ y.thr.next = align16 x.ctl.tvec
      ∧ y.ctl = { x.ctl with spm := x.ctl.pm, pm := true, hm := true }
  | .rfe => y.thr.next = align16 x.recs.epc ∧ y.ctl = { x.ctl with pm := x.ctl.spm, hm := false }

/-- What a branch has done depends on where the thread stood alone, and stays done while the thread stays where it stands. -/
theorem Branch.Acted.congr {br : Branch} {a : Word} {x x' y y' : Ctx} (h : br.Acted a x' y) (hx : x.SameThread x') (hy : y.SameThread y') :
    br.Acted a x y' := by
  obtain ⟨hctl, hrecs, -, hdepth, hstk, -⟩ := hx
  obtain ⟨hctl', hrecs', hnext', hdepth', hstk', hwait'⟩ := hy
  obtain ⟨exit, kind⟩ := br
  cases kind <;> simpa only [Branch.Acted, hctl, hrecs, hdepth, hstk, hctl', hrecs', hnext', hdepth', hstk', hwait'] using h

/-- A thread goes on at a successor (09 R212). -/
theorem State.succeed_ctx {s : State} {b : Blk} {x : Ctx} (hx : s.ctxs.get? b.ctx = some x) (hu : b.u = .thread) (l : Lane) (exit : BitVec 3) (a : Word) :
    s.Trimmed (s.succeed b l exit a)
      ∧ ∃ y, (s.succeed b l exit a).ctxs.get? b.ctx = some y ∧ y.regs = x.regs ∧ (x.setLane .thread (l.goOn b exit a)).SameThread y := by
  have heq : s.succeed b l exit a = (s.setCtx b.ctx (x.setLane .thread (l.goOn b exit a))).follow b.ctx .thread a := by
    simp [State.succeed, hx, hu, Ctx.endsAct]
  have hf := State.follow_settles (s.setCtx b.ctx (x.setLane .thread (l.goOn b exit a))) b.ctx a
  rw [heq]
  exact ⟨(s.setCtx_trimmed _ _).trans hf.trimmed, hf.ctx _ (Tab.get?_put_self _ _ _)⟩

/-- A thread waits (02 R58). -/
theorem State.await_ctx {s : State} {b : Blk} {x : Ctx} (hx : s.ctxs.get? b.ctx = some x) (hu : b.u = .thread) (l : Lane) (exit : BitVec 3) (w : WaitKind)
    (a : Word) :
    s.Trimmed (s.await b l exit w a)
      ∧ ∃ y, (s.await b l exit w a).ctxs.get? b.ctx = some y ∧ y.regs = x.regs ∧ y.ctl = x.ctl
        ∧ y.thr.wait = some { kind := w, next := a, met := s.metNow b.ctx x .thread w a } := by
  simp only [State.await, hx, hu, Ctx.endsAct, Bool.false_and, Bool.false_eq_true, if_false]
  exact ⟨(s.discardLane_trimmed _ _).trans (State.updCtx_trimmed _ _ _), _, State.updCtx_ctx (State.discardLane_ctx hx) _, rfl, rfl, rfl⟩

/-- A thread outside a handler enters it (13 R295). -/
theorem State.trapEntry_ctx {s : State} {c : Nat} {x : Ctx} (hx : s.ctxs.get? c = some x) (hm : x.ctl.hm = false) (f : FaultRec) (epc : Word) :
    s.Trimmed (s.trapEntry c f epc)
      ∧ ∃ y, (s.trapEntry c f epc).ctxs.get? c = some y ∧ y.regs = x.regs ∧ y.recs = x.recs.take f epc ∧ y.thr.next = align16 x.ctl.tvec
        ∧ y.ctl = { x.ctl with spm := x.ctl.pm, pm := true, hm := true } := by
  simp only [State.trapEntry, hx, hm, Bool.false_eq_true, if_false]
  exact ⟨(s.discardLane_trimmed _ _).trans (State.updCtx_trimmed _ _ _), _, State.updCtx_ctx (State.discardLane_ctx hx) _, rfl, rfl, rfl, rfl⟩

/-- A thread leaves its handler (13 R310). -/
theorem State.returnFrom_ctx {s : State} {c : Nat} {x : Ctx} (hx : s.ctxs.get? c = some x) :
    s.Trimmed (s.returnFrom c)
      ∧ ∃ y, (s.returnFrom c).ctxs.get? c = some y ∧ y.regs = x.regs ∧ y.thr.next = align16 x.recs.epc ∧ y.ctl = { x.ctl with pm := x.ctl.spm, hm := false } :=
  ⟨(s.discardLane_trimmed _ _).trans (State.updCtx_trimmed _ _ _), _, State.updCtx_ctx (State.discardLane_ctx hx) _, rfl, rfl, rfl⟩

/-- The code of a `trap` or an `svc` stands in `cr.finfo` from bit 16 up (13 R301, R308). -/
theorem trapRec_finfo (code : Nat) (k : BitVec 9) : (trapRec code k).finfo = k.setWidth 64 <<< 16 := by
  apply BitVec.eq_of_toNat_eq
  change (0#8 ++ 0#8 ++ 0#6 ++ 0#10 ++ 0#3 ++ 0#1 ++ 0#3 ++ k ++ 0#8 ++ 0#1 ++ 0#7 : BitVec (8 + 8 + 6 + 10 + 3 + 1 + 3 + 9 + 8 + 1 + 7)).toNat = _
  have hk : k.toNat < 2 ^ 9 := k.isLt
  simp only [BitVec.toNat_append, BitVec.toNat_shiftLeft, BitVec.toNat_setWidth, Nat.shiftLeft_eq, BitVec.toNat_ofNat, Nat.zero_mod, Nat.zero_mul,
    Nat.zero_or, Nat.or_zero]
  omega

/-- Where its stack allows it, and a `trap` or an `svc` strikes outside a handler, a thread's branch acts and changes no register. -/
theorem State.branchTo_acted {s : State} {b : Blk} {x : Ctx} {br : Branch} (hx : s.ctxs.get? b.ctx = some x) (hu : b.u = .thread)
    (hcall : ∀ a, br.kind = .call a → x.thr.depth < 16) (hret : ∀ k, br.kind = .ret k → x.thr.depth ≠ 0)
    (htrap : ∀ k, br.kind = .trap k ∨ br.kind = .svc k → x.ctl.hm = false) :
    s.Trimmed (s.branchTo b br) ∧ ∃ y, (s.branchTo b br).ctxs.get? b.ctx = some y ∧ y.regs = x.regs ∧ br.Acted b.returnAddr x y := by
  obtain ⟨exit, kind⟩ := br
  have hlane : x.lane b.u = x.thr := by rw [hu]; rfl
  cases kind with
  | jump a =>
    simp only [State.branchTo, hx, hlane]
    obtain ⟨ht, y, hy, hr, h⟩ := State.succeed_ctx hx hu x.thr exit a
    exact ⟨ht, y, hy, hr, h.next, h.depth, h.stk, h.ctl⟩
  | call a =>
    simp only [State.branchTo, hx, hlane, State.pushRet, if_pos (hcall a rfl)]
    obtain ⟨ht, y, hy, hr, h⟩ :=
      State.succeed_ctx hx hu { x.thr with stk := vecSet x.thr.stk x.thr.depth (align16 b.returnAddr), depth := x.thr.depth + 1 } exit a
    exact ⟨ht, y, hy, hr, h.next, h.depth, h.ctl, h.stk⟩
  | ret k =>
    simp only [State.branchTo, hx, hlane, State.popRet, if_neg (hret k rfl)]
    obtain ⟨ht, y, hy, hr, h⟩ :=
      State.succeed_ctx hx hu { x.thr with depth := x.thr.depth - 1 } exit ((vecGet x.thr.stk (x.thr.depth - 1) 0 : Word) + k <<< 4)
    exact ⟨ht, y, hy, hr, h.next, h.depth, h.ctl⟩
  | wait w a =>
    simp only [State.branchTo, hx, hlane]
    obtain ⟨ht, y, hy, hr, hctl, hwait⟩ := State.await_ctx hx hu x.thr exit w a
    exact ⟨ht, y, hy, hr, ⟨_, hwait, by rintro (rfl | rfl) <;> rfl⟩, hctl⟩
  | trap k =>
    simp only [State.branchTo, hx, hu, State.takeFault]
    obtain ⟨ht, y, hy, hr, hrecs, hnext, hctl⟩ := State.trapEntry_ctx hx (htrap k (.inl rfl)) (trapRec 0x20 k) b.returnAddr
    exact ⟨ht, y, hy, hr, by rw [hrecs]; rfl, by rw [hrecs]; rfl, by rw [hrecs]; exact trapRec_finfo _ k, hnext, hctl⟩
  | svc k =>
    simp only [State.branchTo, hx, hu, State.takeFault]
    obtain ⟨ht, y, hy, hr, hrecs, hnext, hctl⟩ := State.trapEntry_ctx hx (htrap k (.inr rfl)) (trapRec 0x21 k) b.returnAddr
    exact ⟨ht, y, hy, hr, by rw [hrecs]; rfl, by rw [hrecs]; rfl, by rw [hrecs]; exact trapRec_finfo _ k, hnext, hctl⟩
  | rfe =>
    simp only [State.branchTo, hx]
    exact State.returnFrom_ctx hx

/-! ### The commit -/

/-- The commit cycle of a block of an access kind without effects, takes and handles writes its registers and moves no thread (03 R87). -/
theorem State.commitAll_ctx {s : State} {b : Blk} {x : Ctx} (hx : s.ctxs.get? b.ctx = some x) (hkind : b.hdr.kind = 1) (heffs : b.effs = [])
    (htakes : b.takes = []) (hhandles : b.handles = []) :
    s.Trimmed (s.commitAll b x)
      ∧ ∃ y, (s.commitAll b x).ctxs.get? b.ctx = some y ∧ y.regs = b.regs.foldl (fun r w => r.commit 1 w) x.regs ∧ x.SameThread y := by
  simp only [State.commitAll, Blk.sortedEffs, heffs, htakes, hkind, List.foldl_nil, List.map_nil, if_true]
  refine ⟨⟨rfl, rfl, fun _ h => h⟩, _, State.updCtx_ctx (State.updCtx_ctx hx _) _, ?_, ⟨rfl, rfl, rfl, rfl, rfl, rfl⟩⟩
  simp [Ctx.commitRegs, hkind, hhandles]

/-- A firing of a block that is not repeated leaves the repeat record as it is (03 R94). -/
theorem Lane.fired_of_no_repeat {b : Blk} (h : b.hdr.rpt = 0) (l : Lane) (hm : Bool) : l.fired b hm = l := by
  simp [Lane.fired, h]

theorem State.fired_settles {b : Blk} (h : b.hdr.rpt = 0) (s : State) (c : Nat) (hm : Bool) :
    s.Settles c (s.updCtx c fun y => y.setLane .thread ((y.lane .thread).fired b hm)) := by
  have hsame (y : Ctx) : y.setLane .thread ((y.lane .thread).fired b hm) = y := by rw [Lane.fired_of_no_repeat h]; rfl
  exact State.updCtx_settles (fun y => by rw [hsame]) (fun y => by rw [hsame]; exact .refl y) s

/-- The end of a commit moves no thread (03 R94, 09 R216). -/
theorem State.commitEnd_settles (s : State) (c : Nat) : s.Settles c ((s.nextRpt c .thread).stackCheck c .thread) :=
  (s.nextRpt_settles c).trans (State.stackCheck_settles _ c c .thread)

/-- The commit of a thread's block without effects, takes, handles and a repeat field frees its frame, writes its registers and lets its branch act. -/
theorem State.commit_acted {s : State} {f : FrameKey} {b : Blk} {x : Ctx} {br : Branch} (hx : s.ctxs.get? b.ctx = some x) (hu : b.u = .thread)
    (hkind : b.hdr.kind = 1) (hrpt : b.hdr.rpt = 0) (heffs : b.effs = []) (htakes : b.takes = []) (hhandles : b.handles = [])
    (hcall : ∀ a, br.kind = .call a → x.thr.depth < 16) (hret : ∀ k, br.kind = .ret k → x.thr.depth ≠ 0)
    (htrap : ∀ k, br.kind = .trap k ∨ br.kind = .svc k → x.ctl.hm = false) :
    ∃ y, (s.commit f b x br).ctxs.get? b.ctx = some y ∧ (s.commit f b x br).blks.get? f = none ∧ (s.commit f b x br).mem = s.mem
      ∧ (s.commit f b x br).bufs = s.bufs ∧ y.regs = b.regs.foldl (fun r w => r.commit 1 w) x.regs ∧ br.Acted b.returnAddr x y := by
  obtain ⟨hall, y, hy, hregs, hxy⟩ := State.commitAll_ctx (s := { s with blks := s.blks.del f }) hx hkind heffs htakes hhandles
  generalize hs : State.commitAll _ b x = t at hall hy
  have hfire := t.fired_settles hrpt b.ctx x.ctl.hm
  obtain ⟨z, hz, hzregs, hyz⟩ := hfire.ctx y hy
  have hxz := hxy.trans hyz
  obtain ⟨hbranch, v, hv, hvregs, hacted⟩ := State.branchTo_acted hz hu (br := br) (by rwa [hxz.depth]) (by rwa [hxz.depth]) (by rwa [hxz.ctl])
  obtain ⟨w, hw, hwregs, hvw⟩ := (State.commitEnd_settles _ b.ctx).ctx v hv
  have hsum := ((hall.trans hfire.trimmed).trans hbranch).trans (State.commitEnd_settles _ b.ctx).trimmed
  have hcommit : s.commit f b x br = ((((t.updCtx b.ctx fun y => y.setLane .thread ((y.lane .thread).fired b x.ctl.hm)).branchTo b br).nextRpt b.ctx
      .thread).stackCheck b.ctx .thread) := by
    simp [State.commit, hrpt, hu, ← hs]
  rw [hcommit]
  exact ⟨w, hw, hsum.free f (Tab.get?_del_self _ _), hsum.mem, hsum.bufs, hwregs.trans (hvregs.trans (hzregs.trans hregs)), hacted.congr hxz hvw⟩

/-! ### The event -/

/-- What a thread's oldest block meets at its commit: it is complete, and nothing outside it and no event at its boundary keeps it (03 R86). -/
structure State.MayCommit (s : State) (f : FrameKey) (b : Blk) (x : Ctx) (br : Branch) : Prop where
  site : s.site = .frame f
  blk : s.blks.get? f = some b
  ctx : s.ctxs.get? b.ctx = some x
  branch : b.branch = some br
  live : x.live = true
  oldest : s.isOldest b = true
  rule : b.ruleMet = true
  waits : s.commitWaits b x = false
  thread : b.u = .thread
  events : x.eventsDue = false

theorem execBlockCommit_commit {s : State} {f : FrameKey} {b : Blk} {x : Ctx} {br : Branch} (h : s.MayCommit f b x br) (hstack : b.stackFault x.thr = none)
    (hsealed : s.commitSealed b x = false) : execBlockCommit s = .next (s.commit f b x br) := by
  simp [execBlockCommit, h.site, h.blk, h.ctx, h.branch, h.live, h.oldest, h.rule, h.waits, h.thread, h.events, Ctx.lane, hstack, hsealed]

theorem execBlockCommit_stackFault {s : State} {f : FrameKey} {b : Blk} {x : Ctx} {br : Branch} {r : FaultRec} (h : s.MayCommit f b x br)
    (hstack : b.stackFault x.thr = some r) : execBlockCommit s = .next (s.setBlk f (b.raise r)) := by
  simp [execBlockCommit, h.site, h.blk, h.ctx, h.branch, h.live, h.oldest, h.rule, h.waits, h.thread, h.events, Ctx.lane, hstack]

/-- A stack with room for a call, and with an entry for a return, raises no fault (09 R216, R217). -/
theorem Blk.stackFault_none {b : Blk} {br : Branch} {l : Lane} (hb : b.branch = some br) (hcall : ∀ a, br.kind = .call a → l.depth < 16)
    (hret : ∀ k, br.kind = .ret k → l.depth ≠ 0) : b.stackFault l = none := by
  obtain ⟨exit, kind⟩ := br
  cases kind with
  | call a => simpa [Blk.stackFault, hb] using hcall a rfl
  | ret k => simpa [Blk.stackFault, hb] using hret k rfl
  | jump | wait | trap | svc | rfe => simp [Blk.stackFault, hb]

theorem Blk.stackFault_call {b : Blk} {br : Branch} {l : Lane} {a : Word} (hb : b.branch = some br) (hk : br.kind = .call a) (h : 16 ≤ l.depth) :
    b.stackFault l = some (slotFault 0x08 b.brSlot) := by
  obtain ⟨exit, kind⟩ := br
  cases hk
  simp [Blk.stackFault, hb, h]

theorem Blk.stackFault_ret {b : Blk} {br : Branch} {l : Lane} {k : Word} (hb : b.branch = some br) (hk : br.kind = .ret k) (h : l.depth = 0) :
    b.stackFault l = some (slotFault 0x09 b.brSlot) := by
  obtain ⟨exit, kind⟩ := br
  cases hk
  simp [Blk.stackFault, hb, h]

/-! ### A block that cannot complete -/

theorem execIncompleteBlockFault_raise {s : State} {f : FrameKey} {b : Blk} {x : Ctx} (hsite : s.site = .frame f) (hb : s.blks.get? f = some b)
    (hx : s.ctxs.get? b.ctx = some x) (hold : s.isOldest b = true) (hfaults : b.faults = []) (hrule : b.ruleMet = false)
    (hissue : ∀ e ∈ b.instrs, b.canIssue x e = false) (hout : ∀ sl ∈ b.slots, sl.st ≠ .out ∧ sl.st ≠ .held) :
    execIncompleteBlockFault s = .next (s.setBlk f { b with faults := [b.incomplete] }) := by
  have hissue' : b.instrs.any (b.canIssue x) = false := List.any_eq_false.2 fun e he => by simp [hissue e he]
  have hout' : b.slots.any (fun sl => sl.st = .out || sl.st = .held) = false := List.any_eq_false.2 fun sl hsl => by simpa using hout sl hsl
  simp [execIncompleteBlockFault, hsite, hb, hx, hold, hfaults, hrule, hissue', hout', Blk.raise]

theorem Blk.incomplete_code (b : Blk) : b.incomplete.code = 0x07 := by
  unfold Blk.incomplete
  split <;> rfl

/-- The lowest slot that is not over, where every slot below it is (03 R89). -/
theorem Blk.incomplete_slot {b : Blk} {n : Nat} {sl : Slot} (hsl : b.slots[n]? = some sl) (hopen : sl.isOver = false)
    (hbelow : ∀ k sk, k < n → b.slots[k]? = some sk → sk.isOver = true) : b.incomplete = slotFault 0x07 n := by
  have hfind : b.slots.zipIdx.find? (fun e => !e.1.isOver) = some (sl, n) := by
    obtain ⟨hn, hget⟩ := List.getElem?_eq_some_iff.1 hsl
    refine List.find?_eq_some_iff_getElem.2 ⟨by simpa using hopen, n, by simpa using hn, by simp [hget], fun j hj => ?_⟩
    simpa using hbelow j _ hj (List.getElem?_eq_getElem (Nat.lt_trans hj hn))
  simp [Blk.incomplete, hfind]

/-- With every slot over the fault is of the block as a whole (03 R89). -/
theorem Blk.incomplete_blk {b : Blk} (h : ∀ sl ∈ b.slots, sl.isOver = true) : b.incomplete.blk = true := by
  have hfind : b.slots.zipIdx.find? (fun e => !e.1.isOver) = none := by
    simp only [List.find?_eq_none, Bool.not_eq_true', Bool.not_eq_false]
    intro e he
    exact h e.1 (List.fst_mem_of_mem_zipIdx he)
  simp [Blk.incomplete, hfind]

/-! ### The statement -/

/-- Settles O38: the commit writes the registers that the block has completed and lets its branch act, a call or a return whose stack does not allow it
leaves its fault, and a block that cannot complete names its lowest open slot. -/
theorem blockCommit : Obligations.BlockCommit := by
  unfold Obligations.BlockCommit
  refine ⟨fun s f b x br hsite hb hx hbr hlive hold hrule hwaits hu hkind hrpt heffs htakes hhandles hev hsealed => ?commit,
    fun s f b x hsite hb hx hold hfaults hrule hissue hout => ⟨b.incomplete, execIncompleteBlockFault_raise hsite hb hx hold hfaults hrule hissue hout,
      b.incomplete_code, fun n sl hsl hopen hbelow hn => ?slot, b.incomplete_blk⟩⟩
  case commit =>
    have hmay : s.MayCommit f b x br := ⟨hsite, hb, hx, hbr, hlive, hold, hrule, hwaits, hu, hev⟩
    refine ⟨fun hcall hret htrap => ?acts, fun a hk hd => execBlockCommit_stackFault hmay (Blk.stackFault_call hbr hk hd),
      fun k hk hd => execBlockCommit_stackFault hmay (Blk.stackFault_ret hbr hk hd)⟩
    case acts =>
      obtain ⟨y, hy, hfree, hmem, hbufs, hregs, hacted⟩ := State.commit_acted (f := f) hx hu hkind hrpt heffs htakes hhandles hcall hret htrap
      simp only [Branch.Acted, Blk.returnAddr] at hacted
      refine ⟨_, y, execBlockCommit_commit hmay (Blk.stackFault_none hbr hcall hret) hsealed, hy, hfree, hmem, hbufs, ?g0, fun n hn hnull => ?kept,
        fun n k h0 hn hmem hall => ?written, fun a hk => ?jump, fun a hk => ?call,
        fun k hk => ?ret, fun w a hk => ?wait, fun k hk => ?trap, fun hk => ?rfe⟩
      case g0 => exact hregs ▸ (Regs.commits_keep (n := 0) (fun w _ => by omega) x.regs).1
      case kept => exact hregs ▸ Regs.commits_keep (fun w hw => Decidable.or_iff_not_imp_left.2 fun h => .inr (hnull w hw (Decidable.not_not.1 h))) x.regs
      case written => exact hregs ▸ Regs.commits_write h0 hn hall (.inl hmem)
      case jump => simpa only [hk] using hacted
      case call => simpa only [hk] using hacted
      case ret => simpa only [hk] using hacted
      case wait => simpa only [hk] using hacted
      case trap => rcases hk with hk | hk <;> simpa [hk] using hacted
      case rfe => simpa only [hk] using hacted
  case slot =>
    rw [Blk.incomplete_slot hsl hopen hbelow]
    exact ⟨by simpa [slotFault] using hn, rfl⟩

end Sys2Proof.Machine
end

section
/-!
SUPPORT. What the issue of a call does outside its own block (03 R76, 09 R216): it finds the fault of the return stack for the oldest block of its fetcher,
which may stand in another frame.
-/
namespace Sys2Proof.Machine

/-- A block of the thread of context 1 with one empty slot. -/
def threadBlk (age : Nat) (br : Option Branch) : Blk :=
  { ctx := 1, u := .thread, addr := 0, seq := age, branch := br, slots := [{ word := 0, plane := .ctl, rep := false }]
    hdr := { kind := 1, count := 0, cwords := 0, rpt := 0, pwmask := 0, zero := 0, smask := 0, rwmask := 0 } }

/-- The oldest block of the thread: its call has issued, and holds no fault yet. -/
def callingBlk : Blk := threadBlk 0 (some ⟨0, .call 0⟩)

/-- The frames of the access dispatcher of core 0. -/
def accFrame (n : Nat) : FrameKey := ⟨⟨0, 0, true⟩, n⟩

/-- A thread with a full return stack, whose oldest block has called, and the issue of the first slot of a younger block in another frame. -/
def fullStackState : State :=
  { site := .slot ⟨accFrame 0, 0⟩
    blks := [(accFrame 0, threadBlk 1 none), (accFrame 1, callingBlk)]
    ctxs := [(1, { pk := ⟨0, 0⟩, kern := ⟨⟨0, 0⟩, 0, 0⟩, index := 0, thr := { depth := 16 } })] }

/-- A call of the next block, without a predicate. -/
def plainCall : Instr := .call ⟨.always, 0, 1⟩

/-- The younger block issues its call, and the oldest block raises the fault of the full stack. -/
theorem exec_plainCall_fullStackState :
    ∃ t, exec plainCall fullStackState = .next t ∧ (accFrame 1, callingBlk.raise (slotFault 0x08 0)) ∈ t.blks :=
  ⟨_, rfl, List.mem_cons_of_mem _ List.mem_cons_self⟩

/-- The block with the fault was not there before. -/
theorem raised_not_mem_fullStackState : (accFrame 1, callingBlk.raise (slotFault 0x08 0)) ∉ fullStackState.blks := by decide

/-- Refutes O49: a call that issues makes the oldest block of its fetcher, in another frame, raise the fault of a full return stack (09 R216), so that block
neither is unchanged nor is discarded. In the state shown the oldest block has called at depth 16 and its own check has not been made: `BLOCK_COMMIT` and
the issue of an oldest block's call make that check at once, but the statement is about every state. -/
theorem not_issueChangesOnlyItsBlock : ¬ Obligations.IssueChangesOnlyItsBlock := by
  unfold Obligations.IssueChangesOnlyItsBlock
  intro h
  obtain ⟨t, hstep, hmem⟩ := exec_plainCall_fullStackState
  obtain ⟨-, -, -, hothers⟩ := h plainCall _ _ _ rfl hstep
  exact raised_not_mem_fullStackState (hothers ⟨accFrame 0, 0⟩ rfl _ hmem (by decide))

end Sys2Proof.Machine
end

section
/-!
SUPPORT. Instruction words as their fields (04 R95, R98, R104 to R107): codes and their values, and a word, or an operand field of one, as the pieces that
stand side by side in it.
-/
namespace Sys2Proof

/-! ### Codes and their values -/

theorem Pred.ofCode_eq_some {c : BitVec 2} {x : Pred} : Pred.ofCode c = some x ↔ x.code = c := by cases x <;> revert c <;> decide

theorem Scope.ofCode_eq_some {c : BitVec 3} {x : Scope} : Scope.ofCode c = some x ↔ x.code = c := by cases x <;> revert c <;> decide

theorem RMode.ofCode_eq_some {c : BitVec 3} {x : RMode} : RMode.ofCode c = some x ↔ x.code = c := by cases x <;> revert c <;> decide

theorem ElTy.ofCode_eq_some {c : BitVec 4} {x : ElTy} : ElTy.ofCode c = some x ↔ x.code = c := by cases x <;> revert c <;> decide

theorem MmaTy.ofCode_eq_some {c : BitVec 4} {x : MmaTy} : MmaTy.ofCode c = some x ↔ x.code = c := by cases x <;> revert c <;> decide

theorem Buf.ofCode_eq_some {c : BitVec 2} {x : Buf} : Buf.ofCode c = some x ↔ x.code = c := by cases x <;> revert c <;> decide

theorem PgSize.ofCode_eq_some {c : BitVec 2} {x : PgSize} : PgSize.ofCode c = some x ↔ x.code = c := by cases x <;> revert c <;> decide

theorem LnkCls.ofCode_eq_some {c : BitVec 2} {x : LnkCls} : LnkCls.ofCode c = some x ↔ x.code = c := by cases x <;> revert c <;> decide

theorem RtStage.ofCode_eq_some {c : BitVec 3} {x : RtStage} : RtStage.ofCode c = some x ↔ x.code = c := by cases x <;> revert c <;> decide

theorem TKind.ofCode_code (k : TKind) : TKind.ofCode k.code = k := by cases k <;> rfl

theorem TKind.code_ofCode (c : BitVec 2) : (TKind.ofCode c).code = c := by revert c; decide

/-! ### Bits that stand side by side -/

theorem ofNat_of_toNat_eq {k n : Nat} {x : BitVec k} (h : x.toNat = n) : BitVec.ofNat k n = x :=
  BitVec.eq_of_toNat_eq (by subst h; simp)

theorem ofBool_getLsbD_eq {n : Nat} (x : BitVec n) (k : Nat) : BitVec.ofBool (x.getLsbD k) = x.extractLsb' k 1 := by
  refine BitVec.eq_of_getLsbD_eq fun j hj => ?_
  obtain rfl : j = 0 := by omega
  simp

theorem eq_getLsbD_iff {n k : Nat} {x : BitVec n} {b : Bool} : b = x.getLsbD k ↔ BitVec.ofBool b = x.extractLsb' k 1 := by
  rw [← ofBool_getLsbD_eq, BitVec.ofBool_eq_iff_eq]

theorem eq_extractLsb'_of_getLsbD {n k : Nat} {x : BitVec n} {b : Bool} (h : x.getLsbD k = b) : BitVec.ofBool b = x.extractLsb' k 1 :=
  eq_getLsbD_iff.1 h.symm

theorem getLsbD_of_eq_extractLsb' {n k : Nat} {x : BitVec n} {b : BitVec 1} (h : b = x.extractLsb' k 1) : x.getLsbD k = b.getLsbD 0 := by
  subst h
  simp

section Pieces
variable {n s h i j k l : Nat} {v : BitVec h} {x : BitVec i} {y : BitVec j} {z : BitVec k} {o : BitVec l}

theorem append_eq_extractLsb'_iff {f : BitVec n} : z ++ o = f.extractLsb' s (k + l) ↔ z = f.extractLsb' (s + l) k ∧ o = f.extractLsb' s l := by
  rw [← BitVec.extractLsb'_append_extractLsb'_eq_extractLsb' rfl]
  constructor
  · intro h
    exact ⟨by simpa only [BitVec.extractLsb'_append_eq_left] using congrArg (BitVec.extractLsb' l k) h,
      by simpa only [BitVec.extractLsb'_append_eq_right] using congrArg (BitVec.extractLsb' 0 l) h⟩
  · rintro ⟨rfl, rfl⟩
    rfl

theorem append_eq_iff {f : BitVec (k + l)} : z ++ o = f ↔ z = f.extractLsb' (0 + l) k ∧ o = f.extractLsb' 0 l := by
  rw [← append_eq_extractLsb'_iff, BitVec.extractLsb'_eq_self]

theorem append3_eq_iff {f : BitVec (j + k + l)} :
    y ++ z ++ o = f ↔ y = f.extractLsb' (0 + l + k) j ∧ z = f.extractLsb' (0 + l) k ∧ o = f.extractLsb' 0 l := by
  rw [append_eq_iff, append_eq_extractLsb'_iff, and_assoc]

theorem append4_eq_iff {f : BitVec (i + j + k + l)} : x ++ y ++ z ++ o = f ↔
    x = f.extractLsb' (0 + l + k + j) i ∧ y = f.extractLsb' (0 + l + k) j ∧ z = f.extractLsb' (0 + l) k ∧ o = f.extractLsb' 0 l := by
  rw [append3_eq_iff, append_eq_extractLsb'_iff, and_assoc]

theorem append5_eq_iff {f : BitVec (h + i + j + k + l)} : v ++ x ++ y ++ z ++ o = f ↔ v = f.extractLsb' (0 + l + k + j + i) h ∧
    x = f.extractLsb' (0 + l + k + j) i ∧ y = f.extractLsb' (0 + l + k) j ∧ z = f.extractLsb' (0 + l) k ∧ o = f.extractLsb' 0 l := by
  rw [append4_eq_iff, append_eq_extractLsb'_iff, and_assoc]

end Pieces

/-- A target's bits name it, and every nine bits are a target's (03 R78). -/
theorem Tgt.bits_eq_iff {t : Tgt} {b : BitVec 9} : t.bits = b ↔ t = Tgt.ofBits b := by
  refine append_eq_iff.trans ⟨fun ⟨hk, hs⟩ => ?_, fun h => ?_⟩
  · rw [Tgt.ofBits, ← hk, ← hs, TKind.ofCode_code]
  · rw [h]
    exact ⟨TKind.code_ofCode _, rfl⟩

theorem Tgt.bits_ofBits (b : BitVec 9) : (Tgt.ofBits b).bits = b := Tgt.bits_eq_iff.2 rfl

/-! ### The forms of a word (04 R98) -/
section Words
variable {w : IWord} {m : BitVec 7} {p : BitVec 2} {s : BitVec 5} {u t : BitVec 9}

theorem mkG_eq_iff : mkG m p s u t = w ↔ m = fMaj w ∧ p = fPr w ∧ s = fSub w ∧ u = fU w ∧ t = fT w := by
  unfold mkG
  exact append5_eq_iff

theorem mkI_eq_iff {imm : BitVec 14} : mkI m p imm t = w ↔ m = fMaj w ∧ p = fPr w ∧ imm = fI w ∧ t = fT w := by
  unfold mkI
  exact append4_eq_iff

theorem mkS_eq_iff {f : BitVec 18} : mkS m p s f = w ↔ m = fMaj w ∧ p = fPr w ∧ s = fSub w ∧ f = fS w := by
  unfold mkS
  exact append4_eq_iff

theorem mkB_eq_iff {x : BitVec 3} {off : BitVec 20} : mkB m p x off = w ↔ m = fMaj w ∧ p = fPr w ∧ x = fX w ∧ off = fO w := by
  unfold mkB
  exact append4_eq_iff

theorem mkK_eq_iff {k : BitVec 16} : mkK m k t = w ↔ m = fMaj w ∧ k = fK w ∧ t = fT w := by
  unfold mkK
  exact append3_eq_iff

theorem mkRd_eq_iff {r : BitVec 7} : mkRd m r u t = w ↔ m = fMaj w ∧ r = fRd w ∧ u = fU w ∧ t = fT w := by
  unfold mkRd
  exact append4_eq_iff

theorem mkWr_eq_iff {r : BitVec 7} : mkWr m p r = w ↔ m = fMaj w ∧ p = fPr w ∧ r = fWr w ∧ 0#16 = fZ w := by
  unfold mkWr
  exact append4_eq_iff

end Words

/-! ### The layouts of operand fields (04 R105, R107) -/
section Layouts
variable {f : BitVec 18} {u : BitVec 9}

theorem amoField_eq_iff {op : BitVec 4} {sc : BitVec 3} {wide ord : Bool} : op ++ sc ++ BitVec.ofBool wide ++ BitVec.ofBool ord ++ 0#9 = f ↔
    op = f.extractLsb' 14 4 ∧ sc = f.extractLsb' 11 3 ∧ wide = f.getLsbD 10 ∧ ord = f.getLsbD 9 ∧ 0#9 = f.extractLsb' 0 9 := by
  simp only [eq_getLsbD_iff]
  exact append5_eq_iff

theorem leaseField_eq_iff {un : Bool} {z : BitVec 5} {cyc : BitVec 12} :
    BitVec.ofBool un ++ z ++ cyc = f ↔ un = f.getLsbD 17 ∧ z = f.extractLsb' 12 5 ∧ cyc = f.extractLsb' 0 12 := by
  simp only [eq_getLsbD_iff]
  exact append3_eq_iff

theorem unleaseField_eq_iff {un : Bool} {z : BitVec 17} : BitVec.ofBool un ++ z = f ↔ un = f.getLsbD 17 ∧ z = f.extractLsb' 0 17 := by
  simp only [eq_getLsbD_iff]
  exact append_eq_iff

theorem fenceField_eq_iff {kind : BitVec 2} {sc : BitVec 3} :
    kind ++ sc ++ 0#13 = f ↔ kind = f.extractLsb' 16 2 ∧ sc = f.extractLsb' 13 3 ∧ 0#13 = f.extractLsb' 0 13 :=
  append3_eq_iff

/-- `qfence`, `qpush` to `cmdq`, `launch` and `xshoot`. -/
theorem top2Field_eq_iff {a : BitVec 2} {b : BitVec 16} : a ++ b = f ↔ a = f.extractLsb' 16 2 ∧ b = f.extractLsb' 0 16 := append_eq_iff

theorem qpushField_eq_iff {kind : BitVec 2} {z : BitVec 4} {q : BitVec 12} :
    kind ++ z ++ q = f ↔ kind = f.extractLsb' 16 2 ∧ z = f.extractLsb' 12 4 ∧ q = f.extractLsb' 0 12 :=
  append3_eq_iff

theorem pushField_eq_iff {bq : Bool} {outl : BitVec 5} :
    0#12 ++ BitVec.ofBool bq ++ outl = f ↔ 0#12 = f.extractLsb' 6 12 ∧ bq = f.getLsbD 5 ∧ outl = f.extractLsb' 0 5 := by
  simp only [eq_getLsbD_iff]
  exact append3_eq_iff

theorem outletField_eq_iff {outl : BitVec 5} : 0#13 ++ outl = f ↔ 0#13 = f.extractLsb' 5 13 ∧ outl = f.extractLsb' 0 5 := append_eq_iff

theorem strmField_eq_iff {op : BitVec 5} {stg : BitVec 3} :
    op ++ stg ++ 0#10 = f ↔ op = f.extractLsb' 13 5 ∧ stg = f.extractLsb' 10 3 ∧ 0#10 = f.extractLsb' 0 10 :=
  append3_eq_iff

/-- The `strm` commands that take no stage. -/
theorem strmPlainField_eq_iff {op : BitVec 5} : op ++ 0#13 = f ↔ op = f.extractLsb' 13 5 ∧ 0#3 = f.extractLsb' 10 3 ∧ 0#10 = f.extractLsb' 0 10 :=
  (append_eq_iff (o := 0#3 ++ 0#10)).trans (and_congr_right' append_eq_extractLsb'_iff)

theorem sphField_eq_iff {or : BitVec 1} {tree : Bool} {q : BitVec 12} : or ++ BitVec.ofBool tree ++ 0#4 ++ q = f ↔
    or = f.extractLsb' 17 1 ∧ tree = f.getLsbD 16 ∧ 0#4 = f.extractLsb' 12 4 ∧ q = f.extractLsb' 0 12 := by
  simp only [eq_getLsbD_iff]
  exact append4_eq_iff

theorem steerField_eq_iff {m : BitVec 3} {of ot : BitVec 5} : 0#5 ++ m ++ of ++ ot = f ↔
    0#5 = f.extractLsb' 13 5 ∧ m = f.extractLsb' 10 3 ∧ of = f.extractLsb' 5 5 ∧ ot = f.extractLsb' 0 5 :=
  append4_eq_iff

theorem rtcfgField_eq_iff {stg : BitVec 3} {q : BitVec 12} :
    stg ++ 0#3 ++ q = f ↔ stg = f.extractLsb' 15 3 ∧ 0#3 = f.extractLsb' 12 3 ∧ q = f.extractLsb' 0 12 :=
  append3_eq_iff

/-- `bar` commands and `sig.inc`. -/
theorem scopeField_eq_iff {op sc : BitVec 3} :
    op ++ sc ++ 0#12 = f ↔ op = f.extractLsb' 15 3 ∧ sc = f.extractLsb' 12 3 ∧ 0#12 = f.extractLsb' 0 12 :=
  append3_eq_iff

theorem shapeField_eq_iff {t : BitVec 1} {sh : BitVec 3} :
    t ++ sh ++ 0#14 = f ↔ t = f.extractLsb' 17 1 ∧ sh = f.extractLsb' 14 3 ∧ 0#14 = f.extractLsb' 0 14 :=
  append3_eq_iff

theorem mmaField_eq_iff {ty acc : BitVec 4} {sat : Bool} : ty ++ BitVec.ofBool sat ++ acc ++ 0#9 = f ↔
    ty = f.extractLsb' 14 4 ∧ sat = f.getLsbD 13 ∧ acc = f.extractLsb' 9 4 ∧ 0#9 = f.extractLsb' 0 9 := by
  simp only [eq_getLsbD_iff]
  exact append4_eq_iff

theorem tmovField_eq_iff {t : BitVec 1} {src dst : BitVec 2} : t ++ src ++ dst ++ 0#13 = f ↔
    t = f.extractLsb' 17 1 ∧ src = f.extractLsb' 15 2 ∧ dst = f.extractLsb' 13 2 ∧ 0#13 = f.extractLsb' 0 13 :=
  append4_eq_iff

theorem accField_eq_iff {op : BitVec 2} {acc : BitVec 4} : op ++ 0#3 ++ acc ++ 0#9 = f ↔
    op = f.extractLsb' 16 2 ∧ 0#3 = f.extractLsb' 13 3 ∧ acc = f.extractLsb' 9 4 ∧ 0#9 = f.extractLsb' 0 9 :=
  append4_eq_iff

theorem crwrField_eq_iff {num : BitVec 9} : num ++ 0#9 = f ↔ num = f.extractLsb' 9 9 ∧ 0#9 = f.extractLsb' 0 9 := append_eq_iff

/-- `grp` and `vd` commands. -/
theorem commandField_eq_iff {op : BitVec 4} : op ++ 0#14 = f ↔ op = f.extractLsb' 14 4 ∧ 0#14 = f.extractLsb' 0 14 := append_eq_iff

/-- `pg` and `lnk` commands, with a page size or a link class. -/
theorem classedField_eq_iff {op : BitVec 4} {c : BitVec 2} :
    op ++ c ++ 0#12 = f ↔ op = f.extractLsb' 14 4 ∧ c = f.extractLsb' 12 2 ∧ 0#12 = f.extractLsb' 0 12 :=
  append3_eq_iff

theorem inletField_eq_iff {inl : BitVec 5} : 0#4 ++ inl = u ↔ 0#4 = u.extractLsb' 5 4 ∧ inl = u.extractLsb' 0 5 := append_eq_iff

/-- `xlate` and `xprobe`. -/
theorem translationField_eq_iff {wr : Bool} {th : BitVec 4} :
    0#4 ++ BitVec.ofBool wr ++ th = u ↔ 0#4 = u.extractLsb' 5 4 ∧ wr = u.getLsbD 4 ∧ th = u.extractLsb' 0 4 := by
  simp only [eq_getLsbD_iff]
  exact append3_eq_iff

/-- Branch exits, shape registers, conditions, masks and reductions. -/
theorem low3Field_eq_iff {x : BitVec 3} : 0#6 ++ x = u ↔ 0#6 = u.extractLsb' 3 6 ∧ x = u.extractLsb' 0 3 := append_eq_iff

theorem accrdField_eq_iff {acc : BitVec 4} : 0#5 ++ acc = u ↔ 0#5 = u.extractLsb' 4 5 ∧ acc = u.extractLsb' 0 4 := append_eq_iff

/-- `narrow` and `cvt`. -/
theorem convertField_eq_iff {mode : BitVec 3} {src : BitVec 4} :
    0#2 ++ mode ++ src = u ↔ 0#2 = u.extractLsb' 7 2 ∧ mode = u.extractLsb' 4 3 ∧ src = u.extractLsb' 0 4 :=
  append3_eq_iff

theorem scanField_eq_iff {excl : Bool} {op : BitVec 3} :
    0#5 ++ BitVec.ofBool excl ++ op = u ↔ 0#5 = u.extractLsb' 4 5 ∧ excl = u.getLsbD 3 ∧ op = u.extractLsb' 0 3 := by
  simp only [eq_getLsbD_iff]
  exact append3_eq_iff

theorem slideField_eq_iff {z dn : Bool} {k : BitVec 7} :
    BitVec.ofBool z ++ BitVec.ofBool dn ++ k = u ↔ z = u.getLsbD 8 ∧ dn = u.getLsbD 7 ∧ k = u.extractLsb' 0 7 := by
  simp only [eq_getLsbD_iff]
  exact append3_eq_iff

theorem bcastField_eq_iff {k : BitVec 7} : 0#2 ++ k = u ↔ 0#2 = u.extractLsb' 7 2 ∧ k = u.extractLsb' 0 7 := append_eq_iff

theorem typedSub_eq_iff {s : BitVec 5} {md : Bool} {ty : BitVec 4} : BitVec.ofBool md ++ ty = s ↔ md = s.getLsbD 4 ∧ ty = s.extractLsb' 0 4 := by
  rw [eq_getLsbD_iff]
  exact append_eq_iff

end Layouts
end Sys2Proof
end

section
/-!
SUPPORT. What the decoder of each form of a word accepts (04 R98), and the words of an instruction: what a decoder reads from a word is an instruction whose
word that is.
-/
namespace Sys2Proof

/-- In a plane, the word is the one that the encoder writes for the instruction, and the instruction stands in that plane. -/
def Instr.Encodes (pl : Plane) (i : Instr) (w : IWord) : Prop := encode i = some w ∧ i.inPlane pl = true

theorem Instr.Encodes.congr {pl : Plane} {i : Instr} {v w : IWord} (h : i.Encodes pl v) (hv : v = w) : i.Encodes pl w := hv ▸ h

/-- The operand field of an S form may be replaced by an equal one. -/
theorem Instr.Encodes.fieldS {pl : Plane} {i : Instr} {m : BitVec 7} {p : BitVec 2} {id : Ident} {x f : BitVec 18} (h : i.Encodes pl (mkS m p id x))
    (hx : x = f) : i.Encodes pl (mkS m p id f) :=
  hx ▸ h

/-- The bits [17:9] of a word may be replaced by equal ones. -/
theorem Instr.Encodes.fieldU {pl : Plane} {i : Instr} {m : BitVec 7} {p : BitVec 2} {s : BitVec 5} {x u t : BitVec 9} (h : i.Encodes pl (mkG m p s x t))
    (hx : x = u) : i.Encodes pl (mkG m p s u t) :=
  hx ▸ h

section Forms
variable {pl : Plane} {w : IWord} {i : Instr} {n s : Nat}

/-! ### When a decoder answers -/

theorem need_eq_ok {b : Bool} {j : Instr} : need b j = .ok i ↔ b = true ∧ j = i := by
  cases b <;> simp [need]

theorem ite_eq_ok {c : Prop} [Decidable c] {r : Except Reject Instr} {e : Reject} : (if c then r else .error e) = .ok i ↔ c ∧ r = .ok i := by
  by_cases h : c <;> simp [h]

theorem withPred_eq_ok {k : Pred → Except Reject Instr} : withPred w k = .ok i ↔ ∃ p, p.code = fPr w ∧ k p = .ok i := by
  simp only [withPred, ← Pred.ofCode_eq_some]
  cases Pred.ofCode (fPr w) <;> simp

theorem withCode_eq_ok {α : Type} {c : Option α} {k : α → Except Reject Instr} : withCode c k = .ok i ↔ ∃ a, c = some a ∧ k a = .ok i := by
  cases c <;> simp [withCode]

theorem gForm_eq_ok {f : FmtG → Instr} : gForm w f = .ok i ↔ ∃ g : FmtG, f g = i ∧ g.p.code = fPr w ∧ g.t2.bits = fU w ∧ g.t1.bits = fT w := by
  refine withPred_eq_ok.trans ⟨fun ⟨p, hp, h⟩ => ⟨⟨p, _, _⟩, Except.ok.inj h, hp, Tgt.bits_ofBits _, Tgt.bits_ofBits _⟩, ?_⟩
  rintro ⟨⟨p, t2, t1⟩, rfl, hp, hu, ht⟩
  exact ⟨p, hp, by rw [← Tgt.bits_eq_iff.1 hu, ← Tgt.bits_eq_iff.1 ht]⟩

theorem iForm_eq_ok {f : FmtI → Instr} : iForm w f = .ok i ↔ ∃ x : FmtI, f x = i ∧ x.p.code = fPr w ∧ x.imm = fI w ∧ x.t1.bits = fT w := by
  refine withPred_eq_ok.trans ⟨fun ⟨p, hp, h⟩ => ⟨⟨p, _, _⟩, Except.ok.inj h, hp, rfl, Tgt.bits_ofBits _⟩, ?_⟩
  rintro ⟨⟨p, _, t1⟩, rfl, hp, rfl, ht⟩
  exact ⟨p, hp, by rw [← Tgt.bits_eq_iff.1 ht]⟩

theorem bForm_eq_ok {f : FmtB → Instr} : bForm w f = .ok i ↔ ∃ b : FmtB, f b = i ∧ b.p.code = fPr w ∧ b.exit = fX w ∧ b.off = fO w := by
  refine withPred_eq_ok.trans ⟨fun ⟨p, hp, h⟩ => ⟨⟨p, _, _⟩, Except.ok.inj h, hp, rfl, rfl⟩, ?_⟩
  rintro ⟨⟨p, _, _⟩, rfl, hp, rfl, rfl⟩
  exact ⟨p, hp, rfl⟩

theorem sForm_eq_ok {k : Pred → Ident → BitVec 18 → Except Reject Instr} :
    sForm w k = .ok i ↔ ∃ p, p.code = fPr w ∧ k p (fSub w) (fS w) = .ok i :=
  withPred_eq_ok

theorem lxForm_eq_ok {k : Pred → Ident → BitVec 9 → Tgt → Except Reject Instr} :
    lxForm w k = .ok i ↔ ∃ p t, p.code = fPr w ∧ t.bits = fT w ∧ k p (fSub w) (fU w) t = .ok i := by
  refine withPred_eq_ok.trans ⟨fun ⟨p, hp, h⟩ => ⟨p, _, hp, Tgt.bits_ofBits _, h⟩, ?_⟩
  rintro ⟨p, t, hp, ht, h⟩
  exact ⟨p, hp, by rwa [← Tgt.bits_eq_iff.1 ht]⟩

theorem lForm_eq_ok {f : FmtL → Instr} :
    lForm w f = .ok i ↔ ∃ l : FmtL, f l = i ∧ l.p.code = fPr w ∧ l.id = fSub w ∧ l.disp = fU w ∧ l.t1.bits = fT w := by
  refine (lxForm_eq_ok (k := fun p id u t => .ok (f ⟨p, id, u, t⟩))).trans
    ⟨fun ⟨p, t, hp, ht, h⟩ => ⟨⟨p, _, _, t⟩, Except.ok.inj h, hp, rfl, rfl, ht⟩, ?_⟩
  rintro ⟨⟨p, _, _, t⟩, rfl, hp, rfl, rfl, ht⟩
  exact ⟨p, t, hp, ht, rfl⟩

theorem l2Form_eq_ok {f : FmtL2 → Instr} :
    l2Form w f = .ok i ↔ ∃ l : FmtL2, f l = i ∧ l.p.code = fPr w ∧ l.id = fSub w ∧ l.t2.bits = fU w ∧ l.t1.bits = fT w := by
  refine (lxForm_eq_ok (k := fun p id u t => .ok (f ⟨p, id, .ofBits u, t⟩))).trans
    ⟨fun ⟨p, t, hp, ht, h⟩ => ⟨⟨p, _, _, t⟩, Except.ok.inj h, hp, rfl, Tgt.bits_ofBits _, ht⟩, ?_⟩
  rintro ⟨⟨p, _, t2, t⟩, rfl, hp, rfl, hu, ht⟩
  exact ⟨p, t, hp, ht, by rw [← Tgt.bits_eq_iff.1 hu]⟩

theorem g1zForm_eq_ok {k : Pred → BitVec 9 → Except Reject Instr} :
    g1zForm w k = .ok i ↔ ∃ p, p.code = fPr w ∧ 0#9 = fT w ∧ k p (fU w) = .ok i := by
  simp only [g1zForm, withPred_eq_ok, ite_eq_ok, eq_comm (a := 0#9)]

theorem v1Form_eq_ok {k : Pred → Bool → ElTy → BitVec 9 → Tgt → Except Reject Instr} : v1Form w k = .ok i ↔
    ∃ p md ty t, p.code = fPr w ∧ BitVec.ofBool md ++ ty.code = fSub w ∧ t.bits = fT w ∧ k p md ty (fU w) t = .ok i := by
  simp only [v1Form, withPred_eq_ok, withCode_eq_ok, ElTy.ofCode_eq_some]
  refine ⟨fun ⟨p, hp, ty, hty, h⟩ => ⟨p, _, ty, _, hp, typedSub_eq_iff.2 ⟨rfl, hty⟩, Tgt.bits_ofBits _, h⟩, ?_⟩
  rintro ⟨p, md, ty, t, hp, hs, ht, h⟩
  obtain ⟨hmd, hty⟩ := typedSub_eq_iff.1 hs
  exact ⟨p, hp, ty, hty, by rwa [← hmd, ← Tgt.bits_eq_iff.1 ht]⟩

theorem vForm_eq_ok {f : FmtV → Instr} : vForm w f = .ok i ↔
    ∃ v : FmtV, f v = i ∧ v.p.code = fPr w ∧ BitVec.ofBool v.md ++ v.ty.code = fSub w ∧ v.t2.bits = fU w ∧ v.t1.bits = fT w := by
  refine (v1Form_eq_ok (k := fun p md ty u t => .ok (f ⟨p, md, ty, .ofBits u, t⟩))).trans
    ⟨fun ⟨p, md, ty, t, hp, hs, ht, h⟩ => ⟨⟨p, md, ty, _, t⟩, Except.ok.inj h, hp, hs, Tgt.bits_ofBits _, ht⟩, ?_⟩
  rintro ⟨⟨p, md, ty, t2, t⟩, rfl, hp, hs, hu, ht⟩
  exact ⟨p, md, ty, t, hp, hs, ht, by rw [← Tgt.bits_eq_iff.1 hu]⟩

theorem tForm_eq_ok {f : Pred → Bool → Tgt → Tgt → Instr} : tForm w f = .ok i ↔
    ∃ p t2 t1, f p ((fSub w).getLsbD 4) t2 t1 = i ∧ p.code = fPr w ∧ t2.bits = fU w ∧ t1.bits = fT w := by
  refine withPred_eq_ok.trans ⟨fun ⟨p, hp, h⟩ => ⟨p, _, _, Except.ok.inj h, hp, Tgt.bits_ofBits _, Tgt.bits_ofBits _⟩, ?_⟩
  rintro ⟨p, t2, t1, rfl, hp, hu, ht⟩
  exact ⟨p, hp, by rw [← Tgt.bits_eq_iff.1 hu, ← Tgt.bits_eq_iff.1 ht]⟩

/-! ### A form whose instructions have their words -/

theorem gForm_encodes {f : FmtG → Instr} (hm : (fMaj w).toNat = n) (hs : (fSub w).toNat = s)
    (hf : ∀ g : FmtG, (f g).Encodes pl (mkG (.ofNat 7 n) g.p.code (.ofNat 5 s) g.t2.bits g.t1.bits)) (h : gForm w f = .ok i) : i.Encodes pl w := by
  obtain ⟨g, rfl, hp, hu, ht⟩ := gForm_eq_ok.1 h
  exact (hf g).congr (mkG_eq_iff.2 ⟨ofNat_of_toNat_eq hm, hp, ofNat_of_toNat_eq hs, hu, ht⟩)

theorem iForm_encodes {f : FmtI → Instr} (hm : (fMaj w).toNat = n)
    (hf : ∀ x : FmtI, (f x).Encodes pl (mkI (.ofNat 7 n) x.p.code x.imm x.t1.bits)) (h : iForm w f = .ok i) : i.Encodes pl w := by
  obtain ⟨x, rfl, hp, himm, ht⟩ := iForm_eq_ok.1 h
  exact (hf x).congr (mkI_eq_iff.2 ⟨ofNat_of_toNat_eq hm, hp, himm, ht⟩)

theorem bForm_encodes {f : FmtB → Instr} (hm : (fMaj w).toNat = n)
    (hf : ∀ b : FmtB, (f b).Encodes pl (mkB (.ofNat 7 n) b.p.code b.exit b.off)) (h : bForm w f = .ok i) : i.Encodes pl w := by
  obtain ⟨b, rfl, hp, hx, ho⟩ := bForm_eq_ok.1 h
  exact (hf b).congr (mkB_eq_iff.2 ⟨ofNat_of_toNat_eq hm, hp, hx, ho⟩)

theorem sForm_encodes {k : Pred → Ident → BitVec 18 → Except Reject Instr} (hm : (fMaj w).toNat = n)
    (hk : ∀ p id f, k p id f = .ok i → i.Encodes pl (mkS (.ofNat 7 n) p.code id f)) (h : sForm w k = .ok i) : i.Encodes pl w := by
  obtain ⟨p, hp, h⟩ := sForm_eq_ok.1 h
  exact (hk p _ _ h).congr (mkS_eq_iff.2 ⟨ofNat_of_toNat_eq hm, hp, rfl, rfl⟩)

theorem lxForm_encodes {k : Pred → Ident → BitVec 9 → Tgt → Except Reject Instr} (hm : (fMaj w).toNat = n)
    (hk : ∀ p id u t, k p id u t = .ok i → i.Encodes pl (mkG (.ofNat 7 n) p.code id u t.bits)) (h : lxForm w k = .ok i) : i.Encodes pl w := by
  obtain ⟨p, t, hp, ht, h⟩ := lxForm_eq_ok.1 h
  exact (hk p _ _ t h).congr (mkG_eq_iff.2 ⟨ofNat_of_toNat_eq hm, hp, rfl, rfl, ht⟩)

theorem lForm_encodes {f : FmtL → Instr} (hm : (fMaj w).toNat = n)
    (hf : ∀ l : FmtL, (f l).Encodes pl (mkG (.ofNat 7 n) l.p.code l.id l.disp l.t1.bits)) (h : lForm w f = .ok i) : i.Encodes pl w := by
  obtain ⟨l, rfl, hp, hs, hu, ht⟩ := lForm_eq_ok.1 h
  exact (hf l).congr (mkG_eq_iff.2 ⟨ofNat_of_toNat_eq hm, hp, hs, hu, ht⟩)

theorem l2Form_encodes {f : FmtL2 → Instr} (hm : (fMaj w).toNat = n)
    (hf : ∀ l : FmtL2, (f l).Encodes pl (mkG (.ofNat 7 n) l.p.code l.id l.t2.bits l.t1.bits)) (h : l2Form w f = .ok i) : i.Encodes pl w := by
  obtain ⟨l, rfl, hp, hs, hu, ht⟩ := l2Form_eq_ok.1 h
  exact (hf l).congr (mkG_eq_iff.2 ⟨ofNat_of_toNat_eq hm, hp, hs, hu, ht⟩)

theorem g1zForm_encodes {k : Pred → BitVec 9 → Except Reject Instr} (hm : (fMaj w).toNat = n)
    (hk : ∀ p u, k p u = .ok i → i.Encodes pl (mkG (.ofNat 7 n) p.code (fSub w) u 0#9)) (h : g1zForm w k = .ok i) : i.Encodes pl w := by
  obtain ⟨p, hp, ht, h⟩ := g1zForm_eq_ok.1 h
  exact (hk p _ h).congr (mkG_eq_iff.2 ⟨ofNat_of_toNat_eq hm, hp, rfl, rfl, ht⟩)

theorem v1Form_encodes {k : Pred → Bool → ElTy → BitVec 9 → Tgt → Except Reject Instr} (hm : (fMaj w).toNat = n)
    (hk : ∀ p md ty u t, k p md ty u t = .ok i → i.Encodes pl (mkG (.ofNat 7 n) p.code (BitVec.ofBool md ++ ElTy.code ty) u t.bits))
    (h : v1Form w k = .ok i) : i.Encodes pl w := by
  obtain ⟨p, md, ty, t, hp, hs, ht, h⟩ := v1Form_eq_ok.1 h
  exact (hk p md ty _ t h).congr (mkG_eq_iff.2 ⟨ofNat_of_toNat_eq hm, hp, hs, rfl, ht⟩)

theorem vForm_encodes {f : FmtV → Instr} (hm : (fMaj w).toNat = n)
    (hf : ∀ v : FmtV, (f v).Encodes pl (mkG (.ofNat 7 n) v.p.code (BitVec.ofBool v.md ++ v.ty.code) v.t2.bits v.t1.bits)) (h : vForm w f = .ok i) :
    i.Encodes pl w := by
  obtain ⟨v, rfl, hp, hs, hu, ht⟩ := vForm_eq_ok.1 h
  exact (hf v).congr (mkG_eq_iff.2 ⟨ofNat_of_toNat_eq hm, hp, hs, hu, ht⟩)

theorem tForm_encodes {f : Pred → Bool → Tgt → Tgt → Instr} (hm : (fMaj w).toNat = n) (hs : ((fSub w).extractLsb' 0 4).toNat = s)
    (hf : ∀ p md t2 t1, (f p md t2 t1).Encodes pl (mkG (.ofNat 7 n) p.code (BitVec.ofBool md ++ BitVec.ofNat 4 s) t2.bits t1.bits)) (h : tForm w f = .ok i) :
    i.Encodes pl w := by
  obtain ⟨p, t2, t1, rfl, hp, hu, ht⟩ := tForm_eq_ok.1 h
  exact (hf p _ t2 t1).congr (mkG_eq_iff.2 ⟨ofNat_of_toNat_eq hm, hp, typedSub_eq_iff.2 ⟨rfl, ofNat_of_toNat_eq hs⟩, hu, ht⟩)

/-! ### Forms that several instructions share -/

theorem translationForm_encodes {k : Pred → Ident → Bool → BitVec 4 → Tgt → Instr} (hm : (fMaj w).toNat = n)
    (hk : ∀ p id wr th t, (k p id wr th t).Encodes pl (mkG (.ofNat 7 n) p.code id (0#4 ++ BitVec.ofBool wr ++ th) t.bits)) :
    (lxForm w fun p id u t => need (u.extractLsb' 5 4 == 0#4) (k p id (u.getLsbD 4) (u.extractLsb' 0 4) t)) = .ok i → i.Encodes pl w := by
  refine lxForm_encodes hm fun p id u t h => ?_
  obtain ⟨hz, rfl⟩ := need_eq_ok.1 h
  exact .fieldU (hk ..) (translationField_eq_iff.2 ⟨(beq_iff_eq.1 hz).symm, rfl, rfl⟩)

theorem inletForm_encodes {k : Pred → Ident → BitVec 5 → Tgt → Instr} (hm : (fMaj w).toNat = n)
    (hk : ∀ p id inl t, (k p id inl t).Encodes pl (mkG (.ofNat 7 n) p.code id (0#4 ++ inl) t.bits)) :
    (lxForm w fun p id u t => need (u.extractLsb' 5 4 == 0#4) (k p id (u.extractLsb' 0 5) t)) = .ok i → i.Encodes pl w := by
  refine lxForm_encodes hm fun p id u t h => ?_
  obtain ⟨hz, rfl⟩ := need_eq_ok.1 h
  exact .fieldU (hk ..) (inletField_eq_iff.2 ⟨(beq_iff_eq.1 hz).symm, rfl⟩)

theorem outletForm_encodes {k : Pred → Ident → BitVec 5 → Instr} (hm : (fMaj w).toNat = n)
    (hk : ∀ p id outl, (k p id outl).Encodes pl (mkS (.ofNat 7 n) p.code id (0#13 ++ outl))) :
    (sForm w fun p id f => need (f.extractLsb' 5 13 == 0#13) (k p id (f.extractLsb' 0 5))) = .ok i → i.Encodes pl w := by
  refine sForm_encodes hm fun p id f h => ?_
  obtain ⟨hz, rfl⟩ := need_eq_ok.1 h
  exact .fieldS (hk ..) (outletField_eq_iff.2 ⟨(beq_iff_eq.1 hz).symm, rfl⟩)

theorem shapeStepForm_encodes {k : Pred → Ident → BitVec 3 → Tgt → Instr} (hm : (fMaj w).toNat = n)
    (hk : ∀ p id sh t, (k p id sh t).Encodes pl (mkG (.ofNat 7 n) p.code id (0#6 ++ sh) t.bits)) :
    (lxForm w fun p id u t => need (u.extractLsb' 3 6 == 0#6) (k p id (u.extractLsb' 0 3) t)) = .ok i → i.Encodes pl w := by
  refine lxForm_encodes hm fun p id u t h => ?_
  obtain ⟨hz, rfl⟩ := need_eq_ok.1 h
  exact .fieldU (hk ..) (low3Field_eq_iff.2 ⟨(beq_iff_eq.1 hz).symm, rfl⟩)

theorem operationForm_encodes {k : Pred → Bool → ElTy → BitVec 3 → Tgt → Instr} (hm : (fMaj w).toNat = n)
    (hk : ∀ p md ty op t, (k p md ty op t).Encodes pl (mkG (.ofNat 7 n) p.code (BitVec.ofBool md ++ ty.code) (0#6 ++ op) t.bits)) :
    (v1Form w fun p md ty u t => need (u.extractLsb' 3 6 == 0#6) (k p md ty (u.extractLsb' 0 3) t)) = .ok i → i.Encodes pl w := by
  refine v1Form_encodes hm fun p md ty u t h => ?_
  obtain ⟨hz, rfl⟩ := need_eq_ok.1 h
  exact .fieldU (hk ..) (low3Field_eq_iff.2 ⟨(beq_iff_eq.1 hz).symm, rfl⟩)

theorem mmaForm_encodes {k : Pred → Ident → MmaTy → Bool → BitVec 4 → Instr} (hm : (fMaj w).toNat = n)
    (hk : ∀ p id ty sat acc, (k p id ty sat acc).Encodes pl (mkS (.ofNat 7 n) p.code id (MmaTy.code ty ++ BitVec.ofBool sat ++ acc ++ 0#9))) :
    (sForm w fun p id f => if f.extractLsb' 0 9 = 0#9 then
      withCode (MmaTy.ofCode (f.extractLsb' 14 4)) fun ty => .ok (k p id ty (f.getLsbD 13) (f.extractLsb' 9 4))
      else .error .illegalField) = .ok i → i.Encodes pl w := by
  refine sForm_encodes hm fun p id f h => ?_
  obtain ⟨hz, h⟩ := ite_eq_ok.1 h
  obtain ⟨ty, hty, h⟩ := withCode_eq_ok.1 h
  cases h
  exact .fieldS (hk ..) (mmaField_eq_iff.2 ⟨MmaTy.ofCode_eq_some.1 hty, rfl, rfl, hz.symm⟩)

end Forms
end Sys2Proof
end

section
/-!
SUPPORT. What a word decodes to has that word (04 R95 to R107): for each table of sub-opcodes or commands, then for each plane's column of the major opcode
map.
-/
namespace Sys2Proof
section Tables
variable {w : IWord} {i : Instr}

/-! ### Tables of sub-opcodes (04 R103, R105) -/

theorem decMove_encodes (hm : (fMaj w).toNat = 0x05) : decMove w = .ok i → i.Encodes .ctl w := by
  unfold decMove
  split
  iterate 2 next hs => exact gForm_encodes hm hs fun _ => ⟨rfl, rfl⟩
  · exact nofun

theorem decArith_encodes (hm : (fMaj w).toNat = 0x06) : decArith w = .ok i → i.Encodes .ctl w := by
  unfold decArith
  split
  iterate 15 next hs => exact gForm_encodes hm hs fun _ => ⟨rfl, rfl⟩
  · exact nofun

theorem decLogic_encodes (hm : (fMaj w).toNat = 0x07) : decLogic w = .ok i → i.Encodes .ctl w := by
  unfold decLogic
  split
  iterate 20 next hs => exact gForm_encodes hm hs fun _ => ⟨rfl, rfl⟩
  · exact nofun

theorem decTest_encodes (hm : (fMaj w).toNat = 0x08) : decTest w = .ok i → i.Encodes .ctl w := by
  unfold decTest
  split
  iterate 13 next hs => exact gForm_encodes hm hs fun _ => ⟨rfl, rfl⟩
  · exact nofun

theorem decWidth_encodes (hm : (fMaj w).toNat = 0x09) : decWidth w = .ok i → i.Encodes .ctl w := by
  unfold decWidth
  split
  iterate 6 next hs => exact gForm_encodes hm hs fun _ => ⟨rfl, rfl⟩
  · exact nofun

theorem decLea_encodes (hm : (fMaj w).toNat = 0x0A) : decLea w = .ok i → i.Encodes .ctl w := by
  unfold decLea
  split
  iterate 4 next hs => exact gForm_encodes hm hs fun _ => ⟨rfl, rfl⟩
  · exact nofun

theorem decMoveV_encodes (hm : (fMaj w).toNat = 0x05) : decMoveV w = .ok i → i.Encodes .dat w := by
  unfold decMoveV
  split
  iterate 2 next hs => exact gForm_encodes hm hs fun _ => ⟨rfl, rfl⟩
  · exact nofun

theorem decMask_encodes (hm : (fMaj w).toNat = 0x75) : decMask w = .ok i → i.Encodes .dat w := by
  unfold decMask
  split
  iterate 5 next hs => exact gForm_encodes hm hs fun _ => ⟨rfl, rfl⟩
  · exact nofun

theorem decTrans_encodes (hm : (fMaj w).toNat = 0x6F) : decTrans w = .ok i → i.Encodes .dat w := by
  unfold decTrans
  split
  iterate 5 next hs => exact tForm_encodes hm hs fun _ _ _ _ => ⟨rfl, rfl⟩
  · exact nofun

theorem decBranchReg_encodes (hm : (fMaj w).toNat = 0x1A) : decBranchReg w = .ok i → i.Encodes .ctl w := by
  refine g1zForm_encodes hm fun p u h => ?_
  obtain ⟨hz, h⟩ := ite_eq_ok.1 h
  split at h
  iterate 3
    next hs =>
    cases h
    exact ofNat_of_toNat_eq hs ▸ .fieldU ⟨rfl, rfl⟩ (low3Field_eq_iff.2 ⟨hz.symm, rfl⟩)
  · cases h

theorem decTrap_encodes (hm : (fMaj w).toNat = 0x4C) : decTrap w = .ok i → i.Encodes .ctl w := by
  refine g1zForm_encodes hm fun p u h => ?_
  split at h
  iterate 3
    next hs =>
    cases h
    exact ofNat_of_toNat_eq hs ▸ ⟨rfl, rfl⟩
  · next hs =>
    obtain ⟨hu, rfl⟩ := need_eq_ok.1 h
    exact ofNat_of_toNat_eq hs ▸ .fieldU ⟨rfl, rfl⟩ (beq_iff_eq.1 hu).symm
  · cases h

/-! ### Tables of commands (04 R107) -/

theorem decAmo_encodes (hm : (fMaj w).toNat = 0x35) : decAmo w = .ok i → i.Encodes .ctl w := by
  refine sForm_encodes hm fun p id f h => ?_
  obtain ⟨hz, h⟩ := ite_eq_ok.1 h
  obtain ⟨sc, hsc, h⟩ := withCode_eq_ok.1 h
  have hsc := Scope.ofCode_eq_some.1 hsc
  split at h
  case h_2 hop =>
    obtain ⟨hwide, rfl⟩ := need_eq_ok.1 h
    have hwide : false = f.getLsbD 10 := ((Bool.not_eq_true' _).mp hwide).symm
    exact .fieldS ⟨rfl, rfl⟩ ((amoField_eq_iff (wide := false)).2 ⟨ofNat_of_toNat_eq hop, hsc, hwide, rfl, hz.symm⟩)
  iterate 8
    next hop =>
    cases h
    exact .fieldS ⟨rfl, rfl⟩ (amoField_eq_iff.2 ⟨ofNat_of_toNat_eq hop, hsc, rfl, rfl, hz.symm⟩)
  · cases h

theorem decLease_encodes (hm : (fMaj w).toNat = 0x36) : decLease w = .ok i → i.Encodes .ctl w := by
  refine sForm_encodes hm fun p id f h => ?_
  split at h
  · next hun =>
    obtain ⟨hz, rfl⟩ := need_eq_ok.1 h
    exact .fieldS ⟨rfl, rfl⟩ ((unleaseField_eq_iff (un := true)).2 ⟨hun.symm, (beq_iff_eq.1 hz).symm⟩)
  · next hun =>
    obtain ⟨hz, rfl⟩ := need_eq_ok.1 h
    exact .fieldS ⟨rfl, rfl⟩ ((leaseField_eq_iff (un := false) (z := 0#5)).2 ⟨(eq_false_of_ne_true hun).symm, (beq_iff_eq.1 hz).symm, rfl⟩)

theorem decFence_encodes (hm : (fMaj w).toNat = 0x37) : decFence w = .ok i → i.Encodes .ctl w := by
  refine sForm_encodes hm fun p id f h => ?_
  obtain ⟨hz, h⟩ := ite_eq_ok.1 h
  obtain ⟨sc, hsc, h⟩ := withCode_eq_ok.1 h
  split at h
  iterate 3
    next hkind =>
    cases h
    exact .fieldS ⟨rfl, rfl⟩ (fenceField_eq_iff.2 ⟨ofNat_of_toNat_eq hkind, Scope.ofCode_eq_some.1 hsc, hz.symm⟩)
  · cases h

theorem decQfence_encodes (hm : (fMaj w).toNat = 0x38) : decQfence w = .ok i → i.Encodes .ctl w := by
  refine sForm_encodes hm fun p id f h => ?_
  obtain ⟨hz, rfl⟩ := need_eq_ok.1 h
  exact .fieldS ⟨rfl, rfl⟩ (top2Field_eq_iff.2 ⟨(beq_iff_eq.1 hz).symm, rfl⟩)

theorem decQpush_encodes (hm : (fMaj w).toNat = 0x3A) : decQpush w = .ok i → i.Encodes .ctl w := by
  refine sForm_encodes hm fun p id f h => ?_
  split at h
  · next hkind =>
    obtain ⟨hz, rfl⟩ := need_eq_ok.1 h
    exact .fieldS ⟨rfl, rfl⟩ ((qpushField_eq_iff (kind := 0#2) (z := 0#4)).2 ⟨ofNat_of_toNat_eq hkind, (beq_iff_eq.1 hz).symm, rfl⟩)
  · next hkind =>
    obtain ⟨hz, rfl⟩ := need_eq_ok.1 h
    exact .fieldS ⟨rfl, rfl⟩ (top2Field_eq_iff.2 ⟨ofNat_of_toNat_eq hkind, (beq_iff_eq.1 hz).symm⟩)
  · cases h

theorem decPush_encodes (hm : (fMaj w).toNat = 0x3D) : decPush w = .ok i → i.Encodes .ctl w := by
  refine sForm_encodes hm fun p id f h => ?_
  obtain ⟨hz, h⟩ := ite_eq_ok.1 h
  split at h
  · next hbq =>
    obtain ⟨hoff, rfl⟩ := need_eq_ok.1 h
    exact .fieldS ⟨rfl, rfl⟩ ((pushField_eq_iff (bq := true) (outl := 0#5)).2 ⟨hz.symm, hbq.symm, (beq_iff_eq.1 hoff).symm⟩)
  · next hbq =>
    cases h
    exact .fieldS ⟨rfl, rfl⟩ ((pushField_eq_iff (bq := false)).2 ⟨hz.symm, (eq_false_of_ne_true hbq).symm, rfl⟩)

theorem decStrm_encodes (hm : (fMaj w).toNat = 0x3F) : decStrm w = .ok i → i.Encodes .ctl w := by
  refine sForm_encodes hm fun p id f h => ?_
  obtain ⟨hz, h⟩ := ite_eq_ok.1 h
  split at h
  case h_1 hop =>
    cases h
    exact .fieldS ⟨rfl, rfl⟩ (strmField_eq_iff.2 ⟨ofNat_of_toNat_eq hop, rfl, hz.symm⟩)
  iterate 4
    next hop =>
    obtain ⟨hstg, rfl⟩ := need_eq_ok.1 h
    exact .fieldS ⟨rfl, rfl⟩ (strmPlainField_eq_iff.2 ⟨ofNat_of_toNat_eq hop, (beq_iff_eq.1 hstg).symm, hz.symm⟩)
  · cases h

theorem decSph_encodes (hm : (fMaj w).toNat = 0x40) : decSph w = .ok i → i.Encodes .ctl w := by
  refine sForm_encodes hm fun p id f h => ?_
  obtain ⟨hz, h⟩ := ite_eq_ok.1 h
  cases hor : f.getLsbD 17 <;> rw [hor] at h <;> cases h <;>
    exact .fieldS ⟨rfl, rfl⟩ (sphField_eq_iff.2 ⟨eq_extractLsb'_of_getLsbD hor, rfl, hz.symm, rfl⟩)

theorem decRtcfg_encodes (hm : (fMaj w).toNat = 0x43) : decRtcfg w = .ok i → i.Encodes .ctl w := by
  refine sForm_encodes hm fun p id f h => ?_
  obtain ⟨stg, hstg, h⟩ := withCode_eq_ok.1 h
  obtain ⟨hz, rfl⟩ := need_eq_ok.1 h
  exact .fieldS ⟨rfl, rfl⟩ (rtcfgField_eq_iff.2 ⟨RtStage.ofCode_eq_some.1 hstg, (beq_iff_eq.1 hz).symm, rfl⟩)

theorem decBar_encodes (hm : (fMaj w).toNat = 0x44) : decBar w = .ok i → i.Encodes .ctl w := by
  refine sForm_encodes hm fun p id f h => ?_
  obtain ⟨hz, h⟩ := ite_eq_ok.1 h
  obtain ⟨sc, hsc, h⟩ := withCode_eq_ok.1 h
  split at h
  iterate 4
    next hop =>
    cases h
    exact .fieldS ⟨rfl, rfl⟩ (scopeField_eq_iff.2 ⟨ofNat_of_toNat_eq hop, Scope.ofCode_eq_some.1 hsc, hz.symm⟩)
  · cases h

theorem decSig_encodes (hm : (fMaj w).toNat = 0x45) : decSig w = .ok i → i.Encodes .ctl w := by
  refine sForm_encodes hm fun p id f h => ?_
  obtain ⟨⟨hlo, hhi⟩, h⟩ := ite_eq_ok.1 h
  obtain ⟨sc, hsc, h⟩ := withCode_eq_ok.1 h
  cases h
  exact .fieldS ⟨rfl, rfl⟩ (scopeField_eq_iff.2 ⟨hhi.symm, Scope.ofCode_eq_some.1 hsc, hlo.symm⟩)

theorem decShape_encodes (hm : (fMaj w).toNat = 0x46) : decShape w = .ok i → i.Encodes .ctl w := by
  refine sForm_encodes hm fun p id f h => ?_
  obtain ⟨hz, h⟩ := ite_eq_ok.1 h
  cases ht : f.getLsbD 17 <;> rw [ht] at h <;> cases h <;>
    exact .fieldS ⟨rfl, rfl⟩ (shapeField_eq_iff.2 ⟨eq_extractLsb'_of_getLsbD ht, rfl, hz.symm⟩)

theorem decTmov_encodes (hm : (fMaj w).toNat = 0x49) : decTmov w = .ok i → i.Encodes .ctl w := by
  refine sForm_encodes hm fun p id f h => ?_
  obtain ⟨hz, h⟩ := ite_eq_ok.1 h
  obtain ⟨src, hsrc, h⟩ := withCode_eq_ok.1 h
  obtain ⟨dst, hdst, h⟩ := withCode_eq_ok.1 h
  have hsrc := Buf.ofCode_eq_some.1 hsrc
  have hdst := Buf.ofCode_eq_some.1 hdst
  cases ht : f.getLsbD 17 <;> rw [ht] at h <;> cases h <;>
    exact .fieldS ⟨rfl, rfl⟩ (tmovField_eq_iff.2 ⟨eq_extractLsb'_of_getLsbD ht, hsrc, hdst, hz.symm⟩)

theorem decAcc_encodes (hm : (fMaj w).toNat = 0x4A) : decAcc w = .ok i → i.Encodes .ctl w := by
  refine sForm_encodes hm fun p id f h => ?_
  obtain ⟨⟨hlo, hhi⟩, h⟩ := ite_eq_ok.1 h
  split at h
  iterate 2
    next hop =>
    cases h
    exact .fieldS ⟨rfl, rfl⟩ (accField_eq_iff.2 ⟨ofNat_of_toNat_eq hop, hhi.symm, rfl, hlo.symm⟩)
  · cases h

theorem decGrp_encodes (hm : (fMaj w).toNat = 0x50) : decGrp w = .ok i → i.Encodes .ctl w := by
  refine sForm_encodes hm fun p id f h => ?_
  obtain ⟨hz, h⟩ := ite_eq_ok.1 h
  split at h
  iterate 4
    next hop =>
    cases h
    exact .fieldS ⟨rfl, rfl⟩ (commandField_eq_iff.2 ⟨ofNat_of_toNat_eq hop, hz.symm⟩)
  · cases h

theorem decPg_encodes (hm : (fMaj w).toNat = 0x52) : decPg w = .ok i → i.Encodes .ctl w := by
  refine sForm_encodes hm fun p id f h => ?_
  obtain ⟨hz, h⟩ := ite_eq_ok.1 h
  obtain ⟨x, hx, h⟩ := withCode_eq_ok.1 h
  split at h
  iterate 6
    next hop =>
    cases h
    exact .fieldS ⟨rfl, rfl⟩ (classedField_eq_iff.2 ⟨ofNat_of_toNat_eq hop, PgSize.ofCode_eq_some.1 hx, hz.symm⟩)
  · cases h

theorem decLnk_encodes (hm : (fMaj w).toNat = 0x53) : decLnk w = .ok i → i.Encodes .ctl w := by
  refine sForm_encodes hm fun p id f h => ?_
  obtain ⟨hz, h⟩ := ite_eq_ok.1 h
  obtain ⟨x, hx, h⟩ := withCode_eq_ok.1 h
  split at h
  iterate 5
    next hop =>
    cases h
    exact .fieldS ⟨rfl, rfl⟩ (classedField_eq_iff.2 ⟨ofNat_of_toNat_eq hop, LnkCls.ofCode_eq_some.1 hx, hz.symm⟩)
  · cases h

theorem decVd_encodes (hm : (fMaj w).toNat = 0x54) : decVd w = .ok i → i.Encodes .ctl w := by
  refine sForm_encodes hm fun p id f h => ?_
  obtain ⟨hz, h⟩ := ite_eq_ok.1 h
  split at h
  iterate 5
    next hop =>
    cases h
    exact .fieldS ⟨rfl, rfl⟩ (commandField_eq_iff.2 ⟨ofNat_of_toNat_eq hop, hz.symm⟩)
  · cases h

end Tables

/-! ### The major opcode map (04 R102) -/
section Planes
variable {w : IWord} {i : Instr}

theorem read_encodes (pl : Plane) (hm : (fMaj w).toNat = 0x03) (h : .ok (.read (fRd w) (.ofBits (fU w)) (.ofBits (fT w))) = (.ok i : Except Reject Instr)) :
    i.Encodes pl w := by
  cases h
  exact .congr ⟨rfl, rfl⟩ (mkRd_eq_iff.2 ⟨ofNat_of_toNat_eq hm, rfl, Tgt.bits_ofBits _, Tgt.bits_ofBits _⟩)

theorem write_encodes (pl : Plane) (hm : (fMaj w).toNat = 0x04) (h : (withPred w fun p => need (fZ w == 0#16) (.write p (fWr w))) = .ok i) :
    i.Encodes pl w := by
  obtain ⟨p, hp, h⟩ := withPred_eq_ok.1 h
  obtain ⟨hz, rfl⟩ := need_eq_ok.1 h
  exact .congr ⟨rfl, rfl⟩ (mkWr_eq_iff.2 ⟨ofNat_of_toNat_eq hm, hp, rfl, (beq_iff_eq.1 hz).symm⟩)

/-- What a word means in the control plane has that word and stands in that plane. The cases are the rows of the map, in the order of their majors. -/
theorem rawCtl_encodes : rawCtl w = .ok i → i.Encodes .ctl w := by
  unfold rawCtl
  split
  iterate 2
    next hm =>
    rintro ⟨⟩
    exact .congr ⟨rfl, rfl⟩ (mkK_eq_iff.2 ⟨ofNat_of_toNat_eq hm, rfl, Tgt.bits_ofBits _⟩)
  next hm => exact read_encodes .ctl hm
  next hm => exact write_encodes .ctl hm
  next hm => exact decMove_encodes hm
  next hm => exact decArith_encodes hm
  next hm => exact decLogic_encodes hm
  next hm => exact decTest_encodes hm
  next hm => exact decWidth_encodes hm
  next hm => exact decLea_encodes hm
  iterate 13 next hm => exact iForm_encodes hm fun _ => ⟨rfl, rfl⟩
  iterate 2 next hm => exact bForm_encodes hm fun _ => ⟨rfl, rfl⟩
  next hm => exact decBranchReg_encodes hm
  iterate 4 next hm => exact bForm_encodes hm fun _ => ⟨rfl, rfl⟩
  iterate 7 next hm => exact lForm_encodes hm fun _ => ⟨rfl, rfl⟩
  next hm => exact translationForm_encodes hm fun _ _ _ _ _ => ⟨rfl, rfl⟩
  iterate 7 next hm => exact l2Form_encodes hm fun _ => ⟨rfl, rfl⟩
  next hm => exact translationForm_encodes hm fun _ _ _ _ _ => ⟨rfl, rfl⟩
  next hm => exact lForm_encodes hm fun _ => ⟨rfl, rfl⟩
  iterate 4
    next hm =>
    refine sForm_encodes hm fun p id f h => ?_
    cases h
    exact ⟨rfl, rfl⟩
  next hm => exact decAmo_encodes hm
  next hm => exact decLease_encodes hm
  next hm => exact decFence_encodes hm
  next hm => exact decQfence_encodes hm
  next hm =>
    refine lxForm_encodes hm fun p id u t h => ?_
    split at h
    · next hu =>
      cases h
      exact .fieldU ⟨rfl, rfl⟩ hu.symm
    · obtain ⟨hu, rfl⟩ := need_eq_ok.1 h
      exact .fieldU ⟨rfl, rfl⟩ (beq_iff_eq.1 hu).symm
  next hm => exact decQpush_encodes hm
  iterate 2 next hm => exact inletForm_encodes hm fun _ _ _ _ => ⟨rfl, rfl⟩
  next hm => exact decPush_encodes hm
  next hm => exact outletForm_encodes hm fun _ _ _ => ⟨rfl, rfl⟩
  next hm => exact decStrm_encodes hm
  next hm => exact decSph_encodes hm
  next hm => exact decRtcfg_encodes hm
  next hm => exact decBar_encodes hm
  next hm => exact decSig_encodes hm
  next hm => exact decShape_encodes hm
  next hm => exact shapeStepForm_encodes hm fun _ _ _ _ => ⟨rfl, rfl⟩
  next hm => exact mmaForm_encodes hm fun _ _ _ _ _ => ⟨rfl, rfl⟩
  next hm => exact decTmov_encodes hm
  next hm => exact decAcc_encodes hm
  next hm => exact decTrap_encodes hm
  next hm =>
    refine lxForm_encodes hm fun p id u t h => ?_
    cases h
    exact ⟨rfl, rfl⟩
  next hm =>
    refine sForm_encodes hm fun p id f h => ?_
    obtain ⟨hz, rfl⟩ := need_eq_ok.1 h
    exact .fieldS ⟨rfl, rfl⟩ (crwrField_eq_iff.2 ⟨rfl, (beq_iff_eq.1 hz).symm⟩)
  next hm =>
    refine sForm_encodes hm fun p id f h => ?_
    obtain ⟨hz, rfl⟩ := need_eq_ok.1 h
    exact .fieldS ⟨rfl, rfl⟩ (top2Field_eq_iff.2 ⟨rfl, (beq_iff_eq.1 hz).symm⟩)
  next hm => exact decGrp_encodes hm
  next hm =>
    refine sForm_encodes hm fun p id f h => ?_
    obtain ⟨sz, hsz, h⟩ := withCode_eq_ok.1 h
    obtain ⟨hz, rfl⟩ := need_eq_ok.1 h
    exact .fieldS ⟨rfl, rfl⟩ (top2Field_eq_iff.2 ⟨PgSize.ofCode_eq_some.1 hsz, (beq_iff_eq.1 hz).symm⟩)
  next hm => exact decPg_encodes hm
  next hm => exact decLnk_encodes hm
  next hm => exact decVd_encodes hm
  · exact nofun

/-- What a word means in the data plane has that word and stands in that plane. The cases are the rows of the map, in the order of their majors. -/
theorem rawDat_encodes : rawDat w = .ok i → i.Encodes .dat w := by
  unfold rawDat
  split
  next hm => exact read_encodes .dat hm
  next hm => exact write_encodes .dat hm
  next hm => exact decMoveV_encodes hm
  iterate 2 next hm => exact inletForm_encodes hm fun _ _ _ _ => ⟨rfl, rfl⟩
  next hm => exact outletForm_encodes hm fun _ _ _ => ⟨rfl, rfl⟩
  next hm =>
    refine sForm_encodes hm fun p id f h => ?_
    obtain ⟨hz, rfl⟩ := need_eq_ok.1 h
    exact .fieldS ⟨rfl, rfl⟩ (steerField_eq_iff.2 ⟨(beq_iff_eq.1 hz).symm, rfl, rfl, rfl⟩)
  next hm => exact inletForm_encodes hm fun _ _ _ _ => ⟨rfl, rfl⟩
  next hm => exact shapeStepForm_encodes hm fun _ _ _ _ => ⟨rfl, rfl⟩
  next hm => exact mmaForm_encodes hm fun _ _ _ _ _ => ⟨rfl, rfl⟩
  next hm =>
    refine lxForm_encodes hm fun p id u t h => ?_
    obtain ⟨hz, rfl⟩ := need_eq_ok.1 h
    exact .fieldU ⟨rfl, rfl⟩ (accrdField_eq_iff.2 ⟨(beq_iff_eq.1 hz).symm, rfl⟩)
  iterate 17 next hm => exact vForm_encodes hm fun _ => ⟨rfl, rfl⟩
  next hm => exact operationForm_encodes hm fun _ _ _ _ _ => ⟨rfl, rfl⟩
  next hm =>
    refine v1Form_encodes hm fun p md ty u t h => ?_
    obtain ⟨hz, rfl⟩ := need_eq_ok.1 h
    obtain ⟨hmd, hz⟩ := Bool.and_eq_true_iff.1 hz
    rw [(Bool.not_eq_true' _).mp hmd]
    exact .fieldU ⟨rfl, rfl⟩ (low3Field_eq_iff.2 ⟨(beq_iff_eq.1 hz).symm, rfl⟩)
  iterate 2 next hm => exact vForm_encodes hm fun _ => ⟨rfl, rfl⟩
  next hm =>
    refine v1Form_encodes hm fun p md ty u t h => ?_
    obtain ⟨mode, hmode, h⟩ := withCode_eq_ok.1 h
    obtain ⟨hz, rfl⟩ := need_eq_ok.1 h
    obtain ⟨hhi, hlo⟩ := Bool.and_eq_true_iff.1 hz
    exact .fieldU ⟨rfl, rfl⟩ (convertField_eq_iff.2 ⟨(beq_iff_eq.1 hhi).symm, RMode.ofCode_eq_some.1 hmode, (beq_iff_eq.1 hlo).symm⟩)
  next hm =>
    refine v1Form_encodes hm fun p md ty u t h => ?_
    obtain ⟨mode, hmode, h⟩ := withCode_eq_ok.1 h
    obtain ⟨src, hsrc, h⟩ := withCode_eq_ok.1 h
    obtain ⟨hz, rfl⟩ := need_eq_ok.1 h
    exact .fieldU ⟨rfl, rfl⟩ (convertField_eq_iff.2 ⟨(beq_iff_eq.1 hz).symm, RMode.ofCode_eq_some.1 hmode, ElTy.ofCode_eq_some.1 hsrc⟩)
  next hm => exact decTrans_encodes hm
  next hm => exact operationForm_encodes hm fun _ _ _ _ _ => ⟨rfl, rfl⟩
  next hm =>
    refine v1Form_encodes hm fun p md ty u t h => ?_
    obtain ⟨hz, rfl⟩ := need_eq_ok.1 h
    exact .fieldU ⟨rfl, rfl⟩ (scanField_eq_iff.2 ⟨(beq_iff_eq.1 hz).symm, rfl, rfl⟩)
  next hm => exact vForm_encodes hm fun _ => ⟨rfl, rfl⟩
  next hm =>
    refine v1Form_encodes hm fun p md ty u t h => ?_
    obtain ⟨hz, h⟩ := ite_eq_ok.1 h
    obtain ⟨hmd, h8⟩ := Bool.and_eq_true_iff.1 hz
    rw [(Bool.not_eq_true' _).mp hmd]
    split at h
    · next hdn =>
      cases h
      exact .fieldU ⟨rfl, rfl⟩ ((slideField_eq_iff (z := false) (dn := true)).2 ⟨(beq_iff_eq.1 h8).symm, hdn.symm, rfl⟩)
    · next hdn =>
      cases h
      exact .fieldU ⟨rfl, rfl⟩ ((slideField_eq_iff (z := false) (dn := false)).2 ⟨(beq_iff_eq.1 h8).symm, (eq_false_of_ne_true hdn).symm, rfl⟩)
  next hm =>
    refine v1Form_encodes hm fun p md ty u t h => ?_
    obtain ⟨hz, rfl⟩ := need_eq_ok.1 h
    obtain ⟨hmd, hz⟩ := Bool.and_eq_true_iff.1 hz
    rw [(Bool.not_eq_true' _).mp hmd]
    exact .fieldU ⟨rfl, rfl⟩ (bcastField_eq_iff.2 ⟨(beq_iff_eq.1 hz).symm, rfl⟩)
  next hm => exact decMask_encodes hm
  next hm => exact vForm_encodes hm fun _ => ⟨rfl, rfl⟩
  · exact nofun

end Planes
end Sys2Proof
end

section
/-!
SUPPORT. The word of an instruction decodes to it (04 R95 to R107), in the control plane and in the data plane.
-/
namespace Sys2Proof
section Planes
variable {w : IWord} {i : Instr}

/-- A word of an instruction of the control plane means that instruction there. -/
theorem rawCtl_of_encodes (h : i.Encodes .ctl w) : rawCtl w = .ok i := by
  obtain ⟨hw, hpl⟩ := h
  cases i with
  | const imm t1 | constx imm t1 =>
    obtain ⟨hm, rfl, ht⟩ := mkK_eq_iff.1 (Option.some.inj hw)
    rw [rawCtl, ← hm, ← Tgt.bits_eq_iff.1 ht]
    rfl
  | read reg t2 t1 =>
    obtain ⟨hm, rfl, hu, ht⟩ := mkRd_eq_iff.1 (Option.some.inj hw)
    rw [rawCtl, ← hm, ← Tgt.bits_eq_iff.1 hu, ← Tgt.bits_eq_iff.1 ht]
    rfl
  | write p reg =>
    obtain ⟨hm, hp, rfl, hz⟩ := mkWr_eq_iff.1 (Option.some.inj hw)
    rw [rawCtl, ← hm]
    exact withPred_eq_ok.2 ⟨p, hp, need_eq_ok.2 ⟨beq_iff_eq.2 hz.symm, rfl⟩⟩
  | mov g | null g =>
    obtain ⟨hm, hp, hs, hu, ht⟩ := mkG_eq_iff.1 (Option.some.inj hw)
    rw [rawCtl, ← hm, decMove, ← hs]
    exact gForm_eq_ok.2 ⟨g, rfl, hp, hu, ht⟩
  | add g | sub g | mul g | mulhS64 g | mulhN64 g | divS64 g | divN64 g | remS64 g | remN64 g | neg g | abs g | minS64 g | maxS64 g | minN64 g
  | maxN64 g =>
    obtain ⟨hm, hp, hs, hu, ht⟩ := mkG_eq_iff.1 (Option.some.inj hw)
    rw [rawCtl, ← hm, decArith, ← hs]
    exact gForm_eq_ok.2 ⟨g, rfl, hp, hu, ht⟩
  | and g | or g | xor g | andn g | not g | shl g | shr g | sar g | rol g | ror g | popc g | clz g | ctz g | bswap g | sextS8 g | sextS16 g | sextS32 g
  | zextN8 g | zextN16 g | zextN32 g =>
    obtain ⟨hm, hp, hs, hu, ht⟩ := mkG_eq_iff.1 (Option.some.inj hw)
    rw [rawCtl, ← hm, decLogic, ← hs]
    exact gForm_eq_ok.2 ⟨g, rfl, hp, hu, ht⟩
  | teq g | tne g | tltS64 g | tleS64 g | tgtS64 g | tgeS64 g | tltN64 g | tleN64 g | tgtN64 g | tgeN64 g | tbit g | tz g | tnz g =>
    obtain ⟨hm, hp, hs, hu, ht⟩ := mkG_eq_iff.1 (Option.some.inj hw)
    rw [rawCtl, ← hm, decTest, ← hs]
    exact gForm_eq_ok.2 ⟨g, rfl, hp, hu, ht⟩
  | wsplitB8 g | wsplitB16 g | wsplitB32 g | wjoinB8 g | wjoinB16 g | wjoinB32 g =>
    obtain ⟨hm, hp, hs, hu, ht⟩ := mkG_eq_iff.1 (Option.some.inj hw)
    rw [rawCtl, ← hm, decWidth, ← hs]
    exact gForm_eq_ok.2 ⟨g, rfl, hp, hu, ht⟩
  | leaX1 g | leaX2 g | leaX4 g | leaX8 g =>
    obtain ⟨hm, hp, hs, hu, ht⟩ := mkG_eq_iff.1 (Option.some.inj hw)
    rw [rawCtl, ← hm, decLea, ← hs]
    exact gForm_eq_ok.2 ⟨g, rfl, hp, hu, ht⟩
  | addi x | andi x | ori x | xori x | teqi x | shli x | shri x | sari x | tnei x | tlti x | tgei x | tltui x | tgeui x =>
    obtain ⟨hm, hp, himm, ht⟩ := mkI_eq_iff.1 (Option.some.inj hw)
    rw [rawCtl, ← hm]
    exact iForm_eq_ok.2 ⟨x, rfl, hp, himm, ht⟩
  | br b | call b | barWait b | sigWait b | yield b | idle b =>
    obtain ⟨hm, hp, hx, ho⟩ := mkB_eq_iff.1 (Option.some.inj hw)
    rw [rawCtl, ← hm]
    exact bForm_eq_ok.2 ⟨b, rfl, hp, hx, ho⟩
  | brr p exit | callr p exit | ret p exit =>
    obtain ⟨hm, hp, hs, hu, ht⟩ := mkG_eq_iff.1 (Option.some.inj hw)
    obtain ⟨hz, rfl⟩ := low3Field_eq_iff.1 hu
    rw [rawCtl, ← hm]
    exact g1zForm_eq_ok.2 ⟨p, hp, ht, ite_eq_ok.2 ⟨hz.symm, by rw [← hs]; rfl⟩⟩
  | ldN8 l | ldS8 l | ldN16 l | ldS16 l | ldN32 l | ldS32 l | ldB64 l | pref l =>
    obtain ⟨hm, hp, hs, hu, ht⟩ := mkG_eq_iff.1 (Option.some.inj hw)
    rw [rawCtl, ← hm]
    exact lForm_eq_ok.2 ⟨l, rfl, hp, hs, hu, ht⟩
  | ldN82t l | ldS82t l | ldN162t l | ldS162t l | ldN322t l | ldS322t l | ldB642t l =>
    obtain ⟨hm, hp, hs, hu, ht⟩ := mkG_eq_iff.1 (Option.some.inj hw)
    rw [rawCtl, ← hm]
    exact l2Form_eq_ok.2 ⟨l, rfl, hp, hs, hu, ht⟩
  | amoAdd p id sc wide ord | amoMinS p id sc wide ord | amoMaxS p id sc wide ord | amoMinN p id sc wide ord | amoMaxN p id sc wide ord
  | amoAnd p id sc wide ord | amoOr p id sc wide ord | amoXor p id sc wide ord =>
    obtain ⟨hm, hp, rfl, hf⟩ := mkS_eq_iff.1 (Option.some.inj hw)
    obtain ⟨hop, hsc, rfl, rfl, hz⟩ := amoField_eq_iff.1 hf
    rw [rawCtl, ← hm]
    refine sForm_eq_ok.2 ⟨p, hp, ite_eq_ok.2 ⟨hz.symm, withCode_eq_ok.2 ⟨sc, Scope.ofCode_eq_some.2 hsc, ?_⟩⟩⟩
    rw [← hop]
    rfl
  | amoAddF32 p id sc ord =>
    obtain ⟨hm, hp, rfl, hf⟩ := mkS_eq_iff.1 (Option.some.inj hw)
    obtain ⟨hop, hsc, hwide, rfl, hz⟩ := (amoField_eq_iff (wide := false)).1 hf
    rw [rawCtl, ← hm]
    refine sForm_eq_ok.2 ⟨p, hp, ite_eq_ok.2 ⟨hz.symm, withCode_eq_ok.2 ⟨sc, Scope.ofCode_eq_some.2 hsc, ?_⟩⟩⟩
    rw [← hop, ← hwide]
    rfl
  | lease p id cyc =>
    obtain ⟨hm, hp, rfl, hf⟩ := mkS_eq_iff.1 (Option.some.inj hw)
    obtain ⟨hun, hz, rfl⟩ := (leaseField_eq_iff (un := false) (z := 0#5)).1 hf
    rw [rawCtl, ← hm]
    refine sForm_eq_ok.2 ⟨p, hp, ?_⟩
    rw [← hun]
    exact need_eq_ok.2 ⟨beq_iff_eq.2 hz.symm, rfl⟩
  | unlease p id =>
    obtain ⟨hm, hp, rfl, hf⟩ := mkS_eq_iff.1 (Option.some.inj hw)
    obtain ⟨hun, hz⟩ := (unleaseField_eq_iff (un := true)).1 hf
    rw [rawCtl, ← hm]
    refine sForm_eq_ok.2 ⟨p, hp, ?_⟩
    rw [← hun]
    exact need_eq_ok.2 ⟨beq_iff_eq.2 hz.symm, rfl⟩
  | fenceAcq p id sc | fenceRel p id sc | fenceAr p id sc =>
    obtain ⟨hm, hp, rfl, hf⟩ := mkS_eq_iff.1 (Option.some.inj hw)
    obtain ⟨hkind, hsc, hz⟩ := fenceField_eq_iff.1 hf
    rw [rawCtl, ← hm]
    refine sForm_eq_ok.2 ⟨p, hp, ite_eq_ok.2 ⟨hz.symm, withCode_eq_ok.2 ⟨sc, Scope.ofCode_eq_some.2 hsc, ?_⟩⟩⟩
    rw [← hkind]
    rfl
  | qfence p id set =>
    obtain ⟨hm, hp, rfl, hf⟩ := mkS_eq_iff.1 (Option.some.inj hw)
    obtain ⟨hz, rfl⟩ := top2Field_eq_iff.1 hf
    rw [rawCtl, ← hm]
    exact sForm_eq_ok.2 ⟨p, hp, need_eq_ok.2 ⟨beq_iff_eq.2 hz.symm, rfl⟩⟩
  | stB8 p id disp | stB16 p id disp | stB32 p id disp | stB64 p id disp =>
    obtain ⟨hm, hp, rfl, rfl⟩ := mkS_eq_iff.1 (Option.some.inj hw)
    rw [rawCtl, ← hm]
    exact sForm_eq_ok.2 ⟨p, hp, rfl⟩
  | xlate p id wr th t1 | xprobe p id wr th t1 =>
    obtain ⟨hm, hp, rfl, hu, ht⟩ := mkG_eq_iff.1 (Option.some.inj hw)
    obtain ⟨hz, rfl, rfl⟩ := translationField_eq_iff.1 hu
    rw [rawCtl, ← hm]
    exact lxForm_eq_ok.2 ⟨p, t1, hp, ht, need_eq_ok.2 ⟨beq_iff_eq.2 hz.symm, rfl⟩⟩
  | qpop p id t1 | qpopBq p id t1 =>
    obtain ⟨hm, hp, rfl, hu, ht⟩ := mkG_eq_iff.1 (Option.some.inj hw)
    rw [rawCtl, ← hm]
    exact lxForm_eq_ok.2 ⟨p, t1, hp, ht, by rw [← hu]; rfl⟩
  | qpush p id q =>
    obtain ⟨hm, hp, rfl, hf⟩ := mkS_eq_iff.1 (Option.some.inj hw)
    obtain ⟨hkind, hz, rfl⟩ := (qpushField_eq_iff (kind := 0#2) (z := 0#4)).1 hf
    rw [rawCtl, ← hm]
    refine sForm_eq_ok.2 ⟨p, hp, ?_⟩
    rw [← hkind]
    exact need_eq_ok.2 ⟨beq_iff_eq.2 hz.symm, rfl⟩
  | qpushCmdq p id =>
    obtain ⟨hm, hp, rfl, hf⟩ := mkS_eq_iff.1 (Option.some.inj hw)
    obtain ⟨hkind, hz⟩ := top2Field_eq_iff.1 hf
    rw [rawCtl, ← hm]
    refine sForm_eq_ok.2 ⟨p, hp, ?_⟩
    rw [← hkind]
    exact need_eq_ok.2 ⟨beq_iff_eq.2 hz.symm, rfl⟩
  | pop p id inl t1 | peek p id inl t1 =>
    obtain ⟨hm, hp, rfl, hu, ht⟩ := mkG_eq_iff.1 (Option.some.inj hw)
    obtain ⟨hz, rfl⟩ := inletField_eq_iff.1 hu
    rw [rawCtl, ← hm]
    exact lxForm_eq_ok.2 ⟨p, t1, hp, ht, need_eq_ok.2 ⟨beq_iff_eq.2 hz.symm, rfl⟩⟩
  | push p id outl =>
    obtain ⟨hm, hp, rfl, hf⟩ := mkS_eq_iff.1 (Option.some.inj hw)
    obtain ⟨hz, hbq, rfl⟩ := (pushField_eq_iff (bq := false)).1 hf
    rw [rawCtl, ← hm]
    refine sForm_eq_ok.2 ⟨p, hp, ite_eq_ok.2 ⟨hz.symm, ?_⟩⟩
    rw [← hbq]
    rfl
  | pushBq p id =>
    obtain ⟨hm, hp, rfl, hf⟩ := mkS_eq_iff.1 (Option.some.inj hw)
    obtain ⟨hz, hbq, houtl⟩ := (pushField_eq_iff (bq := true) (outl := 0#5)).1 hf
    rw [rawCtl, ← hm]
    refine sForm_eq_ok.2 ⟨p, hp, ite_eq_ok.2 ⟨hz.symm, ?_⟩⟩
    rw [← hbq]
    exact need_eq_ok.2 ⟨beq_iff_eq.2 houtl.symm, rfl⟩
  | pushm p id outl =>
    obtain ⟨hm, hp, rfl, hf⟩ := mkS_eq_iff.1 (Option.some.inj hw)
    obtain ⟨hz, rfl⟩ := outletField_eq_iff.1 hf
    rw [rawCtl, ← hm]
    exact sForm_eq_ok.2 ⟨p, hp, need_eq_ok.2 ⟨beq_iff_eq.2 hz.symm, rfl⟩⟩
  | strmStage p id stg =>
    obtain ⟨hm, hp, rfl, hf⟩ := mkS_eq_iff.1 (Option.some.inj hw)
    obtain ⟨hop, rfl, hz⟩ := strmField_eq_iff.1 hf
    rw [rawCtl, ← hm]
    refine sForm_eq_ok.2 ⟨p, hp, ite_eq_ok.2 ⟨hz.symm, ?_⟩⟩
    rw [← hop]
    rfl
  | strmRows p id | strmTag p id | strmGo p id | strmHalt p id =>
    obtain ⟨hm, hp, rfl, hf⟩ := mkS_eq_iff.1 (Option.some.inj hw)
    obtain ⟨hop, hstg, hz⟩ := strmPlainField_eq_iff.1 hf
    rw [rawCtl, ← hm]
    refine sForm_eq_ok.2 ⟨p, hp, ite_eq_ok.2 ⟨hz.symm, ?_⟩⟩
    rw [← hop]
    exact need_eq_ok.2 ⟨beq_iff_eq.2 hstg.symm, rfl⟩
  | sphAnd p id tree q | sphOr p id tree q =>
    obtain ⟨hm, hp, rfl, hf⟩ := mkS_eq_iff.1 (Option.some.inj hw)
    obtain ⟨hor, rfl, hz, rfl⟩ := sphField_eq_iff.1 hf
    rw [rawCtl, ← hm]
    refine sForm_eq_ok.2 ⟨p, hp, ite_eq_ok.2 ⟨hz.symm, ?_⟩⟩
    rw [getLsbD_of_eq_extractLsb' hor]
    rfl
  | rtcfg p id stg q =>
    obtain ⟨hm, hp, rfl, hf⟩ := mkS_eq_iff.1 (Option.some.inj hw)
    obtain ⟨hstg, hz, rfl⟩ := rtcfgField_eq_iff.1 hf
    rw [rawCtl, ← hm]
    exact sForm_eq_ok.2 ⟨p, hp, withCode_eq_ok.2 ⟨stg, RtStage.ofCode_eq_some.2 hstg, need_eq_ok.2 ⟨beq_iff_eq.2 hz.symm, rfl⟩⟩⟩
  | barInit p id sc | barArrive p id sc | barBind p id sc | barDrop p id sc =>
    obtain ⟨hm, hp, rfl, hf⟩ := mkS_eq_iff.1 (Option.some.inj hw)
    obtain ⟨hop, hsc, hz⟩ := scopeField_eq_iff.1 hf
    rw [rawCtl, ← hm]
    refine sForm_eq_ok.2 ⟨p, hp, ite_eq_ok.2 ⟨hz.symm, withCode_eq_ok.2 ⟨sc, Scope.ofCode_eq_some.2 hsc, ?_⟩⟩⟩
    rw [← hop]
    rfl
  | sigInc p id sc =>
    obtain ⟨hm, hp, rfl, hf⟩ := mkS_eq_iff.1 (Option.some.inj hw)
    obtain ⟨hop, hsc, hz⟩ := scopeField_eq_iff.1 hf
    rw [rawCtl, ← hm]
    exact sForm_eq_ok.2 ⟨p, hp, ite_eq_ok.2 ⟨⟨hz.symm, hop.symm⟩, withCode_eq_ok.2 ⟨sc, Scope.ofCode_eq_some.2 hsc, rfl⟩⟩⟩
  | shapeV p id sh | shapeT p id sh =>
    obtain ⟨hm, hp, rfl, hf⟩ := mkS_eq_iff.1 (Option.some.inj hw)
    obtain ⟨hform, rfl, hz⟩ := shapeField_eq_iff.1 hf
    rw [rawCtl, ← hm]
    refine sForm_eq_ok.2 ⟨p, hp, ite_eq_ok.2 ⟨hz.symm, ?_⟩⟩
    rw [getLsbD_of_eq_extractLsb' hform]
    rfl
  | shstep p id sh t1 =>
    obtain ⟨hm, hp, rfl, hu, ht⟩ := mkG_eq_iff.1 (Option.some.inj hw)
    obtain ⟨hz, rfl⟩ := low3Field_eq_iff.1 hu
    rw [rawCtl, ← hm]
    exact lxForm_eq_ok.2 ⟨p, t1, hp, ht, need_eq_ok.2 ⟨beq_iff_eq.2 hz.symm, rfl⟩⟩
  | mma p id ty sat acc =>
    obtain ⟨hm, hp, rfl, hf⟩ := mkS_eq_iff.1 (Option.some.inj hw)
    obtain ⟨hty, rfl, rfl, hz⟩ := mmaField_eq_iff.1 hf
    rw [rawCtl, ← hm]
    exact sForm_eq_ok.2 ⟨p, hp, ite_eq_ok.2 ⟨hz.symm, withCode_eq_ok.2 ⟨ty, MmaTy.ofCode_eq_some.2 hty, rfl⟩⟩⟩
  | tmov p id src dst | tmovT p id src dst =>
    obtain ⟨hm, hp, rfl, hf⟩ := mkS_eq_iff.1 (Option.some.inj hw)
    obtain ⟨hform, hsrc, hdst, hz⟩ := tmovField_eq_iff.1 hf
    rw [rawCtl, ← hm]
    refine sForm_eq_ok.2 ⟨p, hp, ite_eq_ok.2 ⟨hz.symm, withCode_eq_ok.2 ⟨src, Buf.ofCode_eq_some.2 hsrc, ?_⟩⟩⟩
    refine withCode_eq_ok.2 ⟨dst, Buf.ofCode_eq_some.2 hdst, ?_⟩
    rw [getLsbD_of_eq_extractLsb' hform]
    rfl
  | acclr p id acc | accst p id acc =>
    obtain ⟨hm, hp, rfl, hf⟩ := mkS_eq_iff.1 (Option.some.inj hw)
    obtain ⟨hop, hhi, rfl, hlo⟩ := accField_eq_iff.1 hf
    rw [rawCtl, ← hm]
    refine sForm_eq_ok.2 ⟨p, hp, ite_eq_ok.2 ⟨⟨hlo.symm, hhi.symm⟩, ?_⟩⟩
    rw [← hop]
    rfl
  | trap p code | svc p code | brk p code | rfe p =>
    obtain ⟨hm, hp, hs, hu, ht⟩ := mkG_eq_iff.1 (Option.some.inj hw)
    rw [rawCtl, ← hm]
    exact g1zForm_eq_ok.2 ⟨p, hp, ht, by rw [← hs, ← hu]; rfl⟩
  | crrd p id num t1 =>
    obtain ⟨hm, hp, rfl, rfl, ht⟩ := mkG_eq_iff.1 (Option.some.inj hw)
    rw [rawCtl, ← hm]
    exact lxForm_eq_ok.2 ⟨p, t1, hp, ht, rfl⟩
  | crwr p id num =>
    obtain ⟨hm, hp, rfl, hf⟩ := mkS_eq_iff.1 (Option.some.inj hw)
    obtain ⟨rfl, hz⟩ := crwrField_eq_iff.1 hf
    rw [rawCtl, ← hm]
    exact sForm_eq_ok.2 ⟨p, hp, need_eq_ok.2 ⟨beq_iff_eq.2 hz.symm, rfl⟩⟩
  | launch p id lq =>
    obtain ⟨hm, hp, rfl, hf⟩ := mkS_eq_iff.1 (Option.some.inj hw)
    obtain ⟨rfl, hz⟩ := top2Field_eq_iff.1 hf
    rw [rawCtl, ← hm]
    exact sForm_eq_ok.2 ⟨p, hp, need_eq_ok.2 ⟨beq_iff_eq.2 hz.symm, rfl⟩⟩
  | grpMake p id | grpSplit p id | grpJoin p id | grpFree p id | vdQuiesce p id | vdSend p id | vdResume p id | vdRelease p id | vdReplay p id =>
    obtain ⟨hm, hp, rfl, hf⟩ := mkS_eq_iff.1 (Option.some.inj hw)
    obtain ⟨hop, hz⟩ := commandField_eq_iff.1 hf
    rw [rawCtl, ← hm]
    refine sForm_eq_ok.2 ⟨p, hp, ite_eq_ok.2 ⟨hz.symm, ?_⟩⟩
    rw [← hop]
    rfl
  | xshoot p id sz =>
    obtain ⟨hm, hp, rfl, hf⟩ := mkS_eq_iff.1 (Option.some.inj hw)
    obtain ⟨hsz, hz⟩ := top2Field_eq_iff.1 hf
    rw [rawCtl, ← hm]
    exact sForm_eq_ok.2 ⟨p, hp, withCode_eq_ok.2 ⟨sz, PgSize.ofCode_eq_some.2 hsz, need_eq_ok.2 ⟨beq_iff_eq.2 hz.symm, rfl⟩⟩⟩
  | pgMap p id sz | pgUnmap p id sz | pgPin p id sz | pgUnpin p id sz | pgPoison p id sz | pgPromote p id sz =>
    obtain ⟨hm, hp, rfl, hf⟩ := mkS_eq_iff.1 (Option.some.inj hw)
    obtain ⟨hop, hsz, hz⟩ := classedField_eq_iff.1 hf
    rw [rawCtl, ← hm]
    refine sForm_eq_ok.2 ⟨p, hp, ite_eq_ok.2 ⟨hz.symm, withCode_eq_ok.2 ⟨sz, PgSize.ofCode_eq_some.2 hsz, ?_⟩⟩⟩
    rw [← hop]
    rfl
  | lnkUp p id cls | lnkDown p id cls | lnkRetrain p id cls | lnkChain p id cls | lnkUnchain p id cls =>
    obtain ⟨hm, hp, rfl, hf⟩ := mkS_eq_iff.1 (Option.some.inj hw)
    obtain ⟨hop, hcls, hz⟩ := classedField_eq_iff.1 hf
    rw [rawCtl, ← hm]
    refine sForm_eq_ok.2 ⟨p, hp, ite_eq_ok.2 ⟨hz.symm, withCode_eq_ok.2 ⟨cls, LnkCls.ofCode_eq_some.2 hcls, ?_⟩⟩⟩
    rw [← hop]
    rfl
  | _ => cases hpl

/-- A word of an instruction of the data plane means that instruction there. -/
theorem rawDat_of_encodes (h : i.Encodes .dat w) : rawDat w = .ok i := by
  obtain ⟨hw, hpl⟩ := h
  cases i with
  | read reg t2 t1 =>
    obtain ⟨hm, rfl, hu, ht⟩ := mkRd_eq_iff.1 (Option.some.inj hw)
    rw [rawDat, ← hm, ← Tgt.bits_eq_iff.1 hu, ← Tgt.bits_eq_iff.1 ht]
    rfl
  | write p reg =>
    obtain ⟨hm, hp, rfl, hz⟩ := mkWr_eq_iff.1 (Option.some.inj hw)
    rw [rawDat, ← hm]
    exact withPred_eq_ok.2 ⟨p, hp, need_eq_ok.2 ⟨beq_iff_eq.2 hz.symm, rfl⟩⟩
  | movV g | nullV g =>
    obtain ⟨hm, hp, hs, hu, ht⟩ := mkG_eq_iff.1 (Option.some.inj hw)
    rw [rawDat, ← hm, decMoveV, ← hs]
    exact gForm_eq_ok.2 ⟨g, rfl, hp, hu, ht⟩
  | mand g | mor g | mxor g | mnot g | mcnt g =>
    obtain ⟨hm, hp, hs, hu, ht⟩ := mkG_eq_iff.1 (Option.some.inj hw)
    rw [rawDat, ← hm, decMask, ← hs]
    exact gForm_eq_ok.2 ⟨g, rfl, hp, hu, ht⟩
  | popV p id inl t1 | peekV p id inl t1 | collect p id inl t1 =>
    obtain ⟨hm, hp, rfl, hu, ht⟩ := mkG_eq_iff.1 (Option.some.inj hw)
    obtain ⟨hz, rfl⟩ := inletField_eq_iff.1 hu
    rw [rawDat, ← hm]
    exact lxForm_eq_ok.2 ⟨p, t1, hp, ht, need_eq_ok.2 ⟨beq_iff_eq.2 hz.symm, rfl⟩⟩
  | pushV p id outl =>
    obtain ⟨hm, hp, rfl, hf⟩ := mkS_eq_iff.1 (Option.some.inj hw)
    obtain ⟨hz, rfl⟩ := outletField_eq_iff.1 hf
    rw [rawDat, ← hm]
    exact sForm_eq_ok.2 ⟨p, hp, need_eq_ok.2 ⟨beq_iff_eq.2 hz.symm, rfl⟩⟩
  | steer p id m of ot =>
    obtain ⟨hm, hp, rfl, hf⟩ := mkS_eq_iff.1 (Option.some.inj hw)
    obtain ⟨hz, rfl, rfl, rfl⟩ := steerField_eq_iff.1 hf
    rw [rawDat, ← hm]
    exact sForm_eq_ok.2 ⟨p, hp, need_eq_ok.2 ⟨beq_iff_eq.2 hz.symm, rfl⟩⟩
  | shstepV p id sh t1 =>
    obtain ⟨hm, hp, rfl, hu, ht⟩ := mkG_eq_iff.1 (Option.some.inj hw)
    obtain ⟨hz, rfl⟩ := low3Field_eq_iff.1 hu
    rw [rawDat, ← hm]
    exact lxForm_eq_ok.2 ⟨p, t1, hp, ht, need_eq_ok.2 ⟨beq_iff_eq.2 hz.symm, rfl⟩⟩
  | mmaG p id ty sat acc =>
    obtain ⟨hm, hp, rfl, hf⟩ := mkS_eq_iff.1 (Option.some.inj hw)
    obtain ⟨hty, rfl, rfl, hz⟩ := mmaField_eq_iff.1 hf
    rw [rawDat, ← hm]
    exact sForm_eq_ok.2 ⟨p, hp, ite_eq_ok.2 ⟨hz.symm, withCode_eq_ok.2 ⟨ty, MmaTy.ofCode_eq_some.2 hty, rfl⟩⟩⟩
  | accrd p id acc t1 =>
    obtain ⟨hm, hp, rfl, hu, ht⟩ := mkG_eq_iff.1 (Option.some.inj hw)
    obtain ⟨hz, rfl⟩ := accrdField_eq_iff.1 hu
    rw [rawDat, ← hm]
    exact lxForm_eq_ok.2 ⟨p, t1, hp, ht, need_eq_ok.2 ⟨beq_iff_eq.2 hz.symm, rfl⟩⟩
  | vadd v | vsub v | vmul v | vmulh v | vmin v | vmax v | vabs v | vneg v | vand v | vor v | vxor v | vnot v | vshl v | vshr v | vsar v | vclz v
  | vpopc v | wadd v | wmul v | perm v | iota v =>
    obtain ⟨hm, hp, hs, hu, ht⟩ := mkG_eq_iff.1 (Option.some.inj hw)
    rw [rawDat, ← hm]
    exact vForm_eq_ok.2 ⟨v, rfl, hp, hs, hu, ht⟩
  | cmp p md ty op t1 | red p md ty op t1 =>
    obtain ⟨hm, hp, hs, hu, ht⟩ := mkG_eq_iff.1 (Option.some.inj hw)
    obtain ⟨hz, rfl⟩ := low3Field_eq_iff.1 hu
    rw [rawDat, ← hm]
    exact v1Form_eq_ok.2 ⟨p, md, ty, t1, hp, hs, ht, need_eq_ok.2 ⟨beq_iff_eq.2 hz.symm, rfl⟩⟩
  | msel p ty m t1 =>
    obtain ⟨hm, hp, hs, hu, ht⟩ := mkG_eq_iff.1 (Option.some.inj hw)
    obtain ⟨hz, rfl⟩ := low3Field_eq_iff.1 hu
    rw [rawDat, ← hm]
    exact v1Form_eq_ok.2 ⟨p, false, ty, t1, hp, hs, ht, need_eq_ok.2 ⟨beq_iff_eq.2 hz.symm, rfl⟩⟩
  | narrow p sat ty mode t1 =>
    obtain ⟨hm, hp, hs, hu, ht⟩ := mkG_eq_iff.1 (Option.some.inj hw)
    obtain ⟨hhi, hmode, hlo⟩ := convertField_eq_iff.1 hu
    rw [rawDat, ← hm]
    exact v1Form_eq_ok.2 ⟨p, sat, ty, t1, hp, hs, ht, withCode_eq_ok.2 ⟨mode, RMode.ofCode_eq_some.2 hmode,
      need_eq_ok.2 ⟨Bool.and_eq_true_iff.2 ⟨beq_iff_eq.2 hhi.symm, beq_iff_eq.2 hlo.symm⟩, rfl⟩⟩⟩
  | cvt p sat dst mode src t1 =>
    obtain ⟨hm, hp, hs, hu, ht⟩ := mkG_eq_iff.1 (Option.some.inj hw)
    obtain ⟨hz, hmode, hsrc⟩ := convertField_eq_iff.1 hu
    rw [rawDat, ← hm]
    exact v1Form_eq_ok.2 ⟨p, sat, dst, t1, hp, hs, ht, withCode_eq_ok.2 ⟨mode, RMode.ofCode_eq_some.2 hmode,
      withCode_eq_ok.2 ⟨src, ElTy.ofCode_eq_some.2 hsrc, need_eq_ok.2 ⟨beq_iff_eq.2 hz.symm, rfl⟩⟩⟩⟩
  | vrcp p ftz t2 t1 | vrsq p ftz t2 t1 | vsqrt p ftz t2 t1 | vexp2 p ftz t2 t1 | vlog2 p ftz t2 t1 =>
    obtain ⟨hm, hp, hs, hu, ht⟩ := mkG_eq_iff.1 (Option.some.inj hw)
    obtain ⟨rfl, hop⟩ := typedSub_eq_iff.1 hs
    rw [rawDat, ← hm, decTrans, ← hop]
    exact tForm_eq_ok.2 ⟨p, t2, t1, rfl, hp, hu, ht⟩
  | scan p md ty excl op t1 =>
    obtain ⟨hm, hp, hs, hu, ht⟩ := mkG_eq_iff.1 (Option.some.inj hw)
    obtain ⟨hz, rfl, rfl⟩ := scanField_eq_iff.1 hu
    rw [rawDat, ← hm]
    exact v1Form_eq_ok.2 ⟨p, md, ty, t1, hp, hs, ht, need_eq_ok.2 ⟨beq_iff_eq.2 hz.symm, rfl⟩⟩
  | slideUp p ty k t1 =>
    obtain ⟨hm, hp, hs, hu, ht⟩ := mkG_eq_iff.1 (Option.some.inj hw)
    obtain ⟨hz, hdn, rfl⟩ := (slideField_eq_iff (z := false) (dn := false)).1 hu
    rw [rawDat, ← hm]
    exact v1Form_eq_ok.2 ⟨p, false, ty, t1, hp, hs, ht, ite_eq_ok.2 ⟨by rw [← hz]; rfl, by rw [← hdn]; rfl⟩⟩
  | slideDn p ty k t1 =>
    obtain ⟨hm, hp, hs, hu, ht⟩ := mkG_eq_iff.1 (Option.some.inj hw)
    obtain ⟨hz, hdn, rfl⟩ := (slideField_eq_iff (z := false) (dn := true)).1 hu
    rw [rawDat, ← hm]
    exact v1Form_eq_ok.2 ⟨p, false, ty, t1, hp, hs, ht, ite_eq_ok.2 ⟨by rw [← hz]; rfl, by rw [← hdn]; rfl⟩⟩
  | bcast p ty k t1 =>
    obtain ⟨hm, hp, hs, hu, ht⟩ := mkG_eq_iff.1 (Option.some.inj hw)
    obtain ⟨hz, rfl⟩ := bcastField_eq_iff.1 hu
    rw [rawDat, ← hm]
    exact v1Form_eq_ok.2 ⟨p, false, ty, t1, hp, hs, ht, need_eq_ok.2 ⟨beq_iff_eq.2 hz.symm, rfl⟩⟩
  | _ => cases hpl

end Planes
end Sys2Proof
end

section
/-!
SUPPORT. Decoding and encoding are inverse to one another (04 R95 to R107), and words written out from the tables of chapter 04.
-/
namespace Sys2Proof

theorem ite_wf_eq_ok {i j : Instr} {e : Reject} : (if j.wf then .ok j else .error e) = (.ok i : Except Reject Instr) ↔ j = i ∧ i.wf = true := by
  rw [ite_eq_ok, Except.ok.injEq, and_comm]
  exact and_congr_right (· ▸ Iff.rfl)

theorem decode_ctl_eq_ok {w : IWord} {i : Instr} : decode .ctl w = .ok i ↔ rawCtl w = .ok i ∧ i.wf = true := by
  cases h : rawCtl w with
  | error e => simp [decode, h]
  | ok j => simp [decode, h, ite_wf_eq_ok]

theorem decode_dat_eq_ok {w : IWord} {i : Instr} : decode .dat w = .ok i ↔ rawDat w = .ok i ∧ i.wf = true := by
  cases h : rawDat w with
  | error e => simp [decode, h]
  | ok j => simp [decode, h, ite_wf_eq_ok]

/-- A word decodes to an instruction exactly where it is the word of that instruction, which stands in the plane and is well formed. -/
theorem decode_eq_ok_iff {pl : Plane} {w : IWord} {i : Instr} : decode pl w = .ok i ↔ i.Encodes pl w ∧ i.wf = true := by
  cases pl with
  | ctl => exact decode_ctl_eq_ok.trans (and_congr_left' ⟨rawCtl_encodes, rawCtl_of_encodes⟩)
  | dat => exact decode_dat_eq_ok.trans (and_congr_left' ⟨rawDat_encodes, rawDat_of_encodes⟩)

/-- An instruction has a word exactly where it stands in a plane. -/
theorem encode_isSome (i : Instr) : (encode i).isSome = (i.inPlane .ctl || i.inPlane .dat) := by
  cases i <;> rfl

/-- Settles O54: decoding reads back every field of a word that the encoder wrote, and the instructions with a word are those of the two planes. -/
theorem decodeOfEncodeIsTheInstruction : Obligations.DecodeOfEncodeIsTheInstruction := by
  unfold Obligations.DecodeOfEncodeIsTheInstruction
  refine ⟨fun i w p hwf hw hp => decode_eq_ok_iff.2 ⟨⟨hw, hp⟩, hwf⟩, fun i _ hw => ?_, fun i hw p => ?_⟩
  · rw [encode_isSome, Bool.or_eq_true] at hw
    exact hw.elim (⟨.ctl, ·⟩) (⟨.dat, ·⟩)
  · rw [encode_isSome, Bool.or_eq_false_iff] at hw
    cases p
    · exact hw.1
    · exact hw.2

/-- Settles O55: a word that decodes is the word of what it decodes to, so it is the only one. -/
theorem encodeOfDecodeIsTheWord : Obligations.EncodeOfDecodeIsTheWord := by
  unfold Obligations.EncodeOfDecodeIsTheWord
  refine ⟨fun p w i h => ?_, fun p v w i hv hw => ?_⟩
  · obtain ⟨⟨henc, hplane⟩, hwf⟩ := decode_eq_ok_iff.1 h
    exact ⟨henc, hwf, hplane⟩
  · obtain ⟨⟨hencv, -⟩, -⟩ := decode_eq_ok_iff.1 hv
    obtain ⟨⟨hencw, -⟩, -⟩ := decode_eq_ok_iff.1 hw
    exact Option.some.inj (hencv.symm.trans hencw)

/-- Settles O53: each word of the tables, read in its plane. -/
theorem wordsDecodeAsTheSpecEncodesThem : Obligations.WordsDecodeAsTheSpecEncodesThem := by
  unfold Obligations.WordsDecodeAsTheSpecEncodesThem
  exact ⟨rfl, rfl, rfl, rfl, rfl, rfl, rfl, rfl, rfl, rfl, rfl, rfl⟩

end Sys2Proof
end

section
/-!
SUPPORT. Floating elements (06 R129, R130, R138, R140, 11 R253): the special operands of the element operations and of the transcendentals.
-/
namespace Sys2Proof.Machine

/-! ### The formats of the class F -/

/-- A format with infinities and NaNs whose elements have `w` bits (06 R129, R130): the all-ones exponent is above its largest finite value and holds its
canonical NaN. -/
structure FFmt.Ieee (f : FFmt) (w : Nat) : Prop where
  special : f.special = .ieee
  ebits_pos : 0 < f.ebits
  width : w = f.ebits + f.mbits + 1
  maxFin_lt : f.maxFin + 1 < 2 ^ (f.ebits + f.mbits)
  canonNan_lt : f.canonNan < 2 ^ (f.ebits + f.mbits)

theorem ffmt_ieee {ty : ElTy} {f : FFmt} (hty : ElTy.isF ty = true) (hf : ElTy.ffmt ty = some f) : f.Ieee (ElTy.width ty) := by
  cases ty with
  | f32 | f16 | bf16 => cases hf; exact ⟨rfl, by decide, rfl, by decide, by decide⟩
  | _ => cases hty

/-! ### Flushing an operand (06 R138) -/

/-- The bits of an operand as an operation reads them (06 R138). -/
def flush (f : FFmt) (ftz : Bool) (b : Nat) : Nat := if ftz then ftzBits f b else b

/-- Flushing keeps the value of an operand, or makes zero of a finite one. -/
theorem decode_ftzBits {f : FFmt} (he : 0 < f.ebits) (b : Nat) :
    f.decode (ftzBits f b) = f.decode b ∨ ∃ s m e, f.decode b = .fin s m e ∧ f.decode (ftzBits f b) = .fin s 0 e := by
  have htop : 2 ^ f.ebits - 1 ≠ 0 := Nat.sub_ne_zero_of_lt (Nat.one_lt_two_pow (Nat.ne_of_gt he))
  by_cases hex : b / 2 ^ f.mbits % 2 ^ f.ebits = 0
  · right
    have hsign : b / 2 ^ (f.ebits + f.mbits) % 2 * 2 ^ (f.ebits + f.mbits) / 2 ^ (f.ebits + f.mbits) % 2 = b / 2 ^ (f.ebits + f.mbits) % 2 := by
      rw [Nat.mul_div_cancel _ (Nat.two_pow_pos _), Nat.mod_mod]
    have hexp : b / 2 ^ (f.ebits + f.mbits) % 2 * 2 ^ (f.ebits + f.mbits) / 2 ^ f.mbits % 2 ^ f.ebits = 0 := by
      rw [Nat.pow_add, ← Nat.mul_assoc, Nat.mul_div_cancel _ (Nat.two_pow_pos _), Nat.mul_mod_left]
    have hman : b / 2 ^ (f.ebits + f.mbits) % 2 * 2 ^ (f.ebits + f.mbits) % 2 ^ f.mbits = 0 := by
      rw [Nat.pow_add, ← Nat.mul_assoc, Nat.mul_mod_left]
    refine ⟨b / 2 ^ (f.ebits + f.mbits) % 2 == 1, b % 2 ^ f.mbits, 1 - (f.bias : Int) - f.mbits, ?_, ?_⟩
    · simp only [FFmt.decode, hex, htop.symm, false_and, if_true, if_false]
    · simp only [FFmt.decode, ftzBits, hex, hsign, hexp, hman, htop.symm, false_and, if_true, if_false]
  · left
    rw [ftzBits, if_neg hex]

theorem decode_flush {f : FFmt} (he : 0 < f.ebits) (ftz : Bool) (b : Nat) :
    f.decode (flush f ftz b) = f.decode b ∨ ∃ s m e, f.decode b = .fin s m e ∧ f.decode (flush f ftz b) = .fin s 0 e := by
  cases ftz
  · exact .inl rfl
  · exact decode_ftzBits he b

theorem decode_flush_nan {f : FFmt} (he : 0 < f.ebits) (ftz : Bool) {b : Nat} (h : f.decode b = .nan) : f.decode (flush f ftz b) = .nan := by
  obtain hk | ⟨s, m, e, hb, -⟩ := decode_flush he ftz b
  · rw [hk, h]
  · cases h.symm.trans hb

theorem decode_flush_inf {f : FFmt} (he : 0 < f.ebits) (ftz : Bool) {b : Nat} {sg : Bool} (h : f.decode b = .inf sg) :
    f.decode (flush f ftz b) = .inf sg := by
  obtain hk | ⟨s, m, e, hb, -⟩ := decode_flush he ftz b
  · rw [hk, h]
  · cases h.symm.trans hb

theorem decode_flush_zero {f : FFmt} (he : 0 < f.ebits) (ftz : Bool) {b : Nat} {sg : Bool} {e : Int} (h : f.decode b = .fin sg 0 e) :
    f.decode (flush f ftz b) = .fin sg 0 e := by
  obtain hk | ⟨s, m, e', hb, hk⟩ := decode_flush he ftz b
  · rw [hk, h]
  · cases h.symm.trans hb
    exact hk

/-! ### Special operands (06 R130, R140) -/

@[simp] theorem Xv.nan_add (y : Xv) : Xv.nan.add y = (.nan, {}) := by cases y <;> rfl
@[simp] theorem Xv.add_nan (x : Xv) : x.add .nan = (.nan, {}) := by cases x <;> rfl
@[simp] theorem Xv.nan_mul (y : Xv) : Xv.nan.mul y = (.nan, {}) := by cases y <;> rfl
@[simp] theorem Xv.mul_nan (x : Xv) : x.mul .nan = (.nan, {}) := by cases x <;> rfl
@[simp] theorem Xv.neg_nan : Xv.nan.neg = .nan := rfl
@[simp] theorem Xv.nan_cmp (y : Xv) : Xv.nan.cmp y = none := by cases y <;> rfl
@[simp] theorem Xv.cmp_nan (x : Xv) : x.cmp .nan = none := by cases x <;> rfl

theorem Xv.add_inf_opposite (sg : Bool) : (Xv.inf sg).add (.inf (!sg)) = (.nan, { nv := true }) := by cases sg <;> rfl

/-- A NaN is rounded to the canonical NaN of a format with NaNs, without a flag. -/
theorem roundTo_nan {f : FFmt} (hs : f.special = .ieee) (o : ROpts) : roundTo f o .nan = (f.canonNan, {}) := by
  simp [roundTo, hs]

/-- What `add`, `sub` and `mul` make of an exact result and its flags: rounded once with `rne` (06 R140). -/
def roundedArith (f : FFmt) (ftz : Bool) (r : Xv × Flags) : Nat × Flags :=
  ((roundTo f { ftz := ftz } r.1).1, r.2.or (roundTo f { ftz := ftz } r.1).2)

theorem roundedArith_nan {f : FFmt} (hs : f.special = .ieee) (ftz : Bool) (fl : Flags) : roundedArith f ftz (.nan, fl) = (f.canonNan, fl) := by
  simp [roundedArith, roundTo_nan hs, Flags.or_empty]

theorem fltBin_add (f : FFmt) (ftz : Bool) (a b : Nat) :
    fltBin .add f ftz a b = roundedArith f ftz ((f.decode (flush f ftz a)).add (f.decode (flush f ftz b))) := rfl
theorem fltBin_sub (f : FFmt) (ftz : Bool) (a b : Nat) :
    fltBin .sub f ftz a b = roundedArith f ftz ((f.decode (flush f ftz a)).add (f.decode (flush f ftz b)).neg) := rfl
theorem fltBin_mul (f : FFmt) (ftz : Bool) (a b : Nat) :
    fltBin .mul f ftz a b = roundedArith f ftz ((f.decode (flush f ftz a)).mul (f.decode (flush f ftz b))) := rfl

theorem fltMin_of_unordered {f : FFmt} {a b : Nat} (h : (f.decode a).cmp (f.decode b) = none) (isMin : Bool) : fltMin isMin f a b = f.canonNan := by
  simp [fltMin, h]

/-- `add`, `sub`, `mul`, `min` and `max` of operands of which one is a NaN give the canonical NaN. -/
theorem fltBin_nan {f : FFmt} {w : Nat} (hf : f.Ieee w) {op : BinOp} (hop : op ∈ [BinOp.add, .sub, .mul, .min, .max]) (ftz : Bool) {a b : Nat}
    (h : f.decode a = .nan ∨ f.decode b = .nan) : (fltBin op f ftz a b).1 = f.canonNan := by
  have hnan : f.decode (flush f ftz a) = .nan ∨ f.decode (flush f ftz b) = .nan :=
    h.imp (decode_flush_nan hf.ebits_pos ftz) (decode_flush_nan hf.ebits_pos ftz)
  have hcmp : (f.decode (flush f ftz a)).cmp (f.decode (flush f ftz b)) = none := by rcases hnan with h | h <;> simp [h]
  have hround (r : Xv × Flags) (hr : r = (.nan, {})) : (roundedArith f ftz r).1 = f.canonNan := by rw [hr, roundedArith_nan hf.special]
  cases op with
  | add =>
    rw [fltBin_add]
    exact hround _ (by rcases hnan with h | h <;> simp [h])
  | sub =>
    rw [fltBin_sub]
    exact hround _ (by rcases hnan with h | h <;> simp [h])
  | mul =>
    rw [fltBin_mul]
    exact hround _ (by rcases hnan with h | h <;> simp [h])
  | min | max => exact fltMin_of_unordered hcmp _
  | and | or | xor => simp at hop

theorem fltBin_add_inf_opposite {f : FFmt} {w : Nat} (hf : f.Ieee w) (ftz : Bool) {a b : Nat} {sg : Bool} (ha : f.decode a = .inf sg)
    (hb : f.decode b = .inf (!sg)) : fltBin .add f ftz a b = (f.canonNan, { nv := true }) := by
  rw [fltBin_add, decode_flush_inf hf.ebits_pos ftz ha, decode_flush_inf hf.ebits_pos ftz hb, Xv.add_inf_opposite, roundedArith_nan hf.special]

theorem fltBin_mul_inf_zero {f : FFmt} {w : Nat} (hf : f.Ieee w) (ftz : Bool) {a b : Nat} {sg sg' : Bool} {e : Int} (ha : f.decode a = .inf sg)
    (hb : f.decode b = .fin sg' 0 e) :
    fltBin .mul f ftz a b = (f.canonNan, { nv := true }) ∧ fltBin .mul f ftz b a = (f.canonNan, { nv := true }) := by
  rw [fltBin_mul, fltBin_mul, decode_flush_inf hf.ebits_pos ftz ha, decode_flush_zero hf.ebits_pos ftz hb]
  exact ⟨roundedArith_nan hf.special ftz _, roundedArith_nan hf.special ftz _⟩

/-- The root, the reciprocal root and the logarithm of a negative finite value that is not zero (11 R253). -/
theorem transElem_negative {t : TFun} (ht : t ∈ [TFun.rsq, .sqrt, .log2]) {ftz : Bool} {m : Nat} {e : Int} {a : Nat}
    (ha : (if ftz then ftzBits f32Fmt a else a) = a) (hd : f32Fmt.decode a = .fin true m e) (hm : m ≠ 0) :
    transElem t ftz a = (0x7FC00000, { nv := true }) := by
  simp only [transElem, ha, hd, if_neg hm]
  cases t with
  | rsq | sqrt | log2 => rfl
  | rcp | exp2 => simp at ht

/-- Settles O33: flushing keeps NaNs, infinities and zeros, so the special operands reach the exact operations; the entries of the table of R253 are
evaluated with and without `.ftz`. -/
theorem floatingSpecialResults : Obligations.FloatingSpecialResults := by
  unfold Obligations.FloatingSpecialResults
  refine ⟨fun ty f ftz op a b hty hf hop hnan => fltBin_nan (ffmt_ieee hty hf) hop ftz hnan,
    fun ty f ftz sg a b hty hf ha hb => fltBin_add_inf_opposite (ffmt_ieee hty hf) ftz ha hb,
    fun ty f ftz sg sg' e a b hty hf ha hb => fltBin_mul_inf_zero (ffmt_ieee hty hf) ftz ha hb,
    fun ftz => ⟨?_, ?_, ?_, ?_, ?_, fun t ht m e a ha hd hm => transElem_negative ht ha hd hm⟩⟩
  all_goals cases ftz <;> rfl

end Sys2Proof.Machine
end

section
/-!
SUPPORT. The combine step of reductions and scans (06 R148): the model's element operations are the ones of R128 and R140 on the elements of a type, and
their results are elements of it.
-/
namespace Sys2Proof.Machine

/-! ### Rounded results fit the format (06 R134, R135, R138, R140) -/

theorem FFmt.Ieee.two_mul {f : FFmt} {w : Nat} (hf : f.Ieee w) : 2 ^ w = 2 ^ (f.ebits + f.mbits) + 2 ^ (f.ebits + f.mbits) := by
  rw [hf.width, Nat.pow_succ, Nat.mul_two]

theorem FFmt.Ieee.signed_lt {f : FFmt} {w : Nat} (hf : f.Ieee w) {n : Nat} (hn : n ≤ f.maxFin + 1) (neg : Bool) :
    n + (if neg then 2 ^ (f.ebits + f.mbits) else 0) < 2 ^ w := by
  have := hf.two_mul
  have := hf.maxFin_lt
  split <;> omega

theorem FFmt.Ieee.canonNan_fits {f : FFmt} {w : Nat} (hf : f.Ieee w) : f.canonNan < 2 ^ w := by
  have := hf.two_mul
  have := hf.canonNan_lt
  omega

theorem overflowResult_lt {f : FFmt} {w : Nat} (hf : f.Ieee w) (o : ROpts) (neg : Bool) : (overflowResult f o neg).1 < 2 ^ w := by
  have hmax := hf.signed_lt (Nat.le_succ f.maxFin) neg
  have hinf := hf.signed_lt (Nat.le_refl (f.maxFin + 1)) neg
  have hpick (p : Prop) [Decidable p] (x y : Nat × Flags) (hx : x.1 < 2 ^ w) (hy : y.1 < 2 ^ w) : (if p then x else y).1 < 2 ^ w := by
    split <;> assumption
  simp only [overflowResult, hf.special]
  exact hpick _ _ _ hmax (hpick _ _ _ hmax hinf)

/-- A finite result packed with its sign, or what stands for it where it overflows or is flushed. -/
theorem packed_lt {f : FFmt} {w : Nat} (hf : f.Ieee w) (o : ROpts) (neg : Bool) (bits : Int) (flushes : Bool) (fl fl' : Flags) :
    (if (f.maxFin : Int) < bits then overflowResult f o neg
      else if flushes then (if neg then 2 ^ (f.ebits + f.mbits) else 0, fl)
      else (bits.toNat + (if neg then 2 ^ (f.ebits + f.mbits) else 0), fl')).1 < 2 ^ w := by
  split
  · exact overflowResult_lt hf o neg
  · cases flushes
    · exact hf.signed_lt (by omega) neg
    · exact Nat.zero_add (if neg then 2 ^ (f.ebits + f.mbits) else 0) ▸ hf.signed_lt (Nat.zero_le _) neg

theorem roundFin_lt {f : FFmt} {w : Nat} (hf : f.Ieee w) (o : ROpts) (neg : Bool) (m : Nat) (e : Int) (st : Bool) :
    (roundFin f o neg m e st).1 < 2 ^ w := by
  by_cases hm : m = 0
  · simp only [roundFin, hm, if_true]
    exact Nat.zero_add (if neg then 2 ^ (f.ebits + f.mbits) else 0) ▸ hf.signed_lt (Nat.zero_le _) neg
  · simp only [roundFin, if_neg hm]
    exact packed_lt hf o neg _ _ _ _

theorem roundTo_lt {f : FFmt} {w : Nat} (hf : f.Ieee w) (o : ROpts) (x : Xv) (st : Bool) : (roundTo f o x st).1 < 2 ^ w := by
  cases x with
  | nan =>
    simp only [roundTo, hf.special]
    exact hf.canonNan_fits
  | inf neg =>
    simp only [roundTo, hf.special]
    split
    · exact hf.signed_lt (Nat.le_succ _) neg
    · exact hf.signed_lt (Nat.le_refl _) neg
  | fin neg m e => exact roundFin_lt hf o neg m e st

theorem flush_lt {f : FFmt} {w : Nat} (hf : f.Ieee w) (ftz : Bool) {b : Nat} (hb : b < 2 ^ w) : flush f ftz b < 2 ^ w := by
  have hbit : b / 2 ^ (f.ebits + f.mbits) % 2 * 2 ^ (f.ebits + f.mbits) ≤ 1 * 2 ^ (f.ebits + f.mbits) := Nat.mul_le_mul_right _ (by omega)
  have := hf.two_mul
  have := Nat.two_pow_pos (f.ebits + f.mbits)
  cases ftz
  · exact hb
  · simp only [flush, ftzBits, if_true]
    split <;> omega

theorem fltMin_lt {f : FFmt} {w : Nat} (hf : f.Ieee w) (isMin : Bool) {a b : Nat} (ha : a < 2 ^ w) (hb : b < 2 ^ w) : fltMin isMin f a b < 2 ^ w := by
  have hnan := hf.canonNan_fits
  simp only [fltMin]
  split
  · exact hnan
  all_goals (repeat' split) <;> assumption

/-- The combine steps on floating elements keep to the bits of the format. -/
theorem fltBin_lt {f : FFmt} {w : Nat} (hf : f.Ieee w) {op : BinOp} (hop : op ∈ [BinOp.add, .min, .max]) (ftz : Bool) {a b : Nat} (ha : a < 2 ^ w)
    (hb : b < 2 ^ w) : (fltBin op f ftz a b).1 < 2 ^ w := by
  cases op with
  | add => exact roundTo_lt hf _ _ _
  | min | max => exact fltMin_lt hf _ (flush_lt hf ftz ha) (flush_lt hf ftz hb)
  | sub | mul | and | or | xor => simp at hop

/-! ### Integer elements (06 R127, R128) -/

theorem bitsOfInt_ofNat {w n : Nat} (h : n < 2 ^ w) : bitsOfInt w n = n := by
  rw [bitsOfInt]
  exact_mod_cast Nat.mod_eq_of_lt h

/-- The value of an element is congruent to its bits. -/
theorem laneInt_emod (ty : ElTy) (b : Nat) : laneInt ty b % (2 ^ ElTy.width ty : Int) = (b : Int) % (2 ^ ElTy.width ty : Int) := by
  unfold laneInt
  split
  · rw [BitVec.toInt_eq_toNat_bmod, BitVec.toNat_ofNat]
    have := @Int.bmod_emod ((b % 2 ^ ElTy.width ty : Nat) : Int) (2 ^ ElTy.width ty)
    push_cast at this ⊢
    rw [this, Int.emod_emod]
  · rfl

theorem bitsOfInt_laneInt {ty : ElTy} {b : Nat} (h : b < 2 ^ ElTy.width ty) : bitsOfInt (ElTy.width ty) (laneInt ty b) = b := by
  rw [bitsOfInt, laneInt_emod]
  exact bitsOfInt_ofNat h

theorem bitsOfInt_laneInt_add (ty : ElTy) (a b : Nat) : bitsOfInt (ElTy.width ty) (laneInt ty a + laneInt ty b) = (a + b) % 2 ^ ElTy.width ty := by
  rw [bitsOfInt, Int.add_emod, laneInt_emod, laneInt_emod, ← Int.add_emod]
  exact_mod_cast rfl

theorem intOfBits_eq_laneInt {ty : ElTy} {b : Nat} (h : b < 2 ^ ElTy.width ty) : intOfBits (ElTy.signed ty) (ElTy.width ty) b = laneInt ty b := by
  have hw : 2 ^ ElTy.width ty = 2 * 2 ^ (ElTy.width ty - 1) := by cases ty <;> rfl
  unfold intOfBits laneInt
  cases ElTy.signed ty
  · simp
  · rw [BitVec.toInt_eq_toNat_cond, BitVec.toNat_ofNat, Nat.mod_eq_of_lt h]
    simp only [Bool.true_and, decide_eq_true_eq, if_true, Int.natCast_pow, Int.cast_ofNat_Int]
    split <;> split <;> omega

theorem intResult_wrap (ty : ElTy) (v : Int) : (intResult ty false v).1 = bitsOfInt (ElTy.width ty) v := rfl

theorem intMin_le_intMax (signed : Bool) (w : Nat) : intMin signed w ≤ intMax signed w := by
  have h1 : (0 : Int) < 2 ^ (w - 1) := Int.pow_pos (by decide)
  have h2 : (0 : Int) < 2 ^ w := Int.pow_pos (by decide)
  cases signed <;> simp only [intMin, intMax, Bool.false_eq_true, if_false, if_true] <;> omega

theorem bitsOfInt_eq_ofInt (w : Nat) (v : Int) : bitsOfInt w v = (BitVec.ofInt w v).toNat := by
  rw [BitVec.toNat_ofInt, bitsOfInt]
  norm_cast

theorem clamped_eq (ty : ElTy) (v : Int) :
    (clamped ty v).1 = bitsOfInt (ElTy.width ty) (max (intMin (ElTy.signed ty) (ElTy.width ty)) (min (intMax (ElTy.signed ty) (ElTy.width ty)) v)) := by
  rw [bitsOfInt_eq_ofInt]
  rfl

theorem intResult_sat (ty : ElTy) (v : Int) : (intResult ty true v).1 = (clamped ty v).1 := by
  have hle := intMin_le_intMax (ElTy.signed ty) (ElTy.width ty)
  rw [clamped_eq]
  simp only [intResult, Bool.true_and, Bool.or_eq_true, decide_eq_true_eq]
  split
  · exact congrArg (bitsOfInt _) (by split <;> omega)
  · exact congrArg (bitsOfInt _) (by omega)

/-! ### The combine step (06 R148) -/

/-- On elements below `B`, the values of `f` are those of `g` and stay below `B`. -/
structure Combines (f : Nat → Nat → Nat × Flags) (g : Nat → Nat → Nat) (B : Nat) : Prop where
  eq : ∀ {a b}, a < B → b < B → (f a b).1 = g a b
  lt : ∀ {a b}, a < B → b < B → g a b < B

/-- The operations of the reductions in the order of their codes (04 R106). -/
theorem redOp_eq_getD (op : BitVec 3) (h : op.toNat < 6) : redOp op = ([.add, .min, .max, .and, .or, .xor] : List BinOp).getD op.toNat .add := by
  revert op
  decide

theorem identities_length_float {ty : ElTy} (h : ElTy.isF ty = true) : (identities ty).length = 3 := by
  cases ty with
  | f32 | f16 | bf16 => rfl
  | _ => cases h

theorem identities_length_int {ty : ElTy} (h : ElTy.isI ty = true) : (identities ty).length = 6 := by
  cases ty with
  | s8 | s16 | s32 | n8 | n16 | n32 => rfl
  | _ => cases h

/-- The model's identity of an operation is the one of the table of R148, and an element of its type. -/
theorem identities_eq_redId {ty : ElTy} {op : BitVec 3} {id : Nat} (h : (identities ty)[op.toNat]? = some id) :
    redId (redOp op) ty = id ∧ id < 2 ^ ElTy.width ty := by
  have hall : ∀ op : BitVec 3, ∀ id ∈ (identities ty)[op.toNat]?, redId (redOp op) ty = id ∧ id < 2 ^ ElTy.width ty := by
    cases ty <;> decide
  exact hall op id h

theorem combines_float {ty : ElTy} (hty : ElTy.isF ty = true) (md : Bool) {op : BitVec 3} (hop : op.toNat < 3) :
    Combines (elemBin (redOp op) ty md) (combineOf ty md op.toNat) (2 ^ ElTy.width ty) := by
  obtain ⟨f, hf⟩ : ∃ f, ElTy.ffmt ty = some f := by
    cases ty with
    | f32 | f16 | bf16 => exact ⟨_, rfl⟩
    | _ => cases hty
  have hcode : redOp op = ([.add, .min, .max] : List BinOp).getD op.toNat .add ∧ redOp op ∈ [BinOp.add, .min, .max] := by
    revert op
    decide
  have hc (a b : Nat) : combineOf ty md op.toNat a b = (fltBin (redOp op) f md a b).1 := by rw [hcode.1]; simp only [combineOf, hf]
  refine ⟨fun {a b} _ _ => ?_, fun {a b} ha hb => ?_⟩
  · rw [hc]
    simp only [elemBin, hf]
  · rw [hc]
    exact fltBin_lt (ffmt_ieee hty hf) hcode.2 md ha hb

/-- The combine step of the integer operations without `.sat`: the bits of the exact result (06 R128). -/
theorem elemBin_int {ty : ElTy} (hf : ElTy.ffmt ty = none) (op : BinOp) (md : Bool) {a b : Nat} (ha : a < 2 ^ ElTy.width ty)
    (hb : b < 2 ^ ElTy.width ty) :
    elemBin op ty md a b = intResult ty md (intBin op (laneInt ty a) (laneInt ty b) (ElTy.width ty)) := by
  simp only [elemBin, hf, intOfBits_eq_laneInt ha, intOfBits_eq_laneInt hb]

theorem combineOf_int_lt {ty : ElTy} (hf : ElTy.ffmt ty = none) (md : Bool) {n : Nat} (hn : n < 6) {a b : Nat} (ha : a < 2 ^ ElTy.width ty)
    (hb : b < 2 ^ ElTy.width ty) : combineOf ty md n a b < 2 ^ ElTy.width ty := by
  have hpick (p : Prop) [Decidable p] (x y : Nat) (hx : x < 2 ^ ElTy.width ty) (hy : y < 2 ^ ElTy.width ty) :
      (if p then x else y) < 2 ^ ElTy.width ty := by
    split <;> assumption
  simp only [combineOf, hf]
  match n, hn with
  | 0, _ => exact hpick _ _ _ (BitVec.isLt _) (Nat.mod_lt _ (Nat.two_pow_pos _))
  | 1, _ => exact hpick _ _ _ ha hb
  | 2, _ => exact hpick _ _ _ hb ha
  | 3, _ => exact Nat.and_lt_two_pow a hb
  | 4, _ => exact Nat.or_lt_two_pow ha hb
  | 5, _ => exact Nat.xor_lt_two_pow ha hb

/-- The integer operation of each code, on elements: only `sum` clamps. -/
theorem elemBin_eq_combineOf_int {ty : ElTy} (hf : ElTy.ffmt ty = none) {md : Bool} {n : Nat} (hn : n < 6) (hmd : n ≠ 0 → md = false) {a b : Nat}
    (ha : a < 2 ^ ElTy.width ty) (hb : b < 2 ^ ElTy.width ty) :
    (elemBin (([.add, .min, .max, .and, .or, .xor] : List BinOp).getD n .add) ty md a b).1 = combineOf ty md n a b := by
  have hla := bitsOfInt_laneInt ha
  have hlb := bitsOfInt_laneInt hb
  rw [elemBin_int hf _ _ ha hb]
  match n, hn with
  | 0, _ =>
    cases md
    · simpa [combineOf, hf, intBin, intResult_wrap] using bitsOfInt_laneInt_add ty a b
    · simpa [combineOf, hf, intBin] using intResult_sat ty (laneInt ty a + laneInt ty b)
  | 1, _ | 2, _ =>
    rw [hmd (by decide), intResult_wrap]
    simp [combineOf, hf, intBin, apply_ite (bitsOfInt _), hla, hlb]
  | 3, _ =>
    rw [hmd (by decide), intResult_wrap]
    simpa [combineOf, hf, intBin, hla, hlb] using bitsOfInt_ofNat (Nat.and_lt_two_pow a hb)
  | 4, _ =>
    rw [hmd (by decide), intResult_wrap]
    simpa [combineOf, hf, intBin, hla, hlb] using bitsOfInt_ofNat (Nat.or_lt_two_pow ha hb)
  | 5, _ =>
    rw [hmd (by decide), intResult_wrap]
    simpa [combineOf, hf, intBin, hla, hlb] using bitsOfInt_ofNat (Nat.xor_lt_two_pow ha hb)

theorem combines_int {ty : ElTy} (hty : ElTy.isI ty = true) {md : Bool} {op : BitVec 3} (hop : op.toNat < 6) (hmd : md = true → op = 0) :
    Combines (elemBin (redOp op) ty md) (combineOf ty md op.toNat) (2 ^ ElTy.width ty) := by
  have hf : ElTy.ffmt ty = none := by
    cases ty with
    | s8 | s16 | s32 | n8 | n16 | n32 => rfl
    | _ => cases hty
  have hwrap (h : op.toNat ≠ 0) : md = false := Bool.eq_false_iff.2 fun hm => h (congrArg BitVec.toNat (hmd hm))
  rw [redOp_eq_getD op hop]
  exact ⟨elemBin_eq_combineOf_int hf hop hwrap, combineOf_int_lt hf md hop⟩

/-- The combine step of the model is the one of R148. -/
theorem combines_redOp {ty : ElTy} (hty : ElTy.isI ty = true ∨ ElTy.isF ty = true) {md : Bool} {op : BitVec 3}
    (hmd : md = true → op = 0 ∨ ElTy.isF ty = true) (hop : op.toNat < (identities ty).length) :
    Combines (elemBin (redOp op) ty md) (combineOf ty md op.toNat) (2 ^ ElTy.width ty) := by
  by_cases h : ElTy.isF ty = true
  · rw [identities_length_float h] at hop
    exact combines_float h md hop
  · have hi := hty.resolve_right h
    rw [identities_length_int hi] at hop
    exact combines_int hi hop fun hm => (hmd hm).resolve_right h

end Sys2Proof.Machine
end

section
/-!
SUPPORT. The order in which reductions and scans combine (06 R149, R150), and the tokens that they send (11 R254, R255).
-/
namespace Sys2Proof.Machine

/-- The values of a combine step, without its flags. -/
def valuesOf (f : Nat → Nat → Nat × Flags) (a b : Nat) : Nat := (f a b).1

/-! ### The tree of a beat (06 R149) -/

/-- A level of the tree combines neighbours. -/
theorem treeLevel_values (f : Nat → Nat → Nat × Flags) (m : Nat) (x : Nat → Nat) (l : List (Nat × Nat))
    (h : l.map Prod.snd = (List.range (2 * m)).map x) :
    (treeLevel f l).1.map Prod.snd = (List.range m).map fun j => valuesOf f (x (2 * j)) (x (2 * j + 1)) := by
  induction m generalizing x l with
  | zero =>
    rw [List.map_eq_nil_iff.1 h]
    rfl
  | succ m ih =>
    have hr : (List.range (2 * (m + 1))).map x = x 0 :: x 1 :: (List.range (2 * m)).map fun j => x (j + 2) := by
      rw [Nat.mul_succ, List.range_succ_eq_map, List.range_succ_eq_map]
      simp [Function.comp_def]
    rw [hr] at h
    obtain ⟨⟨p, _⟩, l', rfl, rfl, h'⟩ := List.map_eq_cons_iff.1 h
    obtain ⟨⟨q, _⟩, r, rfl, rfl, hr⟩ := List.map_eq_cons_iff.1 h'
    rw [List.range_succ_eq_map]
    simpa [treeLevel, valuesOf, Function.comp_def, Nat.mul_add, Nat.add_right_comm] using ih _ r hr

/-- The levels of a tree on combined neighbours are the levels of the tree above its first. -/
theorem treeOf_pairs (g : Nat → Nat → Nat) (x : Nat → Nat) (k j : Nat) :
    treeOf g (fun i => g (x (2 * i)) (x (2 * i + 1))) k j = treeOf g x (k + 1) j := by
  induction k generalizing j with
  | zero => rfl
  | succ k ih =>
    rw [treeOf, ih, ih]
    rfl

/-- `k` levels leave one value of 2^k. -/
theorem treeLevels_values (f : Nat → Nat → Nat × Flags) (k : Nat) (x : Nat → Nat) (l : List (Nat × Nat))
    (h : l.map Prod.snd = (List.range (2 ^ k)).map x) : (treeLevels f k l).1.map Prod.snd = [treeOf (valuesOf f) x k 0] := by
  induction k generalizing x l with
  | zero => exact h
  | succ k ih =>
    rw [Nat.pow_succ'] at h
    rw [← treeOf_pairs]
    exact ih _ _ (treeLevel_values f _ x l h)

/-- The trees of the beats of `2^k` elements, of beat 0 and of `m` more, combined in ascending order. -/
def treesOf (g : Nat → Nat → Nat) (x : Nat → Nat) (k m : Nat) : Nat :=
  (List.range m).foldl (fun acc b => g acc (treeOf g (fun j => x (2 ^ k * (b + 1) + j)) k 0)) (treeOf g x k 0)

theorem treesOf_succ (g : Nat → Nat → Nat) (x : Nat → Nat) (k m : Nat) :
    treesOf g x k (m + 1) = g (treesOf g x k m) (treeOf g (fun j => x (2 ^ k * (m + 1) + j)) k 0) := by
  rw [treesOf, List.range_succ, List.foldl_append]
  rfl

/-! ### The running values of a beat (06 R150) -/

/-- A step of distance `d` combines each value with the one `d` below it. -/
theorem scanStep_values (f : Nat → Nat → Nat × Flags) (base d n : Nat) (y : Nat → Nat) :
    (scanStep f base d ((List.range n).map y)).1 = (List.range n).map fun j => if j < d then y j else valuesOf f (y (j - d)) (y j) := by
  refine List.ext_getElem (by simp [scanStep]) fun j hj _ => ?_
  simp only [scanStep, List.length_map, List.length_zipIdx, List.length_range] at hj
  by_cases h : j < d
  · simp [scanStep, h]
  · have hlt : j - d < n := by omega
    simp [scanStep, h, valuesOf, hlt]

/-- The steps of a beat from its running values at distance 2^i. -/
theorem scanSteps_values (f : Nat → Nat → Nat × Flags) (base n k i : Nat) (x : Nat → Nat) :
    (scanSteps f base k (2 ^ i) ((List.range n).map (scanOf (valuesOf f) x i))).1 = (List.range n).map (scanOf (valuesOf f) x (i + k)) := by
  induction k generalizing i with
  | zero => rfl
  | succ k ih =>
    have hstep := scanStep_values f base (2 ^ i) n (scanOf (valuesOf f) x i)
    simp only [scanSteps, hstep, ← Nat.pow_succ']
    rw [Nat.add_succ, ← Nat.succ_add]
    exact ih (i + 1)

/-! ### The carry across the beats (06 R150) -/

/-- Element `e` of an inclusive scan with `2^k` elements a beat: the carry of the beats before combined with the running value in its beat. -/
def inclusiveOf (g : Nat → Nat → Nat) (x : Nat → Nat) (k id e : Nat) : Nat :=
  g (carryOf g x k id (e / 2 ^ k)) (scanOf g (fun j => x (2 ^ k * (e / 2 ^ k) + j)) k (e % 2 ^ k))

theorem inclusiveOf_at (g : Nat → Nat → Nat) (x : Nat → Nat) (k id b : Nat) {j : Nat} (hj : j < 2 ^ k) :
    inclusiveOf g x k id (2 ^ k * b + j) = g (carryOf g x k id b) (scanOf g (fun j => x (2 ^ k * b + j)) k j) := by
  rw [inclusiveOf, Nat.mul_add_div (Nat.two_pow_pos k), Nat.div_eq_of_lt hj, Nat.mul_add_mod, Nat.mod_eq_of_lt hj, Nat.add_zero]

/-- The beats from `b` on, with the carry into beat `b`, give the elements of the scan from there on. -/
theorem scanCarry_values (f : Nat → Nat → Nat × Flags) (x : Nat → Nat) (k id m b : Nat) :
    (scanCarry f (carryOf (valuesOf f) x k id b)
        ((List.range' b m).map fun b => (List.range (2 ^ k)).map (scanOf (valuesOf f) (fun j => x (2 ^ k * b + j)) k))).1
      = (List.range' (2 ^ k * b) (2 ^ k * m)).map (inclusiveOf (valuesOf f) x k id) := by
  induction m generalizing b with
  | zero => rfl
  | succ m ih =>
    have hbeat : ((List.range (2 ^ k)).map (scanOf (valuesOf f) (fun j => x (2 ^ k * b + j)) k)).map (fun y => (f (carryOf (valuesOf f) x k id b) y).1)
        = (List.range' (2 ^ k * b) (2 ^ k)).map (inclusiveOf (valuesOf f) x k id) := by
      rw [List.range'_eq_map_range, List.map_map, List.map_map]
      exact List.map_congr_left fun j hj => (inclusiveOf_at (valuesOf f) x k id b (List.mem_range.1 hj)).symm
    have hlast (d : Nat) : ((List.range' (2 ^ k * b) (2 ^ k)).map (inclusiveOf (valuesOf f) x k id)).getLastD d
        = carryOf (valuesOf f) x k id (b + 1) := by
      rw [List.getLastD_eq_getLast?, List.range'_eq_map_range, List.getLast?_map, List.getLast?_map, List.getLast?_range,
        if_neg (Nat.ne_of_gt (Nat.two_pow_pos k)), Option.map_some, Option.map_some, Option.getD_some,
        inclusiveOf_at _ x k id b (Nat.sub_lt (Nat.two_pow_pos k) Nat.one_pos)]
      rfl
    rw [List.range'_succ, List.map_cons, scanCarry]
    simp only [List.map_map, Function.comp_def] at hbeat ⊢
    rw [hbeat, hlast, ih, ← List.map_append, Nat.mul_succ, Nat.mul_succ, Nat.add_comm (2 ^ k * m), ← List.range'_append_1]

/-! ### Elements below a bound -/

section
variable {f : Nat → Nat → Nat × Flags} {g : Nat → Nat → Nat} {B : Nat} {x : Nat → Nat}

theorem Combines.treeOf_eq (h : Combines f g B) (hx : ∀ j, x j < B) (k j : Nat) :
    treeOf (valuesOf f) x k j = treeOf g x k j ∧ treeOf g x k j < B := by
  induction k generalizing j with
  | zero => exact ⟨rfl, hx j⟩
  | succ k ih =>
    obtain ⟨hl, hl'⟩ := ih (2 * j)
    obtain ⟨hr, hr'⟩ := ih (2 * j + 1)
    rw [treeOf, treeOf, hl, hr]
    exact ⟨h.eq hl' hr', h.lt hl' hr'⟩

theorem Combines.scanOf_eq (h : Combines f g B) (hx : ∀ j, x j < B) (k j : Nat) :
    scanOf (valuesOf f) x k j = scanOf g x k j ∧ scanOf g x k j < B := by
  induction k generalizing j with
  | zero => exact ⟨rfl, hx j⟩
  | succ k ih =>
    obtain ⟨hl, hl'⟩ := ih (j - 2 ^ k)
    obtain ⟨hr, hr'⟩ := ih j
    rw [scanOf, scanOf, hl, hr]
    split
    · exact ⟨rfl, hr'⟩
    · exact ⟨h.eq hl' hr', h.lt hl' hr'⟩

theorem Combines.carryOf_eq (h : Combines f g B) (hx : ∀ j, x j < B) {id : Nat} (hid : id < B) (k b : Nat) :
    carryOf (valuesOf f) x k id b = carryOf g x k id b ∧ carryOf g x k id b < B := by
  induction b with
  | zero => exact ⟨rfl, hid⟩
  | succ b ih =>
    obtain ⟨hc, hc'⟩ := ih
    obtain ⟨hs, hs'⟩ := h.scanOf_eq (x := fun j => x (2 ^ k * b + j)) (fun _ => hx _) k (2 ^ k - 1)
    rw [carryOf, carryOf, hc, hs]
    exact ⟨h.eq hc' hs', h.lt hc' hs'⟩

theorem Combines.inclusiveOf_eq (h : Combines f g B) (hx : ∀ j, x j < B) {id : Nat} (hid : id < B) (k e : Nat) :
    inclusiveOf (valuesOf f) x k id e = inclusiveOf g x k id e ∧ inclusiveOf g x k id e < B := by
  obtain ⟨hc, hc'⟩ := h.carryOf_eq hx hid k (e / 2 ^ k)
  obtain ⟨hs, hs'⟩ := h.scanOf_eq (x := fun j => x (2 ^ k * (e / 2 ^ k) + j)) (fun _ => hx _) k (e % 2 ^ k)
  rw [inclusiveOf, inclusiveOf, hc, hs]
  exact ⟨h.eq hc' hs', h.lt hc' hs'⟩

theorem Combines.treesOf_eq (h : Combines f g B) (hx : ∀ j, x j < B) (k m : Nat) :
    treesOf (valuesOf f) x k m = treesOf g x k m ∧ treesOf g x k m < B := by
  induction m with
  | zero => exact h.treeOf_eq hx k 0
  | succ m ih =>
    obtain ⟨hl, hl'⟩ := ih
    obtain ⟨hr, hr'⟩ := h.treeOf_eq (x := fun j => x (2 ^ k * (m + 1) + j)) (fun _ => hx _) k 0
    rw [treesOf_succ, treesOf_succ, hl, hr]
    exact ⟨h.eq hl' hr', h.lt hl' hr'⟩

end

/-! ### Tokens -/

/-- A token packed from the first `n` elements of a list holds them and zeros above. -/
theorem holds_pack_take {w n : Nat} {l : List Nat} {g : Nat → Nat} (h : ∀ e, e < n → l[e]? = some (g e) ∧ g e < 2 ^ w) :
    Holds (pack w (l.take n)) w n g := by
  intro e he
  rw [elem_pack _ he, List.getElem?_take]
  split
  · next hn => rw [(h e hn).1, Option.getD_some, Nat.mod_eq_of_lt (h e hn).2]
  · exact Nat.zero_mod _

/-- A token packed from one value repeated holds it and zeros above. -/
theorem holds_pack_replicate {w n v u : Nat} (h : n ≠ 0 → v = u ∧ u < 2 ^ w) : Holds (pack w (List.replicate n v)) w n fun _ => u := by
  have htake : Holds (pack w ((List.replicate n v).take n)) w n fun _ => u := holds_pack_take fun e he => by
    obtain ⟨rfl, hlt⟩ := h (Nat.ne_zero_of_lt he)
    exact ⟨List.getElem?_replicate_of_lt he, hlt⟩
  rwa [List.take_replicate, Nat.min_self] at htake

/-- No flag is enabled. -/
theorem enabledIn_of_none {fpst : BitVec 13} (h : fpst.extractLsb' 8 5 = 0) (fl : Flags) : enabledIn fpst fl = 0 := by
  rw [enabledIn, h]
  exact BitVec.and_zero

/-- A governed form sends its token where no flag is enabled, whatever flags it raises. -/
theorem vecSome_of_govVec {i : Instr} {f : VCtx → VWord → VWord → BitVec 32 → VRes} {res : VCtx → VWord → VWord → VWord → Prop}
    (hi : ∀ s, exec i s = govVec (info i) f s) (hres : ∀ c l r lf, res c l r (f c l r lf).lo) : VecSome i res := by
  intro s cu b sl l r x hready hx hwaits hnone
  refine ⟨_, flagUnion (f (s.seen b x).vctx l.bits r.bits (b.lfsr.getD x.fx.lfsr)).fl, hres _ _ _ (b.lfsr.getD x.fx.lfsr), ?_⟩
  rw [hi, govVec, vecOp_ready hready hx hwaits, Blk.vecDone, enabledIn_of_none hnone]
  rfl

/-! ### The operations on tokens (11 R254, R255) -/

theorem two_pow_beatLog {ty : ElTy} (hty : ElTy.isI ty = true ∨ ElTy.isF ty = true) : 1024 / ElTy.width ty = 2 ^ beatLog ty := by
  cases ty with
  | s8 | s16 | s32 | n8 | n16 | n32 | f32 | f16 | bf16 => rfl
  | _ => simp [ElTy.isI, ElTy.isF] at hty

/-- The granted elements lie in the beats of the granted length. -/
theorem n_le_beats {ty : ElTy} (hty : ElTy.isI ty = true ∨ ElTy.isF ty = true) (c : VCtx) : c.n (ElTy.width ty) ≤ 2 ^ beatLog ty * c.beats := by
  rw [← two_pow_beatLog hty]
  cases ty <;> simp only [VCtx.n, VCtx.beats, ElTy.width] <;> omega

theorem redElems_eq {ty : ElTy} (hty : ElTy.isI ty = true ∨ ElTy.isF ty = true) {op : BinOp} {id : Nat} (hid : redId op ty = id) (c : VCtx) (l : VWord)
    (b : Nat) : redElems op ty c l b = (List.range (2 ^ beatLog ty)).map fun j => enters ty id c l (2 ^ beatLog ty * b + j) := by
  simp [redElems, enters, two_pow_beatLog hty, hid, Nat.mul_comm]

theorem enters_lt {ty : ElTy} {id : Nat} (hid : id < 2 ^ ElTy.width ty) (c : VCtx) (l : VWord) (e : Nat) : enters ty id c l e < 2 ^ ElTy.width ty := by
  unfold enters
  split
  · exact elem_lt _ _ _
  · exact hid

/-! ### Reductions (06 R149, 11 R254) -/

/-- The tree of one beat of `red`, as the model combines it: its value, and the flags of its steps. -/
def redBeat (op : BinOp) (ty : ElTy) (md : Bool) (c : VCtx) (l : VWord) (b : Nat) : Nat × List (Nat × Flags) :=
  let nb := 1024 / ElTy.width ty
  let t := treeLevels (elemBin op ty md) (Nat.log2 nb) ((redElems op ty c l b).zipIdx.map fun p => (b * nb + p.2, p.1))
  (match t.1 with | (_, v) :: _ => v | [] => redId op ty, t.2)

/-- The combination of a beat with those before it, as the model makes it. -/
def redStep (op : BinOp) (ty : ElTy) (md : Bool) (acc b : Nat × List (Nat × Flags)) : Nat × List (Nat × Flags) :=
  let r := elemBin op ty md acc.1 b.1
  (r.1, acc.2 ++ b.2 ++ [(0, r.2)])

theorem vRed_lo (op : BinOp) (ty : ElTy) (md : Bool) (c : VCtx) (l : VWord) (lf : BitVec 32) :
    ∃ v, (vRed op ty md c l lf).lo = pack (ElTy.width ty) (List.replicate (c.n (ElTy.width ty)) v)
      ∧ (c.beats ≠ 0 → v = ((((List.range (c.beats - 1)).map Nat.succ).map (redBeat op ty md c l)).foldl (redStep op ty md)
          (redBeat op ty md c l 0)).1) := by
  refine ⟨_, rfl, fun h => ?_⟩
  obtain ⟨m, hm⟩ := Nat.exists_eq_succ_of_ne_zero h
  rw [hm, List.range_succ_eq_map]
  rfl

section
variable {ty : ElTy} {md : Bool} {op : BitVec 3} {id : Nat}

/-- The value of the tree of a beat. -/
theorem redBeat_value (hty : ElTy.isI ty = true ∨ ElTy.isF ty = true) (hid : redId (redOp op) ty = id) (c : VCtx) (l : VWord) (b : Nat) :
    (redBeat (redOp op) ty md c l b).1
      = treeOf (valuesOf (elemBin (redOp op) ty md)) (fun j => enters ty id c l (2 ^ beatLog ty * b + j)) (beatLog ty) 0 := by
  have hxs : ((redElems (redOp op) ty c l b).zipIdx.map fun p => (b * 2 ^ beatLog ty + p.2, p.1)).map Prod.snd
      = (List.range (2 ^ beatLog ty)).map fun j => enters ty id c l (2 ^ beatLog ty * b + j) := by
    rw [List.map_map, ← redElems_eq hty hid]
    exact List.zipIdx_map_fst 0 _
  have ht := treeLevels_values (elemBin (redOp op) ty md) _ _ _ hxs
  obtain ⟨⟨_, v⟩, r, hr, hv, -⟩ := List.map_eq_cons_iff.1 ht
  rw [redBeat]
  simp only [two_pow_beatLog hty, Nat.log2_two_pow, hr]
  exact hv

/-- The value of the combined beats. -/
theorem redFold_value (hty : ElTy.isI ty = true ∨ ElTy.isF ty = true) (hid : redId (redOp op) ty = id) (c : VCtx) (l : VWord) (m : Nat) :
    ((((List.range m).map Nat.succ).map (redBeat (redOp op) ty md c l)).foldl (redStep (redOp op) ty md) (redBeat (redOp op) ty md c l 0)).1
      = treesOf (valuesOf (elemBin (redOp op) ty md)) (enters ty id c l) (beatLog ty) m := by
  have hfirst := redBeat_value (md := md) hty hid c l 0
  simp only [Nat.mul_zero, Nat.zero_add] at hfirst
  induction m with
  | zero => exact hfirst
  | succ m ih =>
    rw [List.range_succ, List.map_append, List.map_append, List.foldl_append, treesOf_succ, ← ih, ← redBeat_value hty hid]
    rfl

/-- The token of `red` (06 R149): every granted element is the beats' trees combined in ascending order. -/
theorem vRed_holds (hty : ElTy.isI ty = true ∨ ElTy.isF ty = true) (hmd : md = true → op = 0 ∨ ElTy.isF ty = true)
    (hid : (identities ty)[op.toNat]? = some id) (c : VCtx) (l : VWord) (lf : BitVec 32) :
    Holds (vRed (redOp op) ty md c l lf).lo (ElTy.width ty) (c.n (ElTy.width ty)) fun _ =>
      treesOf (combineOf ty md op.toNat) (enters ty id c l) (beatLog ty) (c.beats - 1) := by
  obtain ⟨hred, hlt⟩ := identities_eq_redId hid
  obtain ⟨heq, hbound⟩ := (combines_redOp hty hmd (List.getElem?_eq_some_iff.1 hid).1).treesOf_eq (enters_lt hlt c l) (beatLog ty) (c.beats - 1)
  obtain ⟨v, hlo, hv⟩ := vRed_lo (redOp op) ty md c l lf
  rw [hlo]
  refine holds_pack_replicate fun hn => ?_
  have hbeats : c.beats ≠ 0 := fun h0 => hn (Nat.le_zero.1 (by simpa [h0] using n_le_beats hty c))
  rw [hv hbeats, redFold_value hty hred, heq]
  exact ⟨rfl, hbound⟩

/-- The running values of the beats, carried across them, are the elements of the inclusive scan. -/
theorem vScan_values (hty : ElTy.isI ty = true ∨ ElTy.isF ty = true) (hid : redId (redOp op) ty = id) (c : VCtx) (l : VWord) :
    (scanCarry (elemBin (redOp op) ty md) id (((List.range c.beats).map fun b =>
        scanSteps (elemBin (redOp op) ty md) (b * 2 ^ beatLog ty) (beatLog ty) 1 (redElems (redOp op) ty c l b)).map Prod.fst)).1
      = (List.range (2 ^ beatLog ty * c.beats)).map (inclusiveOf (valuesOf (elemBin (redOp op) ty md)) (enters ty id c l) (beatLog ty) id) := by
  have hcarry := scanCarry_values (elemBin (redOp op) ty md) (enters ty id c l) (beatLog ty) id c.beats 0
  rw [Nat.mul_zero, ← List.range_eq_range', ← List.range_eq_range'] at hcarry
  rw [← hcarry, List.map_map]
  have hbeat (b : Nat) : (scanSteps (elemBin (redOp op) ty md) (b * 2 ^ beatLog ty) (beatLog ty) 1 (redElems (redOp op) ty c l b)).1
      = (List.range (2 ^ beatLog ty)).map
        (scanOf (valuesOf (elemBin (redOp op) ty md)) (fun j => enters ty id c l (2 ^ beatLog ty * b + j)) (beatLog ty)) := by
    rw [redElems_eq hty hid]
    have hsteps := scanSteps_values (elemBin (redOp op) ty md) (b * 2 ^ beatLog ty) (2 ^ beatLog ty) (beatLog ty) 0
      fun j => enters ty id c l (2 ^ beatLog ty * b + j)
    rw [Nat.zero_add] at hsteps
    exact hsteps
  simp only [Function.comp_def, hbeat]
  rfl

theorem vScan_lo (hty : ElTy.isI ty = true ∨ ElTy.isF ty = true) (hid : redId (redOp op) ty = id) (excl : Bool) (c : VCtx) (l : VWord) (lf : BitVec 32) :
    (vScan (redOp op) ty md excl c l lf).lo = pack (ElTy.width ty) (List.take (c.n (ElTy.width ty))
      (let vs := (List.range (2 ^ beatLog ty * c.beats)).map
          (inclusiveOf (valuesOf (elemBin (redOp op) ty md)) (enters ty id c l) (beatLog ty) id)
        if excl then id :: vs else vs)) := by
  simp only [vScan, two_pow_beatLog hty, Nat.log2_two_pow, hid, vScan_values hty hid]

/-- The token of `scan` (06 R150): the carry of the beats before combined with the running value; an exclusive scan is one element late. -/
theorem vScan_holds (hty : ElTy.isI ty = true ∨ ElTy.isF ty = true) (hmd : md = true → op = 0 ∨ ElTy.isF ty = true)
    (hid : (identities ty)[op.toNat]? = some id) (excl : Bool) (c : VCtx) (l : VWord) (lf : BitVec 32) :
    Holds (vScan (redOp op) ty md excl c l lf).lo (ElTy.width ty) (c.n (ElTy.width ty)) fun e =>
      if excl then (if e = 0 then id else inclusiveOf (combineOf ty md op.toNat) (enters ty id c l) (beatLog ty) id (e - 1))
      else inclusiveOf (combineOf ty md op.toNat) (enters ty id c l) (beatLog ty) id e := by
  obtain ⟨hred, hlt⟩ := identities_eq_redId hid
  have hinc := (combines_redOp hty hmd (List.getElem?_eq_some_iff.1 hid).1).inclusiveOf_eq (enters_lt hlt c l) hlt (beatLog ty)
  have hn := n_le_beats hty c
  have hget (e : Nat) (he : e < c.n (ElTy.width ty)) :
      ((List.range (2 ^ beatLog ty * c.beats)).map (inclusiveOf (valuesOf (elemBin (redOp op) ty md)) (enters ty id c l) (beatLog ty) id))[e]?
        = some (inclusiveOf (combineOf ty md op.toNat) (enters ty id c l) (beatLog ty) id e) := by
    rw [List.getElem?_map, List.getElem?_range (by omega), Option.map_some, (hinc e).1]
  rw [vScan_lo hty hred]
  refine holds_pack_take fun e he => ?_
  cases excl
  · exact ⟨hget e he, (hinc e).2⟩
  · cases e with
    | zero => exact ⟨rfl, hlt⟩
    | succ e => exact ⟨hget e (by omega), (hinc e).2⟩

end

/-- Settles O36: on the elements of a type, the model's combine step is the one of R148, its levels make the tree of R149, and its steps and its carry the
running values of R150. -/
theorem reductionAndScanResults : Obligations.ReductionAndScanResults := by
  unfold Obligations.ReductionAndScanResults
  refine ⟨fun p md ty op t1 id hty hmd hid => ?red, fun p md ty excl op t1 id hty _ hmd hid => ?scan⟩
  case red => exact vecSome_of_govVec (fun s => exec_red s) fun c l _ lf => vRed_holds hty hmd hid c l lf
  case scan => exact vecSome_of_govVec (fun s => exec_scan s) fun c l _ lf => vScan_holds hty hmd hid excl c l lf

end Sys2Proof.Machine
end

section
/-!
SUPPORT. `memWf` and `outWf`: both memories of a state, or of the state that an outcome gives, are in canonical form (07 R154, R168). A function of the model
has one lemma: an equation `memWf (f s) = memWf s` where it changes neither memory, else an implication. What holds by unfolding is proved by `(rfl)` in
parentheses: `simp` then takes it as any other equation, and finds it too where it discharges the hypothesis of `memWf_foldl_eq`.
-/
namespace Sys2Proof.Machine

/-- A state whose fields are written out: its two memories decide. -/
@[simp] theorem memWf_mk (agenda : List Act) (site : Site) (free seq : Nat) (mem bufs : Memory) (bad encs pkgs banks disps blks ctxs parts queues jrnls
    bars sigs groups kerns rxs links walks shoots amos lineQ late) :
    memWf ⟨agenda, site, free, seq, mem, bufs, bad, encs, pkgs, banks, disps, blks, ctxs, parts, queues, jrnls, bars, sigs, groups, kerns, rxs, links,
      walks, shoots, amos, lineQ, late⟩ = (mem.wf && bufs.wf) := (rfl)

@[simp] theorem memWf_fold (s : State) : (s.mem.wf && s.bufs.wf) = memWf s := (rfl)

@[simp] theorem memWf_ite (c : Prop) [Decidable c] (s t : State) : memWf (if c then s else t) = if c then memWf s else memWf t := apply_ite memWf c s t

@[simp] theorem memWf_snd_ite {α : Type} (c : Prop) [Decidable c] (s t : α × State) :
    memWf (if c then s else t).2 = if c then memWf s.2 else memWf t.2 := apply_ite (fun r : α × State => memWf r.2) c s t

@[simp] theorem memWf_fst_ite {α : Type} (c : Prop) [Decidable c] (s t : State × α) :
    memWf (if c then s else t).1 = if c then memWf s.1 else memWf t.1 := apply_ite (fun r : State × α => memWf r.1) c s t

@[simp] theorem memWf_foldl_eq {α : Type} {f : State → α → State} (hf : ∀ s a, memWf (f s a) = memWf s) (l : List α) (s : State) :
    memWf (l.foldl f s) = memWf s := by
  induction l generalizing s with
  | nil => rfl
  | cons a l ih => rw [List.foldl_cons, ih, hf]

theorem memWf_foldl {α : Type} {f : State → α → State} (hf : ∀ s a, memWf s = true → memWf (f s a) = true) (l : List α) :
    ∀ s, memWf s = true → memWf (l.foldl f s) = true := by
  induction l with
  | nil => exact fun s h => h
  | cons a l ih => exact fun s h => ih _ (hf _ _ h)

theorem memWf_of_snd_eq {α : Type} {r : α × State} {a : α} {t : State} (h : r = (a, t)) : memWf t = memWf r.2 := by rw [h]

/-- Whether an outcome leaves both memories in canonical form: a fault and a refusal leave no state. -/
def outWf : Out State → Bool
  | .next t => memWf t
  | .fault _ => true
  | .refused _ => true

@[simp] theorem outWf_next (t : State) : outWf (.next t) = memWf t := (rfl)
@[simp] theorem outWf_fault (f : Fault) : outWf (.fault f) = true := (rfl)

@[simp] theorem outWf_ite (c : Prop) [Decidable c] (o p : Out State) : outWf (if c then o else p) = if c then outWf o else outWf p := apply_ite outWf c o p

end Sys2Proof.Machine
end

section
/-!
SUPPORT. Canonical memories through a write, a walk, a store to a table, a change of page and an access (07, 08). Here bytes are written and ranges cleared;
what the later files of the model write goes through these functions. The files are taken in the model's order.
-/
namespace Sys2Proof.Machine
variable {s : State}

/-! ### Machine/Base -/

@[simp] theorem memWf_setPkg {k p} : memWf (s.setPkg k p) = memWf s := (rfl)
@[simp] theorem memWf_setPart {k p} : memWf (s.setPart k p) = memWf s := (rfl)
@[simp] theorem memWf_setQueue {k q} : memWf (s.setQueue k q) = memWf s := (rfl)
@[simp] theorem memWf_setJrnl {k j} : memWf (s.setJrnl k j) = memWf s := (rfl)
@[simp] theorem memWf_setBar {k b} : memWf (s.setBar k b) = memWf s := (rfl)
@[simp] theorem memWf_setSig {k v} : memWf (s.setSig k v) = memWf s := (rfl)
@[simp] theorem memWf_setRx {k r} : memWf (s.setRx k r) = memWf s := (rfl)
@[simp] theorem memWf_setLink {k l} : memWf (s.setLink k l) = memWf s := (rfl)
@[simp] theorem memWf_setDisp {k d} : memWf (s.setDisp k d) = memWf s := (rfl)
@[simp] theorem memWf_setBank {k b} : memWf (s.setBank k b) = memWf s := (rfl)
@[simp] theorem memWf_setCtx {c x} : memWf (s.setCtx c x) = memWf s := (rfl)
@[simp] theorem memWf_updCtx {c f} : memWf (s.updCtx c f) = memWf s := (rfl)
@[simp] theorem memWf_updKern {k f} : memWf (s.updKern k f) = memWf s := (rfl)
@[simp] theorem memWf_updGroup {k f} : memWf (s.updGroup k f) = memWf s := (rfl)
@[simp] theorem memWf_setBlk {f b} : memWf (s.setBlk f b) = memWf s := (rfl)
@[simp] theorem memWf_drawBool : memWf s.drawBool.2 = memWf s := (rfl)
@[simp] theorem memWf_drawNat : memWf s.drawNat.2 = memWf s := (rfl)
@[simp] theorem memWf_drawBits : memWf s.drawBits.2 = memWf s := (rfl)
@[simp] theorem memWf_stamp : memWf s.stamp.2 = memWf s := (rfl)
@[simp] theorem memWf_discard {p} : memWf (s.discard p) = memWf s := (rfl)
@[simp] theorem memWf_discardLane {c u} : memWf (s.discardLane c u) = memWf s := (rfl)
@[simp] theorem memWf_discardCtx {c} : memWf (s.discardCtx c) = memWf s := (rfl)

/-! ### Machine/Phys -/

@[simp] theorem memWf_freeBytes {n} : memWf (s.freeBytes n).2 = memWf s := by
  induction n generalizing s with
  | zero => rfl
  | succ n ih => exact ih

theorem memWf_poke {k pa l} (h : memWf s = true) : memWf (s.poke k pa l) = true := by
  obtain ⟨hm, hb⟩ := Bool.and_eq_true_iff.1 h
  unfold State.poke
  split
  · exact h
  · exact Bool.and_eq_true_iff.2 ⟨Memory.wf_writeBytes _ _ _ hm, hb⟩

theorem memWf_pokeW {k pa v} (h : memWf s = true) : memWf (s.pokeW k pa v) = true := by simp [State.pokeW, h, memWf_poke]
@[simp] theorem memWf_freshen {k pa len} : memWf (s.freshen k pa len) = memWf s := (rfl)

theorem memWf_carry {a src b dst len} (h : memWf s = true) : memWf (s.carry a src b dst len) = true := by
  obtain ⟨hm, hb⟩ := Bool.and_eq_true_iff.1 h
  exact Bool.and_eq_true_iff.2 ⟨Memory.wf_foldl_write _ _ _ (Memory.wf_clear _ _ _ hm), hb⟩

theorem memWf_pokeKey {k pa l key} (h : memWf s = true) : memWf (s.pokeKey k pa l key) = true := by simp [State.pokeKey, h, memWf_poke]
@[simp] theorem memWf_regStore {k off l} : memWf (s.regStore k off l) = memWf s := (rfl)

/-! ### Machine/Walk -/

@[simp] theorem memWf_lookup {pk core asn va} : memWf (s.lookup pk core asn va).2 = memWf s := by
  unfold State.lookup
  (repeat' split) <;> simp

theorem memWf_poke128 {k pa v} (h : memWf s = true) : memWf (s.poke128 k pa v) = true := by simp [State.poke128, h, memWf_poke]

theorem memWf_setPte {k l e} (h : memWf s = true) : memWf (s.setPte k l e) = true := by
  unfold State.setPte
  split <;> simp [h, memWf_poke128]

theorem memWf_setAnchor {k pa n} (h : memWf s = true) : memWf (s.setAnchor k pa n) = true := by simp [State.setAnchor, h, memWf_poke]

theorem memWf_relink {k old new at' n} (h : memWf s = true) : memWf (s.relink k old new at' n) = true := by
  induction n generalizing at' with
  | zero => cases at' <;> exact h
  | succ n ih =>
    cases at' with
    | none => exact h
    | some p =>
      simp only [State.relink]
      split
      · exact memWf_poke128 h
      · exact ih

theorem memWf_unchain {pk e old new} (h : memWf s = true) : memWf (s.unchain pk e old new) = true := by
  unfold State.unchain
  split <;> simp [h, memWf_setAnchor, memWf_relink]

@[simp] theorem memWf_refetchUses {pk page} : memWf (s.refetchUses pk page) = memWf s := by simp [State.refetchUses]
@[simp] theorem memWf_shoot {pk page thr key} : memWf (s.shoot pk page thr key) = memWf s := by simp [State.shoot]
@[simp] theorem memWf_shootPte {pk l e} : memWf (s.shootPte pk l e) = memWf s := by simp [State.shootPte]

theorem memWf_setPageState {pk l e st sidx} (h : memWf s = true) : memWf (s.setPageState pk l e st sidx) = true := by
  simp [State.setPageState, h, memWf_setPte]

theorem memWf_atTwin {pk pa len} {f : State → Nat × Nat → State} (h : memWf s = true) (hf : ∀ t, memWf (f s t) = true) :
    memWf (s.atTwin pk pa len f) = true := by
  unfold State.atTwin
  split <;> simp [h, hf]

theorem memWf_twin {pk pa l} (h : memWf s = true) : memWf (s.twin pk pa l) = true := memWf_atTwin h fun _ => memWf_poke h

theorem memWf_setPool {pk n used frame} (h : memWf s = true) : memWf (s.setPool pk n used frame) = true := by
  simp [State.setPool, h, memWf_twin, memWf_pokeW]

theorem memWf_copyShadow {pk src dst len} (h : memWf s = true) : memWf (s.copyShadow pk src dst len) = true :=
  memWf_atTwin (memWf_carry h) fun _ => memWf_carry (memWf_carry h)

theorem memWf_takeShadow {pk l e} (h : memWf s = true) : ∀ t ∈ s.takeShadow pk l e, memWf t = true := by
  unfold State.takeShadow
  split
  · simp
  · rintro _ ⟨⟩
    exact memWf_setPageState (memWf_copyShadow (memWf_setPool h))

theorem memWf_dropShadow {pk l e st} (h : memWf s = true) : memWf (s.dropShadow pk l e st) = true := by
  simp [State.dropShadow, h, memWf_setPageState, memWf_setPool]

theorem memWf_promote {pk l e st} (h : memWf s = true) : memWf (s.promote pk l e st) = true := by
  unfold State.promote
  split
  · exact memWf_setPageState h
  · split
    · simp [memWf_setPool, memWf_setPte h]
    · simp [memWf_setPool, memWf_poke128, memWf_unchain (memWf_poke128 h)]

/-! ### Machine/Access -/

theorem memWf_grade {pk va asn rd wr shadow e} (h : memWf s = true) : memWf (s.grade pk va asn rd wr shadow e).2 = true := by
  unfold State.grade
  (repeat' split) <;> first | exact h | exact memWf_takeShadow h _ ‹_›

theorem memWf_translate {w va len rd wr shadow hd} (h : memWf s = true) : memWf (s.translate w va len rd wr shadow hd).2 = true := by
  unfold State.translate
  (repeat' split) <;> simp [h, memWf_grade]

theorem memWf_checkParts {w rd wr whole plain hd l} (h : memWf s = true) : memWf (s.checkParts w rd wr whole plain hd l).2 = true := by
  induction l generalizing s with
  | nil => exact h
  | cons a r ih =>
    simp only [State.checkParts]
    split <;> have ht := (memWf_of_snd_eq ‹_›).trans (memWf_translate h)
    · exact ht
    · split
      · exact ht
      · split <;> exact (memWf_of_snd_eq ‹_›).trans (ih ht)

theorem memWf_access {w va len ew rd wr plain hd} (h : memWf s = true) : memWf (s.access w va len ew rd wr plain hd).2 = true := by
  simp only [State.access]
  split <;> have ht := (memWf_of_snd_eq ‹_›).trans (memWf_checkParts h) <;> simp [ht]

@[simp] theorem memWf_repoint {k num t f} : memWf (s.repoint k num t f) = memWf s := (rfl)

@[simp] theorem memWf_redirected {k pa} : memWf (s.redirected k pa) = memWf s := by
  unfold State.redirected
  (repeat' split) <;> simp

theorem memWf_unitWrite {pk pa l} (h : memWf s = true) : memWf (s.unitWrite pk pa l) = true := by simp [State.unitWrite, h, memWf_twin, memWf_poke]
@[simp] theorem memWf_hitCasks {k pa len} : memWf (s.hitCasks k pa len) = memWf s := (rfl)

theorem memWf_writeEv {pk pa key l} (h : memWf s = true) : ∀ t ∈ s.writeEv pk pa key l, memWf t = true := by
  unfold State.writeEv
  split <;> simp [h, memWf_twin, memWf_pokeKey]

end Sys2Proof.Machine
end

section
/-!
SUPPORT. Canonical memories through barriers, the ends of contexts and kernels, faults and traps (13, 16, 18).
-/
namespace Sys2Proof.Machine
variable {s : State}

/-! ### Machine/Sync -/

@[simp] theorem memWf_resolve {f} : memWf (s.resolve f) = memWf s := (rfl)
@[simp] theorem memWf_resolveBar {k b} : memWf (s.resolveBar k b) = memWf s := (rfl)
@[simp] theorem memWf_resolveFreed {k p} : memWf (s.resolveFreed k p) = memWf s := (rfl)
@[simp] theorem memWf_poison {k} : memWf (s.poison k) = memWf s := by simp [State.poison]

@[simp] theorem memWf_arrive {k r n} : memWf (s.arrive k r n) = memWf s := by
  simp only [State.arrive]
  (repeat' split) <;> simp

@[simp] theorem memWf_drop {k r n} : memWf (s.drop k r n) = memWf s := by
  simp only [State.drop]
  (repeat' split) <;> simp

@[simp] theorem memWf_advance {k} : memWf (s.advance k) = memWf s := by simp [State.advance]
@[simp] theorem memWf_settle {k} : memWf (s.settle k) = memWf s := by simp [State.settle]
@[simp] theorem memWf_arriveNow {k r n} : memWf (s.arriveNow k r n) = memWf s := by simp [State.arriveNow]
@[simp] theorem memWf_barInit {pk k sc unit tok r} : memWf (s.barInit pk k sc unit tok r).2 = memWf s := by simp [State.barInit]
@[simp] theorem memWf_sigAdd {k v} : memWf (s.sigAdd k v) = memWf s := (rfl)
@[simp] theorem memWf_sigPut {k v} : memWf (s.sigPut k v) = memWf s := (rfl)

@[simp] theorem memWf_bindEnds {ok b} : memWf (s.bindEnds ok b) = memWf s := by
  unfold State.bindEnds
  split <;> simp

@[simp] theorem memWf_bindsArrive {l} : memWf (s.bindsArrive l) = memWf s := by simp [State.bindsArrive]
@[simp] theorem memWf_bindsFail {l} : memWf (s.bindsFail l) = memWf s := by simp [State.bindsFail]
@[simp] theorem memWf_freeGroupBars {k} : memWf (s.freeGroupBars k) = memWf s := by simp [State.freeGroupBars]
@[simp] theorem memWf_freeBars {pk} : memWf (s.freeBars pk) = memWf s := by simp [State.freeBars]

/-! ### Machine/Life -/

@[simp] theorem memWf_unpin {m} : memWf (s.unpin m) = memWf s := by simp [State.unpin]
@[simp] theorem memWf_dropRoles {c q} : memWf (s.dropRoles c q) = memWf s := (rfl)

@[simp] theorem memWf_emptyEngines {c} : memWf (s.emptyEngines c) = memWf s := by
  unfold State.emptyEngines
  split
  · rfl
  · simp only [memWf_updCtx, memWf_foldl_eq fun _ _ => memWf_dropRoles, memWf_foldl_eq fun _ _ => memWf_unpin, memWf_bindsFail]

@[simp] theorem memWf_consider {pk} : memWf (s.consider pk) = memWf s := by simp [State.consider]

@[simp] theorem memWf_endCtx {c} : memWf (s.endCtx c) = memWf s := by
  unfold State.endCtx
  split <;> simp

theorem memWf_changeFenced {pk va l e} {f : State → Pte → State} (h : memWf s = true) (hf : ∀ t u, memWf t = true → memWf (f t u) = true) :
    memWf (s.changeFenced pk va l e f) = true := by
  simp only [State.changeFenced]
  split
  · exact hf _ _ h
  · split
    · exact h
    · have ht := fun m u => hf (s.setPte pk.pkg l m) u (memWf_setPte h)
      split
      · exact ht _ _
      · simp [memWf_setPte, ht]

theorem memWf_dropShadows {k kn} (h : memWf s = true) : memWf (s.dropShadows k kn) = true := by
  refine memWf_foldl (fun s va h => ?_) _ _ h
  split
  · exact memWf_changeFenced h fun _ _ => memWf_dropShadow
  · exact h

theorem memWf_promoteAll {k kn} (h : memWf s = true) : memWf (s.promoteAll k kn) = true := by
  refine memWf_foldl (fun s va h => ?_) _ _ h
  split
  · exact memWf_changeFenced h fun _ _ => memWf_promote
  · exact h

theorem memWf_unpinCode {k kn} (h : memWf s = true) : memWf (s.unpinCode k kn) = true := by
  refine memWf_foldl (fun s va h => ?_) _ _ h
  (repeat' split) <;> simp [h, memWf_setPte]

@[simp] theorem memWf_dropGroups {k} : memWf (s.dropGroups k) = memWf s := by simp [State.dropGroups]
@[simp] theorem memWf_endKern {k} : memWf (s.endKern k) = memWf s := by simp [State.endKern]
@[simp] theorem memWf_reqFence {pk} : memWf (s.reqFence pk) = memWf s := (rfl)

theorem memWf_kernFault {k status tcode} (h : memWf s = true) : memWf (s.kernFault k status tcode) = true := by
  unfold State.kernFault
  split <;> simp [h, memWf_unpinCode, memWf_dropShadows]

@[simp] theorem memWf_report {k r} : memWf (s.report k r) = memWf s := (rfl)
@[simp] theorem memWf_wipePart {pk} : memWf (s.wipePart pk) = memWf s := by simp [State.wipePart]
@[simp] theorem memWf_failPart {pk} : memWf (s.failPart pk) = memWf s := by simp [State.failPart]
@[simp] theorem memWf_vdresPut {c st} : memWf (s.vdresPut c st) = memWf s := (rfl)

@[simp] theorem memWf_vdEnd {pk st} : memWf (s.vdEnd pk st) = memWf s := by
  unfold State.vdEnd
  split <;> simp

@[simp] theorem memWf_dropVd {pk} : memWf (s.dropVd pk) = memWf s := by simp [State.dropVd]
@[simp] theorem memWf_kernsReplay {pk} : memWf (s.kernsReplay pk) = memWf s := (rfl)

@[simp] theorem memWf_partReset {pk} : memWf (s.partReset pk) = memWf s := by
  simp only [State.partReset]
  (repeat' split) <;> simp

@[simp] theorem memWf_detected {pk} : memWf (s.detected pk) = memWf s := by simp [State.detected]

/-! ### Machine/Ops -/

@[simp] theorem memWf_raise {c bit} : memWf (s.raise c bit) = memWf s := (rfl)

theorem memWf_doubleFault {c f epc} (h : memWf s = true) : memWf (s.doubleFault c f epc) = true := by
  unfold State.doubleFault
  split <;> simp [h, memWf_kernFault]

theorem memWf_trapEntry {c f epc} (h : memWf s = true) : memWf (s.trapEntry c f epc) = true := by
  unfold State.trapEntry
  split <;> simp [h, memWf_doubleFault]

theorem memWf_deliverEvents {c} (h : memWf s = true) : memWf (s.deliverEvents c) = true := by
  unfold State.deliverEvents
  split <;> simp [h, memWf_trapEntry]

@[simp] theorem memWf_streamStop {c u f epc} : memWf (s.streamStop c u f epc) = memWf s := by
  unfold State.streamStop
  split <;> simp

@[simp] theorem memWf_streamResume {c} : memWf (s.streamResume c) = memWf s := (rfl)
@[simp] theorem memWf_returnFrom {c} : memWf (s.returnFrom c) = memWf s := (rfl)

theorem memWf_takeFault {c u f epc} (h : memWf s = true) : memWf (s.takeFault c u f epc) = true := by
  unfold State.takeFault
  split <;> simp [h, memWf_trapEntry]

@[simp] theorem memWf_tick : memWf (s.tick) = memWf s := (rfl)

end Sys2Proof.Machine
end

section
/-!
SUPPORT. Canonical memories through the operations that instructions share when they issue (09 to 11, 14).
-/
namespace Sys2Proof.Machine
variable {s : State}

/-! ### Machine/Operands -/

theorem outWf_withSlot {k : Cur → Blk → Slot → Out State} (h : memWf s = true) (hk : ∀ cu b sl, outWf (k cu b sl) = true) :
    outWf (withSlot s k) = true := by
  unfold withSlot
  (repeat' split) <;> simp [h, hk]

theorem outWf_withCtx {b} {k : Ctx → Out State} (hk : ∀ x, outWf (k x) = true) : outWf (withCtx s b k) = true := by
  unfold withCtx
  split <;> simp [hk]

theorem outWf_tokOp {i f} (h : memWf s = true) : outWf (tokOp i f s) = true :=
  outWf_withSlot h fun _ _ _ => by split <;> simp [h]

theorem outWf_valOp {i f} (h : memWf s = true) : outWf (valOp i f s) = true := by simp [valOp, h, outWf_tokOp]
theorem outWf_testOp {i f} (h : memWf s = true) : outWf (testOp i f s) = true := by simp [testOp, h, outWf_valOp]
theorem outWf_addrOp {i f} (h : memWf s = true) : outWf (addrOp i f s) = true := by simp [addrOp, h, outWf_tokOp]

theorem outWf_actOp {i onNull} {k : Cur → Blk → Slot → Tok → Tok → Out State} (h : memWf s = true)
    (hk : ∀ cu b sl l r, outWf (k cu b sl l r) = true) : outWf (actOp i onNull k s) = true :=
  outWf_withSlot h fun _ _ _ => by split <;> simp [h, hk]

theorem outWf_storeOp {i id} {k : Cur → Blk → Slot → Tok → Tok → Out State} (h : memWf s = true)
    (hk : ∀ cu b sl l r, outWf (k cu b sl l r) = true) : outWf (storeOp i id k s) = true := outWf_actOp h hk

theorem outWf_loadOp {i} {k : Cur → Blk → Slot → Tok → Tok → Out State} (h : memWf s = true)
    (hk : ∀ cu b sl l r, outWf (k cu b sl l r) = true) : outWf (loadOp i k s) = true := outWf_actOp h hk

@[simp] theorem outWf_completeWith {cu b id e} : outWf (completeWith s cu b id e) = memWf s := (rfl)
@[simp] theorem outWf_failWith {cu b f} : outWf (failWith s cu b f) = memWf s := (rfl)
@[simp] theorem outWf_subFault {cu b code sub} : outWf (subFault s cu b code sub) = memWf s := (rfl)
@[simp] theorem outWf_holdFor {cu b w} : outWf (holdFor s cu b w) = memWf s := (rfl)

/-! ### Machine/Flags -/

theorem outWf_vecOp {i governed rs two f} (h : memWf s = true) : outWf (vecOp i governed rs two f s) = true :=
  outWf_withSlot h fun _ _ _ => by split <;> simp [h, outWf_withCtx]

theorem outWf_plainVec {i f} (h : memWf s = true) : outWf (plainVec i f s) = true := by simp [plainVec, h, outWf_vecOp]

/-! ### Machine/Flow -/

@[simp] theorem memWf_journal {k p el} : memWf (s.journal k p el).2 = memWf s := by simp [State.journal]
@[simp] theorem memWf_land {k p el} : memWf (s.land k p el) = memWf s := by simp [State.land]

@[simp] theorem memWf_stageRun {k max fuel} : memWf (s.stageRun k max fuel) = memWf s := by
  induction fuel generalizing s with
  | zero => rfl
  | succ fuel ih =>
    simp only [State.stageRun]
    (repeat' split) <;> simp [ih]

@[simp] theorem memWf_stageGo {k} : memWf (s.stageGo k) = memWf s := by
  unfold State.stageGo
  split <;> simp

@[simp] theorem memWf_append {k prodId p el} : memWf (s.append k prodId p el) = memWf s := by
  simp only [State.append]
  (repeat' split) <;> simp

@[simp] theorem memWf_takeHead {k} : memWf (s.takeHead k) = memWf s := by
  simp only [State.takeHead]
  (repeat' split) <;> simp

@[simp] theorem memWf_noteTake {kk k} : memWf (s.noteTake kk k) = memWf s := by simp [State.noteTake]

@[simp] theorem memWf_outAppend {c n v} : memWf (s.outAppend c n v) = memWf s := by
  unfold State.outAppend
  (repeat' split) <;> simp

@[simp] theorem memWf_qAppend {x k v} : memWf (s.qAppend x k v) = memWf s := by simp [State.qAppend]

@[simp] theorem memWf_dlRelease {c k fuel} : memWf (s.dlRelease c k fuel) = memWf s := by
  induction fuel generalizing s with
  | zero => rfl
  | succ fuel ih =>
    unfold State.dlRelease
    (repeat' split) <;> simp [ih]

@[simp] theorem memWf_dlReleases {c} : memWf (s.dlReleases c) = memWf s := by simp [State.dlReleases]

@[simp] theorem memWf_countHold {c kind} : memWf (s.countHold c kind) = memWf s := by
  unfold State.countHold
  split <;> simp

/-! ### Machine/Token -/

@[simp] theorem outWf_readDone {cu b sl i r} : outWf (readDone s cu b sl i r) = memWf s := by
  unfold readDone
  split <;> simp

theorem outWf_branchOp {i exit k} (h : memWf s = true) : outWf (branchOp i exit k s) = true := by simp [branchOp, h, outWf_actOp]

@[simp] theorem memWf_stackCheck {c u} : memWf (s.stackCheck c u) = memWf s := by
  unfold State.stackCheck
  (repeat' split) <;> simp

theorem outWf_stackOp {i exit k} (h : memWf s = true) : outWf (stackOp i exit k s) = true := by simp [stackOp, h, outWf_actOp]

/-! ### Machine/Memory -/

@[simp] theorem memWf_discardFrom {b} : memWf (s.discardFrom b) = memWf s := (rfl)
@[simp] theorem memWf_askPage {pk pg} : memWf (s.askPage pk pg) = memWf s := by simp [State.askPage]

@[simp] theorem outWf_memFail {cu b x va f} : outWf (memFail s cu b x va f) = memWf s := by
  unfold memFail
  split <;> simp

theorem outWf_checked {cu b x va len ew rd wr plain hd} {k : State → Blk → List Part' → Out State} (h : memWf s = true)
    (hk : ∀ t b ps, memWf t = true → outWf (k t b ps) = true) : outWf (checked s cu b x va len ew rd wr plain hd k) = true := by
  unfold checked
  split <;> have ht := (memWf_of_snd_eq ‹_›).trans (memWf_access h)
  · simp [ht]
  · split
    · exact hk _ _ _ ht
    · exact ht

theorem outWf_loadIssue {i l} (h : memWf s = true) : outWf (loadIssue i l s) = true :=
  outWf_loadOp h fun _ _ _ _ _ => outWf_withCtx fun _ => outWf_checked h fun _ _ _ ht => by simp [ht]

@[simp] theorem memWf_arriveAt {a line} : memWf (s.arriveAt a line) = memWf s := by simp [State.arriveAt]

theorem memWf_waitAt {a c lines} : ∀ t ∈ s.waitAt a c lines, memWf t = memWf s := by
  simp only [State.waitAt]
  split
  · simp
  · rintro _ ⟨⟩
    simp

@[simp] theorem memWf_waitAt_getD {a c lines} : memWf ((s.waitAt a c lines).getD s) = memWf s := by
  cases hw : s.waitAt a c lines with
  | none => rfl
  | some t => exact memWf_waitAt t hw

theorem outWf_loadNow {cu b sl x i l a} (h : memWf s = true) : outWf (loadNow s cu b sl x i l a) = true := by
  simp only [loadNow]
  refine outWf_checked h fun _ _ _ h => ?_
  (repeat' split) <;> first
    | next hw => exact (memWf_waitAt _ hw).trans h
    | simp [h]

theorem memWf_probeAddr {w va wr hd} (h : memWf s = true) : memWf (s.probeAddr w va wr hd).2 = true := by
  unfold State.probeAddr
  split <;> have ht := (memWf_of_snd_eq ‹_›).trans (memWf_translate h) <;> simp [ht]

theorem memWf_prefSent {w va hd} (h : memWf s = true) : memWf (s.prefSent w va hd).2 = true := by
  unfold State.prefSent
  split <;> exact (memWf_of_snd_eq ‹_›).trans (memWf_probeAddr h)

theorem outWf_storeIssue {i id disp size} (h : memWf s = true) : outWf (storeIssue i id disp size s) = true :=
  outWf_storeOp h fun _ _ _ _ _ => outWf_withCtx fun _ => outWf_checked h fun _ _ _ ht => by simp [ht]

theorem outWf_amoIssue {i id op wide sc ord} (h : memWf s = true) : outWf (amoIssue i id op wide sc ord s) = true :=
  outWf_storeOp h fun _ _ _ _ _ => outWf_withCtx fun _ => by
    split
    · simp [h]
    · exact outWf_checked h fun _ _ _ ht => by (repeat' split) <;> simp [ht]

/-! ### Machine/Atomic -/

@[simp] theorem memWf_joinAmo {r may l} : memWf (joinAmo r may l s).2 = memWf s := by
  induction l generalizing s with
  | nil => rfl
  | cons o l ih => simp [joinAmo, ih]

@[simp] theorem memWf_sendAmo {r} : memWf (s.sendAmo r) = memWf s := by
  unfold State.sendAmo
  split <;> simp [memWf_of_snd_eq ‹_›]

theorem memWf_amoApply {r v} (h : memWf s = true) : ∀ t ∈ s.amoApply r v, memWf t = true := by
  simp only [State.amoApply]
  split
  · split
    · simp
    · rintro _ ⟨⟩
      exact memWf_pokeKey h
  · exact memWf_writeEv h

@[simp] theorem memWf_amoDone {r} : memWf (s.amoDone r) = memWf s := by simp [State.amoDone]

@[simp] theorem memWf_mergeAmos {r near may k l v} : memWf (mergeAmos r near may k l v s).s = memWf s := by
  induction l generalizing s k v with
  | nil => rfl
  | cons o l ih =>
    simp only [mergeAmos]
    split <;> simp [ih]

theorem memWf_amoNow {r rest} (h : memWf s = true) : memWf (s.amoNow r rest) = true := by
  simp only [State.amoNow]
  split
  · simp [h]
  · next heq =>
    have ht := memWf_amoApply (by simp [h]) _ heq
    simp [ht]

/-! ### Machine/QueueOps -/

@[simp] theorem outWf_popHold {cu b x q} : outWf (popHold s cu b x q) = memWf s := by simp [popHold]

@[simp] theorem outWf_popNow {cu b sl x i q id} : outWf (popNow s cu b sl x i q id) = memWf s := by
  unfold popNow
  (repeat' split) <;> simp

@[simp] theorem outWf_pushHold {cu b w} : outWf (pushHold s cu b w) = memWf s := by simp [pushHold]

theorem outWf_inletPop {i id inl} (h : memWf s = true) : outWf (inletPop i id inl s) = true :=
  outWf_loadOp h fun _ _ _ _ _ => outWf_withCtx fun _ => by simp [h]

theorem outWf_outIssue {cu b sl x o marker k} (h : memWf s = true) (hk : outWf k = true) : outWf (outIssue s cu b sl x o marker k) = true := by
  unfold outIssue
  split <;> simp [h, hk]

end Sys2Proof.Machine
end

section
/-!
SUPPORT. Canonical memories through the engines and the matrix unit (12, 15).
-/
namespace Sys2Proof.Machine
variable {s : State}

/-! ### Machine/Streams -/

theorem memWf_bufWrite {pkg core b off l} (h : memWf s = true) : memWf (s.bufWrite pkg core b off l) = true := by
  obtain ⟨hm, hb⟩ := Bool.and_eq_true_iff.1 h
  exact Bool.and_eq_true_iff.2 ⟨hm, Memory.wf_writeBytes _ _ _ hb⟩

@[simp] theorem outWf_strmFault {cu b sub} : outWf (strmFault s cu b sub) = memWf s := (rfl)
theorem outWf_strmIssue {i id c} (h : memWf s = true) : outWf (strmIssue i id c s) = true := by simp [strmIssue, h, outWf_storeOp]
@[simp] theorem outWf_goReserve {cu b x id l r} : outWf (goReserve s cu b x id l r) = memWf s := by simp [goReserve]

theorem outWf_sphIssue {i id isOr tree q} (h : memWf s = true) : outWf (sphIssue i id isOr tree q s) = true :=
  outWf_storeOp h fun _ _ _ _ _ => outWf_withCtx fun _ => by simp [h]

@[simp] theorem memWf_putHead {c q op} : memWf (s.putHead c q op) = memWf s := (rfl)
@[simp] theorem memWf_endOp {c q op failed} : memWf (s.endOp c q op failed) = memWf s := by simp [State.endOp]
@[simp] theorem memWf_enqueueOp {c q stamp kind noticed pm} : memWf (s.enqueueOp c q stamp kind noticed pm) = memWf s := (rfl)
@[simp] theorem memWf_issueOp {c q kind noticed pm} : memWf (s.issueOp c q kind noticed pm) = memWf s := (rfl)

@[simp] theorem memWf_halt {c q behind} : memWf (s.halt c q behind) = memWf s := by
  simp only [State.halt]
  (repeat' split) <;> simp

@[simp] theorem memWf_strmCommit {c pm cmd l r} : memWf (s.strmCommit c pm cmd l r) = memWf s := by
  unfold State.strmCommit
  (repeat' split) <;> simp

@[simp] theorem memWf_takeRole {c q k feeds} : memWf (s.takeRole c q k feeds) = memWf s := (rfl)

@[simp] theorem memWf_startOp {c q x op} : memWf (s.startOp c q x op) = memWf s := by
  simp only [State.startOp]
  (repeat' split) <;> simp

@[simp] theorem memWf_parkOp {c q op why felem addr keep} : memWf (s.parkOp c q op why felem addr keep) = memWf s := (rfl)

theorem memWf_engTry {c q x op va len rd wr} {fail : State → Nat → State} {k : State → List Part' → State} (h : memWf s = true)
    (hf : ∀ t why, memWf t = true → memWf (fail t why) = true) (hk : ∀ t ps, memWf t = true → memWf (k t ps) = true) :
    memWf (engTry s c q x op va len rd wr fail k) = true := by
  unfold engTry
  split <;> have ht := (memWf_of_snd_eq ‹_›).trans (memWf_access h)
  · (repeat' split) <;> simp [ht, hf]
  · split
    · exact ht
    · rcases hw : State.waitAt _ _ _ _ with _ | t
      · exact hk _ _ (by simp [ht])
      · exact (memWf_waitAt t hw).trans ht

theorem memWf_engAccess {c q x op va len felem rd wr keep} {k : State → List Part' → State} (h : memWf s = true)
    (hk : ∀ t ps, memWf t = true → memWf (k t ps) = true) : memWf (engAccess s c q x op va len felem rd wr keep k) = true :=
  memWf_engTry h (fun t why ht => by simp [ht]) hk

theorem memWf_engRead {pk ps} {k : State → List Byte → State} (h : memWf s = true) (hk : ∀ bs, memWf (k s bs) = true) :
    memWf (engRead s pk ps k) = true := by
  unfold engRead
  split <;> simp [h, hk]

theorem memWf_engWrite {pk ps bs} (h : memWf s = true) : memWf (engWrite s pk ps bs) = true := by
  induction ps generalizing s bs with
  | nil => exact h
  | cons p r ih =>
    unfold engWrite
    split
    · exact ih (memWf_writeEv h _ ‹_›)
    · simp [h]

theorem memWf_rowStep {c q x op g i a keep} (h : memWf s = true) : memWf (rowStep s c q x op g i a keep) = true :=
  memWf_engAccess h fun _ _ h => memWf_engAccess h fun _ _ h => memWf_engRead h fun _ => memWf_engRead h fun _ => by
    split <;> simp [h]

theorem memWf_activate {c inl x t} (h : memWf s = true) : memWf (s.activate c inl x t) = true := by
  simp only [State.activate]
  (repeat' split) <;> simp [h]

theorem memWf_strmAppend {x w g k el} (h : memWf s = true) : ∀ t ∈ s.strmAppend x w g k el, memWf t = true := by
  simp only [State.strmAppend]
  (repeat' split) <;> simp [h, memWf_activate]

theorem memWf_readStep {c q x op w base g} (h : memWf s = true) : memWf (readStep s c q x op w base g) = true := by
  simp only [readStep]
  (repeat' split) <;> first
    | next ha => simp [memWf_strmAppend h _ ha]
    | (simp [h, memWf_rowStep]; done)
    | exact memWf_engAccess h fun _ _ h => memWf_engRead h fun _ => by simp [h]

theorem memWf_drainItem {c q x op w base g a} (h : memWf s = true) : memWf (drainItem s c q x op w base g a) = true := by
  simp only [drainItem]
  split
  · (repeat' split) <;> simp [h, memWf_amoNow, memWf_engWrite]
  · refine memWf_engAccess h fun _ _ h => ?_
    (repeat' split) <;> simp [h, memWf_amoNow, memWf_engWrite]

theorem memWf_drainStep {c q x op w base g} (h : memWf s = true) : memWf (drainStep s c q x op w base g) = true := by
  simp only [drainStep]
  (repeat' split) <;> simp [h, memWf_rowStep, memWf_drainItem]

theorem memWf_copyBank {x b off} {lost go : State → State} (h : memWf s = true) (hl : memWf (lost s) = true) (hg : memWf (go s) = true) :
    memWf (copyBank s x b off lost go) = true := by
  simp [copyBank, h, hl, hg]

theorem memWf_copyEmpty {c q x op w sw a n} (h : memWf s = true) : memWf (copyEmpty s c q x op w sw a n) = true :=
  memWf_copyBank h (by simp [h]) (by simp [memWf_bufWrite h])

theorem memWf_copyIn {c q x op w base g sw total} (h : memWf s = true) : memWf (copyIn s c q x op w base g sw total) = true := by
  simp only [copyIn]
  split
  · exact memWf_copyEmpty h
  · split
    · exact h
    · exact memWf_engTry h (fun _ _ h => by split <;> simp [h, memWf_copyEmpty]) fun _ _ h => memWf_engRead h fun _ => by simp [h]

theorem memWf_copyWrite {c q x op e sw as} (h : memWf s = true) : memWf (copyWrite s c q x op e sw as) = true := by
  cases as with
  | nil => exact h
  | cons a as => exact memWf_engAccess h fun _ _ h => by simp [memWf_engWrite h]

theorem memWf_copyOut {c q x op w base g sw total} (h : memWf s = true) : memWf (copyOut s c q x op w base g sw total) = true := by
  simp only [copyOut]
  (repeat' split) <;> simp [h, memWf_copyBank, memWf_copyWrite]

theorem memWf_copyStep {c q x op w base g} (h : memWf s = true) : memWf (copyStep s c q x op w base g) = true := by
  unfold copyStep
  split <;> simp [h, memWf_copyIn, memWf_copyOut]

theorem memWf_maskRead {c q x op a as} {k : State → List Word → State} (h : memWf s = true)
    (hk : ∀ t vs, memWf t = true → memWf (k t vs) = true) : memWf (maskRead s c q x op a as k) = true :=
  memWf_engAccess h fun _ _ ht => memWf_engRead ht fun _ => hk _ _ ht

theorem memWf_maskRead_putHead {c q x op a as} {f : List Word → StrmOp} (h : memWf s = true) :
    memWf (maskRead s c q x op a as fun s vs => s.putHead c q (f vs)) = true := memWf_maskRead h fun _ _ h => by simp [h]

theorem memWf_maskFetch {c q x op tree base n j m put} (h : memWf s = true) : memWf (maskFetch s c q x op tree base n j m put) = true := by
  simp only [maskFetch]
  (repeat' split) <;> simp [h, memWf_maskRead_putHead]

theorem memWf_sphHeaders {c q x op l r} (h : memWf s = true) : memWf (sphHeaders s c q x op l r) = true :=
  memWf_maskRead h fun _ _ h => memWf_maskRead h fun _ _ h => memWf_maskRead h fun _ _ h => memWf_maskRead h fun _ _ h => by
    simp [h]

theorem memWf_sphStep {c q x op isOr tree qn l r} (h : memWf s = true) : memWf (sphStep s c q x op isOr tree qn l r) = true := by
  simp only [sphStep]
  (repeat' split) <;> first
    | next ha => simp [memWf_strmAppend h _ ha]
    | simp [h, memWf_sphHeaders, memWf_maskFetch]

theorem memWf_opStep {c q x op} (h : memWf s = true) : memWf (opStep s c q x op) = true := by
  unfold opStep
  split <;> simp [h, memWf_sphStep, memWf_readStep, memWf_copyStep, memWf_drainStep]

@[simp] theorem memWf_touch {pk} : memWf (s.touch pk) = memWf s := (rfl)

@[simp] theorem memWf_sstatAct {c q resume} : memWf (s.sstatAct c q resume) = memWf s := by
  unfold State.sstatAct
  (repeat' split) <;> simp

/-! ### Machine/Matrix -/

@[simp] theorem memWf_shapeCommit {c tile k v} : memWf (s.shapeCommit c tile k v) = memWf s := (rfl)

theorem outWf_shapeIssue {i id tile sh} (h : memWf s = true) : outWf (shapeIssue i id tile sh s) = true :=
  outWf_storeOp h fun _ _ _ _ _ => outWf_withCtx fun _ => by simp [h]

theorem outWf_stepIssue {i id k dat} (h : memWf s = true) : outWf (stepIssue i id k dat s) = true :=
  outWf_actOp h fun _ _ _ _ _ => outWf_withCtx fun _ => by simp [h]

theorem outWf_mxIssue {i id f} (h : memWf s = true) : outWf (mxIssue i id f s) = true :=
  outWf_storeOp h fun _ _ _ _ _ => outWf_withCtx fun _ => by (repeat' split) <;> simp [h]

@[simp] theorem memWf_mxCommit {c x act m} : memWf (s.mxCommit c x act m) = memWf s := by
  simp only [State.mxCommit]
  split
  · rfl
  · simp

@[simp] theorem memWf_putMx {c op} : memWf (s.putMx c op) = memWf s := (rfl)
@[simp] theorem memWf_mxEnd {c op failed} : memWf (s.mxEnd c op failed) = memWf s := by simp [State.mxEnd]
@[simp] theorem memWf_mxFlags {c f} : memWf (s.mxFlags c f) = memWf s := (rfl)

theorem memWf_mmaGroup {c x op ty sat acc as ws} (h : memWf s = true) : memWf (s.mmaGroup c x op ty sat acc as ws) = true := by
  simp only [State.mmaGroup, memWf_ite, memWf_mxEnd, memWf_putMx, memWf_updCtx, memWf_mxFlags, memWf_drawBits, ite_self]
  exact memWf_foldl (fun _ _ => memWf_bufWrite) _ _ h

theorem memWf_mmaStep {c x op ty sat acc a w} (h : memWf s = true) : memWf (mmaStep s c x op ty sat acc a w) = true := by
  simp only [mmaStep]
  (repeat' split) <;> simp [h, memWf_mmaGroup]

theorem memWf_mmaGStep {c x op ty sat acc idx w} (h : memWf s = true) : memWf (mmaGStep s c x op ty sat acc idx w) = true := by
  simp only [mmaGStep]
  (repeat' split) <;> simp [h, memWf_mmaGroup]

theorem outWf_withMx {f : Nat → Ctx → MxOp → State} (h : memWf s = true) (hf : ∀ c x op, memWf (f c x op) = true) : outWf (withMx s f) = true := by
  unfold withMx
  (repeat' split) <;> simp [h, hf]

theorem memWf_tmovStep {c x op tr src dst sd dd} (h : memWf s = true) : memWf (tmovStep s c x op tr src dst sd dd) = true := by
  unfold tmovStep
  split
  · simp only [memWf_mxEnd, memWf_mxFlags]
    exact memWf_foldl (fun _ _ => memWf_bufWrite) _ _ h
  · simp [h]

@[simp] theorem memWf_accstStep {c x op acc st} : memWf (accstStep s c x op acc st) = memWf s := by
  unfold accstStep
  (repeat' split) <;> simp

@[simp] theorem memWf_mxprogAct {c resume} : memWf (s.mxprogAct c resume) = memWf s := by
  unfold State.mxprogAct
  (repeat' split) <;> simp

@[simp] theorem memWf_arriveRd {cu b} : memWf (s.arriveRd cu b).2 = memWf s := by simp [State.arriveRd]

end Sys2Proof.Machine
end

section
/-!
SUPPORT. Canonical memories through control registers, kernels, fetch, dispatch and commit (02, 03, 13, 16).
-/
namespace Sys2Proof.Machine
variable {s : State}

/-! ### Machine/Barrier -/

theorem outWf_barIssue {i id cmd sc} (h : memWf s = true) : outWf (barIssue i id cmd sc s) = true :=
  outWf_storeOp h fun _ _ _ _ _ => outWf_withCtx fun _ => by simp [h]

@[simp] theorem memWf_bindNow {c tok r entry} : memWf (s.bindNow c tok r entry) = memWf s := by
  unfold State.bindNow
  (repeat' split) <;> simp

@[simp] theorem memWf_barDo {c acc cmd sc unit tok r} : memWf (s.barDo c acc cmd sc unit tok r) = memWf s := by
  unfold State.barDo
  (repeat' split) <;> simp

@[simp] theorem memWf_barSettle {c tok} : memWf (s.barSettle c tok) = memWf s := by
  unfold State.barSettle
  (repeat' split) <;> simp

@[simp] theorem memWf_sigDo {c tok v} : memWf (s.sigDo c tok v) = memWf s := by
  unfold State.sigDo
  (repeat' split) <;> simp

@[simp] theorem outWf_waitIssue {cu b f w} : outWf (waitIssue s cu b f w) = memWf s := (rfl)
@[simp] theorem memWf_wstCancel {c} : memWf (s.wstCancel c) = memWf s := (rfl)

/-! ### Machine/Creg -/

@[simp] theorem memWf_asnWrite {c v} : memWf (s.asnWrite c v) = memWf s := (rfl)
@[simp] theorem memWf_winWrite {k w} : memWf (s.winWrite k w) = memWf s := by simp [State.winWrite]
@[simp] theorem memWf_qErr {k e} : memWf (s.qErr k e) = memWf s := (rfl)
@[simp] theorem memWf_qOpen {k} : memWf (s.qOpen k) = memWf s := by simp [State.qOpen]

@[simp] theorem memWf_qSeal {k} : memWf (s.qSeal k) = memWf s := by
  simp only [State.qSeal]
  (repeat' split) <;> simp

@[simp] theorem memWf_qClose {k} : memWf (s.qClose k) = memWf s := by simp [State.qClose]

@[simp] theorem memWf_qctlWrite {k v} : memWf (s.qctlWrite k v) = memWf s := by
  unfold State.qctlWrite
  split <;> simp

@[simp] theorem memWf_qrndWrite {k v} : memWf (s.qrndWrite k v) = memWf s := by simp [State.qrndWrite]
@[simp] theorem memWf_qcaskWrite {k v} : memWf (s.qcaskWrite k v) = memWf s := by simp [State.qcaskWrite]
@[simp] theorem memWf_kDone {c} : memWf (s.kDone c) = memWf s := (rfl)

@[simp] theorem memWf_kFence {c} : memWf (s.kFence c) = memWf s := by
  unfold State.kFence
  split <;> simp

theorem memWf_kFault {c code} (h : memWf s = true) : memWf (s.kFault c code) = true := by
  unfold State.kFault
  split <;> simp [h, memWf_kernFault]

theorem memWf_kctlWrite {c v} (h : memWf s = true) : memWf (s.kctlWrite c v) = true := by
  unfold State.kctlWrite
  split <;> simp [h, memWf_kFault]

@[simp] theorem memWf_ptcfgWrite {pk v} : memWf (s.ptcfgWrite pk v) = memWf s := by simp [State.ptcfgWrite]
@[simp] theorem memWf_rxWrite {k v} : memWf (s.rxWrite k v) = memWf s := by simp [State.rxWrite]

@[simp] theorem memWf_rxselWrite {c v} : memWf (s.rxselWrite c v) = memWf s := by
  unfold State.rxselWrite
  split <;> simp

theorem memWf_crObjPut {c x n v} (h : memWf s = true) : memWf (s.crObjPut c x n v) = true := by simp [State.crObjPut, h, memWf_kctlWrite]
@[simp] theorem memWf_cregApply {c n v} : memWf (s.cregApply c n v) = memWf s := by simp [State.cregApply]

theorem memWf_crWrite {c n v} (h : memWf s = true) : memWf (s.crWrite c n v) = true := by
  unfold State.crWrite
  split <;> simp [h, memWf_crObjPut]

/-! ### Machine/Place -/

theorem memWf_vput {w va v} (h : memWf s = true) : memWf (s.vput w va v) = true := by
  unfold State.vput
  split <;> have ht := (memWf_of_snd_eq ‹_›).trans (memWf_access h)
  · exact ht
  · exact memWf_engWrite ht

theorem memWf_seatCtxs {kk k grp g3 g4 l idx mem} (h : memWf s = true) : memWf (s.seatCtxs kk k grp g3 g4 l idx mem).1 = true := by
  induction l generalizing s idx mem with
  | nil => exact h
  | cons e r ih =>
    unfold State.seatCtxs
    refine ih ?_
    split <;> simp [h, memWf_bufWrite]

theorem memWf_addGroup {kk k gnum lvl die t idx g3 g4} (h : memWf s = true) : memWf (s.addGroup kk k gnum lvl die t idx g3 g4) = true := by
  simp [State.addGroup, h, memWf_seatCtxs]

/-! ### Machine/Kernel -/

@[simp] theorem memWf_tailOn {pk n fuel} : memWf (s.tailOn pk n fuel) = memWf s := by
  induction fuel generalizing s with
  | zero => rfl
  | succ fuel ih =>
    simp only [State.tailOn]
    split <;> simp [ih]

@[simp] theorem memWf_accept {pk n k} : memWf (s.accept pk n k) = memWf s := by simp [State.accept]

@[simp] theorem memWf_launchDo {c pm n va pa} : memWf (s.launchDo c pm n va pa) = memWf s := by
  unfold State.launchDo
  split <;> simp

theorem memWf_placeGroups {kk k l gi idx} (h : memWf s = true) : ∀ t ∈ s.placeGroups kk k l gi idx, memWf t = true := by
  induction l generalizing s gi idx with
  | nil => rintro _ ⟨⟩; exact h
  | cons e r ih =>
    unfold State.placeGroups
    split
    · simp
    · split
      · simp
      · exact ih (memWf_addGroup h)

theorem memWf_openQueues {pk die l} : ∀ t ∈ s.openQueues pk die l, memWf t = memWf s := by
  induction l generalizing s with
  | nil => rintro _ ⟨⟩; rfl
  | cons e r ih =>
    unfold State.openQueues
    split
    · simp
    · intro t ht
      simp [ih t ht]

theorem memWf_fencePages {pk asn l} (h : memWf s = true) : memWf (s.fencePages pk asn l) = true := by
  refine memWf_foldl (fun s va h => ?_) _ _ h
  split <;> simp [h, memWf_setPageState]

theorem memWf_pinPages {pk asn l} (h : memWf s = true) : memWf (s.pinPages pk asn l) = true := by
  refine memWf_foldl (fun s va h => ?_) _ _ h
  split <;> simp [h, memWf_setPte]

@[simp] theorem memWf_headOn {kk} : memWf (s.headOn kk) = memWf s := (rfl)

theorem memWf_place {kk k p} (h : memWf s = true) : memWf (s.place kk k p) = true := by
  simp only [State.place]
  split
  · simp [h]
  · next hg =>
    have ht := memWf_placeGroups (by simp [h]) _ hg
    split
    · simp [h, memWf_kernFault]
    · next hq =>
      have hu := (memWf_openQueues _ hq).trans ht
      simp [memWf_pinPages, memWf_fencePages hu]

/-- What a device unit reads leaves a state that differs, where the placement waits, in a page asked for alone. -/
theorem memWf_placed_of {α β : Type} {pk} {r : Except Fail α} {f : α → Placed β} (hf : ∀ a t, f a = .wait t → memWf t = memWf s) :
    ∀ t, Placed.of s pk r f = .wait t → memWf t = memWf s := by
  intro t
  unfold Placed.of
  split
  · exact hf _ _
  · split
    · split
      · simp
      · rintro ⟨⟩
        simp
    · split <;> simp

theorem memWf_planOf {pk k qt ep ft} : ∀ t, s.planOf pk k qt ep ft = .wait t → memWf t = memWf s := by
  simp only [State.planOf]
  split
  · split
    · simp
    · refine memWf_placed_of fun _ => ?_
      split
      · simp
      · exact memWf_placed_of (by simp)
  · simp

theorem memWf_plan {pk k} : ∀ t, s.plan pk k = .wait t → memWf t = memWf s := by
  simp only [State.plan]
  split
  · simp
  split
  · simp
  · exact memWf_placed_of fun _ => memWf_placed_of fun _ => memWf_placed_of fun _ => memWf_planOf

theorem memWf_placeHead {pk n} (h : memWf s = true) : memWf (s.placeHead pk n) = true := by
  simp only [State.placeHead]
  (repeat' split) <;> first
    | next hp => simp [(memWf_plan _ hp).trans h]
    | simp [h, memWf_kernFault, memWf_place]

theorem memWf_putDone {kk k status} (h : memWf s = true) : memWf (s.putDone kk k status) = true := by simp [State.putDone, h, memWf_vput]

theorem memWf_finish {kk} (h : memWf s = true) : memWf (s.finish kk) = true := by
  simp only [State.finish]
  split
  · exact h
  · split
    · simp only [memWf_endKern]
      exact memWf_putDone (memWf_unpinCode (memWf_promoteAll (by simp [h])))
    · split <;> simp [h, memWf_putDone]

theorem memWf_finishOr {kk} (h : memWf s = true) : memWf (s.finishOr kk).2 = true := by
  simp only [State.finishOr]
  (repeat' split) <;> simp [h, memWf_finish]

@[simp] theorem memWf_keepOn {pk n fuel} : memWf (s.keepOn pk n fuel) = memWf s := by
  induction fuel generalizing s with
  | zero => rfl
  | succ fuel ih =>
    simp only [State.keepOn]
    split <;> simp [ih]

@[simp] theorem memWf_trimJournals {pk r} : memWf (s.trimJournals pk r) = memWf s := by simp [State.trimJournals]
@[simp] theorem memWf_recordBytes {pk r} : memWf (s.recordBytes pk r).2 = memWf s := by simp [State.recordBytes]
theorem memWf_writeRecord {pk r} (h : memWf s = true) : memWf (s.writeRecord pk r) = true := by simp [State.writeRecord, h, memWf_unitWrite]

theorem memWf_finishAll {pk l} (h : memWf s = true) : memWf (s.finishAll pk l).2 = true := by
  induction l generalizing s with
  | nil => exact h
  | cons e r ih => exact ih (memWf_finishOr h)

theorem memWf_fenceEnd {pk l} (h : memWf s = true) : memWf (s.fenceEnd pk l) = true := by simp [State.fenceEnd, h, memWf_finishAll]

theorem memWf_fenceDone {pk} (h : memWf s = true) : memWf (s.fenceDone pk) = true := by
  simp only [State.fenceDone]
  (repeat' split) <;> simp [h, memWf_fenceEnd]

theorem memWf_fenceBegin {pk} (h : memWf s = true) : memWf (s.fenceBegin pk) = true := by
  simp [State.fenceBegin, h, memWf_fenceEnd, memWf_writeRecord]

/-! ### Machine/Fetch -/

@[simp] theorem memWf_code {w u va} : memWf (s.code w u va).2 = memWf s := by simp [State.code]

@[simp] theorem memWf_codeBytes {w u va len fuel} : memWf (s.codeBytes w u va len fuel).2 = memWf s := by
  induction fuel generalizing s va len with
  | zero => rfl
  | succ fuel ih =>
    simp only [State.codeBytes]
    split
    · rfl
    split
    · next hc => exact (memWf_of_snd_eq hc).trans memWf_code
    · next hc =>
      have ht := (memWf_of_snd_eq hc).trans memWf_code
      split <;> next hr => exact ((memWf_of_snd_eq hr).trans ih).trans ht

@[simp] theorem memWf_fetchAt {w u va} : memWf (s.fetchAt w u va).2 = memWf s := by
  simp only [State.fetchAt]
  split
  · rfl
  split
  · next hh => exact (memWf_of_snd_eq hh).trans memWf_codeBytes
  · next hh =>
    have ht := (memWf_of_snd_eq hh).trans memWf_codeBytes
    split
    · exact ht
    split
    · exact ht
    split
    · exact ht
    split
    · next hb => exact ((memWf_of_snd_eq hb).trans memWf_codeBytes).trans ht
    · next hb =>
      have hu := ((memWf_of_snd_eq hb).trans memWf_codeBytes).trans ht
      split
      · exact hu
      split
      · exact hu
      split <;> exact hu

@[simp] theorem memWf_fetchFails {c u x a e} : memWf (s.fetchFails c u x a e) = memWf s := by
  unfold State.fetchFails
  split <;> simp

@[simp] theorem memWf_fetchSettled {c u x a} : memWf (fetchSettled s c u x a) = memWf s := by
  unfold fetchSettled
  split <;> simp [memWf_of_snd_eq ‹_›]

@[simp] theorem memWf_fetchAhead {c u x a firing} : memWf (fetchAhead s c u x a firing) = memWf s := by
  simp only [fetchAhead]
  split
  · next hf => simp [memWf_of_snd_eq hf]
  · next hf => simp [memWf_of_snd_eq hf]
  · rfl
  · next hf => simp [memWf_of_snd_eq hf]

/-! ### Machine/Fire -/

@[simp] theorem memWf_beginHold {c u sh} : memWf (s.beginHold c u sh) = memWf s := by
  unfold State.beginHold
  split <;> simp

@[simp] theorem memWf_episode {k} : memWf (s.episode k) = memWf s := by
  unfold State.episode
  (repeat' split) <;> simp

@[simp] theorem memWf_decided {d} : memWf (s.decided d) = memWf s := (rfl)

@[simp] theorem memWf_dispatch {f c u} : memWf (s.dispatch f c u) = memWf s := by
  simp only [State.dispatch]
  (repeat' split) <;> simp

@[simp] theorem memWf_decideIn {f l} : memWf (s.decideIn f l) = memWf s := by
  simp only [State.decideIn]
  (repeat' split) <;> simp

@[simp] theorem memWf_reclaim {d} : memWf (s.reclaim d) = memWf s := by
  simp only [State.reclaim]
  (repeat' split) <;> simp

/-! ### Machine/Commit -/

@[simp] theorem memWf_pushPath {c e} : memWf (s.pushPath c e) = memWf s := (rfl)

theorem memWf_commitEff {b e} {t : State × List Late} (h : memWf t.1 = true) : memWf (State.commitEff b t e).1 = true := by
  simp only [State.commitEff]
  split <;> (repeat' split) <;> simp [h, memWf_crWrite]

@[simp] theorem memWf_commitTake {x c t} : memWf (s.commitTake x c t) = memWf s := by
  unfold State.commitTake
  split <;> simp

theorem memWf_commitLate {b x l} (h : memWf s = true) : memWf (s.commitLate b x l) = true := by
  unfold State.commitLate
  split <;> simp [h, memWf_crWrite]

@[simp] theorem memWf_commitFence {b x below e} : memWf (s.commitFence b x below e) = memWf s := by
  unfold State.commitFence
  split <;> simp

@[simp] theorem memWf_commitInit {b e} : memWf (s.commitInit b e) = memWf s := by
  unfold State.commitInit
  split <;> simp

@[simp] theorem memWf_commitSettle {b e} : memWf (s.commitSettle b e) = memWf s := by
  unfold State.commitSettle
  split <;> simp

/-- The effects of a block in order, those that are set aside beside the state. -/
theorem memWf_foldl_commitEff {b} {es : List Eff} {t : State × List Late} (h : memWf t.1 = true) :
    memWf (es.foldl (State.commitEff b) t).1 = true := by
  induction es generalizing t with
  | nil => exact h
  | cons e es ih => exact ih (memWf_commitEff h)

theorem memWf_commitAll {b x} (h : memWf s = true) : memWf (s.commitAll b x) = true := by
  have hl : ∀ (l : List Late) t, memWf t = true → memWf (l.foldl (State.commitLate b x) t) = true := memWf_foldl fun _ _ => memWf_commitLate
  simp [State.commitAll, hl, memWf_foldl_commitEff, h]

@[simp] theorem memWf_pushRet {l a} : memWf (s.pushRet l a).2 = memWf s := by simp [State.pushRet]

@[simp] theorem memWf_popRet {l} : memWf (s.popRet l).2.2 = memWf s := by
  unfold State.popRet
  split <;> simp

@[simp] theorem memWf_follow {c u a} : memWf (s.follow c u a) = memWf s := by
  unfold State.follow
  (repeat' split) <;> simp

@[simp] theorem memWf_succeed {b l exit a} : memWf (s.succeed b l exit a) = memWf s := by
  unfold State.succeed
  split <;> simp

@[simp] theorem memWf_await {b l exit w a} : memWf (s.await b l exit w a) = memWf s := by
  unfold State.await
  split <;> simp

theorem memWf_branchTo {b br} (h : memWf s = true) : memWf (s.branchTo b br) = true := by
  unfold State.branchTo
  (repeat' split) <;> simp [h, memWf_takeFault]

@[simp] theorem memWf_nextRpt {c u} : memWf (s.nextRpt c u) = memWf s := by
  unfold State.nextRpt
  split <;> simp

theorem memWf_commit {f b x br} (h : memWf s = true) : memWf (s.commit f b x br) = true := by simp [State.commit, h, memWf_commitAll, memWf_branchTo]

end Sys2Proof.Machine
end

section
/-!
SUPPORT. Canonical memories through saves, groups, pages, losses, links, virtual devices, store paths and the package (13, 17, 19 to 23).
-/
namespace Sys2Proof.Machine
variable {s : State}

/-! ### Machine/Save -/

theorem memWf_writeImage {x kiln} (h : memWf s = true) : memWf (s.writeImage x kiln) = true := by simp [State.writeImage, h, memWf_unitWrite]
@[simp] theorem memWf_preempt {c} : memWf (s.preempt c) = memWf s := (rfl)

@[simp] theorem memWf_groupSaved {k} : memWf (s.groupSaved k) = memWf s := by
  simp only [State.groupSaved]
  split
  · rfl
  · split <;> simp

theorem memWf_saveCtx {c x kiln} (h : memWf s = true) : memWf (s.saveCtx c x kiln) = true := by simp [State.saveCtx, h, memWf_writeImage]

theorem memWf_restoreCtx {c x pos base} (h : memWf s = true) : memWf (s.restoreCtx c x pos base) = true := by
  simp [State.restoreCtx, h, memWf_bufWrite]

@[simp] theorem memWf_groupBack {k} : memWf (s.groupBack k) = memWf s := by
  unfold State.groupBack
  split <;> simp

/-! ### Machine/Groups -/

theorem outWf_grpIssue {i id c} (h : memWf s = true) : outWf (grpIssue i id c s) = true := by simp [grpIssue, h, outWf_storeOp, outWf_withCtx]
@[simp] theorem memWf_gresPut {c st gnum} : memWf (s.gresPut c st gnum) = memWf s := (rfl)

theorem memWf_grpMake {c x l r} (h : memWf s = true) : memWf (s.grpMake c x l r) = true := by
  simp only [State.grpMake]
  (repeat' split) <;> simp [h, memWf_addGroup]

@[simp] theorem memWf_endCollection {k st} : memWf (s.endCollection k st) = memWf s := by
  unfold State.endCollection
  split
  · rfl
  · simp only [memWf_updGroup, memWf_foldl_eq fun _ _ => memWf_gresPut]

@[simp] theorem memWf_endJoins {k} : memWf (s.endJoins k) = memWf s := by simp [State.endJoins]
@[simp] theorem memWf_bindCount {k n} : memWf (s.bindCount k n) = memWf s := (rfl)

@[simp] theorem memWf_numberMembers {n l i} : memWf (s.numberMembers n l i) = memWf s := by
  induction l generalizing s i with
  | nil => rfl
  | cons c r ih => simp [State.numberMembers, ih]

@[simp] theorem memWf_formGroup {k g ms} : memWf (s.formGroup k g ms) = memWf s := by simp [State.formGroup]
@[simp] theorem memWf_formSplit {k g} : memWf (s.formSplit k g) = memWf s := by simp [State.formSplit]
@[simp] theorem memWf_dropGroup {k} : memWf (s.dropGroup k) = memWf s := by simp [State.dropGroup]
@[simp] theorem memWf_formJoin {k o g h} : memWf (s.formJoin k o g h) = memWf s := by simp [State.formJoin]
@[simp] theorem memWf_collect {k kind partner e} : memWf (s.collect k kind partner e) = memWf s := (rfl)

@[simp] theorem memWf_grpSplit {c x l r} : memWf (s.grpSplit c x l r) = memWf s := by
  simp only [State.grpSplit]
  (repeat' split) <;> simp

@[simp] theorem memWf_grpJoin {c x l r} : memWf (s.grpJoin c x l r) = memWf s := by
  simp only [State.grpJoin]
  (repeat' split) <;> simp

@[simp] theorem memWf_groupFreed {k} : memWf (s.groupFreed k) = memWf s := by
  unfold State.groupFreed
  split <;> simp

@[simp] theorem memWf_grpFree {c x l r} : memWf (s.grpFree c x l r) = memWf s := by
  simp only [State.grpFree]
  (repeat' split) <;> simp

theorem memWf_grpDo {c cmd l r} (h : memWf s = true) : memWf (s.grpDo c cmd l r) = true := by
  unfold State.grpDo
  (repeat' split) <;> simp [h, memWf_grpMake]

@[simp] theorem memWf_cleared {kk} : memWf (s.cleared kk) = memWf s :=
  memWf_foldl_eq (fun _ _ => memWf_foldl_eq (fun _ _ => memWf_updCtx) _ _) _ _

@[simp] theorem memWf_saveGroup {k hold for'} : memWf (s.saveGroup k hold for') = memWf s := by simp [State.saveGroup]

theorem memWf_seatMembers {l ps ts} (h : memWf s = true) : memWf (s.seatMembers l ps ts) = true := by
  induction l generalizing s ps ts with
  | nil => exact h
  | cons e r ih =>
    unfold State.seatMembers
    (repeat' split) <;> first | exact h | exact ih (memWf_restoreCtx h)

theorem memWf_restoreGroup {k g} (h : memWf s = true) : memWf (s.restoreGroup k g) = true := by
  unfold State.restoreGroup
  (repeat' split) <;> simp [h, memWf_seatMembers]

theorem memWf_takeGroup {k g} (h : memWf s = true) : memWf (s.takeGroup k g) = true := by simp [State.takeGroup, h, memWf_restoreGroup]

/-! ### Machine/Pages -/

theorem outWf_pgIssue {i id c z} (h : memWf s = true) : outWf (pgIssue i id c z s) = true := by simp [pgIssue, h, outWf_storeOp, outWf_withCtx]

theorem memWf_mapHashed {pk asn va z r} (h : memWf s = true) : memWf (s.mapHashed pk asn va z r).2 = true := by
  unfold State.mapHashed
  (repeat' split) <;> simp [h, memWf_setPte]

theorem memWf_mapInverted {pk asn va r} (h : memWf s = true) : memWf (s.mapInverted pk asn va r).2 = true := by
  unfold State.mapInverted
  split <;> simp [h, memWf_setAnchor, memWf_poke128]

theorem memWf_deleteEntry {pk l e} (h : memWf s = true) : memWf (s.deleteEntry pk l e) = true := by
  unfold State.deleteEntry
  split <;> simp [h, memWf_setPte, memWf_poke128, memWf_unchain]

theorem memWf_pgPromote {pk asn va z} (h : memWf s = true) : memWf (s.pgPromote pk asn va z).2 = true := by
  simp only [State.pgPromote]
  (repeat' split) <;> first | exact h | exact memWf_foldl (fun _ _ => memWf_deleteEntry) _ _ (memWf_setPte h)

theorem memWf_pgOn {pk c va l e} (h : memWf s = true) : memWf (s.pgOn pk c va l e).2 = true := by
  unfold State.pgOn
  split <;> simp [h, memWf_deleteEntry, memWf_setPte, memWf_setPageState]

theorem memWf_pgRun {pk c z l r} (h : memWf s = true) : memWf (s.pgRun pk c z l r).2 = true := by
  simp only [State.pgRun]
  (repeat' split) <;> simp [h, memWf_mapInverted, memWf_mapHashed, memWf_pgPromote, memWf_pgOn]

theorem memWf_pgDo {c cmd z l r} (h : memWf s = true) : memWf (s.pgDo c cmd z l r) = true := by
  unfold State.pgDo
  split <;> simp [h, memWf_pgRun]

@[simp] theorem memWf_xshootDo {c z l r} : memWf (s.xshootDo c z l r) = memWf s := by
  unfold State.xshootDo
  split <;> simp

@[simp] theorem memWf_mbEnd {k why} : memWf (s.mbEnd k why) = memWf s := (rfl)
@[simp] theorem memWf_endKey {k i} : memWf (s.endKey k i) = memWf s := (rfl)

/-! ### Machine/Loss -/

theorem memWf_poisonPages {pk f} (h : memWf s = true) : memWf (s.poisonPages pk f) = true :=
  memWf_foldl (fun _ _ h => by split <;> simp [h, memWf_setPageState]) _ _ h

theorem memWf_poisonMoving {pk f} (h : memWf s = true) : memWf (s.poisonMoving pk f) = true := by simp [State.poisonMoving, h, memWf_poisonPages]
@[simp] theorem memWf_releaseBanks {pk} : memWf (s.releaseBanks pk) = memWf s := (rfl)
@[simp] theorem memWf_vacate {pk} : memWf (s.vacate pk) = memWf s := by simp [State.vacate]
@[simp] theorem memWf_strike {pk covered} : memWf (s.strike pk covered) = memWf s := by simp [State.strike]

theorem memWf_loseRange {k die lo len} (h : memWf s = true) : memWf (s.loseRange k die lo len) = true :=
  memWf_foldl (fun _ _ h => by simp [memWf_poisonPages h]) _ _ h

theorem memWf_loseMoving {k lo len} (h : memWf s = true) : memWf (s.loseMoving k lo len) = true :=
  memWf_foldl (fun _ _ => memWf_poisonMoving) _ _ h

theorem memWf_loseDie {k d} (h : memWf s = true) : memWf (s.loseDie k d) = true := by simp [State.loseDie, h, memWf_loseMoving, memWf_loseRange]
theorem memWf_loseStack {k t} (h : memWf s = true) : memWf (s.loseStack k t) = true := by simp [State.loseStack, h, memWf_loseMoving, memWf_loseRange]
@[simp] theorem memWf_loseSlot {pk other} : memWf (s.loseSlot pk other) = memWf s := by simp [State.loseSlot]
theorem memWf_loseSource {pk} (h : memWf s = true) : memWf (s.loseSource pk) = true := by simp [State.loseSource, h, memWf_poisonMoving]

theorem memWf_losePackage {k} (h : memWf s = true) : memWf (s.losePackage k) = true := by
  simp only [State.losePackage]
  split
  · exact h
  · exact memWf_foldl (fun _ _ => memWf_loseSource) _ _ (by simp [h])

/-! ### Machine/Links -/

theorem outWf_lnkIssue {i id c cls} (h : memWf s = true) : outWf (lnkIssue i id c cls s) = true := by simp [lnkIssue, h, outWf_storeOp, outWf_withCtx]

@[simp] theorem memWf_chooseLink {k} : memWf (s.chooseLink k) = memWf s := by
  simp only [State.chooseLink]
  (repeat' split) <;> simp

@[simp] theorem memWf_reroute {k} : memWf (s.reroute k) = memWf s := by simp [State.reroute]
theorem memWf_goDown {k why} (h : memWf s = true) : memWf (s.goDown k why) = true := by simp [State.goDown, h, memWf_losePackage]
@[simp] theorem memWf_train {k st} : memWf (s.train k st) = memWf s := (rfl)
@[simp] theorem memWf_lnresPut {c st} : memWf (s.lnresPut c st) = memWf s := (rfl)

theorem memWf_lnkState {c x cmd k} (h : memWf s = true) : memWf (s.lnkState c x cmd k) = true := by
  unfold State.lnkState
  (repeat' split) <;> simp [h, memWf_goDown]

@[simp] theorem memWf_lnkChain {c x cls v} : memWf (s.lnkChain c x cls v) = memWf s := by simp [State.lnkChain]

@[simp] theorem memWf_endChain {k} : memWf (s.endChain k) = memWf s := by
  simp only [State.endChain]
  (repeat' split) <;> simp

@[simp] theorem memWf_lnkUnchain {c x v} : memWf (s.lnkUnchain c x v) = memWf s := by
  simp only [State.lnkUnchain]
  (repeat' split) <;> simp

theorem memWf_lnkDo {c cmd cls v} (h : memWf s = true) : memWf (s.lnkDo c cmd cls v) = true := by
  unfold State.lnkDo
  (repeat' split) <;> simp [h, memWf_lnkState]

@[simp] theorem memWf_chainLand {k c e} : memWf (s.chainLand k c e).1 = memWf s := by
  unfold State.chainLand
  split <;> simp

@[simp] theorem memWf_chainFill {k c n} : memWf (s.chainFill k c n).1 = memWf s := by
  induction n generalizing s c with
  | zero => rfl
  | succ n ih =>
    unfold State.chainFill
    split <;> simp [ih]

theorem memWf_evict {k rk} : ∀ t ∈ s.evict k rk, memWf t = memWf s := by
  simp only [State.evict]
  split
  · simp
  split
  · simp
  · rintro _ ⟨⟩
    split <;> simp

@[simp] theorem memWf_evictFor {k rk n fuel} : memWf (s.evictFor k rk n fuel) = memWf s := by
  induction fuel generalizing s with
  | zero => rfl
  | succ fuel ih =>
    unfold State.evictFor
    split
    · rfl
    · split
      · exact ih.trans (memWf_evict _ ‹_›)
      · rfl

@[simp] theorem memWf_classify {rk fr} : memWf (s.classify rk fr) = memWf s := by simp [State.classify]

/-! ### Machine/Vd -/

theorem outWf_vdIssue {i id c} (h : memWf s = true) : outWf (vdIssue i id c s) = true := by simp [vdIssue, h, outWf_storeOp, outWf_withCtx]
@[simp] theorem memWf_giveBanks {pk a} : memWf (s.giveBanks pk a) = memWf s := by simp [State.giveBanks]
@[simp] theorem memWf_rekey {a b} : memWf (s.rekey a b) = memWf s := (rfl)
theorem memWf_carryFrames {a b l} (h : memWf s = true) : memWf (s.carryFrames a b l) = true := memWf_foldl (fun _ _ => memWf_carry) _ _ h

theorem memWf_carryInv {a b} (h : memWf s = true) : memWf (s.carryInv a b) = true := by
  refine memWf_foldl (fun s e h => ?_) _ _ h
  split <;> simp [h, memWf_poke128]

theorem memWf_carryBanks {a b} (h : memWf s = true) : memWf (s.carryBanks a b) = true :=
  memWf_foldl (fun _ _ => memWf_bufWrite) _ _ h

theorem memWf_carryDevice {a b sent ms} (h : memWf s = true) : memWf (s.carryDevice a b sent ms) = true := by
  refine memWf_foldl (fun _ _ => memWf_setPte) _ _ (memWf_carryBanks ?_)
  simp [memWf_carryInv, memWf_carryFrames h]

@[simp] theorem memWf_unfreeze {pk} : memWf (s.unfreeze pk) = memWf s := (rfl)
theorem memWf_transfer {a b} (h : memWf s = true) : memWf (s.transfer a b) = true := by simp [State.transfer, h, memWf_carryDevice]
@[simp] theorem memWf_vdOut {c st} : memWf (s.vdOut c st) = memWf s := (rfl)
@[simp] theorem memWf_vdQuiesce {c pk} : memWf (s.vdQuiesce c pk) = memWf s := by simp [State.vdQuiesce]
@[simp] theorem memWf_vdSend {c pk v} : memWf (s.vdSend c pk v) = memWf s := by simp [State.vdSend]
@[simp] theorem memWf_vdResume {c pk} : memWf (s.vdResume c pk) = memWf s := by simp [State.vdResume]
@[simp] theorem memWf_vdRelease {c pk} : memWf (s.vdRelease c pk) = memWf s := by simp [State.vdRelease]

theorem memWf_rebuild {c a b} (h : memWf s = true) : memWf (s.rebuild c a b) = true := by
  simp [State.rebuild, memWf_poisonPages, memWf_carryInv, memWf_carryFrames h]

theorem memWf_vdReplay {c pk v} (h : memWf s = true) : memWf (s.vdReplay c pk v) = true := by
  simp only [State.vdReplay]
  (repeat' split) <;> simp [h, memWf_rebuild]

theorem memWf_vdDo {c cmd v} (h : memWf s = true) : memWf (s.vdDo c cmd v) = true := by
  unfold State.vdDo
  (repeat' split) <;> simp [h, memWf_vdReplay]

theorem memWf_arrivePage {b src m} (h : memWf s = true) : memWf (s.arrivePage b src m) = true := by
  simp only [State.arrivePage, memWf_setPart]
  split
  · simp only [memWf_shootPte]
    exact memWf_setPte (memWf_foldl (fun _ _ => memWf_carry) _ _ h)
  · exact memWf_foldl (fun _ _ => memWf_carry) _ _ h

theorem memWf_returnKern {kk} (h : memWf s = true) : memWf (s.returnKern kk) = true := by
  unfold State.returnKern
  split <;> simp [h, memWf_unpinCode, memWf_dropShadows]

theorem memWf_restoreLq {pk r n} (h : memWf s = true) : memWf (s.restoreLq pk r n) = true := by
  simp only [State.restoreLq, memWf_keepOn, memWf_tailOn, memWf_setPart]
  exact memWf_foldl (fun _ _ => memWf_returnKern) _ _ h

@[simp] theorem memWf_reopen {pk f ks r} : memWf (s.reopen pk f ks r) = memWf s := (rfl)

theorem memWf_replayEnd {pk r} (h : memWf s = true) : memWf (s.replayEnd pk r) = true := by
  simp only [State.replayEnd, memWf_vdEnd, memWf_setPart]
  refine (memWf_foldl_eq (fun _ _ => memWf_reopen) _ _).trans ?_
  exact memWf_foldl (fun _ _ => memWf_restoreLq) _ _ (memWf_foldl (fun _ _ => memWf_returnKern) _ _ (memWf_finishAll h))

@[simp] theorem memWf_asRecorded {pk r} : memWf (s.asRecorded pk r) = memWf s := by simp [State.asRecorded]

/-! ### Machine/Path -/

@[simp] theorem memWf_leaseHold {c line tr cycles} : memWf (s.leaseHold c line tr cycles) = memWf s := (rfl)

@[simp] theorem memWf_leaseTick {c} : memWf (s.leaseTick c) = memWf s := by
  unfold State.leaseTick
  (repeat' split) <;> simp

@[simp] theorem memWf_leaseDo {c x line tr va cycles} : memWf (s.leaseDo c x line tr va cycles) = memWf s := by
  simp only [State.leaseDo]
  (repeat' split) <;> simp

@[simp] theorem memWf_unleaseDo {c line} : memWf (s.unleaseDo c line) = memWf s := by simp [State.unleaseDo]
@[simp] theorem memWf_dropEnt {c stamp} : memWf (s.dropEnt c stamp) = memWf s := (rfl)
@[simp] theorem memWf_setEnt {c stamp f} : memWf (s.setEnt c stamp f) = memWf s := (rfl)

theorem memWf_storeStep {c x e evs} (h : memWf s = true) : memWf (s.storeStep c x e evs) = true := by
  simp only [State.storeStep]
  split
  · simp [h]
  split
  · exact h
  split
  · next hw => exact (memWf_waitAt _ hw).trans h
  split
  · simp [h]
  split
  · simp [h]
  · next hw =>
    have ht := memWf_writeEv (by simp [h]) _ hw
    simp [ht]

theorem memWf_cmdDo {c f} (h : memWf s = true) : memWf (s.cmdDo c f) = true := by
  unfold State.cmdDo
  split <;> simp [h, memWf_grpDo, memWf_pgDo, memWf_lnkDo, memWf_vdDo]

theorem memWf_pathStep {c x e} (h : memWf s = true) : memWf (s.pathStep c x e) = true := by
  unfold State.pathStep
  (repeat' split) <;> simp [h, memWf_storeStep, memWf_cmdDo]

@[simp] theorem memWf_adoptBind {c x v} : memWf (s.adoptBind c x v) = memWf s := by simp [State.adoptBind]

/-! ### Machine/Package -/

@[simp] theorem memWf_trainDie : memWf s.trainDie.2 = memWf s := (rfl)
@[simp] theorem memWf_bringUp {p} : memWf (s.bringUp p).2 = memWf s := by simp [State.bringUp]

theorem memWf_clearPkg {k} (h : memWf s = true) : memWf (s.clearPkg k) = true := by
  obtain ⟨hm, hb⟩ := Bool.and_eq_true_iff.1 h
  exact Bool.and_eq_true_iff.2 ⟨Memory.wf_clear _ _ _ hm, Memory.wf_clear _ _ _ hb⟩

theorem memWf_hostPut {k own pa l} (h : memWf s = true) : memWf (s.hostPut k own pa l) = true := by
  unfold State.hostPut
  split <;> simp [h, memWf_twin, memWf_poke]

theorem memWf_hostStore {w k own pa l} (h : memWf s = true) : memWf (s.hostStore w k own pa l) = true := by simp [State.hostStore, h, memWf_hostPut]

theorem memWf_vfStore {k n off l} (h : memWf s = true) : memWf (s.vfStore k n off l) = true := by
  simp only [State.vfStore]
  (repeat' split) <;> simp [h, memWf_hostStore]

@[simp] theorem memWf_pfStore {k off v} : memWf (s.pfStore k off v) = memWf s := by
  unfold State.pfStore
  split <;> simp

theorem outWf_mbDo {code} {f : Nat → MbCmd → State} (h : memWf s = true) (hf : ∀ k c, memWf (f k c) = memWf s) : outWf (mbDo s code f) = true := by
  unfold mbDo
  split <;> simp [h, hf]

@[simp] theorem memWf_mbAssign {k c} : memWf (s.mbAssign k c) = memWf s := by simp [State.mbAssign]

@[simp] theorem memWf_mbClear {k c} : memWf (s.mbClear k c) = memWf s := by
  unfold State.mbClear
  split <;> simp

@[simp] theorem memWf_mbPreempt {k c} : memWf (s.mbPreempt k c) = memWf s := by
  simp only [State.mbPreempt]
  (repeat' split) <;> simp

@[simp] theorem memWf_mbPodmap {k c} : memWf (s.mbPodmap k c) = memWf s := by simp [State.mbPodmap]
@[simp] theorem memWf_mbPortmap {k c} : memWf (s.mbPortmap k c) = memWf s := by simp [State.mbPortmap]
@[simp] theorem memWf_mbPeer {k c} : memWf (s.mbPeer k c) = memWf s := by simp [State.mbPeer]
@[simp] theorem memWf_mbLinkadm {k c} : memWf (s.mbLinkadm k c) = memWf s := by simp [State.mbLinkadm]
@[simp] theorem memWf_mbKeyset {k c} : memWf (s.mbKeyset k c) = memWf s := by simp [State.mbKeyset]
@[simp] theorem memWf_mbKeyinv {k c} : memWf (s.mbKeyinv k c) = memWf s := by simp [State.mbKeyinv]
@[simp] theorem memWf_mbAttest {k c} : memWf (s.mbAttest k c) = memWf s := by simp [State.mbAttest]

/-! ### Machine/Vector -/

theorem outWf_govVec {i f} (h : memWf s = true) : outWf (govVec i f s) = true := by simp [govVec, h, outWf_vecOp]
theorem outWf_binVec {op i v} (h : memWf s = true) : outWf (binVec op i v s) = true := by simp [binVec, h, outWf_govVec]
theorem outWf_map2Vec {i v f} (h : memWf s = true) : outWf (map2Vec i v f s) = true := by simp [map2Vec, h, outWf_govVec]
theorem outWf_freeVec {i f} (h : memWf s = true) : outWf (freeVec i f s) = true := by simp [freeVec, h, outWf_vecOp]
theorem outWf_maskVec {i f} (h : memWf s = true) : outWf (maskVec i f s) = true := by simp [maskVec, h, outWf_plainVec]
theorem outWf_transVec {f i ftz} (h : memWf s = true) : outWf (transVec f i ftz s) = true := by simp [transVec, h, outWf_govVec]

end Sys2Proof.Machine
end

section
/-!
SUPPORT. Canonical memories through the instructions: the arms that no shared operation covers, the events (02 to 23), and `exec` over all of them.
-/
namespace Sys2Proof.Machine
variable {s : State}

/-! ### Instructions -/

theorem outWf_execRead {reg t2 t1} (h : memWf s = true) : outWf (execRead reg t2 t1 s) = true := by simp [execRead, h, outWf_withSlot, outWf_withCtx]

theorem outWf_execXlate {p id wr th t1} (h : memWf s = true) : outWf (execXlate p id wr th t1 s) = true :=
  outWf_withSlot h fun _ _ _ => by (repeat' split) <;> simp [h, outWf_withCtx, memWf_probeAddr h]

theorem outWf_execXprobe {p id wr th t1} (h : memWf s = true) : outWf (execXprobe p id wr th t1 s) = true :=
  outWf_withSlot h fun _ _ _ => by (repeat' split) <;> simp [h, outWf_withCtx, memWf_probeAddr h]

theorem outWf_execPref {l} (h : memWf s = true) : outWf (execPref l s) = true :=
  outWf_withSlot h fun _ _ _ => by (repeat' split) <;> simp [h, outWf_withCtx, memWf_prefSent h]

theorem outWf_execLease {p id cyc} (h : memWf s = true) : outWf (execLease p id cyc s) = true :=
  outWf_storeOp h fun _ _ _ _ _ => outWf_withCtx fun _ => outWf_checked h fun _ _ _ h => by
    split <;> next ht => simp [memWf_of_snd_eq ht, memWf_translate h]

theorem outWf_execUnlease {p id} (h : memWf s = true) : outWf (execUnlease p id s) = true :=
  outWf_storeOp h fun _ _ _ _ _ => outWf_withCtx fun _ => outWf_checked h fun _ _ _ h => by split <;> simp [h]

theorem outWf_execPeek {p id inl t1} (h : memWf s = true) : outWf (execPeek p id inl t1 s) = true :=
  outWf_loadOp h fun _ _ _ _ _ => outWf_withCtx fun _ => by
    simp only
    (repeat' split) <;> simp [h]

theorem outWf_execPeekV {p id inl t1} (h : memWf s = true) : outWf (execPeekV p id inl t1 s) = true :=
  outWf_loadOp h fun _ _ _ _ _ => outWf_withCtx fun _ => by (repeat' split) <;> simp [h]

theorem outWf_execCollect {p id inl t1} (h : memWf s = true) : outWf (execCollect p id inl t1 s) = true :=
  outWf_loadOp h fun _ _ _ _ _ => outWf_withCtx fun _ => by (repeat' split) <;> simp [h]

theorem outWf_execAccrd {p id acc t1} (h : memWf s = true) : outWf (execAccrd p id acc t1 s) = true :=
  outWf_loadOp h fun _ _ _ _ _ => outWf_withCtx fun _ => by
    simp only
    (repeat' split) <;> simp [h]

theorem outWf_execCrwr {p id num} (h : memWf s = true) : outWf (execCrwr p id num s) = true :=
  outWf_storeOp h fun _ _ _ _ _ => outWf_withCtx fun _ => by
    simp only
    (repeat' split) <;> simp [h]

theorem outWf_execLaunch {p id lq} (h : memWf s = true) : outWf (execLaunch p id lq s) = true :=
  outWf_storeOp h fun _ _ _ _ _ => outWf_withCtx fun _ => outWf_checked h fun _ _ _ h => by
    simp only
    (repeat' split) <;> simp [h]

theorem outWf_execMsel {p ty m t1} (h : memWf s = true) : outWf (execMsel p ty m t1 s) = true := by simp [execMsel, h, outWf_withSlot, outWf_vecOp]

/-! ### Events -/

theorem outWf_execLoadPerform (h : memWf s = true) : outWf (execLoadPerform s) = true := by
  unfold execLoadPerform
  (repeat' split) <;> simp [h, outWf_loadNow]

theorem outWf_execAmoHomeUpdate (h : memWf s = true) : outWf (execAmoHomeUpdate s) = true := by
  unfold execAmoHomeUpdate
  (repeat' split) <;> simp [h, memWf_amoNow]

theorem outWf_execStreamStart (h : memWf s = true) : outWf (execStreamStart s) = true := by
  unfold execStreamStart
  (repeat' split) <;> simp [h]

theorem outWf_execStreamItem (h : memWf s = true) : outWf (execStreamItem s) = true := by
  unfold execStreamItem
  (repeat' split) <;> simp [h, memWf_opStep]

theorem outWf_execSstatResume (h : memWf s = true) : outWf (execSstatResume s) = true := by
  unfold execSstatResume
  split <;> simp [h]

theorem outWf_execSstatAbandon (h : memWf s = true) : outWf (execSstatAbandon s) = true := by
  unfold execSstatAbandon
  split <;> simp [h]

theorem outWf_execMmaKGroup (h : memWf s = true) : outWf (execMmaKGroup s) = true :=
  outWf_withMx h fun _ _ _ => by split <;> simp [h, memWf_mmaStep, memWf_mmaGStep]

theorem outWf_execTmovPerform (h : memWf s = true) : outWf (execTmovPerform s) = true :=
  outWf_withMx h fun _ _ _ => by split <;> simp [h, memWf_tmovStep]

theorem outWf_execAcclrPerform (h : memWf s = true) : outWf (execAcclrPerform s) = true :=
  outWf_withMx h fun _ _ _ => by split <;> simp [h, memWf_bufWrite]

theorem outWf_execAccstRowAppend (h : memWf s = true) : outWf (execAccstRowAppend s) = true :=
  outWf_withMx h fun _ _ _ => by split <;> simp [h]

theorem outWf_execMxprogResume (h : memWf s = true) : outWf (execMxprogResume s) = true := by
  unfold execMxprogResume
  split <;> simp [h]

theorem outWf_execMxprogAbandon (h : memWf s = true) : outWf (execMxprogAbandon s) = true := by
  unfold execMxprogAbandon
  split <;> simp [h]

theorem outWf_execAccrdDeliver (h : memWf s = true) : outWf (execAccrdDeliver s) = true := by
  unfold execAccrdDeliver
  (repeat' split) <;> simp [h]

theorem outWf_execWaitEnd (h : memWf s = true) : outWf (execWaitEnd s) = true := by
  unfold execWaitEnd
  (repeat' split) <;> simp [h]

theorem outWf_execWstCancel (h : memWf s = true) : outWf (execWstCancel s) = true := by
  unfold execWstCancel
  split <;> simp [h]

theorem outWf_execAsnWrite (h : memWf s = true) : outWf (execAsnWrite s) = true := by
  unfold execAsnWrite
  split <;> simp [h]

theorem outWf_execXcauseResume (h : memWf s = true) : outWf (execXcauseResume s) = true := by
  unfold execXcauseResume
  split <;> simp [h]

theorem outWf_execQwinDescriptorWrite (h : memWf s = true) : outWf (execQwinDescriptorWrite s) = true := by
  unfold execQwinDescriptorWrite
  split <;> simp [h]

theorem outWf_execQctlOpen (h : memWf s = true) : outWf (execQctlOpen s) = true := by
  unfold execQctlOpen
  split <;> simp [h]

theorem outWf_execQctlSeal (h : memWf s = true) : outWf (execQctlSeal s) = true := by
  unfold execQctlSeal
  split <;> simp [h]

theorem outWf_execQctlClose (h : memWf s = true) : outWf (execQctlClose s) = true := by
  unfold execQctlClose
  split <;> simp [h]

theorem outWf_execKctlDone (h : memWf s = true) : outWf (execKctlDone s) = true := by
  unfold execKctlDone
  split <;> simp [h]

theorem outWf_execKctlFence (h : memWf s = true) : outWf (execKctlFence s) = true := by
  unfold execKctlFence
  split <;> simp [h]

theorem outWf_execKctlFault (h : memWf s = true) : outWf (execKctlFault s) = true := by
  unfold execKctlFault
  split <;> simp [h, memWf_kFault]

theorem outWf_execSgvalWrite (h : memWf s = true) : outWf (execSgvalWrite s) = true := by
  unfold execSgvalWrite
  split <;> simp [h]

theorem outWf_execPtcfgWrite (h : memWf s = true) : outWf (execPtcfgWrite s) = true := by
  unfold execPtcfgWrite
  split <;> simp [h]

theorem outWf_execRxcfgWrite (h : memWf s = true) : outWf (execRxcfgWrite s) = true := by
  unfold execRxcfgWrite
  split <;> simp [h]

theorem outWf_execRxselSnapshot (h : memWf s = true) : outWf (execRxselSnapshot s) = true := by
  unfold execRxselSnapshot
  split <;> simp [h]

theorem outWf_execLaunchAccept (h : memWf s = true) : outWf (execLaunchAccept s) = true := by
  unfold execLaunchAccept
  (repeat' split) <;> simp [h]

theorem outWf_execKernelPlacement (h : memWf s = true) : outWf (execKernelPlacement s) = true := by
  unfold execKernelPlacement
  split <;> simp [h, memWf_placeHead]

theorem outWf_execPartitionFence (h : memWf s = true) : outWf (execPartitionFence s) = true := by
  simp only [execPartitionFence]
  (repeat' split) <;> simp [h, memWf_fenceDone, memWf_fenceEnd, memWf_fenceBegin]

theorem outWf_execBlockFetch (h : memWf s = true) : outWf (execBlockFetch s) = true := by
  simp only [execBlockFetch]
  (repeat' split) <;> simp [h]

theorem outWf_execDispatchDecision (h : memWf s = true) : outWf (execDispatchDecision s) = true := by
  unfold execDispatchDecision
  (repeat' split) <;> simp [h]

theorem outWf_execHeldSlotResume (h : memWf s = true) : outWf (execHeldSlotResume s) = true := by
  unfold execHeldSlotResume
  (repeat' split) <;> simp [h]

theorem outWf_execIncompleteBlockFault (h : memWf s = true) : outWf (execIncompleteBlockFault s) = true := by
  unfold execIncompleteBlockFault
  (repeat' split) <;> simp [h]

theorem outWf_execBlockCommit (h : memWf s = true) : outWf (execBlockCommit s) = true := by
  unfold execBlockCommit
  (repeat' split) <;> simp [h, memWf_commit]

theorem outWf_execTrapEntry (h : memWf s = true) : outWf (execTrapEntry s) = true := by
  unfold execTrapEntry
  (repeat' split) <;> simp [h, memWf_trapEntry, memWf_deliverEvents]

theorem outWf_execStreamFault (h : memWf s = true) : outWf (execStreamFault s) = true := by
  unfold execStreamFault
  (repeat' split) <;> simp [h]

theorem outWf_execPreemptBegin (h : memWf s = true) : outWf (execPreemptBegin s) = true := by
  unfold execPreemptBegin
  (repeat' split) <;> simp [h]

theorem outWf_execDrainComplete (h : memWf s = true) : outWf (execDrainComplete s) = true := by
  unfold execDrainComplete
  (repeat' split) <;> simp [h, memWf_saveCtx]

theorem outWf_execKilnStart (h : memWf s = true) : outWf (execKilnStart s) = true := by
  unfold execKilnStart
  (repeat' split) <;> simp [h]

theorem outWf_execKilnScanComplete (h : memWf s = true) : outWf (execKilnScanComplete s) = true := by
  unfold execKilnScanComplete
  (repeat' split) <;> simp [h, memWf_saveCtx]

theorem outWf_execGroupMemberEnd (h : memWf s = true) : outWf (execGroupMemberEnd s) = true := by
  unfold execGroupMemberEnd
  (repeat' split) <;> simp [h]

theorem outWf_execKernelQuiet (h : memWf s = true) : outWf (execKernelQuiet s) = true := by
  unfold execKernelQuiet
  (repeat' split) <;> simp [h]

theorem outWf_execGroupPreempt (h : memWf s = true) : outWf (execGroupPreempt s) = true := by
  unfold execGroupPreempt
  (repeat' split) <;> simp [h]

theorem outWf_execGroupRestore (h : memWf s = true) : outWf (execGroupRestore s) = true := by
  unfold execGroupRestore
  (repeat' split) <;> simp [h, memWf_takeGroup]

theorem outWf_execContextRestore (h : memWf s = true) : outWf (execContextRestore s) = true := by
  unfold execContextRestore
  (repeat' split) <;> simp [h, memWf_takeGroup]

theorem outWf_execShootDownComplete (h : memWf s = true) : outWf (execShootDownComplete s) = true := by
  unfold execShootDownComplete
  (repeat' split) <;> simp [h]

theorem outWf_execLinkTrainingComplete (h : memWf s = true) : outWf (execLinkTrainingComplete s) = true := by
  unfold execLinkTrainingComplete
  split <;> simp [h]

theorem outWf_execLinkBudgetExpiry (h : memWf s = true) : outWf (execLinkBudgetExpiry s) = true := by
  simp only [execLinkBudgetExpiry]
  (repeat' split) <;> simp [h, memWf_goDown]

theorem outWf_execFlitReplay (h : memWf s = true) : outWf (execFlitReplay s) = true := by
  unfold execFlitReplay
  split <;> simp [h]

theorem outWf_execFarEndLoss (h : memWf s = true) : outWf (execFarEndLoss s) = true := by
  unfold execFarEndLoss
  split <;> simp [h, memWf_goDown]

theorem outWf_execPartLoss (h : memWf s = true) : outWf (execPartLoss s) = true := by
  unfold execPartLoss
  (repeat' split) <;> simp [h, memWf_goDown, memWf_loseDie, memWf_loseStack, memWf_losePackage]

theorem outWf_execChainConfirm (h : memWf s = true) : outWf (execChainConfirm s) = true := by
  simp only [execChainConfirm]
  (repeat' split) <;> simp [h]

theorem outWf_execChainElementSend (h : memWf s = true) : outWf (execChainElementSend s) = true := by
  simp only [execChainElementSend]
  (repeat' split) <;> simp [h]

theorem outWf_execGranuleReceive (h : memWf s = true) : outWf (execGranuleReceive s) = true := by
  unfold execGranuleReceive
  (repeat' split) <;> simp [h]

theorem outWf_execGranuleAck (h : memWf s = true) : outWf (execGranuleAck s) = true := by
  simp only [execGranuleAck]
  (repeat' split) <;> simp [h]

theorem outWf_execFrameReceive (h : memWf s = true) : outWf (execFrameReceive s) = true := by
  simp only [execFrameReceive]
  (repeat' split) <;> simp [h]

theorem outWf_execCaskMove (h : memWf s = true) : outWf (execCaskMove s) = true := by
  simp only [execCaskMove]
  (repeat' split) <;> simp [h]

theorem outWf_execBankDrainDone (h : memWf s = true) : outWf (execBankDrainDone s) = true := by
  unfold execBankDrainDone
  (repeat' split) <;> simp [h]

theorem outWf_execBankScrubDone (h : memWf s = true) : outWf (execBankScrubDone s) = true := by
  obtain ⟨hm, hb⟩ := Bool.and_eq_true_iff.1 h
  unfold execBankScrubDone
  (repeat' split) <;> simp [h, hm, Memory.wf_clear _ _ _ hb]

theorem outWf_execQuiesceComplete (h : memWf s = true) : outWf (execQuiesceComplete s) = true := by
  unfold execQuiesceComplete
  split <;> simp [h]

theorem outWf_execTransferComplete (h : memWf s = true) : outWf (execTransferComplete s) = true := by
  simp only [execTransferComplete]
  (repeat' split) <;> simp [h, memWf_transfer]

theorem outWf_execSweepSend (h : memWf s = true) : outWf (execSweepSend s) = true := by
  simp only [execSweepSend]
  (repeat' split) <;> simp [h]

theorem outWf_execPageArrival (h : memWf s = true) : outWf (execPageArrival s) = true := by
  simp only [execPageArrival]
  (repeat' split) <;> simp [h, memWf_arrivePage]

theorem outWf_execRedirect (h : memWf s = true) : outWf (execRedirect s) = true := by
  unfold execRedirect
  split <;> simp [h]

theorem outWf_execHangDetect (h : memWf s = true) : outWf (execHangDetect s) = true := by
  unfold execHangDetect
  split <;> simp [h]

theorem outWf_execDetectedError (h : memWf s = true) : outWf (execDetectedError s) = true := by
  simp only [execDetectedError]
  (repeat' split) <;> simp [h]

theorem outWf_execReplayComplete (h : memWf s = true) : outWf (execReplayComplete s) = true := by
  simp only [execReplayComplete]
  (repeat' split) <;> simp [h, memWf_replayEnd]

theorem outWf_execLeaseHold (h : memWf s = true) : outWf (execLeaseHold s) = true := by
  unfold execLeaseHold
  (repeat' split) <;> simp [h]

theorem outWf_execLeaseExpiry (h : memWf s = true) : outWf (execLeaseExpiry s) = true := by
  unfold execLeaseExpiry
  split <;> simp [h]

theorem outWf_execStorePathPerform (h : memWf s = true) : outWf (execStorePathPerform s) = true := by
  unfold execStorePathPerform
  (repeat' split) <;> simp [h, memWf_pathStep]

theorem outWf_execCmdqAdopt (h : memWf s = true) : outWf (execCmdqAdopt s) = true := by
  unfold execCmdqAdopt
  (repeat' split) <;> simp [h]

theorem outWf_execDeviceReset (h : memWf s = true) : outWf (execDeviceReset s) = true := by
  unfold execDeviceReset
  split <;> simp [h, memWf_losePackage, memWf_clearPkg]

theorem outWf_execHostWrite (h : memWf s = true) : outWf (execHostWrite s) = true := by
  unfold execHostWrite
  (repeat' split) <;> simp [h, memWf_vfStore, memWf_hostStore]

theorem outWf_execCurrentLimitTrip (h : memWf s = true) : outWf (execCurrentLimitTrip s) = true := by
  unfold execCurrentLimitTrip
  split <;> simp [h]

theorem outWf_execCurrentLimitRelease (h : memWf s = true) : outWf (execCurrentLimitRelease s) = true := by
  unfold execCurrentLimitRelease
  split <;> simp [h]

theorem outWf_execPowerIdleAdjust (h : memWf s = true) : outWf (execPowerIdleAdjust s) = true := by
  unfold execPowerIdleAdjust
  split <;> simp [h]

/-! ### Every arm -/

theorem outWf_exec (i : Instr) (h : memWf s = true) : outWf (exec i s) = true := by
  unfold exec
  cases i with
  | const | constx | mul | mulhS64 | mulhN64 | divS64 | divN64 | remS64 | remN64 | neg | abs | minS64 | maxS64 | minN64 | maxN64 | and | or
  | xor | andn | not | shl | shr | sar | rol | ror | popc | clz | ctz | bswap | sextS8 | sextS16 | sextS32 | zextN8 | zextN16 | zextN32
  | andi | ori | xori | shli | shri | sari => exact outWf_valOp h
  | mov | null | movV | nullV | wsplitB8 | wsplitB16 | wsplitB32 | wjoinB8 | wjoinB16 | wjoinB32 => exact outWf_tokOp h
  | add | sub | leaX1 | leaX2 | leaX4 | leaX8 | addi => exact outWf_addrOp h
  | teq | tne | tltS64 | tleS64 | tgtS64 | tgeS64 | tltN64 | tleN64 | tgtN64 | tgeN64 | tbit | tz | tnz | teqi | tnei | tlti | tgei | tltui
  | tgeui => exact outWf_testOp h
  | br | brr | yield | idle | trap | svc | rfe => exact outWf_branchOp h
  | call | callr | ret => exact outWf_stackOp h
  | ldN8 | ldS8 | ldN16 | ldS16 | ldN32 | ldS32 | ldB64 | ldN82t | ldS82t | ldN162t | ldS162t | ldN322t | ldS322t | ldB642t => exact outWf_loadIssue h
  | stB8 | stB16 | stB32 | stB64 => exact outWf_storeIssue h
  | amoAdd | amoAddF32 | amoMinS | amoMaxS | amoMinN | amoMaxN | amoAnd | amoOr | amoXor => exact outWf_amoIssue h
  | pop | popV => exact outWf_inletPop h
  | strmStage | strmRows | strmTag | strmHalt => exact outWf_strmIssue h
  | sphAnd | sphOr => exact outWf_sphIssue h
  | shapeV | shapeT => exact outWf_shapeIssue h
  | shstep | shstepV => exact outWf_stepIssue h
  | mma | mmaG | tmov | tmovT | acclr | accst => exact outWf_mxIssue h
  | barInit | barArrive | barBind | barDrop => exact outWf_barIssue h
  | grpMake | grpSplit | grpJoin | grpFree => exact outWf_grpIssue h
  | pgMap | pgUnmap | pgPin | pgUnpin | pgPoison | pgPromote => exact outWf_pgIssue h
  | lnkUp | lnkDown | lnkRetrain | lnkChain | lnkUnchain => exact outWf_lnkIssue h
  | vdQuiesce | vdSend | vdResume | vdRelease | vdReplay => exact outWf_vdIssue h
  | vadd | vsub | vmul | vmin | vmax | vand | vor | vxor => exact outWf_binVec h
  | vmulh | vabs | vneg | cmp | red | scan => exact outWf_govVec h
  | vnot | vshl | vshr | vsar | vclz | vpopc => exact outWf_map2Vec h
  | wadd | wmul | narrow | cvt => exact outWf_vecOp h
  | vrcp | vrsq | vsqrt | vexp2 | vlog2 => exact outWf_transVec h
  | perm | slideUp | slideDn | bcast => exact outWf_freeVec h
  | mand | mor | mxor | mnot => exact outWf_maskVec h
  | mcnt | iota => exact outWf_plainVec h
  | write | brk => exact outWf_actOp h fun _ _ _ _ _ => by simp [h]
  | fenceAcq | fenceRel | qfence | pushBq | xshoot => exact outWf_storeOp h fun _ _ _ _ _ => by simp [h]
  | fenceAr | qpush | qpushCmdq | rtcfg | strmGo | sigInc => exact outWf_storeOp h fun _ _ _ _ _ => by simp [h, outWf_withCtx]
  | qpop | qpopBq | crrd => exact outWf_loadOp h fun _ _ _ _ _ => by simp [h, outWf_withCtx]
  | push | pushV | pushm => exact outWf_storeOp h fun _ _ _ _ _ => by simp [h, outWf_withCtx, outWf_outIssue]
  | steer => exact outWf_storeOp h fun _ _ _ _ _ => outWf_withCtx fun _ => by simp [h, outWf_outIssue]
  | barWait | sigWait => exact outWf_actOp h fun _ _ _ _ _ => by simp [h, outWf_withCtx]
  | mbAssign | mbClear | mbPreempt | mbPodmap | mbPortmap | mbPeer | mbLinkadm | mbKeyset | mbKeyinv | mbAttest =>
    exact outWf_mbDo h fun _ _ => by simp
  | read => exact outWf_execRead h
  | xlate => exact outWf_execXlate h
  | xprobe => exact outWf_execXprobe h
  | pref => exact outWf_execPref h
  | lease => exact outWf_execLease h
  | unlease => exact outWf_execUnlease h
  | peek => exact outWf_execPeek h
  | peekV => exact outWf_execPeekV h
  | collect => exact outWf_execCollect h
  | accrd => exact outWf_execAccrd h
  | crwr => exact outWf_execCrwr h
  | launch => exact outWf_execLaunch h
  | msel => exact outWf_execMsel h
  | loadPerform => exact outWf_execLoadPerform h
  | amoHomeUpdate => exact outWf_execAmoHomeUpdate h
  | streamStart => exact outWf_execStreamStart h
  | streamItem => exact outWf_execStreamItem h
  | sstatResume => exact outWf_execSstatResume h
  | sstatAbandon => exact outWf_execSstatAbandon h
  | mmaKGroup => exact outWf_execMmaKGroup h
  | tmovPerform => exact outWf_execTmovPerform h
  | acclrPerform => exact outWf_execAcclrPerform h
  | accstRowAppend => exact outWf_execAccstRowAppend h
  | mxprogResume => exact outWf_execMxprogResume h
  | mxprogAbandon => exact outWf_execMxprogAbandon h
  | accrdDeliver => exact outWf_execAccrdDeliver h
  | waitEnd => exact outWf_execWaitEnd h
  | wstCancel => exact outWf_execWstCancel h
  | asnWrite => exact outWf_execAsnWrite h
  | xcauseResume => exact outWf_execXcauseResume h
  | qwinDescriptorWrite => exact outWf_execQwinDescriptorWrite h
  | qctlOpen => exact outWf_execQctlOpen h
  | qctlSeal => exact outWf_execQctlSeal h
  | qctlClose => exact outWf_execQctlClose h
  | kctlDone => exact outWf_execKctlDone h
  | kctlFence => exact outWf_execKctlFence h
  | kctlFault => exact outWf_execKctlFault h
  | sgvalWrite => exact outWf_execSgvalWrite h
  | ptcfgWrite => exact outWf_execPtcfgWrite h
  | rxcfgWrite => exact outWf_execRxcfgWrite h
  | rxselSnapshot => exact outWf_execRxselSnapshot h
  | launchAccept => exact outWf_execLaunchAccept h
  | kernelPlacement => exact outWf_execKernelPlacement h
  | partitionFence => exact outWf_execPartitionFence h
  | blockFetch => exact outWf_execBlockFetch h
  | dispatchDecision => exact outWf_execDispatchDecision h
  | heldSlotResume => exact outWf_execHeldSlotResume h
  | incompleteBlockFault => exact outWf_execIncompleteBlockFault h
  | blockCommit => exact outWf_execBlockCommit h
  | trapEntry => exact outWf_execTrapEntry h
  | streamFault => exact outWf_execStreamFault h
  | preemptBegin => exact outWf_execPreemptBegin h
  | drainComplete => exact outWf_execDrainComplete h
  | kilnStart => exact outWf_execKilnStart h
  | kilnScanComplete => exact outWf_execKilnScanComplete h
  | groupMemberEnd => exact outWf_execGroupMemberEnd h
  | kernelQuiet => exact outWf_execKernelQuiet h
  | groupPreempt => exact outWf_execGroupPreempt h
  | groupRestore => exact outWf_execGroupRestore h
  | contextRestore => exact outWf_execContextRestore h
  | shootDownComplete => exact outWf_execShootDownComplete h
  | linkTrainingComplete => exact outWf_execLinkTrainingComplete h
  | linkBudgetExpiry => exact outWf_execLinkBudgetExpiry h
  | flitReplay => exact outWf_execFlitReplay h
  | farEndLoss => exact outWf_execFarEndLoss h
  | partLoss => exact outWf_execPartLoss h
  | chainConfirm => exact outWf_execChainConfirm h
  | chainElementSend => exact outWf_execChainElementSend h
  | granuleReceive => exact outWf_execGranuleReceive h
  | granuleAck => exact outWf_execGranuleAck h
  | frameReceive => exact outWf_execFrameReceive h
  | caskMove => exact outWf_execCaskMove h
  | bankDrainDone => exact outWf_execBankDrainDone h
  | bankScrubDone => exact outWf_execBankScrubDone h
  | quiesceComplete => exact outWf_execQuiesceComplete h
  | transferComplete => exact outWf_execTransferComplete h
  | sweepSend => exact outWf_execSweepSend h
  | pageArrival => exact outWf_execPageArrival h
  | redirect => exact outWf_execRedirect h
  | hangDetect => exact outWf_execHangDetect h
  | detectedError => exact outWf_execDetectedError h
  | replayComplete => exact outWf_execReplayComplete h
  | leaseHold => exact outWf_execLeaseHold h
  | leaseExpiry => exact outWf_execLeaseExpiry h
  | storePathPerform => exact outWf_execStorePathPerform h
  | cmdqAdopt => exact outWf_execCmdqAdopt h
  | deviceReset => exact outWf_execDeviceReset h
  | hostWrite => exact outWf_execHostWrite h
  | currentLimitTrip => exact outWf_execCurrentLimitTrip h
  | currentLimitRelease => exact outWf_execCurrentLimitRelease h
  | powerIdleAdjust => exact outWf_execPowerIdleAdjust h

end Sys2Proof.Machine
end

section
/-!
SUPPORT. Canonical memories through a step (00 R7): the acts of an agenda, and what the machine does by itself.
-/
namespace Sys2Proof.Machine
variable {s : State}

/-- A meaning of the instructions under which both memories stay in canonical form. -/
def KeepsMemWf (ex : Instr → State → Out State) : Prop := ∀ i s, memWf s = true → outWf (ex i s) = true

theorem keepsMemWf_exec : KeepsMemWf exec := fun i _ h => outWf_exec i h

theorem outWf_performAct {ex a} (hex : KeepsMemWf ex) (h : memWf s = true) : outWf (performAct ex a s) = true := by
  unfold performAct
  split
  · exact hex _ _ h
  · split
    · rfl
    · split
      · rfl
      · exact hex _ _ h

theorem memWf_firstAct {ex l} (hex : KeepsMemWf ex) (h : memWf s = true) : ∀ t ∈ firstAct ex s l, memWf t = true := by
  induction l with
  | nil => simp [firstAct]
  | cons a r ih =>
    have ha := outWf_performAct (a := a) hex h
    unfold firstAct
    split
    · next hp =>
      rw [hp] at ha
      split
      · rintro _ ⟨⟩
        exact ha
      · exact ih
    · exact ih
    · exact ih

theorem memWf_byItself {ex} (hex : KeepsMemWf ex) (h : memWf s = true) : memWf (s.byItself ex) = true := by
  simp only [State.byItself]
  split
  · next hi => exact memWf_firstAct hex h _ hi
  · split
    · next he => exact memWf_firstAct hex (by simp [h]) _ he
    · simp [h]

theorem outWf_stepWith {ex} (hex : KeepsMemWf ex) (h : memWf s = true) : outWf (stepWith ex s) = true := by
  unfold stepWith
  split
  · exact memWf_byItself hex h
  · exact outWf_performAct hex h
  · exact outWf_performAct hex h

end Sys2Proof.Machine
end

section
/-!
The statement of the memory spaces (07): both memories stay in canonical form.
-/
namespace Sys2Proof.Machine

/-- Settles O56: a step changes a memory only by writing bytes and by clearing ranges, and both keep the canonical form (07 R154, R168). -/
theorem memoryStaysCanonical : Obligations.MemoryStaysCanonical := by
  intro s t h hstep
  have hout : outWf (step s) = true := outWf_stepWith keepsMemWf_exec h
  rwa [hstep] at hout

end Sys2Proof.Machine
end

section
/-!
SUPPORT. The word operations of 09 as the numbers that R200 to R204 and R206 give: sums and products, quotients, bit counts, byte reversal, shifts.
-/
namespace Sys2Proof.Machine

/-! ### Sums, products, extremes (R200) -/

theorem ofInt_toInt_add {w : Nat} (x y : BitVec w) : BitVec.ofInt w (x.toInt + y.toInt) = x + y := by
  rw [BitVec.ofInt_add, BitVec.ofInt_toInt, BitVec.ofInt_toInt]

theorem ofInt_toInt_sub {w : Nat} (x y : BitVec w) : BitVec.ofInt w (x.toInt - y.toInt) = x - y := by
  rw [Int.sub_eq_add_neg, BitVec.ofInt_add, BitVec.ofInt_neg, BitVec.ofInt_toInt, BitVec.ofInt_toInt, BitVec.sub_eq_add_neg]

theorem ofInt_toInt_mul {w : Nat} (x y : BitVec w) : BitVec.ofInt w (x.toInt * y.toInt) = x * y := by
  rw [BitVec.ofInt_mul, BitVec.ofInt_toInt, BitVec.ofInt_toInt]

theorem ofNat_toNat_add_mul (l r : Word) (n : Nat) : BitVec.ofNat 64 (l.toNat + n * r.toNat) = l + r * BitVec.ofNat 64 n := by
  rw [BitVec.ofNat_add, BitVec.ofNat_mul, BitVec.ofNat_toNat, BitVec.ofNat_toNat, BitVec.setWidth_eq, BitVec.setWidth_eq, BitVec.mul_comm]

/-- The high word of the 128 bits of an integer is its quotient by 2^64. -/
theorem extractLsb'_ofInt (z : Int) : (BitVec.ofInt 128 z).extractLsb' 64 64 = BitVec.ofInt 64 (z / 2 ^ 64) := by
  refine BitVec.eq_of_toNat_eq ?_
  rw [BitVec.extractLsb'_toNat, BitVec.toNat_ofInt, BitVec.toNat_ofInt, Nat.shiftRight_eq_div_pow]
  omega

theorem mulhS_eq (l r : Word) : mulhS l r = BitVec.ofInt 64 (l.toInt * r.toInt / 2 ^ 64) := by
  rw [mulhS, BitVec.signExtend, BitVec.signExtend, ← BitVec.ofInt_mul, extractLsb'_ofInt]

theorem mulhN_eq (l r : Word) : mulhN l r = BitVec.ofNat 64 (l.toNat * r.toNat / 2 ^ 64) := by
  have hlt : l.toNat * r.toNat < 2 ^ 128 := (Nat.pow_add 2 64 64).symm ▸ Nat.mul_lt_mul'' l.isLt r.isLt
  refine BitVec.eq_of_toNat_eq ?_
  rw [mulhN, BitVec.extractLsb'_toNat, BitVec.toNat_mul, BitVec.toNat_setWidth_of_le (by decide), BitVec.toNat_setWidth_of_le (by decide),
    Nat.mod_eq_of_lt hlt, BitVec.toNat_ofNat, Nat.shiftRight_eq_div_pow]

theorem absW_eq (l : Word) : absW l = BitVec.ofNat 64 l.toInt.natAbs := by
  rw [absW, ← BitVec.ofInt_natCast, BitVec.msb_eq_toInt]
  by_cases h : l.toInt < 0
  · rw [if_pos (decide_eq_true h), Int.ofNat_natAbs_of_nonpos (Int.le_of_lt h), BitVec.ofInt_neg, BitVec.ofInt_toInt]
  · rw [if_neg (by simpa using h), Int.natAbs_of_nonneg (Int.not_lt.1 h), BitVec.ofInt_toInt]

theorem minS_eq (l r : Word) : (if l.slt r then l else r) = BitVec.ofInt 64 (min l.toInt r.toInt) := by
  simp only [BitVec.slt_iff_toInt_lt]
  split
  · next h => rw [Int.min_eq_left (Int.le_of_lt h), BitVec.ofInt_toInt]
  · next h => rw [Int.min_eq_right (Int.not_lt.1 h), BitVec.ofInt_toInt]

theorem maxS_eq (l r : Word) : (if l.slt r then r else l) = BitVec.ofInt 64 (max l.toInt r.toInt) := by
  simp only [BitVec.slt_iff_toInt_lt]
  split
  · next h => rw [Int.max_eq_right (Int.le_of_lt h), BitVec.ofInt_toInt]
  · next h => rw [Int.max_eq_left (Int.not_lt.1 h), BitVec.ofInt_toInt]

theorem minN_eq (l r : Word) : (if l.ult r then l else r) = BitVec.ofNat 64 (min l.toNat r.toNat) := by
  simp only [BitVec.ult_iff_toNat_lt]
  split
  · next h => rw [Nat.min_eq_left (Nat.le_of_lt h), BitVec.ofNat_toNat, BitVec.setWidth_eq]
  · next h => rw [Nat.min_eq_right (Nat.not_lt.1 h), BitVec.ofNat_toNat, BitVec.setWidth_eq]

theorem maxN_eq (l r : Word) : (if l.ult r then r else l) = BitVec.ofNat 64 (max l.toNat r.toNat) := by
  simp only [BitVec.ult_iff_toNat_lt]
  split
  · next h => rw [Nat.max_eq_right (Nat.le_of_lt h), BitVec.ofNat_toNat, BitVec.setWidth_eq]
  · next h => rw [Nat.max_eq_left (Nat.not_lt.1 h), BitVec.ofNat_toNat, BitVec.setWidth_eq]

/-! ### Quotients and remainders (R201) -/

theorem sdiv_eq_ofInt (l r : Word) : l.sdiv r = BitVec.ofInt 64 (l.toInt.tdiv r.toInt) :=
  BitVec.eq_of_toInt_eq (by rw [BitVec.toInt_sdiv, BitVec.toInt_ofInt])

theorem srem_eq_ofInt (l r : Word) : l.srem r = BitVec.ofInt 64 (l.toInt - l.toInt.tdiv r.toInt * r.toInt) := by
  rw [Int.mul_comm, ← Int.tmod_def, ← BitVec.toInt_srem, BitVec.ofInt_toInt]

theorem divS_eq (l r : Word) : divS l r = if r = 0 then -1 else BitVec.ofInt 64 (l.toInt.tdiv r.toInt) := by
  rw [divS, sdiv_eq_ofInt]

theorem remS_eq (l r : Word) : remS l r = if r = 0 then l else BitVec.ofInt 64 (l.toInt - l.toInt.tdiv r.toInt * r.toInt) := by
  rw [remS, srem_eq_ofInt]

theorem divN_eq (l r : Word) : divN l r = if r = 0 then BitVec.ofNat 64 (2 ^ 64 - 1) else BitVec.ofNat 64 (l.toNat / r.toNat) := by
  rw [divN, ← BitVec.toNat_udiv, BitVec.ofNat_toNat, BitVec.setWidth_eq]
  rfl

theorem remN_eq (l r : Word) : remN l r = if r = 0 then l else BitVec.ofNat 64 (l.toNat % r.toNat) := by
  rw [remN, ← BitVec.toNat_umod, BitVec.ofNat_toNat, BitVec.setWidth_eq]

/-! ### Bit counts, byte reversal, extension (R202) -/

theorem popcount_eq (w x : Nat) : popcount w x = (List.range w).countP fun n => x.testBit n := by
  induction w generalizing x with
  | zero => rfl
  | succ w ih =>
    have hbit : x % 2 = if x.testBit 0 then 1 else 0 := by
      rw [Nat.testBit_zero]
      rcases Nat.mod_two_eq_zero_or_one x with h | h <;> simp [h]
    simp only [popcount, ih, List.range_succ_eq_map, List.countP_cons, List.countP_map, Function.comp_def, Nat.testBit_succ, hbit, Nat.add_comm]

theorem ctzGo_eq (w x : Nat) : ctzGo w x = (List.range w).findIdx fun n => x.testBit n := by
  induction w generalizing x with
  | zero => rfl
  | succ w ih =>
    simp only [ctzGo, ih, List.range_succ_eq_map, List.findIdx_cons, List.findIdx_map, Function.comp_def, Nat.testBit_succ, Nat.testBit_zero]
    by_cases h : x % 2 = 1
    · simp [h]
    · simp [h, Nat.add_comm]

/-- The zeros above the highest one are the position of the first one from the top. -/
theorem countLead_eq {w x : Nat} (hx : x < 2 ^ w) : countLead w x = (List.range w).findIdx fun n => x.testBit (w - 1 - n) := by
  symm
  rw [countLead, bitLen]
  by_cases h0 : x = 0
  · rw [List.findIdx_eq_length.2 (by simp [h0]), if_pos h0, List.length_range, Nat.sub_zero]
  · have hlog : x.log2 < w := (Nat.log2_lt h0).2 hx
    rw [if_neg h0, List.findIdx_eq (by simp; omega)]
    simp only [List.getElem_range]
    refine ⟨?top, fun j hj => ?above⟩
    case top =>
      rw [show w - 1 - (w - (x.log2 + 1)) = x.log2 by omega]
      exact Nat.testBit_log2 h0
    case above => exact Nat.testBit_lt_two_pow ((Nat.log2_lt h0).1 (by omega))

/-- A number whose lowest byte is `b` ends in `b`. -/
theorem ofNat_byte_append (m n : Nat) (b : Byte) : BitVec.ofNat (m + 8) (b.toNat + 256 * n) = BitVec.ofNat m n ++ b := by
  have hmod : (b.toNat + 256 * n) % (256 * 2 ^ m) = b.toNat + 256 * (n % 2 ^ m) := by
    rw [Nat.mod_mul, Nat.add_mul_mod_self_left, Nat.mod_eq_of_lt b.isLt, Nat.add_mul_div_left _ _ (by decide), Nat.div_eq_of_lt b.isLt, Nat.zero_add]
  refine BitVec.eq_of_toNat_eq ?_
  rw [BitVec.toNat_append, ← Nat.shiftLeft_add_eq_or_of_lt b.isLt, Nat.shiftLeft_eq, BitVec.toNat_ofNat, BitVec.toNat_ofNat, Nat.pow_add, Nat.mul_comm (2 ^ m),
    hmod, Nat.add_comm, Nat.mul_comm]

theorem ofNat_div_eq_extractLsb' {w : Nat} (x : BitVec w) (k n : Nat) : BitVec.ofNat n (x.toNat / 2 ^ k) = x.extractLsb' k n := by
  rw [BitVec.extractLsb', Nat.shiftRight_eq_div_pow]

/-- The bytes of a word are its fields of 8 bits. -/
theorem leBytes_word (l : Word) : leBytes 8 l.toNat = (List.range 8).map fun n => l.extractLsb' (8 * n) 8 := by
  simp only [leBytes, Nat.div_div_eq_div_mul, ← ofNat_div_eq_extractLsb']
  simp [List.range_succ]

theorem bswapW_eq (l : Word) :
    bswapW l = l.extractLsb' 0 8 ++ l.extractLsb' 8 8 ++ l.extractLsb' 16 8 ++ l.extractLsb' 24 8 ++ l.extractLsb' 32 8
      ++ l.extractLsb' 40 8 ++ l.extractLsb' 48 8 ++ l.extractLsb' 56 8 := by
  rw [bswapW, leBytes_word]
  simp only [List.range_succ, List.range_zero, List.nil_append, List.cons_append, List.map_cons, List.map_nil, List.reverse_cons, List.reverse_nil, leNat,
    Nat.reduceMul]
  rw [ofNat_byte_append 56, ofNat_byte_append 48, ofNat_byte_append 40, ofNat_byte_append 32, ofNat_byte_append 24, ofNat_byte_append 16, ofNat_byte_append 8]
  simp only [Nat.add_zero, BitVec.ofNat_toNat, BitVec.setWidth_eq]

theorem sextW_eq {w : Nat} (l : Word) : sextW w l = BitVec.ofInt 64 (l.extractLsb' 0 w).toInt := by
  rw [sextW, show l.setWidth w = l.extractLsb' 0 w from BitVec.eq_of_toNat_eq (by simp)]
  rfl

theorem zextW_eq (w : Nat) (l : Word) : zextW w l = BitVec.ofNat 64 (l.toNat % 2 ^ w) := by
  rw [zextW, ← BitVec.toNat_setWidth, BitVec.ofNat_toNat]

/-! ### Shifts (R203) -/

theorem shlW_eq (l r : Word) : shlW l r = if 64 ≤ r.toNat then 0 else BitVec.ofNat 64 (l.toNat * 2 ^ r.toNat) := by
  rw [shlW, ← Nat.shiftLeft_eq]
  rfl

theorem shrW_eq (l r : Word) : shrW l r = if 64 ≤ r.toNat then 0 else BitVec.ofNat 64 (l.toNat / 2 ^ r.toNat) := by
  rw [shrW, ← Nat.shiftRight_eq_div_pow, ← BitVec.toNat_ushiftRight, BitVec.ofNat_toNat, BitVec.setWidth_eq]

theorem sarW_eq (l r : Word) :
    sarW l r = if 64 ≤ r.toNat then (if l.getLsbD 63 then BitVec.ofNat 64 (2 ^ 64 - 1) else 0) else BitVec.ofInt 64 (l.toInt / 2 ^ r.toNat) := by
  rw [sarW, BitVec.sshiftRight, Int.shiftRight_eq_div_pow, BitVec.msb_eq_getLsbD_last, Int.natCast_pow]
  rfl

/-! ### Tests (R204) -/

theorem tbitW_iff (l r : Word) : tbitW l r = true ↔ r.toNat < 64 ∧ l.getLsbD r.toNat = true := by simp [tbitW]

/-! ### Immediates (R206) -/

theorem toInt_simm (f : FmtI) : (simm f).toInt = f.imm.toInt := BitVec.toInt_signExtend_of_le (by decide)

theorem toNat_uimm (f : FmtI) : (uimm f).toNat = f.imm.toNat := BitVec.toNat_setWidth_of_le (by decide)

end Sys2Proof.Machine
end

section
/-!
The statements of the control-plane instructions that compute a token (09 R194 to R210): each follows from what its form does on a ready instruction and
from the number that its word operation gives.
-/
namespace Sys2Proof.Machine

/-! ### What a form sends -/

variable {i : Instr}

theorem sends_of_tokOp {f : Tok → Tok → Tok} (hi : ∀ s, exec i s = tokOp (info i) f s) : Sends i f :=
  fun s _ _ _ _ _ h => (hi s).trans (tokOp_ready h f)

theorem sendsValue_of_valOp {f g : Word → Word → Word} (hi : ∀ s, exec i s = valOp (info i) f s) (hf : ∀ l r, f l r = g l r) : SendsValue i g := by
  intro s cu b sl l r h
  rw [hi, valOp_ready h, hf]

/-- The handle of a sum is that of the left operand where the right one has none (09 R208). -/
theorem sumHandle_eq (l r : Tok) : sumHandle l r = if r.handle = none then l.handle else none := by
  rw [sumHandle]
  cases r.handle <;> rfl

theorem sends_of_addrOp {f : Word → Word → Word} {g : Tok → Tok → Word} (hi : ∀ s, exec i s = addrOp (info i) f s)
    (hf : ∀ l r : Tok, f l.val r.val = g l r) : Sends i fun l r => .ctl (g l r) (if r.handle = none then l.handle else none) 8 := by
  intro s cu b sl l r h
  rw [hi, addrOp_ready h, hf, sumHandle_eq]

theorem sendsTest_of_testOp {f : Word → Word → Bool} {c : Word → Word → Prop} (hi : ∀ s, exec i s = testOp (info i) f s)
    (hf : ∀ l r, f l r = true ↔ c l r) : SendsTest i c := by
  intro s cu b sl l r h
  rw [hi, testOp_ready h]
  exact ⟨fun hc => by rw [if_pos ((hf _ _).2 hc)], fun hc => by rw [if_neg fun ht => hc ((hf _ _).1 ht)]⟩

/-! ### The statements -/

/-- Settles O1: a form on the values, with R200's number for each word operation. -/
theorem integerArithmeticResults : Obligations.IntegerArithmeticResults := by
  unfold Obligations.IntegerArithmeticResults
  exact fun g => ⟨sends_of_addrOp exec_add fun l r => (by simpa using (ofNat_toNat_add_mul l.val r.val 1).symm),
    sends_of_addrOp exec_sub fun l r => (ofInt_toInt_sub l.val r.val).symm,
    sendsValue_of_valOp exec_mul fun l r => (ofInt_toInt_mul l r).symm,
    sendsValue_of_valOp exec_mulhS64 mulhS_eq,
    sendsValue_of_valOp exec_mulhN64 mulhN_eq,
    sendsValue_of_valOp exec_neg fun l _ => (by rw [BitVec.ofInt_neg, BitVec.ofInt_toInt]),
    sendsValue_of_valOp exec_abs fun l _ => absW_eq l,
    sendsValue_of_valOp exec_minS64 minS_eq,
    sendsValue_of_valOp exec_maxS64 maxS_eq,
    sendsValue_of_valOp exec_minN64 minN_eq,
    sendsValue_of_valOp exec_maxN64 maxN_eq⟩

/-- Settles O2: the quotients of R201, whose zero divisor and overflow are values of the word operation, so that a division is a form on the values. -/
theorem divisionResults : Obligations.DivisionResults := by
  unfold Obligations.DivisionResults
  exact fun g => ⟨sendsValue_of_valOp exec_divS64 divS_eq, sendsValue_of_valOp exec_remS64 remS_eq,
    sendsValue_of_valOp exec_divN64 divN_eq, sendsValue_of_valOp exec_remN64 remN_eq⟩

/-- Settles O3: the logic forms are the table's, and the counts, the reversal and the extensions give its numbers. -/
theorem logicAndBitCountResults : Obligations.LogicAndBitCountResults := by
  unfold Obligations.LogicAndBitCountResults
  exact fun g => ⟨sendsValue_of_valOp exec_and fun _ _ => rfl,
    sendsValue_of_valOp exec_or fun _ _ => rfl,
    sendsValue_of_valOp exec_xor fun _ _ => rfl,
    sendsValue_of_valOp exec_andn fun _ _ => rfl,
    sendsValue_of_valOp exec_not fun _ _ => rfl,
    sendsValue_of_valOp exec_popc fun l _ => congrArg _ (popcount_eq 64 l.toNat),
    sendsValue_of_valOp exec_clz fun l _ => congrArg _ (countLead_eq l.isLt),
    sendsValue_of_valOp exec_ctz fun l _ => congrArg _ (ctzGo_eq 64 l.toNat),
    sendsValue_of_valOp exec_bswap fun l _ => bswapW_eq l,
    sendsValue_of_valOp exec_sextS8 fun l _ => sextW_eq l,
    sendsValue_of_valOp exec_sextS16 fun l _ => sextW_eq l,
    sendsValue_of_valOp exec_sextS32 fun l _ => sextW_eq l,
    sendsValue_of_valOp exec_zextN8 fun l _ => zextW_eq 8 l,
    sendsValue_of_valOp exec_zextN16 fun l _ => zextW_eq 16 l,
    sendsValue_of_valOp exec_zextN32 fun l _ => zextW_eq 32 l⟩

/-- Settles O4: the shifts by the whole amount; a rotate by less than 64 is its two shifts. -/
theorem shiftResults : Obligations.ShiftResults := by
  unfold Obligations.ShiftResults
  have hmod (r : Word) : r.toNat % 64 < 64 := Nat.mod_lt _ (by decide)
  exact fun g => ⟨sendsValue_of_valOp exec_shl shlW_eq, sendsValue_of_valOp exec_shr shrW_eq,
    sendsValue_of_valOp exec_sar sarW_eq,
    sendsValue_of_valOp exec_rol fun _ r => BitVec.rotateLeft_eq_rotateLeftAux_of_lt (hmod r),
    sendsValue_of_valOp exec_ror fun _ r => BitVec.rotateRight_eq_rotateRightAux_of_lt (hmod r)⟩

/-- Settles O5: each test's Boolean is R204's condition. -/
theorem testResults : Obligations.TestResults := by
  unfold Obligations.TestResults
  exact fun g => ⟨sendsTest_of_testOp exec_teq fun _ _ => beq_iff_eq,
    sendsTest_of_testOp exec_tne fun _ _ => bne_iff_ne,
    sendsTest_of_testOp exec_tltS64 fun _ _ => BitVec.slt_iff_toInt_lt,
    sendsTest_of_testOp exec_tleS64 fun _ _ => BitVec.sle_iff_toInt_le,
    sendsTest_of_testOp exec_tgtS64 fun _ _ => BitVec.slt_iff_toInt_lt,
    sendsTest_of_testOp exec_tgeS64 fun _ _ => BitVec.sle_iff_toInt_le,
    sendsTest_of_testOp exec_tltN64 fun _ _ => BitVec.ult_iff_toNat_lt,
    sendsTest_of_testOp exec_tleN64 fun _ _ => BitVec.ule_iff_toNat_le,
    sendsTest_of_testOp exec_tgtN64 fun _ _ => BitVec.ult_iff_toNat_lt,
    sendsTest_of_testOp exec_tgeN64 fun _ _ => BitVec.ule_iff_toNat_le,
    sendsTest_of_testOp exec_tbit tbitW_iff,
    sendsTest_of_testOp exec_tz fun _ _ => beq_iff_eq,
    sendsTest_of_testOp exec_tnz fun _ _ => bne_iff_ne⟩

/-- Settles O6: an immediate form is its register form with the extended immediate, whose integer is that of the field. An unused right operand has no
handle, so `addi` keeps the left one. -/
theorem immediateFormResults : Obligations.ImmediateFormResults := by
  unfold Obligations.ImmediateFormResults
  intro f
  have hsimm (l : Word) : l = simm f ↔ l.toInt = f.imm.toInt := by rw [← toInt_simm, BitVec.toInt_inj]
  refine ⟨?addi, sendsValue_of_valOp exec_andi fun _ _ => rfl, sendsValue_of_valOp exec_ori fun _ _ => rfl,
    sendsValue_of_valOp exec_xori fun _ _ => rfl,
    sendsTest_of_testOp exec_teqi fun l _ => beq_iff_eq.trans (hsimm l),
    sendsTest_of_testOp exec_tnei fun l _ => bne_iff_ne.trans (hsimm l).not,
    sendsTest_of_testOp exec_tlti fun _ _ => toInt_simm f ▸ BitVec.slt_iff_toInt_lt,
    sendsTest_of_testOp exec_tgei fun _ _ => toInt_simm f ▸ BitVec.sle_iff_toInt_le,
    sendsTest_of_testOp exec_tltui fun _ _ => toNat_uimm f ▸ BitVec.ult_iff_toNat_lt,
    sendsTest_of_testOp exec_tgeui fun _ _ => toNat_uimm f ▸ BitVec.ule_iff_toNat_le, fun himm => ?shifts⟩
  case addi =>
    intro s cu b sl l r h
    obtain rfl : r = Tok.ofWord 0 := h.right
    have hsum : BitVec.ofInt 64 (l.val.toInt + f.imm.toInt) = l.val + simm f := by rw [← toInt_simm, ofInt_toInt_add]
    simp only [hsum]
    exact (exec_addi s).trans (addrOp_ready h _)
  case shifts =>
    have hlt : ¬ 64 ≤ (uimm f).toNat := by rw [toNat_uimm]; omega
    exact ⟨sendsValue_of_valOp exec_shli fun l _ => (by rw [shlW_eq, if_neg hlt, toNat_uimm]),
      sendsValue_of_valOp exec_shri fun l _ => (by rw [shrW_eq, if_neg hlt, toNat_uimm]),
      sendsValue_of_valOp exec_sari fun l _ => (by rw [sarW_eq, if_neg hlt, toNat_uimm])⟩

/-- Settles O7: constants and scaled addresses are forms on the values; moves, nulls and width converters send a token as it is formed. -/
theorem addressAndTokenForms : Obligations.AddressAndTokenForms := by
  unfold Obligations.AddressAndTokenForms
  exact ⟨fun _ _ => sendsValue_of_valOp exec_const fun _ _ => rfl, fun _ _ => sendsValue_of_valOp exec_constx fun _ _ => rfl, fun g =>
    ⟨sends_of_tokOp exec_mov, sends_of_tokOp exec_movV, sends_of_tokOp exec_null, sends_of_tokOp exec_nullV,
      sends_of_addrOp exec_leaX1 fun l r => (by simpa using (ofNat_toNat_add_mul l.val r.val 1).symm),
      sends_of_addrOp exec_leaX2 fun l r => (ofNat_toNat_add_mul l.val r.val 2).symm,
      sends_of_addrOp exec_leaX4 fun l r => (ofNat_toNat_add_mul l.val r.val 4).symm,
      sends_of_addrOp exec_leaX8 fun l r => (ofNat_toNat_add_mul l.val r.val 8).symm,
      sends_of_tokOp exec_wsplitB8, sends_of_tokOp exec_wsplitB16, sends_of_tokOp exec_wsplitB32,
      sends_of_tokOp exec_wjoinB8, sends_of_tokOp exec_wjoinB16, sends_of_tokOp exec_wjoinB32⟩⟩

end Sys2Proof.Machine
end

section
/-!
SUPPORT. The oldest block of a fetcher when a block in flight changes, and what the check of the return stack does on it (02 R51, 09 R216, R217).
-/
namespace Sys2Proof.Machine

/-! ### The oldest block -/

theorem Tab.put_put {κ α : Type} [DecidableEq κ] (t : Tab κ α) (k : κ) (v w : α) : (t.put k v).put k w = t.put k w := by
  induction t with
  | nil => simp [Tab.put]
  | cons e t ih =>
    obtain ⟨j, u⟩ := e
    by_cases h : j = k
    · simp [Tab.put, h]
    · simp [Tab.put, h, ih]

theorem State.setBlk_setBlk (s : State) (f : FrameKey) (b c : Blk) : (s.setBlk f b).setBlk f c = s.setBlk f c := by
  simp only [State.setBlk, Tab.put_put]

theorem oldestOf_eq_none {l : List (FrameKey × Blk)} (h : oldestOf l = none) : l = [] := by
  cases l with
  | nil => rfl
  | cons a l =>
    rw [oldestOf] at h
    split at h
    · cases h
    · split at h <;> cases h

theorem oldestOf_le {e : FrameKey × Blk} {l : List (FrameKey × Blk)} (h : oldestOf l = some e) : ∀ a ∈ l, e.2.seq ≤ a.2.seq := by
  induction l generalizing e with
  | nil => cases h
  | cons a l ih =>
    rw [oldestOf] at h
    rw [List.forall_mem_cons]
    split at h
    · next ho =>
      cases h
      simp [oldestOf_eq_none ho]
    · next o ho =>
      split at h
      · next hlt =>
        cases h
        exact ⟨Nat.le_of_lt hlt, ih ho⟩
      · next hlt =>
        cases h
        exact ⟨Nat.le_refl _, fun x hx => Nat.le_trans (Nat.not_lt.1 hlt) (ih ho x hx)⟩

theorem State.isOldest_of_oldest {s : State} {f : FrameKey} {b : Blk} (h : s.oldest b.ctx b.u = some (f, b)) : s.isOldest b = true := by
  simp only [State.isOldest, State.older, List.isEmpty_iff, List.filter_eq_nil_iff, decide_eq_true_eq, Nat.not_lt]
  exact oldestOf_le h

/-- An entry of the table of blocks once `c` stands in place of the block `b` of a frame. -/
def swapped (f : FrameKey) (b c : Blk) (e : FrameKey × Blk) : FrameKey × Blk := if e = (f, b) then (f, c) else e

theorem swapped_self (f : FrameKey) (b c : Blk) : swapped f b c (f, b) = (f, c) := if_pos rfl

theorem swapped_ne {f : FrameKey} {b : Blk} {e : FrameKey × Blk} (h : e ≠ (f, b)) (c : Blk) : swapped f b c e = e := if_neg h

theorem swapped_seq {b c : Blk} (h : c.seq = b.seq) (f : FrameKey) (e : FrameKey × Blk) : (swapped f b c e).2.seq = e.2.seq := by
  by_cases he : e = (f, b)
  · rw [he, swapped_self, h]
  · rw [swapped_ne he]

/-- Where a block changes and keeps its age, the oldest entry of a choice of blocks stays at its place. -/
theorem oldestOf_put {t : Tab FrameKey Blk} {f : FrameKey} {b c : Blk} {p : Blk → Bool} (hb : t.get? f = some b) (hp : p c = p b) (hseq : c.seq = b.seq) :
    oldestOf ((t.put f c).filter fun e => p e.2) = (oldestOf (t.filter fun e => p e.2)).map (swapped f b c) := by
  induction t with
  | nil => cases hb
  | cons a t ih =>
    obtain ⟨j, d⟩ := a
    by_cases hj : j = f
    case pos =>
      subst hj
      obtain rfl : d = b := by simpa [Tab.get?] using hb
      rw [Tab.put, if_pos rfl]
      cases hpd : p d with
      | false =>
        rw [List.filter_cons_of_neg (by simp [hp, hpd]), List.filter_cons_of_neg (by simp [hpd])]
        refine (Option.map_congr fun o ho => swapped_ne ?_ c).trans Option.map_id' |>.symm
        rintro rfl
        simpa [hpd] using oldestOf_mem ho
      | true =>
        rw [List.filter_cons_of_pos (by simp [hp, hpd]), List.filter_cons_of_pos (by simp [hpd])]
        cases ho : oldestOf (t.filter fun e => p e.2) with
        | none => simp [oldestOf, ho, swapped_self]
        | some o =>
          simp only [oldestOf, ho, hseq]
          split
          · next hlt =>
            have hne : o ≠ (j, d) := by
              rintro rfl
              exact Nat.lt_irrefl _ hlt
            simp [swapped_ne hne]
          · simp [swapped_self]
    case neg =>
      have hne : (j, d) ≠ (f, b) := fun h => hj (congrArg Prod.fst h)
      have ih' := ih (by simpa [Tab.get?, hj] using hb)
      rw [Tab.put, if_neg hj]
      cases hpd : p d with
      | false => rw [List.filter_cons_of_neg (by simp [hpd]), List.filter_cons_of_neg (by simp [hpd]), ih']
      | true =>
        rw [List.filter_cons_of_pos (by simp [hpd]), List.filter_cons_of_pos (by simp [hpd])]
        cases ho : oldestOf (t.filter fun e => p e.2) with
        | none => simp [oldestOf, ih', ho, swapped_ne hne]
        | some o =>
          simp only [oldestOf, ih', ho, Option.map_some, swapped_seq hseq]
          split
          · rfl
          · simp [swapped_ne hne]

theorem State.oldest_setBlk {s : State} {f : FrameKey} {b c : Blk} (hb : s.blks.get? f = some b) (hctx : c.ctx = b.ctx) (hu : c.u = b.u)
    (hseq : c.seq = b.seq) (x : Nat) (u : Fetcher) : (s.setBlk f c).oldest x u = (s.oldest x u).map (swapped f b c) :=
  oldestOf_put (p := fun d => d.ctx = x && d.u = u) hb (by simp only [hctx, hu]) hseq

/-! ### The check of the return stack -/

theorem State.stackCheck_free {s : State} {c : Nat} {u : Fetcher} {x : Ctx} (hx : s.ctxs.get? c = some x)
    (h : ∀ e, s.oldest c u = some e → e.2.stackFault (x.lane u) = none) : s.stackCheck c u = s := by
  unfold State.stackCheck
  split
  · next e y he hy =>
    obtain rfl : x = y := Option.some.inj (hx.symm.trans hy)
    rw [h e he]
  · rfl

theorem State.stackCheck_raise {s : State} {c : Nat} {u : Fetcher} {x : Ctx} {e : FrameKey × Blk} {r : FaultRec} (hx : s.ctxs.get? c = some x)
    (he : s.oldest c u = some e) (hr : e.2.stackFault (x.lane u) = some r) (hnew : ∀ f ∈ e.2.faults, f.code ≠ r.code) :
    s.stackCheck c u = s.setBlk e.1 (e.2.raise r) := by
  have hany : ¬ (e.2.faults.any fun f => f.code = r.code) = true := by simpa using hnew
  simp only [State.stackCheck, he, hx, hr, if_neg hany]

end Sys2Proof.Machine
end

section
/-!
The statements of the branch-class instructions (09 R212 to R217, 13 R308, R313, 18 R398, R400) and of the return address (09 R215): a branch issues into a
block without one, and a call or a return also makes the check of the return stack for the oldest block of its fetcher.
-/
namespace Sys2Proof.Machine

/-! ### A branch issues -/

theorem Blk.target_eq_offsetFrom (b : Blk) (off : BitVec 20) : b.target off = offsetFrom b off := by
  rw [offsetFrom, BitVec.ofInt_add, BitVec.ofInt_toInt, BitVec.ofInt_mul, Blk.target, BitVec.shiftLeft_eq_mul_twoPow, BitVec.mul_comm]
  rfl

/-- The block once its instruction in slot `n` has issued as its branch. -/
def Blk.branched (b : Blk) (n : Nat) (br : Branch) : Blk := { b.fin n with branch := some br, brSlot := n }

theorem Blk.setBranch_eq_branched {b : Blk} (h : b.branch = none) (n : Nat) (br : Branch) : b.setBranch n br = b.branched n br := by
  simp [Blk.setBranch, Blk.branched, h]

variable {i : Instr} {exit : BitVec 3} {ok : State → Blk → Ctx → Tok → Tok → Prop} {k k' : Blk → Tok → Tok → BrKind}

theorem State.oldest_branched {s : State} {f : FrameKey} {b : Blk} (hb : s.blks.get? f = some b) (n : Nat) (br : Branch) (c : Nat) (u : Fetcher) :
    (s.setBlk f (b.branched n br)).oldest c u = (s.oldest c u).map (swapped f b (b.branched n br)) :=
  State.oldest_setBlk (c := b.branched n br) hb rfl rfl rfl c u

theorem branches_of_branchOp (hi : ∀ s, exec i s = branchOp (info i) exit k s) (hk : ∀ b l r, k b l r = k' b l r) : Branches i exit ok k' := by
  intro s cu b sl l r x h _ hbr _
  rw [hi, branchOp_ready h, Blk.setBranch_eq_branched hbr, hk]
  rfl

/-- A wait-class branch issues where the conditions on its tokens hold (18 R392). -/
theorem waitIssue_branched {b : Blk} (hbr : b.branch = none) (s : State) (cu : Cur) (f : FmtB) (w : WaitKind) :
    waitIssue s cu b f w = .next (s.setBlk cu.frame (b.branched cu.slot ⟨f.exit, .wait w (offsetFrom b f.off)⟩)) := by
  rw [waitIssue, Blk.setBranch_eq_branched hbr, Blk.target_eq_offsetFrom]

theorem branches_barWait (f : FmtB) :
    Branches (.barWait f) f.exit
      (fun s b x l r => barTokOk l.val = true ∧ fld r.val 0 4 = 0 ∧ s.barSub x b.ctx (decide (b.hdr.kind = 1)) l.val none = 0)
      fun b l r => .wait (.bar l.val r.val) (offsetFrom b f.off) := by
  rintro s cu b sl l r x h hx hbr ⟨htok, hfld, hsub⟩
  rw [exec_barWait, execBarWait, actOp_ready h, withCtx_some hx]
  simp only [htok, hfld, hsub, waitIssue_branched hbr]
  rfl

theorem branches_sigWait (f : FmtB) :
    Branches (.sigWait f) f.exit (fun s _ x l _ => s.sigSub x l.val = 0) fun b l r => .wait (.sig l.val r.val) (offsetFrom b f.off) := by
  intro s cu b sl l r x h hx hbr hsub
  rw [exec_sigWait, execSigWait, actOp_ready h, withCtx_some hx]
  simp only [hsub, waitIssue_branched hbr]
  rfl

/-! ### A call or a return issues -/

theorem stackOp_ready {s : State} {cu : Cur} {b : Blk} {sl : Slot} {l r : Tok} (h : Ready i s cu b sl l r) (hbr : b.branch = none) :
    stackOp (info i) exit k s = .next ((s.setBlk cu.frame (b.branched cu.slot ⟨exit, k b l r⟩)).stackCheck b.ctx b.u) := by
  rw [stackOp, actOp_ready h, Blk.setBranch_eq_branched hbr]

/-- A call or a return issues as a branch where its own block, if it is the oldest, has `room` on the return stack, and the oldest block has no fault of the
stack: then the check finds nothing, whichever block is the oldest. -/
theorem branches_of_stackOp {room : Nat → Prop} (hi : ∀ s, exec i s = stackOp (info i) exit k s) (hk : ∀ b l r, k b l r = k' b l r)
    (hcall : ∀ d b l r a, room d → k' b l r = .call a → d < 16) (hret : ∀ d b l r a, room d → k' b l r = .ret a → d ≠ 0) :
    Branches i exit
      (fun s b x _ _ => (s.isOldest b = true → room (x.lane b.u).depth) ∧ ∀ e, s.oldest b.ctx b.u = some e → e.2.stackFault (x.lane b.u) = none) k' := by
  rintro s cu b sl l r x h hx hbr ⟨hroom, hfree⟩
  have hx' : (s.setBlk cu.frame (b.branched cu.slot ⟨exit, k' b l r⟩)).ctxs.get? b.ctx = some x := hx
  rw [hi, stackOp_ready h hbr, hk, State.stackCheck_free hx' ?free]
  · rfl
  case free =>
    intro e he
    rw [State.oldest_branched h.blk] at he
    obtain ⟨o, ho, rfl⟩ := Option.map_eq_some_iff.1 he
    by_cases hown : o = (cu.frame, b)
    · subst hown
      have hd := hroom (State.isOldest_of_oldest ho)
      rw [swapped_self]
      exact Blk.stackFault_none rfl (fun a => hcall _ b l r a hd) fun a => hret _ b l r a hd
    · rw [swapped_ne hown]
      exact hfree o ho

/-- A call or a return of the oldest block whose stack does not allow it issues, and its block raises the fault of the stack. -/
theorem stackOp_fault {s : State} {cu : Cur} {b : Blk} {sl : Slot} {l r : Tok} {x : Ctx} {code : Nat} (h : Ready i s cu b sl l r)
    (hold : s.oldest b.ctx b.u = some (cu.frame, b)) (hx : s.ctxs.get? b.ctx = some x) (hbr : b.branch = none)
    (hfault : (b.branched cu.slot ⟨exit, k b l r⟩).stackFault (x.lane b.u) = some (slotFault code cu.slot)) (hnew : ∀ e ∈ b.faults, e.code ≠ code) :
    stackOp (info i) exit k s
      = .next (s.setBlk cu.frame { b.branched cu.slot ⟨exit, k b l r⟩ with faults := b.faults ++ [slotFault code cu.slot] }) := by
  have hold' : (s.setBlk cu.frame (b.branched cu.slot ⟨exit, k b l r⟩)).oldest b.ctx b.u = some (cu.frame, b.branched cu.slot ⟨exit, k b l r⟩) := by
    rw [State.oldest_branched h.blk, hold, Option.map_some, swapped_self]
  have hx' : (s.setBlk cu.frame (b.branched cu.slot ⟨exit, k b l r⟩)).ctxs.get? b.ctx = some x := hx
  rw [stackOp_ready h hbr, State.stackCheck_raise hx' hold' hfault hnew, State.setBlk_setBlk]
  rfl

/-! ### The statements -/

/-- Settles O10: a jump, a wait or a trap issues as the branch of its block; a call or a return does so where the check of the stack finds nothing, and
raises the check's fault in the oldest block where the stack does not allow it. -/
theorem branchesIssue : Obligations.BranchesIssue := by
  unfold Obligations.BranchesIssue
  refine ⟨fun f => ⟨branches_of_branchOp exec_br fun b _ _ => congrArg _ (b.target_eq_offsetFrom _), ?call,
      branches_of_branchOp exec_yield fun b _ _ => congrArg _ (b.target_eq_offsetFrom _),
      branches_of_branchOp exec_idle fun b _ _ => congrArg _ (b.target_eq_offsetFrom _), branches_barWait f, branches_sigWait f⟩,
    fun p exit => ⟨branches_of_branchOp exec_brr fun _ _ _ => rfl, ?callr, ?ret⟩,
    fun p code => ⟨branches_of_branchOp exec_trap fun _ _ _ => rfl, branches_of_branchOp exec_svc fun _ _ _ => rfl⟩,
    fun p => branches_of_branchOp exec_rfe fun _ _ _ => rfl,
    fun s cu b sl l r x hold hx hbr => ⟨fun f p exit hdeep hnew => ?full, fun p exit hdeep hnew h => ?empty⟩⟩
  case call =>
    exact branches_of_stackOp (room := (· < 16)) exec_call (fun b _ _ => congrArg _ (b.target_eq_offsetFrom _)) (fun _ _ _ _ _ h _ => h) (by simp)
  case callr => exact branches_of_stackOp (room := (· < 16)) exec_callr (fun _ _ _ => rfl) (fun _ _ _ _ _ h _ => h) (by simp)
  case ret => exact branches_of_stackOp (room := (· ≠ 0)) exec_ret (fun _ _ _ => rfl) (by simp) fun _ _ _ _ _ h _ => h
  case full =>
    rw [List.forall_mem_cons, List.forall_mem_singleton]
    refine ⟨fun h => ?_, fun h => ?_⟩
    · rw [exec_call, execCall, stackOp_fault h hold hx hbr (Blk.stackFault_call rfl rfl hdeep) hnew, Blk.target_eq_offsetFrom]
      rfl
    · exact (exec_callr s).trans (stackOp_fault h hold hx hbr (Blk.stackFault_call rfl rfl hdeep) hnew)
  case empty => exact (exec_ret s).trans (stackOp_fault h hold hx hbr (Blk.stackFault_ret rfl rfl hdeep) hnew)

/-- Settles O58: the length of a block, rounded up to 16 bytes, is the least multiple that is not below it. -/
theorem returnAddressOfABlock : Obligations.ReturnAddressOfABlock := by
  unfold Obligations.ReturnAddressOfABlock
  intro b
  have hlen : b.hdr.len = 16 * (b.hdr.cwords + 1) + 4 * (b.hdr.count + 1) := rfl
  have haddr : b.returnAddr = b.addr + BitVec.ofNat 64 (16 * ((b.hdr.len + 15) / 16)) := by rw [Blk.returnAddr, Nat.mul_comm]
  refine ⟨⟨(b.hdr.len + 15) / 16, haddr, by omega, fun m hm => by omega⟩, fun halign => ?_⟩
  rw [haddr, BitVec.toNat_add, BitVec.toNat_ofNat]
  omega

end Sys2Proof.Machine
end

section
/-!
SUPPORT. The registers that a block reads (03 R77, 09 R196): the writes that older blocks hold leave a register as it is where no header names it.
-/
namespace Sys2Proof.Machine

/-! ### What a header names -/

theorem Header.names_access {h : Header} (hk : h.kind = 1) (n : Nat) :
    h.names n = if n < 64 then h.rwmask.getLsbD n else h.pwmask.getLsbD (n - 64) := by
  by_cases hn : n < 64 <;> simp [Header.names, writeBit, hk, hn]

theorem Header.names_execute {h : Header} (hk : h.kind ≠ 1) (n : Nat) :
    h.names n = if n < 32 then h.rwmask.getLsbD n else if n < 40 then h.pwmask.getLsbD (n - 32) else h.rwmask.getLsbD (n - 8) := by
  by_cases h32 : n < 32
  · simp [Header.names, writeBit, hk, h32]
  · by_cases h40 : n < 40 <;> simp [Header.names, writeBit, hk, h32, h40]

/-! ### What a write leaves as it is -/

variable {h : Header} {w : Nat × Option Tok} {n : Nat}

theorem Regs.commit_execute {kind : Nat} (hk : kind ≠ 1) (r : Regs) (n : Nat) (t : Tok) :
    r.commit kind (n, some t)
      = if n < 32 then { r with v := vecSet r.v n t.bits }
        else if n < 40 then { r with m := vecSet r.m (n - 32) (maskOf t.bits) }
        else { r with dl := vecSet r.dl (n - 40) t.bits } := if_neg hk

/-- The registers of an access kind are not those that a block of an execute kind writes. -/
theorem Regs.commit_execute_keeps {kind : Nat} (hk : kind ≠ 1) (r : Regs) (w : Nat × Option Tok) :
    (r.commit kind w).g = r.g ∧ (r.commit kind w).gh = r.gh ∧ (r.commit kind w).p = r.p := by
  obtain ⟨m, _ | t⟩ := w
  · exact ⟨rfl, rfl, rfl⟩
  · rw [Regs.commit_execute hk]
    split
    · exact ⟨rfl, rfl, rfl⟩
    · split <;> exact ⟨rfl, rfl, rfl⟩

theorem Regs.writeG_keeps (r : Regs) (m : Nat) (v : Word) (hd : Option (BitVec 4)) :
    (r.writeG m v hd).p = r.p ∧ (r.writeG m v hd).v = r.v ∧ (r.writeG m v hd).m = r.m ∧ (r.writeG m v hd).dl = r.dl
      ∧ (r.writeG m v hd).shA = r.shA ∧ (r.writeG m v hd).shE = r.shE := by
  unfold Regs.writeG
  split <;> exact ⟨rfl, rfl, rfl, rfl, rfl, rfl⟩

/-- The registers of an execute kind are not those that a block of an access kind writes. -/
theorem Regs.commit_access_keeps (r : Regs) (w : Nat × Option Tok) :
    (r.commit 1 w).v = r.v ∧ (r.commit 1 w).m = r.m ∧ (r.commit 1 w).dl = r.dl := by
  obtain ⟨m, _ | t⟩ := w
  · exact ⟨rfl, rfl, rfl⟩
  · rw [Regs.commit_access]
    split
    · obtain ⟨-, hv, hm, hdl, -⟩ := r.writeG_keeps m t.val t.handle
      exact ⟨hv, hm, hdl⟩
    · exact ⟨rfl, rfl, rfl⟩

/-- No write is of a shape register (04 R100). -/
theorem Regs.commit_shapes (r : Regs) (kind : Nat) (w : Nat × Option Tok) : (r.commit kind w).shA = r.shA ∧ (r.commit kind w).shE = r.shE := by
  obtain ⟨m, _ | t⟩ := w
  · exact ⟨rfl, rfl⟩
  · by_cases hk : kind = 1
    · subst hk
      rw [Regs.commit_access]
      split
      · obtain ⟨-, -, -, -, hA, hE⟩ := r.writeG_keeps m t.val t.handle
        exact ⟨hA, hE⟩
      · exact ⟨rfl, rfl⟩
    · rw [Regs.commit_execute hk]
      split
      · exact ⟨rfl, rfl⟩
      · split <;> exact ⟨rfl, rfl⟩

/-- A write of another predicate register leaves one as it is (09 R197). -/
theorem Regs.writeP_ne {m : Nat} (hne : m ≠ n) (r : Regs) (v : Word) : (r.writeP m v).p.getLsbD n = r.p.getLsbD n := by
  have hbit : (1#8 <<< m).getLsbD n = false := by
    rw [BitVec.getLsbD_shiftLeft, BitVec.getLsbD_one]
    by_cases hlt : n < m
    · simp [hlt]
    · simp [show ¬ n - m = 0 by omega]
  have hput : (if v.getLsbD 0 then 1#8 <<< m else 0#8).getLsbD n = false := by
    split
    · exact hbit
    · exact BitVec.getLsbD_zero
  have hp : (r.writeP m v).p = (r.p &&& ~~~ (1#8 <<< m)) ||| (if v.getLsbD 0 then 1#8 <<< m else 0#8) := rfl
  rw [hp, BitVec.getLsbD_or, BitVec.getLsbD_and, BitVec.getLsbD_not, hbit, hput]
  by_cases hn : n < 8
  · simp [hn]
  · simp [BitVec.getLsbD_of_ge r.p n (Nat.not_lt.1 hn)]

/-! ### The writes that a header names -/

theorem Regs.commit_named_g (hn : n < 64) (hw : h.names w.1 = true) (hmask : h.rwmask.getLsbD n = false) (r : Regs) :
    vecGet (r.commit h.kind w).g n 0 = vecGet r.g n 0 ∧ vecGet (r.commit h.kind w).gh n none = vecGet r.gh n none := by
  by_cases hk : h.kind = 1
  · rw [hk]
    refine Regs.commit_keeps (.inl ?_) r
    intro hwn
    rw [hwn, Header.names_access hk, if_pos hn, hmask] at hw
    cases hw
  · obtain ⟨hg, hgh, -⟩ := Regs.commit_execute_keeps hk r w
    rw [hg, hgh]
    exact ⟨rfl, rfl⟩

theorem Regs.commit_named_p (hw : h.names w.1 = true) (hmask : h.pwmask.getLsbD n = false) (r : Regs) :
    (r.commit h.kind w).p.getLsbD n = r.p.getLsbD n := by
  by_cases hk : h.kind = 1
  · rw [hk]
    obtain ⟨m, _ | t⟩ := w
    · rfl
    · rw [Regs.commit_access]
      rw [Header.names_access hk] at hw
      split
      · rw [(r.writeG_keeps m _ _).1]
      · next hm =>
        refine Regs.writeP_ne ?_ r _
        rintro rfl
        rw [if_neg hm, hmask] at hw
        cases hw
  · rw [(Regs.commit_execute_keeps hk r w).2.2]

theorem Regs.commit_named_v (hn : n < 32) (hw : h.names w.1 = true) (hmask : h.rwmask.getLsbD n = false) (r : Regs) :
    vecGet (r.commit h.kind w).v n 0 = vecGet r.v n 0 := by
  by_cases hk : h.kind = 1
  · rw [hk, (Regs.commit_access_keeps r w).1]
  · obtain ⟨m, _ | t⟩ := w
    · rfl
    · rw [Header.names_execute hk] at hw
      rw [Regs.commit_execute hk]
      split
      · next hm =>
        refine vecGet_vecSet_ne ?_ _ _ _
        rintro rfl
        rw [if_pos hm, hmask] at hw
        cases hw
      · split <;> rfl

theorem Regs.commit_named_m (hw : h.names w.1 = true) (hmask : h.pwmask.getLsbD n = false) (r : Regs) :
    vecGet (r.commit h.kind w).m n 0 = vecGet r.m n 0 := by
  by_cases hk : h.kind = 1
  · rw [hk, (Regs.commit_access_keeps r w).2.1]
  · obtain ⟨m, _ | t⟩ := w
    · rfl
    · rw [Header.names_execute hk] at hw
      rw [Regs.commit_execute hk]
      split
      · rfl
      · next h32 =>
        split
        · next h40 =>
          refine vecGet_vecSet_ne ?_ _ _ _
          rintro rfl
          rw [if_neg h32, if_pos h40, hmask] at hw
          cases hw
        · rfl

theorem Regs.commit_named_dl (hw : h.names w.1 = true) (hmask : h.rwmask.getLsbD (n + 32) = false) (r : Regs) :
    vecGet (r.commit h.kind w).dl n 0 = vecGet r.dl n 0 := by
  by_cases hk : h.kind = 1
  · rw [hk, (Regs.commit_access_keeps r w).2.2]
  · obtain ⟨m, _ | t⟩ := w
    · rfl
    · rw [Header.names_execute hk] at hw
      rw [Regs.commit_execute hk]
      split
      · rfl
      · next h32 =>
        split
        · rfl
        · next h40 =>
          refine vecGet_vecSet_ne ?_ _ _ _
          rintro rfl
          rw [if_neg h32, if_neg h40, show m - 8 = m - 40 + 32 by omega, hmask] at hw
          cases hw

/-! ### The registers as a block reads them -/

theorem byAge_insert_mem {b o : Blk} {l : List Blk} (h : o ∈ byAge.insert b l) : o = b ∨ o ∈ l := by
  induction l with
  | nil => simpa [byAge.insert] using h
  | cons a l ih =>
    rw [byAge.insert] at h
    split at h
    · simpa using h
    · rcases List.mem_cons.1 h with rfl | h
      · exact .inr List.mem_cons_self
      · exact (ih h).imp_right (List.mem_cons_of_mem a)

theorem byAge_mem {o : Blk} {l : List (FrameKey × Blk)} (h : o ∈ byAge l) : ∃ e ∈ l, e.2 = o := by
  induction l with
  | nil => cases h
  | cons e l ih =>
    rcases byAge_insert_mem h with rfl | h
    · exact ⟨e, List.mem_cons_self, rfl⟩
    · obtain ⟨a, ha, rfl⟩ := ih h
      exact ⟨a, List.mem_cons_of_mem e ha, rfl⟩

theorem foldl_keeps {α β γ : Type} (π : α → γ) {f : α → β → α} {l : List β} (h : ∀ x ∈ l, ∀ a, π (f a x) = π a) (a : α) : π (l.foldl f a) = π a := by
  induction l generalizing a with
  | nil => rfl
  | cons x l ih =>
    rw [List.forall_mem_cons] at h
    rw [List.foldl_cons, ih h.2, h.1]

/-- What every write that an older block's header names leaves as it is, the registers that a block reads have as its context has it. -/
theorem State.seenRegs_keeps {γ : Type} (π : Regs → γ) {s : State} {b : Blk}
    (h : ∀ e ∈ s.older b, ∀ w : Nat × Option Tok, e.2.hdr.names w.1 = true → ∀ r : Regs, π (r.commit e.2.hdr.kind w) = π r) (x : Ctx) :
    π (s.seenRegs b x) = π x.regs := by
  refine foldl_keeps π (fun o ho r => foldl_keeps π (fun w hw r => ?_) r) x.regs
  obtain ⟨e, he, rfl⟩ := byAge_mem ho
  exact h e he w (by simpa using (List.mem_filter.1 hw).2) r

/-- With one older block, an arrived write of a general register is what a block reads there (03 R77). -/
theorem State.seenRegs_written {s : State} {b : Blk} {e : FrameKey × Blk} {t : Tok} (h : s.older b = [e]) (hk : e.2.hdr.kind = 1) (h0 : 0 < n)
    (hn : n < 64) (hmask : e.2.hdr.rwmask.getLsbD n = true) (hregs : e.2.regs = [(n, some t)]) (x : Ctx) :
    vecGet (s.seenRegs b x).g n 0 = t.val ∧ vecGet (s.seenRegs b x).gh n none = t.handle := by
  have harr : e.2.arrivedRegs = [(n, some t)] := by
    rw [Blk.arrivedRegs, hregs, List.filter_cons_of_pos (by rw [Header.names_access hk, if_pos hn, hmask]), List.filter_nil]
  have hseen : s.seenRegs b x = x.regs.writeG n t.val t.handle := by
    rw [State.seenRegs, h]
    simp only [byAge, byAge.insert, List.foldl_cons, List.foldl_nil, harr, hk]
    rw [Regs.commit_access, if_pos hn]
  rw [hseen]
  exact Regs.writeG_self h0 hn x.regs _ _

end Sys2Proof.Machine
end

section
/-!
The statements of `read` and `write` (03 R77, R82, R83, 09 R196, R197, 14 R334).
-/
namespace Sys2Proof.Machine

/-! ### What a read finds -/

theorem State.regPending_none {s : State} {b : Blk} {named : Header → Bool} (h : ∀ e ∈ s.older b, named e.2.hdr = false) (n : Nat) :
    s.regPending b named n = false := List.any_eq_false.2 fun e he => by simp [h e he]

theorem State.readReg_ready {s : State} {b : Blk} {named : Header → Bool} (h : ∀ e ∈ s.older b, named e.2.hdr = false) (n : Nat) (t : Tok) :
    s.readReg b named n t = .tok t [] := by simp [State.readReg, State.regPending_none h]

theorem State.readShape_ready {s : State} {b : Blk} {k : Nat} (h : ∀ e ∈ s.older b, e.2.steps k = false) (v : Word) :
    s.readShape b k v = .tok (Tok.ofWord v) [] := by
  have hany : ¬ ((s.older b).any fun e => e.2.steps k) = true := by simpa using h
  rw [State.readShape, if_neg hany]

theorem Regs.readG_eq (r : Regs) (n : Nat) : r.readG n = if n = 0 then .ctl 0 none 8 else .ctl (vecGet r.g n 0) (vecGet r.gh n none) 8 := rfl

theorem Regs.readP_eq (r : Regs) (n : Nat) : r.readP n = .ctl (if r.p.getLsbD n then 1 else 0) none 8 := rfl

section
variable {s : State} {x : Ctx} {b : Blk} {slot n : Nat} {plane : Plane}

theorem State.readNum_g (hk : b.hdr.kind = 1) (hn : n < 64) :
    s.readNum x b slot n plane = s.readReg b (fun h => h.rwmask.getLsbD n) n ((s.seenRegs b x).readG n) := by
  simp only [State.readNum, hk, hn, if_true]

theorem State.readNum_p (hk : b.hdr.kind = 1) (hlo : 64 ≤ n) (hn : n < 72) :
    s.readNum x b slot n plane = s.readReg b (fun h => h.pwmask.getLsbD (n - 64)) n ((s.seenRegs b x).readP (n - 64)) := by
  simp only [State.readNum, hk, if_true, if_neg (Nat.not_lt.2 hlo), hn]

theorem State.readNum_shA (hk : b.hdr.kind = 1) (hlo : 72 ≤ n) (hn : n < 80) :
    s.readNum x b slot n plane = s.readShape b (n - 72) (vecGet (s.seenRegs b x).shA (n - 72) 0) := by
  simp only [State.readNum, hk, if_true, if_neg (show ¬ n < 64 by omega), if_neg (Nat.not_lt.2 hlo), hn]

theorem State.readNum_v (hk : b.hdr.kind ≠ 1) (hn : n < 32) :
    s.readNum x b slot n plane = s.readReg b (fun h => h.rwmask.getLsbD n) n (.vec (vecGet (s.seenRegs b x).v n 0)) := by
  simp only [State.readNum, if_neg hk, hn, if_true]

theorem State.readNum_m (hk : b.hdr.kind ≠ 1) (hlo : 32 ≤ n) (hn : n < 40) :
    s.readNum x b slot n plane = s.readReg b (fun h => h.pwmask.getLsbD (n - 32)) n (.vec (ofMask (vecGet (s.seenRegs b x).m (n - 32) 0))) := by
  simp only [State.readNum, if_neg hk, if_neg (Nat.not_lt.2 hlo), hn, if_true]

theorem State.readNum_dl (hk : b.hdr.kind ≠ 1) (hlo : 40 ≤ n) (hn : n < 48) :
    s.readNum x b slot n plane = s.readReg b (fun h => h.rwmask.getLsbD (n - 8)) n (.vec (vecGet (s.seenRegs b x).dl (n - 40) 0)) := by
  simp only [State.readNum, if_neg hk, if_neg (show ¬ n < 32 by omega), if_neg (Nat.not_lt.2 hlo), hn, if_true]

theorem State.readNum_shE (hk : b.hdr.kind ≠ 1) (hlo : 48 ≤ n) (hn : n < 56) :
    s.readNum x b slot n plane = s.readShape b (n - 48) (vecGet (s.seenRegs b x).shE (n - 48) 0) := by
  simp only [State.readNum, if_neg hk, if_neg (show ¬ n < 32 by omega), if_neg (show ¬ n < 40 by omega), if_neg (Nat.not_lt.2 hlo), hlo, hn, and_self, if_true]

theorem State.readNum_inlet (hk : b.hdr.kind ≠ 1) (hlo : 64 ≤ n) (hn : n < 96) :
    s.readNum x b slot n plane = s.readInlet x b (n - 64) slot 0 true plane := by
  simp only [State.readNum, if_neg hk, if_neg (show ¬ n < 32 by omega), if_neg (show ¬ n < 40 by omega), if_neg (show ¬ n < 48 by omega),
    if_neg (show ¬ (48 ≤ n ∧ n < 56) by omega), hlo, hn, and_self, if_true]

theorem State.readInlet_elem {inl id : Nat} {isRead : Bool} {bd : Bind} {p : Nat} {el : QElem} (hbd : x.inlet inl = some bd)
    (hplane : (s.queue (objKey x.pk bd.queue)).plane = decide (plane = .dat))
    (hpos : s.inletPos b inl (objKey x.pk bd.queue) slot id isRead = some p) (hel : (s.queue (objKey x.pk bd.queue)).availAt p = .elem el) :
    s.readInlet x b inl slot id isRead plane = .tok (elemTok (plane = .dat) el) [.part (objKey x.pk bd.queue)] := by
  simp [State.readInlet, hbd, hplane, hpos, hel]

end

/-! ### What a read does with it -/

section
variable {s : State} {cu : Cur} {b : Blk} {sl : Slot} {x : Ctx} {reg : BitVec 7} {t2 t1 : Tgt}

theorem execRead_eq (h : InSlot s cu b sl) (hx : s.ctxs.get? b.ctx = some x) :
    exec (.read reg t2 t1) s = readDone s cu b sl (info (.read reg t2 t1)) (s.readNum x b cu.slot reg.toNat sl.plane) := by
  rw [exec_read, execRead, withSlot_inSlot h, withCtx_some hx]

theorem execRead_taking {t : Tok} {q : List QRef} (h : InSlot s cu b sl) (hx : s.ctxs.get? b.ctx = some x)
    (hread : s.readNum x b cu.slot reg.toNat sl.plane = .tok t q) :
    exec (.read reg t2 t1) s = .next (s.sentTaking cu b sl (.read reg t2 t1) t q) := by
  rw [execRead_eq h hx, hread]
  rfl

theorem execRead_tok {t : Tok} (h : InSlot s cu b sl) (hx : s.ctxs.get? b.ctx = some x)
    (hread : s.readNum x b cu.slot reg.toNat sl.plane = .tok t []) : exec (.read reg t2 t1) s = .next (s.sentOne cu b sl (.read reg t2 t1) t) := by
  rw [execRead_taking h hx hread]
  simp only [State.sentTaking, List.map_nil, List.append_nil]
  rfl

end

/-! ### The statements -/

/-- Settles O8: a number names one register, whose value the older blocks leave as it is where none names it; an arrived write of the one older block is
what the block sees, and a write that has not arrived is waited for. -/
theorem readReturnsRegister : Obligations.ReadReturnsRegister := by
  unfold Obligations.ReadReturnsRegister
  intro s cu b sl x reg t2 t1 h hx
  refine ⟨fun hk hn hold => ?g, fun hk hlo hn hold => ?p, fun hk hlo hn hold => ?shA, fun hk hn hold => ?v, fun hk hlo hn hold => ?m,
    fun hk hlo hn hold => ?dl, fun hk hlo hn hold => ?shE, fun bd p el hk hlo hn hbd hplane hpos hel => ?inlet,
    fun e w hk h0 hn hone hek hmask hregs => ?arrived, fun e he hk hn hmask hw => ?waits⟩
  case g =>
    refine execRead_tok h hx ?_
    obtain ⟨hg, hgh⟩ := Prod.mk.inj (State.seenRegs_keeps (fun r => (vecGet r.g reg.toNat 0, vecGet r.gh reg.toNat none))
      (fun e he w hw r => Prod.ext_iff.2 (Regs.commit_named_g hn hw (hold e he) r)) x)
    rw [State.readNum_g hk hn, State.readReg_ready hold, Regs.readG_eq, hg, hgh]
  case p =>
    refine execRead_tok h hx ?_
    rw [State.readNum_p hk hlo hn, State.readReg_ready hold, Regs.readP_eq,
      State.seenRegs_keeps (fun r => r.p.getLsbD (reg.toNat - 64)) fun e he w hw r => Regs.commit_named_p hw (hold e he) r]
  case shA =>
    refine execRead_tok h hx ?_
    rw [State.readNum_shA hk hlo hn, State.readShape_ready hold, State.seenRegs_keeps Regs.shA fun e _ w _ r => (r.commit_shapes _ w).1]
    rfl
  case v =>
    refine execRead_tok h hx ?_
    rw [State.readNum_v hk hn, State.readReg_ready hold,
      State.seenRegs_keeps (fun r => vecGet r.v reg.toNat 0) fun e he w hw r => Regs.commit_named_v hn hw (hold e he) r]
  case m =>
    refine execRead_tok h hx ?_
    rw [State.readNum_m hk hlo hn, State.readReg_ready hold,
      State.seenRegs_keeps (fun r => vecGet r.m (reg.toNat - 32) 0) fun e he w hw r => Regs.commit_named_m hw (hold e he) r]
  case dl =>
    refine execRead_tok h hx ?_
    have hbit : reg.toNat - 40 + 32 = reg.toNat - 8 := by omega
    rw [State.readNum_dl hk hlo hn, State.readReg_ready hold,
      State.seenRegs_keeps (fun r => vecGet r.dl (reg.toNat - 40) 0) fun e he w hw r => Regs.commit_named_dl hw (hbit ▸ hold e he) r]
  case shE =>
    refine execRead_tok h hx ?_
    rw [State.readNum_shE hk hlo hn, State.readShape_ready hold, State.seenRegs_keeps Regs.shE fun e _ w _ r => (r.commit_shapes _ w).2]
    rfl
  case inlet => exact execRead_taking h hx ((State.readNum_inlet hk hlo hn).trans (State.readInlet_elem hbd hplane hpos hel))
  case arrived =>
    refine execRead_tok h hx ?_
    have hdone : s.regPending b (fun h => h.rwmask.getLsbD reg.toNat) reg.toNat = false := by simp [State.regPending, hone, hregs]
    obtain ⟨hg, hgh⟩ := State.seenRegs_written hone hek h0 hn hmask hregs x
    rw [State.readNum_g hk hn, State.readReg, hdone, Regs.readG_eq, if_neg (Nat.ne_of_gt h0), hg, hgh]
    rfl
  case waits =>
    have hpend : s.regPending b (fun h => h.rwmask.getLsbD reg.toNat) reg.toNat = true :=
      List.any_eq_true.2 ⟨e, he, by simpa [hmask] using hw⟩
    rw [execRead_eq h hx, State.readNum_g hk hn, State.readReg, hpend]
    rfl

theorem Blk.completeReg_new {b : Blk} {reg : Nat} (h : ∀ e ∈ b.regs, e.1 ≠ reg) (n : Nat) (t : Option Tok) :
    b.completeReg n reg t = { b.fin n with regs := b.regs ++ [(reg, t)] } := by
  have hany : ¬ (b.regs.any fun r => r.1 = reg) = true := fun hany =>
    let ⟨e, he, heq⟩ := List.any_eq_true.1 hany
    h e he (of_decide_eq_true heq)
  rw [Blk.completeReg, if_neg hany]

theorem Blk.completeReg_again {b : Blk} {reg : Nat} (h : ∃ e ∈ b.regs, e.1 = reg) (n : Nat) (t : Option Tok) :
    b.completeReg n reg t = b.fails n (slotFault 0x05 n) := by
  have hany : (b.regs.any fun r => r.1 = reg) = true := by simpa using h
  rw [Blk.completeReg, if_pos hany]

/-- Settles O9: a ready `write` completes its register with its token, and a second completion is a token collision of its slot. -/
theorem writeCompletesRegister : Obligations.WriteCompletesRegister := by
  unfold Obligations.WriteCompletesRegister
  intro s cu b sl l r p reg h
  have hexec : exec (.write p reg) s = .next (s.setBlk cu.frame (b.completeReg cu.slot reg.toNat (some l))) := by
    rw [exec_write, execWrite, actOp_ready h]
  refine ⟨fun hnew => ?_, fun hagain => ?_⟩
  · rw [hexec, Blk.completeReg_new hnew]
  · rw [hexec, Blk.completeReg_again hagain]
    rfl

end Sys2Proof.Machine
end

section
/-!
SUPPORT. The memory instructions as they issue (10 R220, R221): their effective addresses as numbers, and what follows once the checks have passed or one
has failed.
-/
namespace Sys2Proof.Machine

/-! ### Effective addresses (R220) -/

theorem signExtend_mul_ofNat {w : Nat} (d : BitVec w) (n : Nat) : d.signExtend 64 * BitVec.ofNat 64 n = BitVec.ofInt 64 (d.toInt * n) := by
  rw [BitVec.ofInt_mul, BitVec.ofInt_natCast]
  rfl

theorem LoadSpec.ea_eq (l : LoadSpec) (base : Word) : l.ea base = base + BitVec.ofInt 64 (l.disp.toInt * l.size) := by
  rw [LoadSpec.ea, signExtend_mul_ofNat]

theorem prefAddr_eq (f : FmtL) (base : Word) : prefAddr f base = base + BitVec.ofInt 64 (f.disp.toInt * 128) :=
  congrArg (base + ·) (signExtend_mul_ofNat f.disp 128)

/-! ### The checks (R221) -/

section
variable {s s' : State} {cu : Cur} {b : Blk} {x : Ctx} {va : Word} {len ew : Nat} {rd wr plain : Bool} {h : Option Trans}
  {k : State → Blk → List Part' → Out State}

/-- Where the checks pass and the block is still there, the instruction goes on with the events. -/
theorem checked_ok {ps : List Part'} (hacc : s.access (b.who x) va len ew rd wr plain h = (.ok ps, s')) (hb : (s'.blks.get? cu.frame).isSome = true) :
    checked s cu b x va len ew rd wr plain h k = k s' (b.sawPages ps) ps := by
  simp only [checked, hacc, hb, if_true]

/-- Where a check fails and no page is pulled, the block holds the fault of the check. -/
theorem checked_error {e : Fail} (hacc : s.access (b.who x) va len ew rd wr plain h = (.error e, s')) (hpull : e.pull = none) :
    checked s cu b x va len ew rd wr plain h k = .next (s'.raised cu b { e.rec' va with slot := BitVec.ofNat 7 cu.slot }) := by
  simp only [checked, hacc, memFail, hpull]
  rfl

end

/-! ### What completes an identifier (03 R86) -/

theorem completeWith_eq {b : Blk} {id : Ident} (hid : b.idDone.getLsbD id.toNat = false) (s : State) (cu : Cur) (e : Eff) :
    completeWith s cu b id e = .next (s.completed cu b id e) := by
  simp only [completeWith, Blk.complete, hid, Bool.false_eq_true, if_false]
  rfl

/-- Seeing pages changes no identifier, so an access that has passed its checks completes its own. -/
theorem completeWith_sawPages {b : Blk} {id : Ident} (hid : b.idDone.getLsbD id.toNat = false) (s : State) (cu : Cur) (ps : List Part') (e : Eff) :
    completeWith s cu (b.sawPages ps) id e = .next (s.completed cu (b.sawPages ps) id e) :=
  completeWith_eq (b := b.sawPages ps) hid s cu e

end Sys2Proof.Machine
end

section
/-!
The statements of the memory instructions as they issue (10 R220 to R229, R231, R232, R235, R237).
-/
namespace Sys2Proof.Machine

variable {i : Instr} {s s' : State} {cu : Cur} {b : Blk} {sl : Slot} {l r : Tok} {x : Ctx}

/-! ### Loads -/

theorem loadIssue_ready (h : Ready i s cu b sl l r) (hx : s.ctxs.get? b.ctx = some x) (ls : LoadSpec) :
    loadIssue (info i) ls s = checked s cu b x (ls.ea l.val) ls.size l.ew true false true (b.handleOf x l) fun s b _ =>
      .next (s.setBlk cu.frame (b.updSlot cu.slot fun sl => { sl with st := .out })) := by
  rw [loadIssue, loadOp_ready h, withCtx_some hx]

/-- What a ready load does, by its size and its displacement field (10 R220, R221, R228). -/
theorem load_checks {size : Nat} {signed : Bool} {disp : BitVec 9} (hi : ∀ s, exec i s = loadIssue (info i) ⟨size, signed, disp⟩ s) :
    ∀ s cu b sl l r x s', Ready i s cu b sl l r → s.ctxs.get? b.ctx = some x →
      (∀ ps, s.access (b.who x) (l.val + BitVec.ofInt 64 (disp.toInt * size)) size l.ew true false true (b.handleOf x l) = (.ok ps, s') →
        (s'.blks.get? cu.frame).isSome = true →
        exec i s = .next (s'.setBlk cu.frame ((b.sawPages ps).updSlot cu.slot fun sl => { sl with st := .out })))
      ∧ (∀ e, s.access (b.who x) (l.val + BitVec.ofInt 64 (disp.toInt * size)) size l.ew true false true (b.handleOf x l) = (.error e, s') →
        e.pull = none →
        exec i s = .next (s'.raised cu b
          { code := e.code
            faddr := l.val + BitVec.ofInt 64 (disp.toInt * size)
            step := BitVec.ofNat 3 e.step
            sub := BitVec.ofNat 8 e.sub
            slot := BitVec.ofNat 7 cu.slot })) := by
  intro s cu b sl l r x s' h hx
  have hea : LoadSpec.ea ⟨size, signed, disp⟩ l.val = l.val + BitVec.ofInt 64 (disp.toInt * size) := LoadSpec.ea_eq _ _
  rw [hi, loadIssue_ready h hx, hea]
  exact ⟨fun ps hacc hb => checked_ok hacc hb, fun e hacc hpull => checked_error hacc hpull⟩

/-- Settles O14: each form is the load of its size and displacement, and a load goes on as its checks end. -/
theorem loadsCheckAndStandOutstanding : Obligations.LoadsCheckAndStandOutstanding := by
  unfold Obligations.LoadsCheckAndStandOutstanding
  intro f f2
  simp only [List.forall_mem_cons]
  exact ⟨load_checks exec_ldN8, load_checks exec_ldS8, load_checks exec_ldN16, load_checks exec_ldS16, load_checks exec_ldN32, load_checks exec_ldS32,
    load_checks exec_ldB64, load_checks exec_ldN82t, load_checks exec_ldS82t, load_checks exec_ldN162t, load_checks exec_ldS162t,
    load_checks exec_ldN322t, load_checks exec_ldS322t, load_checks exec_ldB642t, fun _ h => absurd h List.not_mem_nil⟩

/-! ### Translations and prefetch -/

/-- A ready `xlate` that no earlier store keeps waiting makes its steps (10 R224). -/
theorem execXlate_ready {p : Pred} {id : Ident} {wr : Bool} {th : BitVec 4} {t1 : Tgt} (h : Ready (.xlate p id wr th t1) s cu b sl l r)
    (hx : s.ctxs.get? b.ctx = some x) (hst : b.storesBelow id.toNat = true) {t : Except Fail Trans}
    (hp : s.probeAddr (b.who x) l.val wr (b.handleOf x l) = (t, s')) :
    exec (.xlate p id wr th t1) s = .next (s'.setBlk cu.frame (b.xlated cu.slot sl (info (.xlate p id wr th t1)) th l t)) := by
  have hl : l.isFault = false := (used_of_operand h.left).2.2
  rw [exec_xlate, execXlate, withSlot_inSlot h.toInSlot]
  simp only [gate_of_operands h.left h.right h.pred, hl, hst, withCtx_some hx, hp, Bool.false_eq_true, if_false, Bool.not_true]

/-- A ready `xprobe` that no earlier store keeps waiting makes its steps (10 R226). -/
theorem execXprobe_ready {p : Pred} {id : Ident} {wr : Bool} {th : BitVec 4} {t1 : Tgt} (h : Ready (.xprobe p id wr th t1) s cu b sl l r)
    (hx : s.ctxs.get? b.ctx = some x) (hst : b.storesBelow id.toNat = true) {t : Except Fail Trans}
    (hp : s.probeAddr (b.who x) l.val wr (b.handleOf x l) = (t, s')) :
    exec (.xprobe p id wr th t1) s = .next (s'.setBlk cu.frame (b.probed cu.slot sl (info (.xprobe p id wr th t1)) th t
      (s.probedPage (b.who x) l.val wr (b.handleOf x l)))) := by
  have hl : l.isFault = false := (used_of_operand h.left).2.2
  rw [exec_xprobe, execXprobe, withSlot_inSlot h.toInSlot]
  simp only [gate_of_operands h.left h.right h.pred, hl, hst, withCtx_some hx, hp, Bool.false_eq_true, if_false, Bool.not_true]

/-- A ready `pref` that no earlier store keeps waiting tells whether it was sent (10 R231). -/
theorem execPref_ready {f : FmtL} {sent : Bool} (h : Ready (.pref f) s cu b sl l r) (hx : s.ctxs.get? b.ctx = some x)
    (hst : b.storesBelow f.id.toNat = true) (hp : s.prefSent (b.who x) (prefAddr f l.val) (b.handleOf x l) = (sent, s')) :
    exec (.pref f) s = .next (s'.sent cu b sl (.pref f) (Tok.ofWord (bitAt sent 0)) .null) := by
  have hl : l.isFault = false := (used_of_operand h.left).2.2
  rw [exec_pref, execPref, withSlot_inSlot h.toInSlot]
  simp only [gate_of_operands h.left h.right h.pred, hl, hst, withCtx_some hx, hp, Bool.false_eq_true, if_false, Bool.not_true]
  rfl

/-- A handle that the block has not completed is held for commit (10 R224, 03 R83). -/
theorem Blk.claim_new {th : BitVec 4} (hnew : ∀ e ∈ b.handles, e.1 ≠ th.toNat) (n : Nat) (t : Option Trans) (k : Blk → Blk) :
    b.claim n th t k = k { b with handles := b.handles ++ [(th.toNat, t)] } := by
  have hany : ¬ (b.handles.any fun e => e.1 = th.toNat) = true := fun hany =>
    let ⟨e, he, heq⟩ := List.any_eq_true.1 hany
    hnew e he (of_decide_eq_true heq)
  rw [Blk.claim, if_neg hany]

theorem at'_eq_ofNat (n lo : Nat) : at' n lo = BitVec.ofNat 64 (n <<< lo) := by
  refine BitVec.eq_of_toNat_eq ?_
  simp only [at', BitVec.toNat_shiftLeft, BitVec.toNat_ofNat, Nat.shiftLeft_eq, Nat.mod_mul_mod]

/-- The status word of a translation that succeeds on a page (10 R226): the page size stands above four bits. -/
theorem probeWord_page (t : Trans) (n : Nat) (w rd : Bool) :
    probeWord (.ok t) (some (n, w, rd)) = BitVec.ofNat 64 (16 * n + (if w then 8 else 0) + (if rd then 4 else 0) + 2 + 1) := by
  have hword : probeWord (.ok t) (some (n, w, rd)) = at' n 4 ||| (at' 0 6 ||| bitAt true 0 ||| bitAt w 3 ||| bitAt rd 2 ||| bitAt true 1) := by
    simp only [probeWord, decide_true]
    ac_rfl
  have hlow : (at' 0 6 ||| bitAt true 0 ||| bitAt w 3 ||| bitAt rd 2 ||| bitAt true 1)
      = BitVec.ofNat 64 ((if w then 8 else 0) + (if rd then 4 else 0) + 2 + 1) := by cases w <;> cases rd <;> rfl
  have hlt : (if w then 8 else 0) + (if rd then 4 else 0) + 2 + 1 < 2 ^ 4 := by cases w <;> cases rd <;> decide +revert
  rw [hword, hlow, at'_eq_ofNat, ← BitVec.ofNat_or, ← Nat.shiftLeft_add_eq_or_of_lt hlt, Nat.shiftLeft_eq, Nat.mul_comm]
  simp only [Nat.add_assoc]

theorem probeWord_noPage (t : Trans) : probeWord (.ok t) none = 1 := by simp [probeWord, at', bitAt]

/-- The status word of a translation that fails where no page is mapped or pulled is the cause alone (10 R226). -/
theorem probeWord_unmapped {e : Fail} (hpull : e.pull = none) :
    probeWord (.error e) none = if e.code = 0x12 then 64 else if e.code = 0x10 then 128 else 192 := by
  by_cases h12 : e.code = 0x12
  · simp [probeWord, hpull, h12, at', bitAt]
  · by_cases h10 : e.code = 0x10 <;> simp [probeWord, hpull, h12, h10, at', bitAt]

/-- Settles O16: each of the three makes its steps, and its block sends what they find. -/
theorem translationsAndPrefetch : Obligations.TranslationsAndPrefetch := by
  unfold Obligations.TranslationsAndPrefetch
  refine ⟨fun s cu b sl l r x p id wr th t1 s' h hx hst => ⟨fun t hp hnew => ?xlate, fun e hp hpull => ?xlateFails⟩,
    fun s cu b sl l r x p id wr th t1 s' t h hx hst hp hnew => ?xprobe,
    fun s cu b sl l r x p id wr th t1 s' e h hx hst hp hnone hpull => ?xprobeFails,
    fun f s cu b sl l r x sent s' h hx hst hp => ?pref⟩
  case xlate =>
    rw [execXlate_ready h hx hst hp, Blk.xlated, Blk.claim_new hnew]
  case xlateFails =>
    rw [execXlate_ready h hx hst hp, Blk.xlated, hpull]
    rfl
  case xprobe =>
    rw [execXprobe_ready h hx hst hp, Blk.probed, Blk.claim_new hnew]
    rcases s.probedPage (b.who x) l.val wr (b.handleOf x l) with _ | ⟨n, w, rd⟩
    · rw [probeWord_noPage]
    · rw [probeWord_page]
  case xprobeFails =>
    rw [execXprobe_ready h hx hst hp, hnone, Blk.probed, probeWord_unmapped hpull, hpull]
    rfl
  case pref =>
    rw [execPref_ready h hx hst (by rw [prefAddr_eq, hp])]
    cases sent <;> rfl

/-! ### Stores, updates and leases -/

/-- A ready store whose checks pass completes its identifier with the events of its bytes (10 R229). -/
theorem store_arrives {p : Instr × Nat} {id : Ident} {disp : BitVec 18} (hi : ∀ s, exec p.1 s = storeIssue (info p.1) id disp p.2 s)
    {ps : List Part'} (h : Ready p.1 s cu b sl l r) (hx : s.ctxs.get? b.ctx = some x) (hid : b.idDone.getLsbD id.toNat = false)
    (hacc : s.access (b.who x) (l.val + BitVec.ofInt 64 disp.toInt) p.2 r.ew false true true (b.handleOf x l) = (.ok ps, s'))
    (hb : (s'.blks.get? cu.frame).isSome = true) :
    exec p.1 s = .next (s'.completed cu (b.sawPages ps) id (.store (storeEvents (min r.ew p.2) ps (leBytes p.2 r.val.toNat) 0))) := by
  have hacc' : s.access (b.who x) (storeAddr disp l.val) p.2 r.ew false true true (b.handleOf x l) = (.ok ps, s') := hacc
  rw [hi, storeIssue, storeOp_ready h, withCtx_some hx, checked_ok hacc' hb, completeWith_sawPages hid]

/-- A ready `amo` on a multiple of its width that is not forwarded completes its identifier with its update once its checks pass (10 R232). -/
theorem amo_arrives {e : Instr × AmoOp × Bool} {id : Ident} {sc : Scope} {ord : Bool}
    (hi : ∀ s, exec e.1 s = amoIssue (info e.1) id e.2.1 e.2.2 sc ord s) {q : Part'} {ps : List Part'} (h : Ready e.1 s cu b sl l r)
    (hx : s.ctxs.get? b.ctx = some x) (hid : b.idDone.getLsbD id.toNat = false) (hfwd : s.forwarded (b.who x) l.val (amoLen e.2.2) = none)
    (halign : l.val.toNat % amoLen e.2.2 = 0)
    (hacc : s.access (b.who x) l.val (amoLen e.2.2) (amoLen e.2.2) true true false (b.handleOf x l) = (.ok (q :: ps), s'))
    (hb : (s'.blks.get? cu.frame).isSome = true) :
    exec e.1 s = .next (s'.completed cu (b.sawPages (q :: ps)) id (.amo e.2.1 q.pa q.key q.vp e.2.2 r.val sc ord)) := by
  have hal : ¬ l.val.toNat % amoLen e.2.2 ≠ 0 := not_not_intro halign
  rw [hi, amoIssue, storeOp_ready h, withCtx_some hx]
  simp only [hfwd, checked_ok hacc hb, if_neg hal, completeWith_sawPages hid]

/-- Settles O17: a store-class access whose checks pass completes its identifier with its effect. -/
theorem storesAndUpdatesArrive : Obligations.StoresAndUpdatesArrive := by
  unfold Obligations.StoresAndUpdatesArrive
  intro s cu b sl x
  refine ⟨fun p id disp l r s' ps q hq => ?store, fun p id sc wide ord l r s' q ps e he => ?amo,
    fun p id cyc l r s' s'' q ps t h hx hid hacc hb htr => ?lease, fun p id l r s' q ps h hx hid hacc hb => ?unlease⟩
  case store =>
    have hi : ∀ s, exec q.1 s = storeIssue (info q.1) id disp q.2 s := by
      revert q
      simp only [List.forall_mem_cons]
      exact ⟨exec_stB8, exec_stB16, exec_stB32, exec_stB64, fun _ h => absurd h List.not_mem_nil⟩
    exact store_arrives hi
  case amo =>
    have hi : ∀ s, exec e.1 s = amoIssue (info e.1) id e.2.1 e.2.2 sc ord s := by
      revert e
      simp only [List.forall_mem_cons]
      exact ⟨exec_amoAdd, exec_amoAddF32, exec_amoMinS, exec_amoMaxS, exec_amoMinN, exec_amoMaxN, exec_amoAnd, exec_amoOr, exec_amoXor,
        fun _ h => absurd h List.not_mem_nil⟩
    exact amo_arrives hi
  case lease =>
    have htr' : s'.translate ((b.sawPages (q :: ps)).who x) l.val 1 true true true ((b.sawPages (q :: ps)).handleOf x l) = (.ok t, s'') := htr
    rw [exec_lease, execLease, storeOp_ready h, withCtx_some hx, checked_ok hacc hb]
    simp only [htr', completeWith_sawPages hid]
  case unlease =>
    rw [exec_unlease, execUnlease, storeOp_ready h, withCtx_some hx, checked_ok hacc hb]
    simp only [completeWith_sawPages hid]

/-! ### Fences -/

theorem State.acqReady_of {id : Nat} (hb : b.loadsBelow id = true) (hold : ∀ e ∈ s.older b, e.2.loadsBelow 32 = true) : s.acqReady b id = true := by
  rw [State.acqReady, hb, List.all_eq_true.2 hold]
  rfl

theorem State.pathDone_of (hpath : ∀ e ∈ x.path, e.eff.isQfence = true) (hold : ∀ e ∈ s.older b, e.2.hdr.smask = 0) : s.pathDone x b = true := by
  rw [State.pathDone, List.all_eq_true.2 hpath, List.all_eq_true.2 fun e he => decide_eq_true (hold e he)]
  rfl

/-- Settles O18: a fence completes its identifier where what it acquires has ended. -/
theorem fencesArrive : Obligations.FencesArrive := by
  unfold Obligations.FencesArrive
  refine fun p id sc set => ⟨fun s cu b sl l r x h hx hid hok => ?acq, fun s cu b sl l r x h hx hid _ => ?rel,
    fun s cu b sl l r x h hx hid hok => ?ar, fun s cu b sl l r x h hx hid _ => ?qfence⟩
  case acq =>
    obtain ⟨hown, hold⟩ := hok
    rw [exec_fenceAcq, execFenceAcq, storeOp_ready h, if_pos (State.acqReady_of hown hold), completeWith_eq hid]
  case rel => rw [exec_fenceRel, execFenceRel, storeOp_ready h, completeWith_eq hid]
  case ar =>
    obtain ⟨hown, hold, hpath, hmask⟩ := hok
    rw [exec_fenceAr, execFenceAr, storeOp_ready h, withCtx_some hx, State.acqReady_of hown hold, State.pathDone_of hpath hmask,
      if_pos (by rfl), completeWith_eq hid]
  case qfence => rw [exec_qfence, execQfence, storeOp_ready h, completeWith_eq hid]

end Sys2Proof.Machine
end

section
/-!
The statement of LOAD_PERFORM (10 R227, R228): a load performs its next event, and its last one delivers the value of its bytes.
-/
namespace Sys2Proof.Machine

/-- No load is of more than eight bytes (10 R227). -/
theorem loadSpec_size_le {i : Instr} {l : LoadSpec} (h : loadSpec i = some l) : l.size ≤ 8 := by
  unfold loadSpec at h
  split at h <;> cases h <;> simp

/-- The value of loaded bytes, the first the lowest, extended as the form says. -/
theorem LoadSpec.value_eq {l : LoadSpec} (h : l.size ≤ 8) (bs : List Byte) :
    l.value bs = if l.signed then BitVec.ofInt 64 (BitVec.ofNat (8 * l.size) (leNat bs)).toInt else BitVec.ofNat 64 (leNat bs) := by
  have hcut : (BitVec.ofNat 64 (leNat bs)).setWidth (8 * l.size) = BitVec.ofNat (8 * l.size) (leNat bs) :=
    BitVec.setWidth_ofNat_of_le (by omega) _
  rw [LoadSpec.value, bytesW, sextW, hcut]
  rfl

variable {s s' : State} {cu : Cur} {b : Blk} {sl : Slot} {x : Ctx} {i : Instr} {id : Ident} {l : LoadSpec} {a : Tok} {ps : List Part'} {p : Part'}

/-- The act performs an outstanding load of a block in flight. -/
theorem execLoadPerform_out (hsite : s.site = .slot cu) (hb : s.blks.get? cu.frame = some b) (hsl : b.slots[cu.slot]? = some sl) (hout : sl.st = .out)
    (hx : s.ctxs.get? b.ctx = some x) (hi : decode sl.plane sl.word = .ok i) (hl : loadSpec i = some l) (ha : sl.l = some a) :
    exec .loadPerform s = loadNow s cu b sl x i l a := by
  simp only [exec_loadPerform, execLoadPerform, hsite, hb, hsl, hx, hi, ha, hl, hout, if_true]

/-- The event that is next, and those after it. -/
theorem drop_eq_cons {n : Nat} (h : ps[n]? = some p) : ps.drop n = p :: ps.drop (n + 1) := by
  obtain ⟨hn, rfl⟩ := List.getElem?_eq_some_iff.1 h
  exact List.drop_eq_getElem_cons hn

/-- A load that may perform its next event reads its bytes (10 R228): it keeps them where events are left, and else delivers its value. -/
theorem loadNow_event (hid : (info i).id = some id) (hacc : s.access (b.who x) (l.ea a.val) l.size a.ew true false true (b.handleOf x a) = (.ok ps, s'))
    (hblk : (s'.blks.get? cu.frame).isSome = true) (hready : s'.loadReady x (b.sawPages ps) id.toNat (ps.drop sl.got.length) = true)
    (hp : ps[sl.got.length]? = some p) (hwait : s'.waitAt (.load cu.frame b.seq cu.slot) (some b.ctx) [s'.lineOf x.pk p.pa] = none)
    {u : State} (hu : s'.redirected x.pk p.pa = u) (hfail : u.loadFails x.pk (x.pathEvents ++ b.eventsBelow id.toNat) p = false)
    {got : List (List Byte)} (hgot : sl.got ++ [u.loadPart x.pk (x.pathEvents ++ b.eventsBelow id.toNat) p] = got) :
    loadNow s cu b sl x i l a =
      if ps.drop (sl.got.length + 1) ≠ [] then .next (u.setBlk cu.frame ((b.sawPages ps).updSlot cu.slot fun sl => { sl with got := got }))
      else .next (u.sentOne cu (b.sawPages ps) sl i (Tok.ofWord (l.value got.flatten))) := by
  have hwait' : s'.waitAt (.load cu.frame (b.sawPages ps).seq cu.slot) (some (b.sawPages ps).ctx) [s'.lineOf x.pk p.pa] = none := hwait
  have hfail' : u.loadFails x.pk (x.pathEvents ++ (b.sawPages ps).eventsBelow id.toNat) p = false := hfail
  have hgot' : sl.got ++ [u.loadPart x.pk (x.pathEvents ++ (b.sawPages ps).eventsBelow id.toNat) p] = got := hgot
  rw [drop_eq_cons hp] at hready
  simp only [loadNow, checked_ok hacc hblk, hid, drop_eq_cons hp, hready, hwait', hu, hfail', hgot', Bool.not_true, Bool.false_eq_true, if_false]
  rfl

/-- Settles O15: the event that is next is the last where none is left after it. -/
theorem loadPerformDeliversBytes : Obligations.LoadPerformDeliversBytes := by
  unfold Obligations.LoadPerformDeliversBytes
  intro s cu b sl x i id l a ps s' p u got hsite hb hsl hout hx hi hid hl ha hacc hblk hready hp hwait hu hfail hgot
  rw [execLoadPerform_out hsite hb hsl hout hx hi hl ha, loadNow_event hid hacc hblk hready hp hwait hu hfail hgot]
  refine ⟨fun hlast => ?_, fun hmore => ?_⟩
  · rw [if_neg (not_not_intro (List.drop_eq_nil_iff.2 (Nat.le_of_eq hlast.symm))), LoadSpec.value_eq (loadSpec_size_le hl)]
  · rw [if_pos fun hnil => Nat.not_le.2 hmore (List.drop_eq_nil_iff.1 hnil)]

end Sys2Proof.Machine
end

section
/-!
SUPPORT. Updates (08 R184, 10 R233, R234): their values as numbers, and what joins them on their way and at their homes.
-/
namespace Sys2Proof.Machine

/-! ### Values (R233) -/

theorem leNat_lt (l : List Byte) : leNat l < 2 ^ (8 * l.length) := by
  induction l with
  | nil => decide
  | cons b l ih =>
    have hb := b.isLt
    rw [leNat, List.length_cons, Nat.mul_succ, Nat.pow_add, Nat.mul_comm (2 ^ _)]
    omega

theorem State.length_peeks (s : State) (k pa n : Nat) : (s.peeks k pa n).length = n := by
  induction n generalizing pa with
  | zero => rfl
  | succ n ih => rw [State.peeks, List.length_cons, ih]

theorem intOfBits_eq_toInt {w v : Nat} (hw : 0 < w) (hv : v < 2 ^ w) : intOfBits true w v = (BitVec.ofNat w v).toInt := by
  have hhalf := Nat.two_pow_pred_mul_two hw
  rw [intOfBits, BitVec.toInt_eq_toNat_cond, BitVec.toNat_ofNat, Nat.mod_eq_of_lt hv]
  by_cases h : 2 ^ (w - 1) ≤ v
  · rw [if_pos (by simpa using h), if_neg (by omega)]
    simp
  · rw [if_neg (by simpa using h), if_pos (by omega)]

theorem toInt_ofNat_inj {w v v' : Nat} (hv : v < 2 ^ w) (hv' : v' < 2 ^ w) (h : (BitVec.ofNat w v).toInt = (BitVec.ofNat w v').toInt) : v = v' := by
  simpa [Nat.mod_eq_of_lt, hv, hv'] using congrArg BitVec.toNat (BitVec.eq_of_toInt_eq h)

/-- The value of an update is R233's: with equal numbers both take the same. -/
theorem amoNew_eq_updated {w old v : Nat} (hw : 0 < w) (hold : old < 2 ^ w) (hv : v < 2 ^ w) (op : AmoOp) : amoNew op w old v = updated op w old v := by
  cases op with
  | minS => simp only [amoNew, updated, intOfBits_eq_toInt hw hold, intOfBits_eq_toInt hw hv]
  | maxS =>
    simp only [amoNew, updated, intOfBits_eq_toInt hw hold, intOfBits_eq_toInt hw hv, ge_iff_le]
    split
    · next hle =>
      split
      · next hge => exact (toInt_ofNat_inj hold hv (Int.le_antisymm hle hge)).symm
      · rfl
    · next hlt => rw [if_pos (Int.le_of_lt (Int.not_le.1 hlt))]
  | minN => exact (Nat.min_def).symm
  | maxN => exact (Nat.max_def).symm
  | _ => rfl

/-- The width of an update in bits. -/
theorem eight_mul_amoLen (wide : Bool) : 8 * amoLen wide = if wide then 64 else 32 := by cases wide <;> rfl

theorem amoLen_bits_pos (wide : Bool) : 0 < 8 * amoLen wide := by cases wide <;> decide

theorem AmoReq.opnd_lt (r : AmoReq) : r.opnd < 2 ^ (8 * amoLen r.wide) := Nat.mod_lt _ (Nat.two_pow_pos _)

theorem AmoReq.opnd_eq (r : AmoReq) : r.opnd = r.v.toNat % (if r.wide then 2 ^ 64 else 2 ^ 32) := by
  rw [AmoReq.opnd, eight_mul_amoLen]
  cases r.wide <;> rfl

/-! ### Merging (08 R184, 10 R234) -/

/-- Where no update may merge, all are left and nothing is drawn. -/
theorem mergeAmos_none {may : AmoReq → Bool} (near : AmoReq → Bool) (r : AmoReq) (k : Nat) {l : List AmoReq} (h : ∀ o ∈ l, may o = false) (v : Nat)
    (s : State) : mergeAmos r near may k l v s = ⟨v, [], l, s⟩ := by
  induction l generalizing k with
  | nil => rfl
  | cons o l ih =>
    obtain ⟨ho, hl⟩ := List.forall_mem_cons.1 h
    simp only [mergeAmos, ho, ih _ hl, Bool.and_false, Bool.false_and, Bool.false_eq_true, if_false]

/-- An update that has joined another, which stands for both. -/
def AmoReq.joined (o r : AmoReq) : AmoReq :=
  { o with srcs := o.srcs ++ r.srcs, v := BitVec.ofNat 64 (amoNew r.op (8 * amoLen r.wide) o.opnd r.opnd) }

/-- Two updates that merge have one width, so the value for both is R233's of the two operands. -/
theorem AmoReq.joined_eq {o r : AmoReq} (h : r.merges o = true) :
    o.joined r = { o with
      srcs := o.srcs ++ r.srcs
      v := BitVec.ofNat 64 (updated r.op (if r.wide then 64 else 32) (o.v.toNat % (if r.wide then 2 ^ 64 else 2 ^ 32))
        (r.v.toNat % (if r.wide then 2 ^ 64 else 2 ^ 32))) } := by
  have hwide : r.wide = o.wide := by
    simp only [AmoReq.merges, Bool.and_eq_true, decide_eq_true_eq] at h
    exact h.2
  have ho : o.opnd < 2 ^ (8 * amoLen r.wide) := hwide ▸ o.opnd_lt
  rw [AmoReq.joined, amoNew_eq_updated (amoLen_bits_pos r.wide) ho r.opnd_lt, o.opnd_eq, r.opnd_eq, eight_mul_amoLen, hwide]

/-- An update joins one that it may join, or none. -/
theorem joinAmo_cases (r : AmoReq) (may : AmoReq → Bool) (l : List AmoReq) (s : State) :
    (joinAmo r may l s).1 = none ∨ ∃ k o, l[k]? = some o ∧ may o = true ∧ (joinAmo r may l s).1 = some (l.set k (o.joined r)) := by
  induction l generalizing s with
  | nil => exact .inl rfl
  | cons a l ih =>
    rw [joinAmo]
    split
    · next hmay => exact .inr ⟨0, a, rfl, (Bool.and_eq_true_iff.1 hmay).1, rfl⟩
    · rcases ih (if may a then s.drawBool.2 else s) with hnone | ⟨k, o, hk, ho, hset⟩
      · exact .inl (by simp only [hnone, Option.map_none])
      · exact .inr ⟨k + 1, o, hk, ho, by simp only [hset, Option.map_some, List.set_cons_succ]⟩

/-- Joining draws free choices and changes nothing else. -/
theorem joinAmo_keeps (r : AmoReq) (may : AmoReq → Bool) (l : List AmoReq) (s : State) :
    (joinAmo r may l s).2.mem = s.mem ∧ (joinAmo r may l s).2.amos = s.amos := by
  induction l generalizing s with
  | nil => exact ⟨rfl, rfl⟩
  | cons a l ih =>
    rw [joinAmo]
    split
    · exact ⟨rfl, rfl⟩
    · obtain ⟨hmem, hamos⟩ := ih (if may a then s.drawBool.2 else s)
      refine ⟨hmem.trans ?_, hamos.trans ?_⟩ <;> split <;> rfl

/-- An update that leaves its core goes on its way alone, or joins one on its way (10 R234); the memory stays as it is. -/
theorem State.sendAmo_cases (s : State) (r : AmoReq) :
    (s.sendAmo r).mem = s.mem ∧ ((s.sendAmo r).amos = s.amos ++ [r]
      ∨ ∃ k o, s.amos[k]? = some o ∧ s.joins r o = true ∧ (s.sendAmo r).amos = s.amos.set k (o.joined r)) := by
  obtain ⟨hmem, hamos⟩ := joinAmo_keeps r (s.joins r) s.amos s
  have hcases := joinAmo_cases r (s.joins r) s.amos s
  rw [State.sendAmo]
  rcases hj : joinAmo r (s.joins r) s.amos s with ⟨_ | l, t⟩ <;> rw [hj] at hmem hamos hcases
  · exact ⟨hmem, .inl (congrArg (· ++ [r]) hamos)⟩
  · rcases hcases with hnone | ⟨k, o, hk, ho, hset⟩
    · cases hnone
    · exact ⟨hmem, .inr ⟨k, o, hk, ho, Option.some.inj hset⟩⟩

end Sys2Proof.Machine
end

section
/-!
The statements of the store path and of the homes (10 R230, R233 to R235, 08 R185).
-/
namespace Sys2Proof.Machine

/-! ### A home performs an update -/

/-- An update event to a page that is not in transit writes R233's value of the old bytes (10 R233). -/
theorem State.amoApply_home {u : State} {r : AmoReq} (h : (u.part r.pk).movingAt r.pa = none) :
    u.amoApply r r.opnd = u.writeEv r.pk r.pa r.key (leBytes (amoLen r.wide) (updated r.op (8 * amoLen r.wide)
      (leNat (u.peeks (u.reach r.pk r.pa).1 (u.reach r.pk r.pa).2 (amoLen r.wide))) r.opnd)) := by
  have hold : leNat (u.peeks (u.reach r.pk r.pa).1 (u.reach r.pk r.pa).2 (amoLen r.wide)) < 2 ^ (8 * amoLen r.wide) := by
    have hlt := leNat_lt (u.peeks (u.reach r.pk r.pa).1 (u.reach r.pk r.pa).2 (amoLen r.wide))
    rwa [State.length_peeks] at hlt
  simp only [State.amoApply, h, amoNew_eq_updated (amoLen_bits_pos r.wide) hold r.opnd_lt]

/-- With no other that may merge with it, an update is performed alone, and leaves the store paths it came from (10 R234). -/
theorem State.amoNow_alone {s u t : State} {r : AmoReq} {rest : List AmoReq} (halone : ∀ o ∈ rest, r.merges o = false)
    (hu : ({ s with amos := rest } : State).redirected r.pk r.pa = u) (happly : u.amoApply r r.opnd = some t) : s.amoNow r rest = t.amoDone r := by
  have hmay : ∀ o ∈ rest, (r.merges o && !s.amoShut o) = false := fun o ho => by rw [halone o ho, Bool.false_and]
  simp only [State.amoNow, mergeAmos_none _ _ _ hmay, hu, happly, List.foldl_cons, List.foldl_nil]

/-- A home performs an update that nothing keeps waiting. -/
theorem execAmoHomeUpdate_at {s : State} {n : Nat} {r : AmoReq} (hsite : s.site = .num n) (hr : s.amos[n]? = some r)
    (hwin : ((s.amos.take n).filter (s.sameHome r)).length < 64) (hord : ordBefore r (s.amos.take n) = false) (hwaits : s.amoWaits r = false)
    (hshut : s.amoShut r = false) : exec .amoHomeUpdate s = .next (s.amoNow r (s.amos.eraseIdx n)) := by
  have hwin' : ¬ 64 ≤ ((s.amos.take n).filter (s.sameHome r)).length := Nat.not_le.2 hwin
  simp only [exec_amoHomeUpdate, execAmoHomeUpdate, hsite, hr, hwin', hord, hwaits, hshut, decide_false, Bool.or_self, Bool.false_eq_true, if_false]

/-- Settles O19: with nothing to merge, the home's act is the update's one event. -/
theorem atomicUpdateAtHome : Obligations.AtomicUpdateAtHome := by
  unfold Obligations.AtomicUpdateAtHome
  intro s n r u t hsite hr hwin hord hwaits hshut halone hu hmoving hwrite
  have happly : u.amoApply r r.opnd = some t := by
    rw [State.amoApply_home hmoving, eight_mul_amoLen, r.opnd_eq]
    exact hwrite
  rw [execAmoHomeUpdate_at hsite hr hwin hord hwaits hshut, State.amoNow_alone halone hu happly]
  rfl

/-! ### A store path performs its entries -/

section
variable {s : State} {c n : Nat} {x : Ctx} {e : PathEnt}

theorem execStorePathPerform_at (hsite : s.site = .ctxQ c n) (hx : s.ctxs.get? c = some x) (he : (x.path.find? fun e => e.stamp = n) = some e) :
    exec .storePathPerform s = .next (s.pathStep c x e) := by
  simp only [exec_storePathPerform, execStorePathPerform, hsite, hx, he]

/-- The lowest event of a store that nothing holds is written (10 R230). -/
theorem State.storeStep_writes {v : StEvent} {rest : List StEvent} {u t : State} (hheld : s.storeWaits x e v = false)
    (hwait : s.waitAt (.path c e.stamp) (some c) [s.lineOf x.pk v.pa] = none) (hmoving : s.movingOf x.pk v.pa = none)
    (hu : s.redirected x.pk v.pa = u) (hwrite : u.writeEv x.pk v.pa v.key v.bytes = some t) :
    s.storeStep c x e (v :: rest) = if rest = [] then t.dropEnt c e.stamp else t.setEnt c e.stamp (.store rest) := by
  simp only [State.storeStep, hheld, hwait, hmoving, hu, hwrite, Bool.false_eq_true, if_false]

theorem Ctx.eventsUnder_false {below : Nat} (h : ∀ g ∈ x.path, g.stamp < below → g.eff.isQfence = true) : x.eventsUnder below = false :=
  List.any_eq_false.2 fun g hg => by simpa using h g hg

end

/-- Settles O20: an entry that nothing holds takes its step. -/
theorem storePathPerforms : Obligations.StorePathPerforms := by
  unfold Obligations.StorePathPerforms
  intro s c n x e hsite hx he
  obtain rfl : e.stamp = n := by simpa using List.find?_some he
  rw [execStorePathPerform_at hsite hx he]
  refine ⟨fun v rest u t heff hheld hwait hmoving hu hwrite => ?store, fun op pa key vp wide v sc ord r heff hheld hr => ?amo,
    fun below heff hdone => ?fence, fun sc tok v heff hwait => ?sig⟩
  case store =>
    rw [State.pathStep, heff]
    simp only [State.storeStep_writes hheld hwait hmoving hu hwrite]
    split <;> rfl
  case amo =>
    obtain ⟨hmem, hsent⟩ := (s.setEnt c e.stamp (.amo op pa key vp wide v sc ord true)).sendAmo_cases r
    have hstep : s.pathStep c x e = (s.setEnt c e.stamp (.amo op pa key vp wide v sc ord true)).sendAmo r := by
      simp only [State.pathStep, heff, hheld, hr, Bool.or_self, Bool.false_eq_true, if_false]
    refine ⟨_, congrArg _ hstep, hmem, hsent.imp_right ?_⟩
    rintro ⟨k, o, hk, hjoins, hset⟩
    have hmerges : r.merges o = true := (Bool.and_eq_true_iff.1 hjoins).1
    refine ⟨k, o, hk, hjoins, hset.trans ?_⟩
    rw [AmoReq.joined_eq hmerges, hr]
    rfl
  case fence =>
    simp only [State.pathStep, heff, Ctx.eventsUnder_false hdone, Bool.false_eq_true, if_false]
    rfl
  case sig =>
    simp only [State.pathStep, heff, hwait, Bool.false_eq_true, if_false]
    rfl

end Sys2Proof.Machine
end

section
/-!
The statements of a store's event in memory and of leases (10 R230, R235, R236, 01 R34, 07 R154, 13 R297, 22 R465).
-/
namespace Sys2Proof.Machine

/-! ### The bytes of a store event -/

/-- Below the end of local HBM no address is remote or a device register (07 R154). -/
theorem Pkg.space_low {pa : Nat} (h : pa < 2 ^ 40) (p : Pkg) : p.space pa = .hbm (pa / 2 ^ 37) (pa / 2 ^ 36 % 2) ∨ p.space pa = .hole := by
  rw [Pkg.space]
  split
  · split
    · exact .inl rfl
    · exact .inr rfl
  · exact .inr rfl

theorem State.reach_low {pa : Nat} (h : pa < 2 ^ 40) (s : State) (pk : PartKey) : s.reach pk pa = (pk.pkg, pa) := by
  rcases (s.pkg pk.pkg).space_low h with hsp | hsp <;> rw [State.reach, hsp]

/-- A partition of class 0 has no twins (21 R443). -/
theorem State.twin_class0 {s : State} {pk : PartKey} (h : fld (s.part pk).vdcfg 62 2 = 0) (pa : Nat) (l : List Byte) : s.twin pk pa l = s := by
  have hplace : s.twinPlace pk pa l.length = none := by simp only [State.twinPlace, h, decide_true, Bool.or_true, Bool.true_or, if_true]
  rw [State.twin, State.atTwin, hplace]

/-- A write under a key changes the memory at its place and leaves the packages and the partitions as they are; the capability frame is read-only. -/
theorem State.pokeKey_frame (s : State) (k pa : Nat) (l : List Byte) (key : KeyEnt) :
    (s.pokeKey k pa l key).pkgs = s.pkgs ∧ (s.pokeKey k pa l key).parts = s.parts
      ∧ (s.pokeKey k pa l key).mem = if inCap pa then s.mem else s.mem.writeBytes (memKey k pa) l := by
  rw [State.pokeKey, State.poke]
  split <;> exact ⟨rfl, rfl, rfl⟩

/-- What an event at a low address of a class 0 partition leaves. -/
theorem State.writeEv_class0 {s t : State} {pk : PartKey} {pa key : Nat} {l : List Byte} (hpa : pa < 2 ^ 40) (hcls : fld (s.part pk).vdcfg 62 2 = 0)
    (h : s.writeEv pk pa key l = some t) : t.pkgs = s.pkgs ∧ t.mem = if inCap pa then s.mem else s.mem.writeBytes (memKey pk.pkg pa) l := by
  have hwrite : s.evFails pk pa key = false
      ∧ ((s.pokeKey pk.pkg pa l ((s.pkg pk.pkg).key key)).twin pk pa l).hitCasks pk.pkg pa l.length = t := by
    rcases (s.pkg pk.pkg).space_low hpa with hsp | hsp <;> simpa [State.writeEv, hsp, State.reach_low hpa] using h
  obtain ⟨hpkgs, hparts, hmem⟩ := s.pokeKey_frame pk.pkg pa l ((s.pkg pk.pkg).key key)
  have hcls' : fld ((s.pokeKey pk.pkg pa l ((s.pkg pk.pkg).key key)).part pk).vdcfg 62 2 = 0 := by rwa [State.part, hparts]
  rw [State.twin_class0 hcls'] at hwrite
  obtain ⟨-, rfl⟩ := hwrite
  exact ⟨hpkgs, hmem⟩

theorem State.peek_of_mem {s : State} {k a : Nat} (h : inCap a = false) : s.peek k a = s.mem.read (memKey k a) := by
  rw [State.peek, h]
  rfl

/-- Two states with the same packages show the same byte where their memories do. -/
theorem State.peek_congr {s t : State} {k a : Nat} (hpkgs : t.pkgs = s.pkgs) (hmem : t.mem.read (memKey k a) = s.mem.read (memKey k a)) :
    t.peek k a = s.peek k a := by
  rw [State.peek, State.peek, State.pkg, State.pkg, hpkgs, hmem]

/-- Settles O21: the event writes one range of memory, and addresses of different packages never meet. -/
theorem storeEventWritesItsBytes : Obligations.StoreEventWritesItsBytes := by
  unfold Obligations.StoreEventWritesItsBytes
  intro s pk pa key l t hwf hwrite hend _ hcls
  have hmwf : s.mem.wf = true := (Bool.and_eq_true_iff.1 hwf).1
  obtain ⟨hpkgs, hmem⟩ := State.writeEv_class0 (by omega) hcls hwrite
  refine ⟨fun hlow n hn => ?inside, fun k a ha hout => ?outside, fun hcap => ?frame⟩
  case inside =>
    have hpa : ¬ inCap pa = true := by simpa [inCap] using hlow
    have hbyte : inCap (pa + n) = false := decide_eq_false (by omega)
    have haddr : memKey pk.pkg (pa + n) = memKey pk.pkg pa + n := (Nat.add_assoc _ _ _).symm
    rw [State.peek_of_mem hbyte, hmem, if_neg hpa, haddr, Memory.read_writeBytes_in l s.mem _ n hn hmwf]
  case outside =>
    have hrange : memKey k a < memKey pk.pkg pa ∨ memKey pk.pkg pa + l.length ≤ memKey k a := by
      simp only [memKey]
      omega
    refine State.peek_congr hpkgs ?_
    rw [hmem]
    split
    · rfl
    · exact Memory.read_writeBytes_out l s.mem _ _ hmwf hrange
  case frame =>
    have hpa : inCap pa = true := decide_eq_true hcap
    rw [hmem, if_pos hpa]

/-! ### Leases -/

section
variable {s : State} {c : Nat} {x : Ctx} {line : Nat} {tr : Trans}

theorem execLeaseHold_first {cycles : Nat} (hsite : s.site = .ctx c) (hx : s.ctxs.get? c = some x) (hst : x.lease.st = .waiting line tr cycles)
    (hfree : s.leasedFrom (some c) line = false) (hfirst : s.firstAt (.lease c) line = true) :
    exec .leaseHold s = .next (s.leaseHold c line tr cycles) := by
  simp only [exec_leaseHold, execLeaseHold, hsite, hx, hst, hfree, hfirst, Bool.not_false, Bool.and_self, if_true]

theorem execLeaseExpiry_at (hsite : s.site = .ctx c) : exec .leaseExpiry s = .next (s.leaseTick c) := by
  simp only [exec_leaseExpiry, execLeaseExpiry, hsite]

/-- A held lease whose count has reached 0 ends and raises event 3 (10 R235, R236). -/
theorem State.leaseTick_ended {till : Word} (hx : s.ctxs.get? c = some x) (hst : x.lease.st = .held line tr till) (hrun : s.leaseRuns line till = false) :
    s.leaseTick c = (s.updCtx c fun x => { x with lease := { x.lease with st := .none, expd := true } }).raise c 3 := by
  simp only [State.leaseTick, hx, hst, hrun, Bool.false_eq_true, if_false]

end

/-- Settles O22: each act changes the lease of its context, and the end of a lease is also event 3 of the context. -/
theorem leaseHoldAndExpiry : Obligations.LeaseHoldAndExpiry := by
  unfold Obligations.LeaseHoldAndExpiry
  intro s c x hsite hx
  refine ⟨fun line tr cycles hst hfree hfirst => ?hold, fun line tr till hst hcount => ?ends⟩
  case hold => exact ⟨_, execLeaseHold_first hsite hx hst hfree hfirst, State.updCtx_ctx hx _, rfl⟩
  case ends =>
    have hrun : s.leaseRuns line till = false := decide_eq_false (Nat.not_le.2 hcount)
    refine ⟨_, execLeaseExpiry_at hsite, ?_, ?_⟩ <;> rw [State.leaseTick_ended hx hst hrun]
    · exact State.updCtx_ctx (State.updCtx_ctx hx _) _
    · rfl

end Sys2Proof.Machine
end

section
/-!
SUPPORT. The issue of vector forms with flags (06 R144) and of element-wise forms (11 R240, R241): what the token holds, and what the flags of the elements
do to the block.
-/
namespace Sys2Proof.Machine

/-! ### The flags of elements (06 R143, R144) -/

theorem Flags.bits_or (f g : Flags) : (f.or g).bits = f.bits ||| g.bits := by
  simp only [Flags.bits, Flags.or, ← BitVec.ofBool_or_ofBool]
  iterate 5 rw [← BitVec.or_append]

theorem enabledIn_or (fpst : BitVec 13) (f g : Flags) : enabledIn fpst (f.or g) = enabledIn fpst f ||| enabledIn fpst g := by
  simp only [enabledIn, Flags.bits_or, BitVec.setWidth_or, BitVec.and_or_distrib_right]

/-- The elements below `n` with their flags. -/
def elemFlags (n : Nat) (fl : Nat → Flags) : List (Nat × Flags) := (List.range n).map fun e => (e, fl e)

theorem flagUnion_elemFlags (n : Nat) (fl : Nat → Flags) : flagUnion (elemFlags n fl) = flagsBelow n fl := by
  rw [flagUnion, elemFlags, List.foldl_map]
  rfl

theorem flagsBelow_succ (n : Nat) (fl : Nat → Flags) : flagsBelow (n + 1) fl = (flagsBelow n fl).or (fl n) := by
  rw [flagsBelow, List.range_succ, List.foldl_append]
  rfl

theorem flagsBelow_none (n : Nat) : flagsBelow n (fun _ => {}) = {} := by
  induction n with
  | zero => rfl
  | succ n ih =>
    rw [flagsBelow_succ, ih]
    rfl

/-- A flag that is enabled in one element is enabled among those of all. -/
theorem enabledIn_flagsBelow_ne {fpst : BitVec 13} {n e : Nat} {fl : Nat → Flags} (he : e < n) (hen : enabledIn fpst (fl e) ≠ 0) :
    enabledIn fpst (flagsBelow n fl) ≠ 0 := by
  induction n with
  | zero => exact absurd he (Nat.not_lt_zero e)
  | succ n ih =>
    rw [flagsBelow_succ, enabledIn_or]
    intro h0
    obtain ⟨hbelow, hlast⟩ := BitVec.or_eq_zero_iff.1 h0
    obtain hlt | rfl := Nat.lt_succ_iff_lt_or_eq.1 he
    · exact ih hlt hbelow
    · exact hen hlast

theorem lowestElem_eq_min? (fpst : BitVec 13) (l : List (Nat × Flags)) :
    lowestElem fpst l = ((l.filter fun p => enabledIn fpst p.2 != 0).map Prod.fst).min? := by
  induction l with
  | nil => rfl
  | cons p l ih =>
    rw [lowestElem, ih]
    by_cases hp : (enabledIn fpst p.2 != 0) = true
    · rw [List.filter_cons_of_pos (p := fun p : Nat × Flags => enabledIn fpst p.2 != 0) hp, List.map_cons, List.min?_cons]
      cases ((l.filter fun p => enabledIn fpst p.2 != 0).map Prod.fst).min? with
      | none => exact if_pos hp
      | some k =>
        simp only [hp, Bool.true_and, decide_eq_true_eq, Option.elim_some]
        rcases Nat.lt_or_ge p.1 k with hlt | hge
        · rw [if_pos hlt, Nat.min_eq_left hlt.le]
        · rw [if_neg (Nat.not_lt.2 hge), Nat.min_eq_right hge]
    · rw [List.filter_cons_of_neg (p := fun p : Nat × Flags => enabledIn fpst p.2 != 0) hp]
      rw [Bool.not_eq_true] at hp
      cases ((l.filter fun p => enabledIn fpst p.2 != 0).map Prod.fst).min? <;>
        simp only [hp, Bool.false_and, Bool.false_eq_true, if_false]

/-- The first element that raises an enabled flag is the lowest one in the fault. -/
theorem lowestElem_elemFlags {fpst : BitVec 13} {n e : Nat} {fl : Nat → Flags} (he : e < n) (hen : enabledIn fpst (fl e) ≠ 0)
    (hfirst : ∀ k, k < e → enabledIn fpst (fl k) = 0) : lowestElem fpst (flagList (elemFlags n fl)) = some e := by
  have hraised : fl e ≠ {} := fun h => hen (by rw [h]; simp [enabledIn, Flags.bits])
  rw [lowestElem_eq_min?, List.min?_eq_some_iff]
  refine ⟨?raises, fun k hk => ?least⟩
  case raises => simpa [flagList, elemFlags] using ⟨he, hen, hraised⟩
  case least =>
    obtain ⟨hkn, hken, -⟩ : k < n ∧ enabledIn fpst (fl k) ≠ 0 ∧ fl k ≠ {} := by simpa [flagList, elemFlags] using hk
    exact Nat.le_of_not_lt fun hlt => hken (hfirst k hlt)

/-! ### The issue of a form -/

/-- A governed form sends its token with the flags of its elements, or raises the arithmetic fault of R144. -/
theorem vecFlags_of_govVec {i : Instr} {f : VCtx → VWord → VWord → BitVec 32 → VRes} {n : VCtx → Nat} {fl : VCtx → VWord → VWord → Nat → Flags}
    {res : VCtx → VWord → VWord → VWord → VWord → Prop} (hi : ∀ s, exec i s = govVec (info i) f s)
    (hfl : ∀ c l r lf, (f c l r lf).fl = flagList (elemFlags (n c) (fl c l r))) (hres : ∀ c l r lf, res c l r (f c l r lf).lo (f c l r lf).lo) :
    VecFlags i n fl res := by
  intro s cu b sl l r x hready hx hwaits
  rw [hi, govVec, vecOp_ready hready hx hwaits, Blk.vecDone, hfl, flagUnion_flagList, flagUnion_elemFlags]
  refine ⟨fun hnone => ⟨_, _, hres _ _ _ (b.lfsr.getD x.fx.lfsr), ?sent⟩, fun e he hen hfirst => ?fault⟩
  case sent =>
    rw [hnone]
    rfl
  case fault =>
    rw [if_pos (bne_iff_ne.2 (enabledIn_flagsBelow_ne he hen)), lowestElem_elemFlags he hen hfirst]
    rfl

/-- A form that raises no flag, and whose token does not depend on the generator, sends its token. -/
theorem vecElems_of_vecOp {i : Instr} {governed : Bool} {f : VCtx → VWord → VWord → BitVec 32 → VRes} {w : Nat} {n : VCtx → Nat}
    {g : VCtx → VWord → VWord → Nat → Nat} (hi : ∀ s, exec i s = vecOp (info i) governed false false (fun _ => f) s)
    (hv : ∀ c l r, ∃ v, Holds v w (n c) (g c l r) ∧ ∀ lf, (f c l r lf).lo = v ∧ flagUnion (f c l r lf).fl = {}) : VecElems i governed w n g := by
  intro s cu b sl l r x hready hx hwaits
  obtain ⟨v, hholds, hf⟩ := hv (s.seen b x).vctx l.bits r.bits
  exact ⟨v, hholds, by rw [hi, vecOp_sends hready hx hwaits hf]⟩

/-! ### Element-wise forms (11 R240, R241) -/

/-- On elements below `B`, the element operation `f` gives what `g` gives, an element below `B` and its flags. -/
structure Computes (f g : Nat → Nat → Nat × Flags) (B : Nat) : Prop where
  eq : ∀ {a b}, a < B → b < B → f a b = g a b
  lt : ∀ {a b}, a < B → b < B → (g a b).1 < B

section
variable {ty : ElTy} {f g : Nat → Nat → Nat × Flags}

theorem vMap2_holds (h : Computes f g (2 ^ ElTy.width ty)) (c : VCtx) (l r : VWord) (lf : BitVec 32) :
    Holds (vMap2 ty f c l r lf).lo (ElTy.width ty) (c.n (ElTy.width ty)) (laneOf (ElTy.width ty) (fun a b => (g a b).1) c l r) := by
  simp only [vMap2, elementwise, List.map_map]
  refine holds_pack fun e _ => ?_
  simp only [Function.comp_apply, laneOf]
  split
  · rw [h.eq (elem_lt _ _ _) (elem_lt _ _ _), Nat.mod_eq_of_lt (h.lt (elem_lt _ _ _) (elem_lt _ _ _))]
  · exact Nat.mod_eq_of_lt (elem_lt _ _ _)

theorem vMap2_fl (h : Computes f g (2 ^ ElTy.width ty)) (c : VCtx) (l r : VWord) (lf : BitVec 32) :
    (vMap2 ty f c l r lf).fl = flagList (elemFlags (c.n (ElTy.width ty)) fun e =>
      if c.active (ElTy.width ty) e then (g (elem (ElTy.width ty) e l) (elem (ElTy.width ty) e r)).2 else {}) := by
  simp only [vMap2, elementwise, elemFlags, List.map_map]
  refine congrArg flagList (List.map_congr_left fun e _ => ?_)
  simp only [Function.comp_apply]
  split
  · rw [h.eq (elem_lt _ _ _) (elem_lt _ _ _)]
  · rfl

/-- A form of the left elements is a form of both. -/
theorem vMap1_eq_vMap2 (ty : ElTy) (f : Nat → Nat × Flags) : (fun c l _ lf => vMap1 ty f c l lf) = vMap2 ty fun a _ => f a := by
  funext c l r lf
  simp only [vMap1, vMap2]

/-- An element-wise form with flags. -/
theorem vecLanes_of_vMap2 {i : Instr} (hi : ∀ s, exec i s = govVec (info i) (vMap2 ty f) s) (h : Computes f g (2 ^ ElTy.width ty)) :
    VecLanes i (ElTy.width ty) g :=
  vecFlags_of_govVec hi (vMap2_fl h) fun c l r lf => ⟨rfl, vMap2_holds h c l r lf⟩

/-- An element-wise form without flags. -/
theorem vecElems_of_vMap2 {i : Instr} {g : Nat → Nat → Nat} (hi : ∀ s, exec i s = govVec (info i) (vMap2 ty f) s)
    (h : Computes f (fun a b => (g a b, {})) (2 ^ ElTy.width ty)) : VecElems i true (ElTy.width ty) (·.n (ElTy.width ty)) (laneOf (ElTy.width ty) g) := by
  refine vecElems_of_vecOp hi fun c l r => ⟨_, vMap2_holds h c l r 0, fun lf => ⟨rfl, ?_⟩⟩
  rw [vMap2_fl h, flagUnion_flagList, flagUnion_elemFlags]
  simp only [ite_self, flagsBelow_none]

theorem vecLanes_of_vMap1 {i : Instr} {f : Nat → Nat × Flags} (hi : ∀ s, exec i s = govVec (info i) (fun c l _ lf => vMap1 ty f c l lf) s)
    (h : Computes (fun a _ => f a) g (2 ^ ElTy.width ty)) : VecLanes i (ElTy.width ty) g :=
  vecLanes_of_vMap2 (vMap1_eq_vMap2 ty f ▸ hi) h

theorem vecElems_of_vMap1 {i : Instr} {f : Nat → Nat × Flags} {g : Nat → Nat → Nat}
    (hi : ∀ s, exec i s = govVec (info i) (fun c l _ lf => vMap1 ty f c l lf) s)
    (h : Computes (fun a _ => f a) (fun a b => (g a b, {})) (2 ^ ElTy.width ty)) :
    VecElems i true (ElTy.width ty) (·.n (ElTy.width ty)) (laneOf (ElTy.width ty) g) :=
  vecElems_of_vMap2 (vMap1_eq_vMap2 ty f ▸ hi) h

end

end Sys2Proof.Machine
end

section
/-!
The statement of the integer vector forms (11 R244, R245, 06 R127, R128): each form is an element operation, and each operation gives the number of R244
or R245 on the elements of its type.
-/
namespace Sys2Proof.Machine

/-! ### Integer results on elements -/

theorem ffmt_of_isI {ty : ElTy} (h : ElTy.isI ty = true) : ElTy.ffmt ty = none := by
  cases ty with
  | s8 | s16 | s32 | n8 | n16 | n32 => rfl
  | _ => cases h

theorem bitsOfInt_lt (w : Nat) (v : Int) : bitsOfInt w v < 2 ^ w := by
  rw [bitsOfInt_eq_ofInt]
  exact BitVec.isLt _

/-- The low bits of an integer depend on its residue only. -/
theorem bitsOfInt_eq_mod {w n : Nat} {v : Int} (h : v % (2 ^ w : Int) = (n : Int) % (2 ^ w : Int)) : bitsOfInt w v = n % 2 ^ w := by
  rw [bitsOfInt, h]
  exact_mod_cast rfl

theorem bitsOfInt_laneInt_sub (ty : ElTy) (a : Nat) {b : Nat} (hb : b < 2 ^ ElTy.width ty) :
    bitsOfInt (ElTy.width ty) (laneInt ty a - laneInt ty b) = (a + (2 ^ ElTy.width ty - b)) % 2 ^ ElTy.width ty := by
  refine bitsOfInt_eq_mod ?_
  rw [Int.sub_emod, laneInt_emod, laneInt_emod, ← Int.sub_emod]
  push_cast [hb.le]
  rw [← add_sub_assoc, add_sub_right_comm, Int.add_emod_right]

theorem bitsOfInt_laneInt_mul (ty : ElTy) (a b : Nat) : bitsOfInt (ElTy.width ty) (laneInt ty a * laneInt ty b) = a * b % 2 ^ ElTy.width ty := by
  refine bitsOfInt_eq_mod ?_
  rw [Int.mul_emod, laneInt_emod, laneInt_emod, ← Int.mul_emod]
  push_cast
  rfl

theorem bitsOfInt_laneInt_neg (ty : ElTy) {a : Nat} (ha : a < 2 ^ ElTy.width ty) :
    bitsOfInt (ElTy.width ty) (-laneInt ty a) = (2 ^ ElTy.width ty - a) % 2 ^ ElTy.width ty := by
  have hzero : laneInt ty 0 = 0 := by cases ty <;> rfl
  have hsub := bitsOfInt_laneInt_sub ty 0 ha
  rwa [hzero, Int.zero_sub, Nat.zero_add] at hsub

/-- An element is its bits, or its bits less the modulus where it is negative. -/
theorem laneInt_cases {ty : ElTy} {a : Nat} (ha : a < 2 ^ ElTy.width ty) :
    laneInt ty a = a ∨ (laneInt ty a < 0 ∧ 0 < a ∧ laneInt ty a = (a : Int) - (2 ^ ElTy.width ty : Nat)) := by
  rw [← intOfBits_eq_laneInt ha, intOfBits]
  split
  · next hneg =>
    obtain ⟨-, hhalf⟩ : ElTy.signed ty = true ∧ 2 ^ (ElTy.width ty - 1) ≤ a := by simpa using hneg
    have hpos := Nat.two_pow_pos (ElTy.width ty - 1)
    rw [← Nat.cast_ofNat (R := Int), ← Int.natCast_pow]
    omega
  · exact .inl rfl

/-- The magnitude of an element (11 R244), and its bound. -/
theorem natAbs_laneInt {ty : ElTy} {a : Nat} (ha : a < 2 ^ ElTy.width ty) :
    (laneInt ty a).natAbs = (if laneInt ty a < 0 then 2 ^ ElTy.width ty - a else a) ∧ (laneInt ty a).natAbs < 2 ^ ElTy.width ty := by
  have hcases := laneInt_cases ha
  split <;> omega

/-- A shift by the width or more leaves copies of the sign. -/
theorem shiftRight_of_width_le {w s : Nat} (h : w ≤ s) (x : BitVec w) : x.toInt >>> s = if x.toInt < 0 then -1 else 0 := by
  have hlo := BitVec.le_toInt x
  have hhi := BitVec.toInt_lt (x := x)
  have hpow : (2 ^ (w - 1) : Int) ≤ 2 ^ s := pow_le_pow_right₀ (by decide) (by omega)
  rw [Int.shiftRight_eq_div_pow]
  push_cast
  split
  · exact (Int.ediv_eq_iff_of_pos (by omega)).2 (by omega)
  · exact Int.ediv_eq_zero_of_lt (by omega) (by omega)

theorem bitsOfInt_neg_one (w : Nat) : bitsOfInt w (-1) = 2 ^ w - 1 := by
  rw [bitsOfInt_eq_ofInt, show (-1 : Int) = Int.negSucc 0 from rfl, BitVec.ofInt_negSucc_eq_not_ofNat, BitVec.toNat_not, BitVec.toNat_ofNat, Nat.zero_mod,
    Nat.sub_zero]

theorem elemSar_eq {w a : Nat} (hw : 0 < w) (ha : a < 2 ^ w) (s : Nat) : elemSar w a s = ((BitVec.ofNat w a).sshiftRight s).toNat := by
  rw [elemSar, intOfBits_eq_toInt hw ha, BitVec.sshiftRight, ← bitsOfInt_eq_ofInt]
  split
  · next hle =>
    rw [shiftRight_of_width_le hle]
    split
    · exact (bitsOfInt_neg_one w).symm
    · rfl
  · rw [Int.shiftRight_eq_div_pow, Int.natCast_pow, Nat.cast_ofNat]

theorem width_pos (ty : ElTy) : 0 < ElTy.width ty := by cases ty <;> decide

/-! ### The element operations of R244 and R245 -/

section
variable {ty : ElTy} {f : Nat → Nat → Nat × Flags} {g : Nat → Nat → Nat}

/-- An operation whose result is the low bits of an integer (06 R128). -/
theorem computes_bits {v : Nat → Nat → Int}
    (hf : ∀ {a b}, a < 2 ^ ElTy.width ty → b < 2 ^ ElTy.width ty → f a b = (bitsOfInt (ElTy.width ty) (v a b), {}))
    (hg : ∀ {a b}, a < 2 ^ ElTy.width ty → b < 2 ^ ElTy.width ty → bitsOfInt (ElTy.width ty) (v a b) = g a b) :
    Computes f (fun a b => (g a b, {})) (2 ^ ElTy.width ty) where
  eq ha hb := by rw [hf ha hb, hg ha hb]
  lt ha hb := hg ha hb ▸ bitsOfInt_lt _ _

/-- What the integer operations that reductions share with the element-wise forms give, in the order of their codes (06 R128, R148). -/
def sharedResults (ty : ElTy) (a b : Nat) : List Nat :=
  [(a + b) % 2 ^ ElTy.width ty, if laneInt ty a ≤ laneInt ty b then a else b, if laneInt ty a ≤ laneInt ty b then b else a, a &&& b, a ||| b, a ^^^ b]

theorem combineOf_eq_sharedResults (hf : ElTy.ffmt ty = none) (n a b : Nat) : combineOf ty false n a b = (sharedResults ty a b).getD n 0 := by
  simp only [combineOf, hf, sharedResults, Bool.false_eq_true, if_false]

theorem computes_shared (hty : ElTy.isI ty = true) {op : BitVec 3} (hop : op.toNat < 6) :
    Computes (elemBin (redOp op) ty false) (fun a b => ((sharedResults ty a b).getD op.toNat 0, {})) (2 ^ ElTy.width ty) := by
  have hf := ffmt_of_isI hty
  have hc := combines_int hty (md := false) hop (fun h => by cases h)
  refine ⟨fun ha hb => Prod.ext ?value ?noFlags, fun ha hb => combineOf_eq_sharedResults hf _ _ _ ▸ hc.lt ha hb⟩
  case value => exact (hc.eq ha hb).trans (combineOf_eq_sharedResults hf _ _ _)
  case noFlags =>
    rw [elemBin_int hf _ false ha hb]
    rfl

theorem computes_sub (hf : ElTy.ffmt ty = none) :
    Computes (elemBin .sub ty false) (fun a b => ((a + (2 ^ ElTy.width ty - b)) % 2 ^ ElTy.width ty, {})) (2 ^ ElTy.width ty) :=
  computes_bits (elemBin_int hf .sub false) fun _ hb => bitsOfInt_laneInt_sub ty _ hb

theorem computes_mul (hf : ElTy.ffmt ty = none) :
    Computes (elemBin .mul ty false) (fun a b => (a * b % 2 ^ ElTy.width ty, {})) (2 ^ ElTy.width ty) :=
  computes_bits (elemBin_int hf .mul false) fun _ _ => bitsOfInt_laneInt_mul ty _ _

theorem computes_mulh : Computes (elemMulh ty)
    (fun a b => ((BitVec.ofInt (ElTy.width ty) (laneInt ty a * laneInt ty b / 2 ^ ElTy.width ty)).toNat, {})) (2 ^ ElTy.width ty) :=
  computes_bits (fun ha hb => by rw [elemMulh, intOfBits_eq_laneInt ha, intOfBits_eq_laneInt hb]) fun _ _ => bitsOfInt_eq_ofInt _ _

/-- `abs` and `neg` of an integer element are results of R128. -/
theorem elemAbs_int (hf : ElTy.ffmt ty = none) (md : Bool) {a : Nat} (ha : a < 2 ^ ElTy.width ty) :
    elemAbs ty md a = intResult ty md (laneInt ty a).natAbs := by
  simp only [elemAbs, hf, intOfBits_eq_laneInt ha]

theorem elemNeg_int (hf : ElTy.ffmt ty = none) (md : Bool) {a : Nat} (ha : a < 2 ^ ElTy.width ty) :
    elemNeg ty md a = intResult ty md (-laneInt ty a) := by
  simp only [elemNeg, hf, intOfBits_eq_laneInt ha]

theorem computes_abs (hf : ElTy.ffmt ty = none) :
    Computes (fun a _ => elemAbs ty false a) (fun a _ => (if laneInt ty a < 0 then 2 ^ ElTy.width ty - a else a, {})) (2 ^ ElTy.width ty) :=
  computes_bits (fun ha _ => elemAbs_int hf false ha) fun ha _ => (bitsOfInt_ofNat (natAbs_laneInt ha).2).trans (natAbs_laneInt ha).1

theorem computes_neg (hf : ElTy.ffmt ty = none) :
    Computes (fun a _ => elemNeg ty false a) (fun a _ => ((2 ^ ElTy.width ty - a) % 2 ^ ElTy.width ty, {})) (2 ^ ElTy.width ty) :=
  computes_bits (fun ha _ => elemNeg_int hf false ha) fun ha _ => bitsOfInt_laneInt_neg ty ha

/-- An operation on the bits of the elements. -/
theorem computes_value {B : Nat} {f g : Nat → Nat → Nat} (hf : ∀ {a b}, a < B → b < B → f a b = g a b) (hg : ∀ {a b}, a < B → b < B → g a b < B) :
    Computes (fun a b => (f a b, {})) (fun a b => (g a b, {})) B where
  eq ha hb := by rw [hf ha hb]
  lt := hg

theorem elemShl_lt (w a b : Nat) : elemShl w a b < 2 ^ w := by
  rw [elemShl]
  split
  · exact Nat.two_pow_pos w
  · exact Nat.mod_lt _ (Nat.two_pow_pos w)

theorem elemShr_lt {w a : Nat} (ha : a < 2 ^ w) (b : Nat) : elemShr w a b < 2 ^ w := by
  rw [elemShr]
  split
  · exact Nat.two_pow_pos w
  · exact (Nat.div_le_self _ _).trans_lt ha

/-- A count of bits of an element fits in an element. -/
theorem count_lt {w n : Nat} (h : n ≤ w) : n < 2 ^ w := h.trans_lt Nat.lt_two_pow_self

end

/-- Settles O31: each form is element-wise without flags, and its operation gives the number of R244 or R245 on elements. -/
theorem integerVectorResults : Obligations.IntegerVectorResults := by
  unfold Obligations.IntegerVectorResults
  rintro ⟨p, md, ty, t2, t1⟩ hty hmd w rfl
  obtain rfl : md = false := hmd
  replace hty : ElTy.isI ty = true := hty
  have hf := ffmt_of_isI hty
  have hshared (op : BitVec 3) (hop : op.toNat < 6) := computes_shared hty hop
  exact ⟨vecElems_of_vMap2 (fun s => exec_vadd s) (hshared 0 (by decide)),
    vecElems_of_vMap2 (fun s => exec_vsub s) (computes_sub hf),
    vecElems_of_vMap2 (fun s => exec_vmul s) (computes_mul hf),
    vecElems_of_vMap2 (fun s => exec_vmulh s) computes_mulh,
    vecElems_of_vMap2 (fun s => exec_vmin s) (hshared 1 (by decide)),
    vecElems_of_vMap2 (fun s => exec_vmax s) (hshared 2 (by decide)),
    vecElems_of_vMap1 (fun s => exec_vabs s) (computes_abs hf),
    vecElems_of_vMap1 (fun s => exec_vneg s) (computes_neg hf),
    vecElems_of_vMap2 (fun s => exec_vand s) (hshared 3 (by decide)),
    vecElems_of_vMap2 (fun s => exec_vor s) (hshared 4 (by decide)),
    vecElems_of_vMap2 (fun s => exec_vxor s) (hshared 5 (by decide)),
    vecElems_of_vMap2 (fun s => exec_vnot s) (computes_value (fun _ _ => rfl) fun _ _ => by omega),
    vecElems_of_vMap2 (fun s => exec_vshl s) (computes_value (fun _ _ => rfl) fun _ _ => elemShl_lt _ _ _),
    vecElems_of_vMap2 (fun s => exec_vshr s) (computes_value (fun _ _ => rfl) fun ha _ => elemShr_lt ha _),
    vecElems_of_vMap2 (fun s => exec_vsar s) (computes_value (fun ha _ => elemSar_eq (width_pos ty) ha _) fun _ _ => BitVec.isLt _),
    vecElems_of_vMap2 (fun s => exec_vclz s)
      (computes_value (fun ha _ => countLead_eq ha) fun _ _ => count_lt (List.findIdx_le_length.trans_eq List.length_range)),
    vecElems_of_vMap2 (fun s => exec_vpopc s)
      (computes_value (fun _ _ => popcount_eq _ _) fun _ _ => count_lt (List.countP_le_length.trans_eq List.length_range))⟩

end Sys2Proof.Machine
end

section
/-!
The statement of compares, selects, masks, permutes, slides, broadcasts and element numbers (11 R247, R248, R256 to R260): forms that raise no flag, whose
token is packed from the elements that each rule names.
-/
namespace Sys2Proof.Machine

/-! ### Compares (11 R247, 06 R141) -/

/-- A code of `cmp` holds where the table of 04 R106 says so. -/
theorem condHolds_eq_condTable (cond : BitVec 3) (o : Option Ordering) : condHolds cond o = (condTable o).getD cond.toNat false := by
  revert cond
  rcases o with _ | _ | _ | _ <;> decide

theorem scaled_ofInt (v : Int) : scaled (decide (v < 0)) v.natAbs 0 0 = v := by
  simp only [scaled, sub_self, Int.toNat_zero, pow_zero, mul_one, decide_eq_true_eq]
  split <;> omega

/-- Integers compare as their values. -/
theorem Xv.ofInt_cmp (x y : Int) : (Xv.ofInt x).cmp (Xv.ofInt y) = some (compare x y) := by
  simp only [Xv.ofInt, Xv.cmp, min_self, scaled_ofInt]
  rcases lt_trichotomy x y with h | h | h
  · rw [if_pos h, compare_lt_iff_lt.2 h]
  · rw [if_neg h.not_lt, if_neg h.symm.not_lt, compare_eq_iff_eq.2 h]
  · rw [if_neg h.not_gt, if_pos h, compare_gt_iff_gt.2 h]

/-- An operand of `cmp` as it is compared: a floating one is flushed under `.ftz` (06 R138). -/
def cmpOperand (ty : ElTy) (ftz : Bool) (b : Nat) : Xv :=
  elemVal ty (match ElTy.ffmt ty with | some f => if ftz then ftzBits f b else b | none => b)

theorem cmpOperand_int {ty : ElTy} (h : ElTy.ffmt ty = none) (ftz : Bool) {b : Nat} (hb : b < 2 ^ ElTy.width ty) :
    cmpOperand ty ftz b = Xv.ofInt (laneInt ty b) := by
  simp only [cmpOperand, elemVal, h, intOfBits_eq_laneInt hb]

theorem cmpOperand_float {ty : ElTy} {f : FFmt} (h : ElTy.ffmt ty = some f) (ftz : Bool) (b : Nat) :
    cmpOperand ty ftz b = f.decode (if ftz then ftzBits f b else b) := by
  simp only [cmpOperand, elemVal, h]

theorem vCmp_lo (ty : ElTy) (ftz : Bool) (cond : BitVec 3) (c : VCtx) (l r : VWord) (lf : BitVec 32) :
    (vCmp ty ftz cond c l r lf).lo = pack 1 ((List.range (c.n (ElTy.width ty))).map fun e =>
      if c.active (ElTy.width ty) e
          && condHolds cond ((cmpOperand ty ftz (elem (ElTy.width ty) e l)).cmp (cmpOperand ty ftz (elem (ElTy.width ty) e r))) then 1 else 0) := rfl

/-- `cmp` sends the mask of the active elements whose order meets the condition. -/
theorem vecElems_cmp {p : Pred} {ftz : Bool} {ty : ElTy} {cond : BitVec 3} {t1 : Tgt} {o : Nat → Nat → Option Ordering}
    (ho : ∀ {a b}, a < 2 ^ ElTy.width ty → b < 2 ^ ElTy.width ty → (cmpOperand ty ftz a).cmp (cmpOperand ty ftz b) = o a b) :
    VecElems (.cmp p ftz ty cond t1) true 1 (·.n (ElTy.width ty)) fun c l r e =>
      if c.active (ElTy.width ty) e = true
          ∧ (condTable (o (elem (ElTy.width ty) e l) (elem (ElTy.width ty) e r))).getD cond.toNat false = true then 1 else 0 := by
  refine vecElems_of_vecOp (fun s => exec_cmp s) fun c l r => ⟨_, ?_, fun _ => ⟨vCmp_lo ty ftz cond c l r _, rfl⟩⟩
  refine holds_pack fun e _ => ?_
  simp only [condHolds_eq_condTable, ho (elem_lt _ _ _) (elem_lt _ _ _), Bool.and_eq_true]
  exact Nat.mod_eq_of_lt (by split <;> decide)

/-! ### Elements of the operands (11 R248, R256 to R258) -/

theorem vMsel_holds (ty : ElTy) (m : MWord) (c : VCtx) (l r : VWord) (lf : BitVec 32) :
    Holds (vMsel ty m c l r lf).lo (ElTy.width ty) (c.n (ElTy.width ty)) fun e =>
      if m.getLsbD e then elem (ElTy.width ty) e l else elem (ElTy.width ty) e r :=
  holds_pack fun e _ => Nat.mod_eq_of_lt (by split <;> exact elem_lt _ _ _)

/-- `msel` waits for its mask register as a governed form waits for `m0`. -/
theorem exec_msel_ready {p : Pred} {ty : ElTy} {m : BitVec 3} {t1 : Tgt} {s : State} {cu : Cur} {b : Blk} {sl : Slot} {l r : Tok} {x : Ctx}
    (h : Ready (.msel p ty m t1) s cu b sl l r) (hx : s.ctxs.get? b.ctx = some x)
    (hm : s.regPending b (fun h => h.pwmask.getLsbD m.toNat) (32 + m.toNat) = false) (hw : s.vecWaits x b cu.slot false false = false) :
    exec (.msel p ty m t1) s = .next (s.sentOne cu b sl (.msel p ty m t1)
      (.vec (vMsel ty (vecGet (s.seen b x).regs.m m.toNat 0) (s.seen b x).vctx l.bits r.bits 0).lo)) := by
  rw [exec_msel, execMsel, withSlot_inSlot h.toInSlot, hm, if_neg Bool.false_ne_true]
  exact vecOp_sends h hx hw fun _ => ⟨rfl, rfl⟩

theorem vPerm_holds (ty : ElTy) (c : VCtx) (l r : VWord) (lf : BitVec 32) :
    Holds (vPerm ty c l r lf).lo (ElTy.width ty) (c.n (ElTy.width ty)) fun e =>
      if elem (ElTy.width ty) e r < c.n (ElTy.width ty) then elem (ElTy.width ty) (elem (ElTy.width ty) e r) l else 0 := by
  refine holds_pack fun e _ => Nat.mod_eq_of_lt ?_
  dsimp only
  split
  · exact elem_lt _ _ _
  · exact Nat.two_pow_pos _

/-- Element `i` of the granted ones, and zero outside them (11 R257). -/
def grantedElem (w n : Nat) (v : VWord) (i : Int) : Nat := if 0 ≤ i ∧ i < n then elem w i.toNat v else 0

theorem grantedElem_lt (w n : Nat) (v : VWord) (i : Int) : grantedElem w n v i < 2 ^ w := by
  rw [grantedElem]
  split
  · exact elem_lt _ _ _
  · exact Nat.two_pow_pos w

theorem grantedElem_eq (w n : Nat) (v : VWord) {i : Int} {k : Nat} (hi : i = k) : grantedElem w n v i = if k < n then elem w k v else 0 := by
  subst hi
  simp [grantedElem]

theorem vSlide_lo (up : Bool) (k : Nat) (ty : ElTy) (c : VCtx) (l r : VWord) (lf : BitVec 32) :
    (vSlide up k ty c l r lf).lo = pack (ElTy.width ty) ((List.range (c.n (ElTy.width ty))).map fun e =>
      if up then
        (if k ≤ e then grantedElem (ElTy.width ty) (c.n (ElTy.width ty)) l ((e : Int) - k)
          else grantedElem (ElTy.width ty) (c.n (ElTy.width ty)) r ((c.n (ElTy.width ty) : Int) - k + e))
      else
        (if e + k < c.n (ElTy.width ty) then grantedElem (ElTy.width ty) (c.n (ElTy.width ty)) l ((e : Int) + k)
          else grantedElem (ElTy.width ty) (c.n (ElTy.width ty)) r ((e : Int) + k - c.n (ElTy.width ty)))) := rfl

theorem vSlide_up_holds (k : Nat) (ty : ElTy) (c : VCtx) (l r : VWord) (lf : BitVec 32) :
    Holds (vSlide true k ty c l r lf).lo (ElTy.width ty) (c.n (ElTy.width ty)) fun e =>
      if k ≤ e then elem (ElTy.width ty) (e - k) l
      else if k ≤ c.n (ElTy.width ty) + e then elem (ElTy.width ty) (c.n (ElTy.width ty) + e - k) r else 0 := by
  rw [vSlide_lo]
  refine holds_pack fun e he => ?_
  simp only [if_true]
  split
  · rw [Nat.mod_eq_of_lt (grantedElem_lt _ _ _ _), grantedElem_eq _ _ _ (k := e - k) (by omega), if_pos (by omega)]
  · rw [Nat.mod_eq_of_lt (grantedElem_lt _ _ _ _)]
    split
    · rw [grantedElem_eq _ _ _ (k := c.n (ElTy.width ty) + e - k) (by omega), if_pos (by omega)]
    · exact if_neg (by omega)

theorem vSlide_dn_holds (k : Nat) (ty : ElTy) (c : VCtx) (l r : VWord) (lf : BitVec 32) :
    Holds (vSlide false k ty c l r lf).lo (ElTy.width ty) (c.n (ElTy.width ty)) fun e =>
      if e + k < c.n (ElTy.width ty) then elem (ElTy.width ty) (e + k) l
      else if e + k < 2 * c.n (ElTy.width ty) then elem (ElTy.width ty) (e + k - c.n (ElTy.width ty)) r else 0 := by
  rw [vSlide_lo]
  refine holds_pack fun e he => ?_
  simp only [Bool.false_eq_true, if_false]
  split
  · next h => rw [Nat.mod_eq_of_lt (grantedElem_lt _ _ _ _), grantedElem_eq _ _ _ (k := e + k) (by omega), if_pos h]
  · rw [Nat.mod_eq_of_lt (grantedElem_lt _ _ _ _), grantedElem_eq _ _ _ (k := e + k - c.n (ElTy.width ty)) (by omega)]
    exact if_congr (by omega) rfl rfl

theorem vBcast_holds (k : Nat) (ty : ElTy) (c : VCtx) (l : VWord) (lf : BitVec 32) :
    Holds (vBcast k ty c l lf).lo (ElTy.width ty) (c.n (ElTy.width ty)) fun _ =>
      if k < c.n (ElTy.width ty) then elem (ElTy.width ty) k l else 0 :=
  holds_pack_replicate fun _ => ⟨rfl, by split <;> [exact elem_lt _ _ _; exact Nat.two_pow_pos _]⟩

theorem vIota_holds (ty : ElTy) (c : VCtx) : Holds (vIota ty c) (ElTy.width ty) (c.n (ElTy.width ty)) fun e => e % 2 ^ ElTy.width ty := by
  rw [vIota, ← List.map_id (List.range _)]
  exact holds_pack fun _ _ => rfl

/-! ### Masks (11 R239, R259) -/

theorem elem_one (e : Nat) (v : VWord) : elem 1 e v = (v.getLsbD e).toNat := by
  rw [elem, Nat.one_mul, Nat.pow_one, ← Nat.toNat_testBit]
  rfl

theorem getLsbD_maskOf {e : Nat} (he : e < 1024) (v : VWord) : (maskOf v).getLsbD e = v.getLsbD e := by
  simp [maskOf, he]

theorem ofMask_holds (m : MWord) : Holds (ofMask m) 1 1024 fun e => (m.getLsbD e).toNat := by
  intro e he
  rw [elem_one, ofMask, BitVec.getLsbD_setWidth]
  split
  · rw [decide_eq_true (by omega), Bool.true_and]
  · rw [BitVec.getLsbD_of_ge _ _ (by omega), Bool.and_false]
    rfl

/-- A plain form sends the token that it packs. -/
theorem vecElems_of_plainVec {i : Instr} {f : VCtx → VWord → VWord → VWord} {w : Nat} {n : VCtx → Nat} {g : VCtx → VWord → VWord → Nat → Nat}
    (hi : ∀ s, exec i s = plainVec (info i) f s) (hf : ∀ c l r, Holds (f c l r) w (n c) (g c l r)) : VecElems i false w n g :=
  vecElems_of_vecOp hi fun c l r => ⟨_, hf c l r, fun _ => ⟨rfl, rfl⟩⟩

/-- A mask form sends the mask of its operation on each bit: `o` on Booleans, `g` on elements of one bit. -/
theorem vecElems_of_maskVec {i : Instr} {f : MWord → MWord → MWord} {o : Bool → Bool → Bool} {g : Nat → Nat → Nat}
    (hi : ∀ s, exec i s = maskVec (info i) f s) (hf : ∀ l r e, e < 1024 → (f l r).getLsbD e = o (l.getLsbD e) (r.getLsbD e))
    (hg : ∀ a b, (o a b).toNat = g a.toNat b.toNat) : VecElems i false 1 (fun _ => 1024) fun _ l r e => g (elem 1 e l) (elem 1 e r) := by
  refine vecElems_of_plainVec (f := fun _ l r => ofMask (f (maskOf l) (maskOf r))) hi fun _ l r e he => ?_
  rw [ofMask_holds _ e he]
  split
  · next hlt =>
    beta_reduce
    rw [hf _ _ e hlt, getLsbD_maskOf hlt, getLsbD_maskOf hlt, hg, elem_one, elem_one]
  · rfl

/-- A form whose elements no mask governs sends the same token whatever the generator holds. -/
theorem vecElems_of_freeVec {i : Instr} {f : VCtx → VWord → VWord → BitVec 32 → VRes} {w : Nat} {n : VCtx → Nat}
    {g : VCtx → VWord → VWord → Nat → Nat} (hi : ∀ s, exec i s = freeVec (info i) f s)
    (hf : ∀ c l r lf, (f c l r lf).lo = (f c l r 0).lo ∧ (f c l r lf).fl = []) (hv : ∀ c l r, Holds (f c l r 0).lo w (n c) (g c l r)) :
    VecElems i false w n g :=
  vecElems_of_vecOp hi fun c l r => ⟨_, hv c l r, fun lf => ⟨(hf c l r lf).1, by rw [(hf c l r lf).2]; rfl⟩⟩

theorem vMcnt_holds (c : VCtx) (l : VWord) : Holds (vMcnt c l) 32 c.g fun _ => (List.range 1024).countP fun k => l.getLsbD k := by
  refine holds_pack_replicate fun _ => ⟨?count, ?fits⟩
  case count =>
    rw [popcount_eq]
    exact List.countP_congr fun k hk => by rw [← getLsbD_maskOf (List.mem_range.1 hk) l]; rfl
  case fits => exact (List.countP_le_length.trans_eq List.length_range).trans_lt (by decide)

/-- Settles O34: each form packs the elements that its rule names, and none raises a flag. -/
theorem compareSelectAndMaskResults : Obligations.CompareSelectAndMaskResults := by
  unfold Obligations.CompareSelectAndMaskResults
  refine ⟨fun p ty cond t1 hty => ?cmpInt, fun p ty ftz cond t1 f _ hf => ?cmpFloat, fun p ty m t1 s cu b sl l r x h hx hm hw => ?msel,
    fun v _ w hw => ?perm, fun p ty k t1 w _ hw => ?slides, fun g => ?masks, fun v _ => ?iota⟩
  case cmpInt =>
    have hf := ffmt_of_isI hty
    exact vecElems_cmp fun ha hb => by rw [cmpOperand_int hf false ha, cmpOperand_int hf false hb, Xv.ofInt_cmp]
  case cmpFloat => exact vecElems_cmp fun _ _ => by rw [cmpOperand_float hf, cmpOperand_float hf]
  case msel => exact ⟨_, exec_msel_ready h hx hm hw, vMsel_holds ty _ _ _ _ 0⟩
  case perm =>
    subst hw
    exact vecElems_of_freeVec (fun s => exec_perm s) (fun _ _ _ _ => ⟨rfl, rfl⟩) fun c l r => vPerm_holds v.ty c l r 0
  case slides =>
    subst hw
    exact ⟨vecElems_of_freeVec (fun s => exec_slideUp s) (fun _ _ _ _ => ⟨rfl, rfl⟩) fun c l r => vSlide_up_holds k.toNat ty c l r 0,
      vecElems_of_freeVec (fun s => exec_slideDn s) (fun _ _ _ _ => ⟨rfl, rfl⟩) fun c l r => vSlide_dn_holds k.toNat ty c l r 0,
      vecElems_of_freeVec (fun s => exec_bcast s) (fun _ _ _ _ => ⟨rfl, rfl⟩) fun c l _ => vBcast_holds k.toNat ty c l 0⟩
  case masks =>
    exact ⟨vecElems_of_maskVec (g := (· &&& ·)) (fun s => exec_mand s) (fun _ _ _ _ => BitVec.getLsbD_and) (by decide),
      vecElems_of_maskVec (g := (· ||| ·)) (fun s => exec_mor s) (fun _ _ _ _ => BitVec.getLsbD_or) (by decide),
      vecElems_of_maskVec (g := (· ^^^ ·)) (fun s => exec_mxor s) (fun _ _ _ _ => BitVec.getLsbD_xor) (by decide),
      vecElems_of_maskVec (o := fun a _ => !a) (g := fun a _ => 1 - a) (fun s => exec_mnot s)
        (fun _ _ _ he => by rw [BitVec.getLsbD_not, decide_eq_true he, Bool.true_and]) (by decide),
      vecElems_of_plainVec (fun s => exec_mcnt s) fun c l _ => vMcnt_holds c l⟩
  case iota => exact vecElems_of_plainVec (fun s => exec_iota s) fun c _ _ => vIota_holds v.ty c

end Sys2Proof.Machine
end

section
/-!
The statement of the vector forms that raise flags (11 R244, R246, R253, 06 R128, R138, R140, R144): clamped integer results, floating results and the
transcendentals are element operations whose results are elements of the type.
-/
namespace Sys2Proof.Machine

section
variable {ty : ElTy} {f : FFmt}

/-! ### Clamped integer results (06 R128) -/

/-- Under `.sat` a result is clamped to the range of its type, and marked where it lay outside. -/
theorem intResult_clamped (ty : ElTy) (v : Int) : intResult ty true v = clamped ty v := by
  refine Prod.ext (intResult_sat ty v) ?_
  simp only [intResult, Bool.true_and, Bool.or_eq_true, decide_eq_true_eq]
  split
  · next h => exact congrArg (fun o => ({ sat := o } : Flags)) (decide_eq_true h).symm
  · next h => exact congrArg (fun o => ({ sat := o } : Flags)) (decide_eq_false h).symm

/-- An operation whose result is a clamped integer. -/
theorem computes_clamped {h : Nat → Nat → Nat × Flags} {v : Nat → Nat → Int}
    (hv : ∀ {a b}, a < 2 ^ ElTy.width ty → b < 2 ^ ElTy.width ty → h a b = intResult ty true (v a b)) :
    Computes h (fun a b => clamped ty (v a b)) (2 ^ ElTy.width ty) where
  eq ha hb := (hv ha hb).trans (intResult_clamped ty _)
  lt _ _ := BitVec.isLt _

/-! ### Floating results (06 R138, R140, R141) -/

theorem elemBin_float (hf : ElTy.ffmt ty = some f) (op : BinOp) (md : Bool) (a b : Nat) : elemBin op ty md a b = fltBin op f md a b := by
  simp only [elemBin, hf]

theorem elemAbs_float (hf : ElTy.ffmt ty = some f) (md : Bool) (a : Nat) : elemAbs ty md a = fltSign f md (fun _ => false) a := by
  simp only [elemAbs, hf]

theorem elemNeg_float (hf : ElTy.ffmt ty = some f) (md : Bool) (a : Nat) : elemNeg ty md a = fltSign f md not a := by
  simp only [elemNeg, hf]

theorem roundedArith_lt {w : Nat} (hf : f.Ieee w) (ftz : Bool) (r : Xv × Flags) : (roundedArith f ftz r).1 < 2 ^ w := roundTo_lt hf _ _ _

/-- The floating forms with two operands. -/
theorem computes_float (hty : ElTy.isF ty = true) (hf : ElTy.ffmt ty = some f) {op : BinOp} (hop : op ∈ [BinOp.add, .sub, .mul, .min, .max]) (md : Bool) :
    Computes (elemBin op ty md) (fltBin op f md) (2 ^ ElTy.width ty) where
  eq _ _ := elemBin_float hf op md _ _
  lt ha hb := by
    have hieee := ffmt_ieee hty hf
    cases op with
    | add | min | max => exact fltBin_lt hieee (by decide) md ha hb
    | sub => rw [fltBin_sub]; exact roundedArith_lt hieee md _
    | mul => rw [fltBin_mul]; exact roundedArith_lt hieee md _
    | and | or | xor => simp at hop

/-- What a form that changes the sign bit gives: the canonical NaN for a NaN, else the bits below the sign under the new sign. -/
theorem fltSign_eq (f : FFmt) (ftz : Bool) (g : Bool → Bool) (a : Nat) :
    fltSign f ftz g a = (if f.decode (flush f ftz a) = .nan then f.canonNan
      else flush f ftz a % 2 ^ (f.ebits + f.mbits)
        + (if g (flush f ftz a / 2 ^ (f.ebits + f.mbits) % 2 == 1) then 2 ^ (f.ebits + f.mbits) else 0), {}) := by
  have hflush : flush f ftz a = if ftz then ftzBits f a else a := rfl
  rw [fltSign, ← hflush]
  dsimp only
  split
  · next h => rw [if_pos h]
  · next h => rw [if_neg h]

theorem fltSign_lt {w : Nat} (hf : f.Ieee w) (ftz : Bool) (g : Bool → Bool) (a : Nat) : (fltSign f ftz g a).1 < 2 ^ w := by
  have hmod := Nat.mod_lt (flush f ftz a) (Nat.two_pow_pos (f.ebits + f.mbits))
  have htwo := hf.two_mul
  rw [fltSign_eq]
  dsimp only
  split
  · exact hf.canonNan_fits
  · split <;> omega

theorem FFmt.Ieee.sign_eq {w : Nat} (hf : f.Ieee w) : f.ebits + f.mbits = w - 1 := by
  rw [hf.width, Nat.add_sub_cancel]

/-- The other sign bit. -/
theorem mod_add_not_sign {k a : Nat} (ha : a < 2 ^ (k + 1)) : a % 2 ^ k + (if !(a / 2 ^ k % 2 == 1) then 2 ^ k else 0) = a ^^^ 2 ^ k := by
  have hq : a / 2 ^ k < 2 := Nat.div_lt_of_lt_mul (by rwa [← Nat.pow_succ])
  rw [← Nat.mod_add_div (a ^^^ 2 ^ k) (2 ^ k), Nat.xor_mod_two_pow, Nat.xor_div_two_pow, Nat.mod_self, Nat.xor_zero, Nat.div_self (Nat.two_pow_pos k)]
  rcases Nat.le_one_iff_eq_zero_or_eq_one.1 (Nat.le_of_lt_succ hq) with h | h <;> simp [h]

/-- A form that changes the sign bit. -/
theorem computes_sign {h : Nat → Nat × Flags} {md : Bool} {g : Bool → Bool} (hh : ∀ a, h a = fltSign f md g a) (hty : ElTy.isF ty = true)
    (hf : ElTy.ffmt ty = some f) : Computes (fun a _ => h a) (fun a _ => fltSign f md g a) (2 ^ ElTy.width ty) :=
  ⟨fun _ _ => hh _, fun _ _ => fltSign_lt (ffmt_ieee hty hf) md g _⟩

theorem Computes.congr {h g g' : Nat → Nat → Nat × Flags} {B : Nat} (hc : Computes h g B) (heq : ∀ {a b}, a < B → b < B → g a b = g' a b) :
    Computes h g' B where
  eq ha hb := (hc.eq ha hb).trans (heq ha hb)
  lt ha hb := heq ha hb ▸ hc.lt ha hb

theorem computes_floatAbs (hty : ElTy.isF ty = true) (hf : ElTy.ffmt ty = some f) : Computes (fun a _ => elemAbs ty false a)
    (fun a _ => (if f.decode a = .nan then f.canonNan else a % 2 ^ (ElTy.width ty - 1), {})) (2 ^ ElTy.width ty) :=
  (computes_sign (elemAbs_float hf false) hty hf).congr fun _ _ => by
    rw [fltSign_eq, (ffmt_ieee hty hf).sign_eq]
    rfl

theorem computes_floatNeg (hty : ElTy.isF ty = true) (hf : ElTy.ffmt ty = some f) : Computes (fun a _ => elemNeg ty false a)
    (fun a _ => (if f.decode a = .nan then f.canonNan else a ^^^ 2 ^ (ElTy.width ty - 1), {})) (2 ^ ElTy.width ty) :=
  (computes_sign (elemNeg_float hf false) hty hf).congr fun ha _ => by
    have hwidth : ElTy.width ty = ElTy.width ty - 1 + 1 := (Nat.sub_add_cancel (width_pos ty)).symm
    rw [fltSign_eq, (ffmt_ieee hty hf).sign_eq, ← mod_add_not_sign (hwidth ▸ ha)]
    rfl

/-! ### Transcendentals (11 R253) -/

theorem f32Fmt_ieee : f32Fmt.Ieee 32 := ffmt_ieee (ty := .f32) rfl rfl

theorem roundTail_lt (ftz neg : Bool) (t : Tail) : (roundTail ftz neg t).1 < 2 ^ 32 := roundFin_lt f32Fmt_ieee _ _ _ _ _

theorem transElem_lt (t : TFun) (ftz : Bool) (a : Nat) : (transElem t ftz a).1 < 2 ^ 32 := by
  simp only [transElem]
  rcases f32Fmt.decode (if ftz then ftzBits f32Fmt a else a) with _ | neg | ⟨neg, m, e⟩
  case nan => exact f32Fmt_ieee.canonNan_fits
  case inf => cases t <;> cases neg <;> exact of_decide_eq_true rfl
  case fin =>
    have hpick (p : Prop) [Decidable p] (x y : Nat × Flags) (hx : x.1 < 2 ^ 32) (hy : y.1 < 2 ^ 32) : (if p then x else y).1 < 2 ^ 32 := by
      split <;> assumption
    have hnan : f32Fmt.canonNan < 2 ^ 32 := f32Fmt_ieee.canonNan_fits
    by_cases hm : m = 0
    · simp only [if_pos hm]
      cases t <;> cases neg <;> exact of_decide_eq_true rfl
    · simp only [if_neg hm]
      cases t with
      | rcp => exact roundTail_lt _ _ _
      | rsq | sqrt | log2 => exact hpick _ _ _ hnan (roundTail_lt _ _ _)
      | exp2 => exact hpick _ _ _ (roundTail_lt _ _ _) (roundTail_lt _ _ _)

/-- A transcendental of an `f32` element. -/
theorem computes_trans (t : TFun) (ftz : Bool) :
    Computes (fun a _ => transElem t ftz a) (fun a _ => transElem t ftz a) (2 ^ ElTy.width .f32) :=
  ⟨fun _ _ => rfl, fun _ _ => transElem_lt t ftz _⟩

theorem vecLanes_of_transVec {i : Instr} {t : TFun} {ftz : Bool} (hi : ∀ s, exec i s = transVec t (info i) ftz s) :
    VecLanes i 32 fun a _ => transElem t ftz a :=
  vecLanes_of_vMap1 (ty := .f32) hi (computes_trans t ftz)

end

/-! ### The statement -/

/-- Settles O32: clamped, floating and transcendental results are elements of the type with the flags that they raise, so each form is element-wise with flags;
`abs` and `neg` of a floating element without `.ftz` raise none. -/
theorem saturatingAndFloatingVectorResults : Obligations.SaturatingAndFloatingVectorResults := by
  unfold Obligations.SaturatingAndFloatingVectorResults
  refine ⟨?clamped, ?floating, fun p ftz t2 t1 => ?trans⟩
  case clamped =>
    rintro ⟨p, md, ty, t2, t1⟩ hty hmd
    obtain rfl : md = true := hmd
    have hf : ElTy.ffmt ty = none := ffmt_of_isI hty
    exact ⟨vecLanes_of_vMap2 (fun s => exec_vadd s) (computes_clamped (elemBin_int hf .add true)),
      vecLanes_of_vMap2 (fun s => exec_vsub s) (computes_clamped (elemBin_int hf .sub true)),
      vecLanes_of_vMap2 (fun s => exec_vmul s) (computes_clamped (elemBin_int hf .mul true)),
      vecLanes_of_vMap1 (fun s => exec_vabs s) (computes_clamped fun ha _ => elemAbs_int hf true ha),
      vecLanes_of_vMap1 (fun s => exec_vneg s) (computes_clamped fun ha _ => elemNeg_int hf true ha)⟩
  case floating =>
    rintro ⟨p, md, ty, t2, t1⟩ f hty hf
    replace hty : ElTy.isF ty = true := hty
    replace hf : ElTy.ffmt ty = some f := hf
    refine ⟨vecLanes_of_vMap2 (fun s => exec_vadd s) (computes_float hty hf (by decide) md),
      vecLanes_of_vMap2 (fun s => exec_vsub s) (computes_float hty hf (by decide) md),
      vecLanes_of_vMap2 (fun s => exec_vmul s) (computes_float hty hf (by decide) md),
      vecLanes_of_vMap2 (fun s => exec_vmin s) (computes_float hty hf (by decide) md),
      vecLanes_of_vMap2 (fun s => exec_vmax s) (computes_float hty hf (by decide) md),
      fun hmd => ?_, fun hmd => ?_, fun hmd => ?_, fun hmd => ?_⟩ <;> obtain rfl : md = _ := hmd
    · exact vecElems_of_vMap1 (fun s => exec_vabs s) (computes_floatAbs hty hf)
    · exact vecElems_of_vMap1 (fun s => exec_vneg s) (computes_floatNeg hty hf)
    · exact vecLanes_of_vMap1 (fun s => exec_vabs s) (computes_sign (elemAbs_float hf true) hty hf)
    · exact vecLanes_of_vMap1 (fun s => exec_vneg s) (computes_sign (elemNeg_float hf true) hty hf)
  case trans =>
    exact ⟨vecLanes_of_transVec fun s => exec_vrcp s, vecLanes_of_transVec fun s => exec_vrsq s, vecLanes_of_transVec fun s => exec_vsqrt s,
      vecLanes_of_transVec fun s => exec_vexp2 s, vecLanes_of_transVec fun s => exec_vlog2 s⟩

end Sys2Proof.Machine
end

section
/-!
The statement of widening, narrowing and conversion (11 R249 to R252): its clause on integer `wadd` and `wmul` is about every pair of numbers, where R249 is
about pairs of elements.
-/
namespace Sys2Proof.Machine

/-- 512 is no element of `s8`: the model takes the modulus from it once and has 256 left. -/
theorem wideElem_add_beyond_s8 : (wideElem false .s8 512 0).1 = 256 := by decide

/-- The statement reads the low 8 bits of 512, which are zero. -/
theorem laneInt_s8_beyond : laneInt .s8 512 + laneInt .s8 0 = 0 := by decide

/-- Refutes O35: its clause on the integer results of `wadd` and `wmul` bounds neither operand by the width of the type. On 512 and 0 as `s8` the model gives
256 and the clause asks for 0. An operand that a token holds is below 2^8 (`elem_lt`), so no run of `wadd` meets this pair; the statement is about every
pair. -/
theorem not_wideningNarrowingAndConversionResults : ¬ Obligations.WideningNarrowingAndConversionResults := by
  unfold Obligations.WideningNarrowingAndConversionResults
  rintro ⟨-, hint, -⟩
  obtain ⟨-, -, hadd, -⟩ := hint .s8 512 0 rfl
  rw [wideElem_add_beyond_s8, laneInt_s8_beyond] at hadd
  exact absurd hadd (by decide)

end Sys2Proof.Machine
end

section
/-!
The statement of the matrix commands and of `accrd` as they issue (12 R275, R276, R278 to R280, R286).
-/
namespace Sys2Proof.Machine

variable {i : Instr} {s u : State} {cu : Cur} {b bb : Blk} {sl : Slot} {l r : Tok} {x : Ctx} {id : Ident} {v : Nat × Word}

/-! ### Matrix commands -/

section
variable {f : Tok → Tok → MxKind}

/-- A ready matrix command whose checks pass and that finds room in queue 14 reserves a place and completes its identifier (12 R275, R276). -/
theorem mxIssue_completes (h : Ready i s cu b sl l r) (hx : s.ctxs.get? b.ctx = some x) (hw : s.tileWaits x b = false) (hv : x.regs.tShape = some v)
    (hid : b.idDone.getLsbD id.toNat = false) (hcheck : s.mxCheck x (extentsOf v.2) (f l r) = 0) (hroom : s.mxRoom b.ctx x ≠ 0) :
    mxIssue (info i) id f s = .next (s.completed cu { b with mxRes := b.mxRes + 1 } id (.mx (f l r))) := by
  rw [mxIssue, storeOp_ready h, withCtx_some hx]
  simp only [hw, hv, hcheck, hroom, ne_eq, not_true_eq_false, Bool.false_eq_true, if_false]
  exact completeWith_eq (b := { b with mxRes := b.mxRes + 1 }) hid s cu _

/-- A ready matrix command without an active tile shape raises the shape fault (12 R275, step 1). -/
theorem mxIssue_noShape (h : Ready i s cu b sl l r) (hx : s.ctxs.get? b.ctx = some x) (hw : s.tileWaits x b = false) (hv : x.regs.tShape = none) :
    mxIssue (info i) id f s = .next (s.raised cu b (slotFault 0x16 cu.slot)) := by
  rw [mxIssue, storeOp_ready h, withCtx_some hx]
  simp only [hw, hv, Bool.false_eq_true, if_false]
  rfl

/-- Both outcomes of an instruction that issues as a matrix command, whatever its command. -/
theorem matrixCommand_of_mxIssue (hi : ∀ s, exec i s = mxIssue (info i) id f s) :
    ∀ s cu b sl x, Ready i s cu b sl l r → s.ctxs.get? b.ctx = some x → s.tileWaits x b = false →
      (∀ v, x.regs.tShape = some v → b.idDone.getLsbD id.toNat = false → s.mxCheck x (extentsOf v.2) (f l r) = 0 → s.mxRoom b.ctx x ≠ 0 →
        exec i s = .next (s.completed cu { b with mxRes := b.mxRes + 1 } id (.mx (f l r))))
      ∧ (x.regs.tShape = none → exec i s = .next (s.raised cu b { code := 0x16, slot := BitVec.ofNat 7 cu.slot })) := by
  intro s cu b sl x h hx hw
  rw [hi]
  exact ⟨fun v hv hid hcheck hroom => mxIssue_completes h hx hw hv hid hcheck hroom, mxIssue_noShape h hx hw⟩

end

/-! ### `accrd` -/

/-- The first time its operand is seen, an `accrd` notes a fresh stamp in its block (12 R279). -/
theorem State.arriveRd_new (hnew : (b.rds.any fun e => e.1 = cu.slot) = false) (h : s.arriveRd cu b = (bb, u)) :
    bb.rds = b.rds ++ [(cu.slot, s.seq)] ∧ u.seq = s.seq + 1 := by
  rw [State.arriveRd, if_neg (Bool.eq_false_iff.1 hnew)] at h
  obtain ⟨rfl, rfl⟩ := Prod.mk.inj h
  exact ⟨rfl, rfl⟩

section
variable {p : Pred} {acc : BitVec 4} {t1 : Tgt} (h : Ready (.accrd p id acc t1) s cu b sl l r) (hx : s.ctxs.get? b.ctx = some x)
  (ha : s.arriveRd cu b = (bb, u)) (hw : s.tileWaits x b = false) (hst : b.storesBelow id.toNat = true)
include h hx ha hw hst

/-- A ready `accrd` that waits for nothing stands outstanding once its row and its accumulator are usable (12 R279). -/
theorem execAccrd_outstanding (hv : x.regs.tShape = some v) (hrow : elem 32 0 l.bits < (extentsOf v.2).gM)
    (hacc : s.accOk x (extentsOf v.2) acc.toNat = true) :
    execAccrd p id acc t1 s = .next (u.setBlk cu.frame (bb.updSlot cu.slot fun sl => { sl with st := .out })) := by
  have hrow' : ¬ (extentsOf v.2).gM ≤ elem 32 0 l.bits := Nat.not_le.2 hrow
  rw [execAccrd, loadOp_ready h, withCtx_some hx]
  simp [ha, hw, hst, hv, hrow', hacc]

/-- A ready `accrd` without an active tile shape raises the shape fault, whatever its row and its accumulator (12 R279). -/
theorem execAccrd_noShape (hv : x.regs.tShape = none) : execAccrd p id acc t1 s = .next (u.raised cu bb (slotFault 0x16 cu.slot)) := by
  rw [execAccrd, loadOp_ready h, withCtx_some hx]
  simp only [ha, hw, hst, hv, Bool.not_true, Bool.or_self, Bool.false_eq_true, if_false]
  rfl

end

/-! ### The statement -/

/-- Settles O28: the six commands issue as `mxIssue` does with their own command, and `accrd` notes its moment before it makes its checks. -/
theorem matrixCommandsComplete : Obligations.MatrixCommandsComplete := by
  unfold Obligations.MatrixCommandsComplete
  refine fun p id ty sat acc sb db t1 l r => ⟨?commands, fun s cu b sl x bb u h hx ha => ⟨fun hnew => State.arriveRd_new hnew ha, fun hw hst =>
    ⟨fun v hv hrow hacc => ?outstanding, fun hv => ?noShape⟩⟩⟩
  case commands =>
    simp only [List.forall_mem_cons]
    exact ⟨matrixCommand_of_mxIssue exec_mma, matrixCommand_of_mxIssue exec_mmaG, matrixCommand_of_mxIssue exec_tmov, matrixCommand_of_mxIssue exec_tmovT,
      matrixCommand_of_mxIssue exec_acclr, matrixCommand_of_mxIssue exec_accst, fun _ h => absurd h List.not_mem_nil⟩
  case outstanding => exact execAccrd_outstanding h hx ha hw hst hv hrow hacc
  case noShape => exact execAccrd_noShape h hx ha hw hst hv

end Sys2Proof.Machine
end

section
/-!
The statement of `brk` and of a second branch (03 R83, R92, 13 R308): the issue of a call also makes the check of the return stack, which can raise a fault of
its own in the same block.
-/
namespace Sys2Proof.Machine

/-- The thread with the full return stack, at the issue of the one slot of its oldest block, whose call holds no fault yet. -/
def calledStackState : State := { fullStackState with site := .slot ⟨accFrame 1, 0⟩ }

theorem ready_plainCall_calledStackState :
    Ready plainCall calledStackState ⟨accFrame 1, 0⟩ callingBlk { word := 0, plane := .ctl, rep := false } (.ofWord 0) (.ofWord 0) :=
  ⟨⟨rfl, rfl, rfl, rfl⟩, rfl, rfl, .inl rfl⟩

/-- The second call raises the multiple-exit fault, and its check of the stack the fault of the first call. -/
theorem exec_plainCall_calledStackState :
    ∃ t, exec plainCall calledStackState = .next t
      ∧ (t.blks.get? (accFrame 1)).map Blk.faults = some [slotFault 0x06 0, slotFault 0x08 0] :=
  ⟨_, rfl, rfl⟩

/-- Refutes O11: its clause on a second call asks for the multiple-exit fault alone. A call that issues also makes the check of the return stack (09 R216); in
the state shown the block is the oldest, its first call stands at depth 16 without the fault of that check, and the second call raises both. The model makes
the check where a block becomes the oldest and where its call issues, but the statement is about every state. -/
theorem not_breakAndSecondBranchFault : ¬ Obligations.BreakAndSecondBranchFault := by
  unfold Obligations.BreakAndSecondBranchFault
  rintro ⟨-, -, hsecond⟩
  obtain ⟨-, hcall, -⟩ := hsecond ⟨.always, 0, 1⟩ .always 0 0
  obtain ⟨t, hstep, hfaults⟩ := exec_plainCall_calledStackState
  have hraised := hcall _ _ _ _ _ _ _ ready_plainCall_calledStackState rfl rfl
  obtain rfl : t = _ := Host.Outcome.next.inj (hstep.symm.trans hraised)
  exact absurd hfaults (by decide)

end Sys2Proof.Machine
end

section
/-!
The statement of `crrd` and `crwr` as they issue (13 R302, R311, R312, 14 R319, 20 R437, 06 R145).
-/
namespace Sys2Proof.Machine

variable {s : State} {cu : Cur} {b : Blk} {sl : Slot} {l r : Tok} {x : Ctx} {p : Pred} {id : Ident} {num : BitVec 9}

/-- A ready `crrd` of the oldest block that waits neither for stores nor for `cmdq` sends the register (13 R311, 06 R145). -/
theorem execCrrd_sends {t1 : Tgt} (h : Ready (.crrd p id num t1) s cu b sl l r) (hx : s.ctxs.get? b.ctx = some x) (hold : s.isOldest b = true)
    (hst : b.storesBelow id.toNat = true) (hmark : crMarker num.toNat = true → x.ctl.aonly = true ∨ x.ports.cmdq = []) :
    execCrrd p id num t1 s = .next (s.sentOne cu b sl (.crrd p id num t1) (Tok.ofWord (s.crRead (s.shown b.ctx x) num.toNat))) := by
  have hgo : (crMarker num.toNat && !x.ctl.aonly && x.ports.cmdq ≠ []) = false := by
    cases hm : crMarker num.toNat with
    | false => rfl
    | true => rcases hmark hm with ha | hq <;> simp [*]
  rw [execCrrd, loadOp_ready h, withCtx_some hx]
  simp only [hold, hst, hgo, Bool.not_true, Bool.or_self, Bool.false_eq_true, if_false]
  rfl

/-- A `crwr` that reserves no entry of `cmdq`, whose value is not refused and which, where it is checked as it arrives, waits for nothing, completes with
its write (13 R311, 14 R319, 20 R437). -/
theorem execCrwr_completes (h : Ready (.crwr p id num) s cu b sl l r) (hx : s.ctxs.get? b.ctx = some x) (hid : b.idDone.getLsbD id.toNat = false)
    (hplaces : crPlaces num.toNat = true → x.ctl.aonly = true)
    (hchecked : num.toNat = 0x102 ∨ num.toNat = 0x184 → s.isOldest b = true ∧ b.storesBelow id.toNat = true)
    (hfault : s.crwrFault b x id.toNat num.toNat l.val = none) :
    execCrwr p id num s = .next (s.completed cu b id (.crwr num.toNat l.val)) := by
  have hfree : (crPlaces num.toNat && !x.ctl.aonly) = false := by
    cases hp : crPlaces num.toNat with
    | false => rfl
    | true => rw [hplaces hp]; rfl
  have hgo : ((num.toNat = 0x102 || num.toNat = 0x184) && (!s.isOldest b || !b.storesBelow id.toNat)) = false := by
    by_cases hn : num.toNat = 0x102 ∨ num.toNat = 0x184
    · simp [hchecked hn]
    · simp [not_or.1 hn]
  rw [execCrwr, storeOp_ready h, withCtx_some hx]
  simp only [hfree, hgo, hfault, Bool.false_eq_true, if_false]
  exact completeWith_eq hid s cu _

/-- A `crwr` of a marker register of a pair context reserves an entry of `cmdq` (13 R311, 06 R145). -/
theorem execCrwr_reserves (h : Ready (.crwr p id num) s cu b sl l r) (hx : s.ctxs.get? b.ctx = some x) (hid : b.idDone.getLsbD id.toNat = false)
    (hplaces : crPlaces num.toNat = true) (hpair : x.ctl.aonly = false) (hroom : s.cmdqRoom b.ctx x ≠ 0) :
    execCrwr p id num s = .next (s.completed cu { b with cmdqRes := b.cmdqRes + 1 } id (.crwr num.toNat l.val)) := by
  rw [execCrwr, storeOp_ready h, withCtx_some hx]
  simp only [hplaces, hpair, Bool.not_false, Bool.and_self, if_true, if_neg hroom]
  exact completeWith_eq (b := { b with cmdqRes := b.cmdqRes + 1 }) hid s cu _

/-- Only `cr.qwin` and `cr.rxcfg` are checked as they arrive (14 R319, 20 R437). -/
theorem State.crwrFault_none (h1 : num.toNat ≠ 0x102) (h2 : num.toNat ≠ 0x184) (id : Nat) (v : Word) : s.crwrFault b x id num.toNat v = none := by
  simp only [State.crwrFault, if_neg h1, if_neg h2]

/-- The registers that are checked as they arrive are no marker registers (13 R312). -/
theorem crPlaces_of_checked : ∀ n ∈ [0x102#9, 0x184#9], crPlaces n.toNat = false := by decide

/-- Settles O29: a `crrd` that waits for nothing sends the register; a `crwr` reserves an entry of `cmdq` or is checked as it arrives, and completes. -/
theorem controlRegisterAccess : Obligations.ControlRegisterAccess := by
  unfold Obligations.ControlRegisterAccess
  refine ⟨fun s cu b sl l r x p id num t1 h hx hold hst hmark => ?crrd, fun p id num => ?plain, fun p id num hnum => ?checked,
    fun s cu b sl l r x p id num h hx hid hplaces hpair hroom => ?marker⟩
  case crrd => exact (exec_crrd s).trans (execCrrd_sends h hx hold hst hmark)
  case plain =>
    rintro s cu b sl l r x h hx hid ⟨hplaces, hwin, hrx⟩
    have hwin' : num.toNat ≠ 0x102 := fun hn => hwin (BitVec.eq_of_toNat_eq hn)
    have hrx' : num.toNat ≠ 0x184 := fun hn => hrx (BitVec.eq_of_toNat_eq hn)
    exact (exec_crwr s).trans
      (execCrwr_completes h hx hid hplaces (fun hn => absurd hn (not_or.2 ⟨hwin', hrx'⟩)) (State.crwrFault_none hwin' hrx' _ _))
  case checked =>
    rintro s cu b sl l r x h hx hid ⟨hold, hst, hfault⟩
    have hplaces : crPlaces num.toNat = false := crPlaces_of_checked num (by simpa using hnum)
    exact (exec_crwr s).trans (execCrwr_completes h hx hid (by simp [hplaces]) (fun _ => ⟨hold, hst⟩) hfault)
  case marker => exact (exec_crwr s).trans (execCrwr_reserves h hx hid hplaces hpair hroom)

end Sys2Proof.Machine
end

section
/-!
The statement of privilege (13 R303, R312, 04 R108, R109, 14 R319).
-/
namespace Sys2Proof.Machine

/-! ### What needs privilege -/

theorem needsPriv_crwr (p : Pred) (id : Ident) (n : BitVec 9) : needsPriv (.crwr p id n) = crPriv n.toNat := rfl

theorem needsPriv_of_info {i : Instr} (h : (info i).priv = true) : needsPriv i = true := by
  unfold needsPriv
  rw [h]
  exact Bool.true_or _

/-! ### The check of privilege at dispatch -/

/-- The code of the checks of an instruction, by the privilege of its block, where privilege is the last: the others end in a code that is not its own, and
where they pass, an instruction that needs privilege breaches without it (04 R109). -/
def PrivilegeLast (i : Instr) (f : Bool → Nat) : Prop :=
  ∃ k, k ≠ 0x04 ∧ ∀ pm, f pm = if k = 0 ∧ pm = false ∧ needsPriv i = true then 0x04 else k

/-- A check of the opcode, the fields or the planes may stand before. -/
theorem PrivilegeLast.ite {i : Instr} {f : Bool → Nat} {c : Prop} [Decidable c] {k : Nat} (hk : k = 0x02 ∨ k = 0x03) (hf : PrivilegeLast i f) :
    PrivilegeLast i fun pm => if c then k else f pm := by
  by_cases hc : c
  · exact ⟨k, by omega, fun pm => by simp [hc, show k ≠ 0 by omega]⟩
  · simpa only [if_neg hc] using hf

theorem slotBreach_privilegeLast {sl : Slot} {i : Instr} (hi : decode sl.plane sl.word = .ok i) (h : Header) (slots : List Slot) (gone : Instr → Bool)
    (n : Nat) : PrivilegeLast i fun pm => slotBreach h slots gone pm n sl := by
  simp only [slotBreach, hi]
  have hlast : PrivilegeLast i fun pm => if !pm && needsPriv i then 0x04 else 0 := ⟨0, by decide, fun pm => by simp⟩
  exact .ite (.inl rfl) (.ite (.inl rfl) (.ite (.inl rfl) (.ite (.inl rfl) (.ite (.inr rfl) hlast))))

/-! ### Writes of control registers -/

theorem Ctx.pm_ite (c : Prop) [Decidable c] (x y : Ctx) : (if c then x else y).ctl.pm = if c then x.ctl.pm else y.ctl.pm :=
  apply_ite (fun x : Ctx => x.ctl.pm) c x y

/-- No write of a context register changes the privilege (13 R302, R303). -/
theorem Ctx.crPut_pm (x : Ctx) (p : Pkg) (n : Nat) (v : Word) : (x.crPut p n v).ctl.pm = x.ctl.pm := by
  simp only [Ctx.crPut, Ctx.putStatus, Ctx.pm_ite, ite_self]

/-- No marker changes the privilege (06 R145). -/
theorem Ctx.crMark_pm (x : Ctx) (n : Nat) (v : Word) : (x.crMark n v).ctl.pm = x.ctl.pm := by
  simp only [Ctx.crMark, Ctx.pm_ite, ite_self]

/-! ### The statement -/

/-- Settles O50: what needs privilege is marked in the table of instructions or by the number of its register, and privilege is the last check of a slot. -/
theorem privilegeIsCheckedAtDispatch : Obligations.PrivilegeIsCheckedAtDispatch := by
  unfold Obligations.PrivilegeIsCheckedAtDispatch
  refine ⟨fun p id t1 sz st q cls i hi => ⟨?priv, fun n hn => ⟨?user, rfl⟩⟩,
    fun h slots gone n sl i hi => ?dispatch,
    fun x p n v => ⟨x.crPut_pm p n v, x.crMark_pm n v⟩⟩
  case priv =>
    rw [List.mem_append] at hi
    rcases hi with hi | hi
    · refine needsPriv_of_info ?_
      revert i
      simp only [List.forall_mem_cons]
      exact ⟨rfl, rfl, rfl, rfl, rfl, rfl, rfl, rfl, rfl, rfl, rfl, rfl, rfl, rfl, rfl, rfl, rfl, rfl, rfl, by simp⟩
    · rw [List.mem_map] at hi
      obtain ⟨n, hn, rfl⟩ := hi
      rw [needsPriv_crwr]
      revert n
      decide
  case user =>
    rw [needsPriv_crwr]
    revert n
    decide
  case dispatch =>
    obtain ⟨k, hk, hbreach⟩ := slotBreach_privilegeLast hi h slots gone n
    have hpriv : slotBreach h slots gone true n sl = k := by simp [hbreach]
    have huser : slotBreach h slots gone false n sl = if k = 0 ∧ needsPriv i = true then 0x04 else k := by simp [hbreach]
    rw [hpriv, huser]
    exact ⟨fun hp h0 => if_pos ⟨h0, hp⟩, fun hp => if_neg (by simp [hp]), hk⟩

end Sys2Proof.Machine
end

section
/-!
SUPPORT. What the end of a kernel leaves of the fault of a context (13 R299, 16 R366): its records stay, and faulted stays faulted. The files are taken in
the model's order.
-/
namespace Sys2Proof.Machine

/-- A context keeps its fault records, and stays faulted where it is. -/
structure Ctx.KeepsFault (x y : Ctx) : Prop where
  recs : y.recs = x.recs
  faulted : x.st = .faulted → y.st = .faulted

theorem Ctx.KeepsFault.refl (x : Ctx) : x.KeepsFault x := ⟨rfl, id⟩

/-- A step in which a context keeps its fault. -/
def State.KeepsFault (c : Nat) (s t : State) : Prop := ∀ x, s.ctxs.get? c = some x → ∃ y, t.ctxs.get? c = some y ∧ x.KeepsFault y

variable {c : Nat} {s t u : State}

theorem State.KeepsFault.of_ctxs (h : t.ctxs = s.ctxs) : s.KeepsFault c t := fun x hx => ⟨x, h ▸ hx, .refl x⟩

theorem State.KeepsFault.refl (c : Nat) (s : State) : s.KeepsFault c s := .of_ctxs rfl

theorem State.KeepsFault.trans (h : s.KeepsFault c t) (h' : t.KeepsFault c u) : s.KeepsFault c u := by
  intro x hx
  obtain ⟨y, hy, hxy⟩ := h x hx
  obtain ⟨z, hz, hyz⟩ := h' y hy
  exact ⟨z, hz, hyz.recs.trans hxy.recs, fun hf => hyz.faulted (hxy.faulted hf)⟩

theorem State.KeepsFault.foldl {α : Type} {f : State → α → State} (hf : ∀ (s : State) a, s.KeepsFault c (f s a)) (l : List α) (s : State) :
    s.KeepsFault c (l.foldl f s) := by
  induction l generalizing s with
  | nil => exact .refl c s
  | cons a l ih => exact (hf s a).trans (ih _)

/-- A change of every context that keeps each one's fault. -/
theorem State.KeepsFault.of_map {f : Ctx → Ctx} (ht : t.ctxs = s.ctxs.map fun e => (e.1, f e.2)) (hf : ∀ x : Ctx, x.KeepsFault (f x)) :
    s.KeepsFault c t := by
  intro x hx
  exact ⟨f x, by simp [ht, Tab.get?_map s.ctxs f, hx], hf x⟩

theorem State.updCtx_keepsFault {f : Ctx → Ctx} (hf : ∀ x : Ctx, x.KeepsFault (f x)) (s : State) (d : Nat) : s.KeepsFault c (s.updCtx d f) := by
  intro x hx
  by_cases hd : c = d
  · subst hd
    exact ⟨f x, State.updCtx_ctx hx f, hf x⟩
  · exact ⟨x, (Tab.get?_upd_ne _ _ _ _ hd).trans hx, .refl x⟩

theorem Ctx.setLane_keepsFault (x : Ctx) (v : Fetcher) (l : Lane) : x.KeepsFault (x.setLane v l) := by cases v <;> exact ⟨rfl, id⟩

/-! ### Machine/Base -/

theorem State.discardCtx_keepsFault (s : State) (d : Nat) : s.KeepsFault c (s.discardCtx d) := by
  refine State.updCtx_keepsFault (fun x => ?_) (s.discard _) d
  exact ⟨rfl, id⟩

/-! ### Machine/Phys, Machine/Walk -/

@[simp] theorem State.poke_ctxs (s : State) (k pa : Nat) (l : List Byte) : (s.poke k pa l).ctxs = s.ctxs := by
  unfold State.poke
  split <;> rfl

@[simp] theorem State.setPte_ctxs (s : State) (k : Nat) (l : PteLoc) (e : Pte) : (s.setPte k l e).ctxs = s.ctxs := by
  cases l <;> exact State.poke_ctxs _ _ _ _

@[simp] theorem State.setPool_ctxs (s : State) (pk : PartKey) (n : Nat) (used : Bool) (frame : Nat) : (s.setPool pk n used frame).ctxs = s.ctxs := by
  simp only [State.setPool, State.twin, State.atTwin, State.pokeW]
  split <;> simp

theorem State.refetchUses_keepsFault (s : State) (pk : PartKey) (page : Option (BitVec 16 × Nat × Nat)) : s.KeepsFault c (s.refetchUses pk page) := by
  refine .foldl (fun s b => ?_) _ s
  refine State.updCtx_keepsFault (fun x => ?_) (s.discard _) b.ctx
  exact x.setLane_keepsFault _ _

/-- A context at a shoot-down of a page of a partition (19 R414). -/
def Ctx.shot (x : Ctx) (pk : PartKey) (page : Option (BitVec 16 × Nat × Nat)) : Ctx :=
  if x.pk = pk then { x with regs := { x.regs with th := x.regs.th.map (shotHandle page) }, lease := x.lease.shot page } else x

theorem Ctx.shot_keepsFault (x : Ctx) (pk : PartKey) (page : Option (BitVec 16 × Nat × Nat)) : x.KeepsFault (x.shot pk page) := by
  unfold Ctx.shot
  split <;> exact ⟨rfl, id⟩

theorem State.shoot_keepsFault (s : State) (pk : PartKey) (page : Option (BitVec 16 × Nat × Nat)) (thr key : Option Nat) :
    s.KeepsFault c (s.shoot pk page thr key) := by
  refine (s.refetchUses_keepsFault pk page).trans
    (.of_map (f := fun x => x.shot pk page) (List.map_congr_left fun e _ => ?_) fun x => x.shot_keepsFault pk page)
  unfold Ctx.shot
  split <;> rfl

theorem State.setPageState_keepsFault (s : State) (pk : PartKey) (l : PteLoc) (e : Pte) (st : BitVec 3) (sidx : BitVec 15) :
    s.KeepsFault c (s.setPageState pk l e st sidx) :=
  (State.KeepsFault.of_ctxs (s.setPte_ctxs _ _ _)).trans (.foldl (fun s _ => s.shoot_keepsFault _ _ _ _) _ _)

theorem State.dropShadow_keepsFault (s : State) (pk : PartKey) (l : PteLoc) (e : Pte) (st : BitVec 3) : s.KeepsFault c (s.dropShadow pk l e st) := by
  unfold State.dropShadow
  split
  · exact (State.KeepsFault.of_ctxs (s.setPool_ctxs _ _ _ _)).trans (State.setPageState_keepsFault _ _ _ _ _ _)
  · exact s.setPageState_keepsFault _ _ _ _ _

/-! ### Machine/Sync -/

theorem State.resolve_keepsFault (s : State) (f : Ctx → WaitKind → Option Bool) : s.KeepsFault c (s.resolve f) :=
  .of_map (f := fun x => { x with
    susp := resolveSusp (f x) x.susp
    thr := x.thr.resolve (f x), str := x.str.resolve (f x)
    acts := x.acts.map fun a => (a.1, { a.2 with lane := a.2.lane.resolve (f x) }) }) rfl fun _ => ⟨rfl, id⟩

/-- A barrier changes and acts on its waiters. -/
theorem State.resolveBar_keepsFault (s : State) (k : PKey) (b : Bar) : s.KeepsFault c ((s.setBar k b).resolveBar k b) :=
  State.resolve_keepsFault (s.setBar k b) _

theorem State.poison_keepsFault (s : State) (k : PKey) : s.KeepsFault c (s.poison k) := by
  simp only [State.poison]
  split
  · exact s.resolveBar_keepsFault k _
  · exact .refl c s

theorem State.bindFails_keepsFault (s : State) (b : BindRec) : s.KeepsFault c (s.bindEnds false b) := by
  unfold State.bindEnds
  split
  · refine iteInduction (motive := s.KeepsFault c) (fun _ => ?_) fun _ => s.poison_keepsFault _
    refine State.updCtx_keepsFault (fun x => ?_) s _
    exact ⟨rfl, id⟩
  · exact s.poison_keepsFault _

theorem State.freeGroupBars_keepsFault (s : State) (k : PKey) : s.KeepsFault c (s.freeGroupBars k) := by
  refine .foldl (fun s e => ?_) _ s
  exact s.resolveBar_keepsFault e.1 {}

/-! ### Machine/Life -/

theorem State.unpin_keepsFault (s : State) (m : MxOp) : s.KeepsFault c (s.unpin m) := by
  refine .foldl (fun s k => ?_) _ s
  exact .of_ctxs rfl

theorem State.emptyEngines_keepsFault (s : State) (d : Nat) : s.KeepsFault c (s.emptyEngines d) := by
  unfold State.emptyEngines
  split
  · exact .refl c s
  · next x _ =>
    have hbinds : s.KeepsFault c (s.bindsFail x.allBinds) := .foldl State.bindFails_keepsFault _ s
    have hpins := hbinds.trans (.foldl State.unpin_keepsFault x.fx.q14 _)
    have hroles := hpins.trans (.foldl (f := fun s q => s.dropRoles d q) (fun _ _ => .of_ctxs rfl) (List.range 16) _)
    refine hroles.trans (State.updCtx_keepsFault (fun x => ?_) _ d)
    exact ⟨rfl, id⟩

@[simp] theorem State.consider_ctxs (s : State) (pk : PartKey) : (s.consider pk).ctxs = s.ctxs := by
  simp only [State.consider]
  split <;> rfl

/-- A context that ends keeps its records, and one that is faulted stays it (13 R290, R299). -/
theorem State.endCtx_keepsFault (s : State) (d : Nat) : s.KeepsFault c (s.endCtx d) := by
  unfold State.endCtx
  split
  · exact .refl c s
  · split
    · exact .refl c s
    · have hdiscard : s.KeepsFault c (s.discard fun b => b.ctx = d) := .of_ctxs rfl
      refine (hdiscard.trans (State.emptyEngines_keepsFault _ d)).trans
        (.trans (State.updCtx_keepsFault (fun x => ?_) _ d) (.of_ctxs (State.consider_ctxs _ _)))
      exact ⟨rfl, fun hf => if_pos hf⟩

theorem State.dropGroups_keepsFault (s : State) (k : KernKey) : s.KeepsFault c (s.dropGroups k) :=
  (State.KeepsFault.foldl State.freeGroupBars_keepsFault _ s).trans (.of_ctxs rfl)

theorem State.endKern_keepsFault (s : State) (k : KernKey) : s.KeepsFault c (s.endKern k) :=
  ((State.KeepsFault.foldl State.endCtx_keepsFault _ s).trans (State.dropGroups_keepsFault _ k)).trans (.of_ctxs (State.consider_ctxs _ _))

theorem State.changeFenced_keepsFault {f : State → Pte → State} (hf : ∀ (s : State) e, s.KeepsFault c (f s e)) (s : State) (pk : PartKey) (va : Nat)
    (l : PteLoc) (e : Pte) : s.KeepsFault c (s.changeFenced pk va l e f) := by
  simp only [State.changeFenced]
  split
  · exact hf s e
  · split
    · exact .refl c s
    · have hpte (e e') : s.KeepsFault c (f (s.setPte pk.pkg l e) e') := (State.KeepsFault.of_ctxs (s.setPte_ctxs _ _ _)).trans (hf _ _)
      split
      · exact hpte _ _
      · exact (hpte _ _).trans (.of_ctxs (State.setPte_ctxs _ _ _ _))

theorem State.dropShadows_keepsFault (s : State) (k : KernKey) (kn : Kern) : s.KeepsFault c (s.dropShadows k kn) := by
  refine .foldl (fun s va => ?_) _ s
  split
  · exact State.changeFenced_keepsFault (fun s e => s.dropShadow_keepsFault _ _ e _) s _ _ _ _
  · exact .refl c s

theorem State.unpinCode_keepsFault (s : State) (k : KernKey) (kn : Kern) : s.KeepsFault c (s.unpinCode k kn) := by
  refine .foldl (fun s va => ?_) _ s
  split
  · split
    · exact .of_ctxs (s.setPte_ctxs _ _ _)
    · exact .refl c s
  · exact .refl c s

/-- A kernel that is faulted ends its contexts with the faults that they hold (16 R366). -/
theorem State.kernFault_keepsFault (s : State) (k : KernKey) (status : Nat) (tcode : BitVec 9) : s.KeepsFault c (s.kernFault k status tcode) := by
  unfold State.kernFault
  split
  · exact .refl c s
  · next kn _ =>
    split
    · exact .refl c s
    · have hkern : s.KeepsFault c (s.updKern k fun kn => { kn with st := .faulted, status := status, tcode := tcode }) := .of_ctxs rfl
      exact (((hkern.trans (State.endKern_keepsFault _ k)).trans (State.dropShadows_keepsFault _ k kn)).trans (State.unpinCode_keepsFault _ k kn)).trans
        (.of_ctxs rfl)

end Sys2Proof.Machine
end

section
/-!
The statement of traps, stops and waits (03 R92, 13 R295 to R302, 18 R398, R401, R402): each event ends in one change of its context, once the blocks of its
fetcher are discarded.
-/
namespace Sys2Proof.Machine

variable {s : State} {c : Nat} {x : Ctx}

/-! ### Blocks in flight -/

theorem State.discardLane_flight_self (s : State) (c : Nat) (u : Fetcher) : (s.discardLane c u).flight c u = [] := by
  simp [State.discardLane, State.flight, State.updCtx]

theorem State.discardLane_flight_ne {u v : Fetcher} (h : v ≠ u) (s : State) (c : Nat) : (s.discardLane c u).flight c v = s.flight c v := by
  simp only [State.discardLane, State.flight, State.updCtx, State.discard_blks, List.filter_filter]
  refine List.filter_congr fun e _ => ?_
  by_cases hv : e.2.u = v <;> simp [hv, h]

/-! ### The entry of a handler (13 R295, R301) -/

/-- A context whose thread enters its handler. -/
def Ctx.entered (x : Ctx) (f : FaultRec) (epc : Word) : Ctx :=
  { x.refetched with
    st := if x.st = .running then .handling else x.st
    ctl := { x.ctl with spm := x.ctl.pm, pm := true, hm := true }
    recs := x.recs.take f epc
    thr := { x.refetched.thr with next := align16 x.ctl.tvec, succ := false } }

theorem Ctx.entered_st (hlive : x.live = true) (f : FaultRec) (epc : Word) : (x.entered f epc).st = .handling := by
  simp only [Ctx.live, Bool.or_eq_true, decide_eq_true_eq] at hlive
  rcases hlive with h | h <;> simp [Ctx.entered, h]

/-- Outside a handler a trap entry discards the blocks of the thread, whose context enters the handler, and writes no memory (13 R295). -/
theorem State.trapEntry_outside (hx : s.ctxs.get? c = some x) (hm : x.ctl.hm = false) (f : FaultRec) (epc : Word) :
    (s.trapEntry c f epc).ctxs.get? c = some (x.entered f epc) ∧ (∀ u, (s.trapEntry c f epc).flight c u = (s.discardLane c .thread).flight c u)
      ∧ (s.trapEntry c f epc).mem = s.mem ∧ (s.trapEntry c f epc).bufs = s.bufs := by
  simp only [State.trapEntry, hx, hm, Bool.false_eq_true, if_false]
  exact ⟨State.updCtx_ctx (State.discardLane_ctx hx) _, fun _ => rfl, rfl, rfl⟩

/-- A context faulted by a second fault in its handler. -/
def Ctx.doubleFaulted (x : Ctx) (f : FaultRec) (epc : Word) : Ctx :=
  { x with st := .faulted, recs := { x.recs.take f epc with code := 0x3F, dcode := BitVec.ofNat 8 f.code } }

/-- In a handler a trap entry is a double fault, whose record the end of the kernel keeps (13 R299). -/
theorem State.trapEntry_inside (hx : s.ctxs.get? c = some x) (hm : x.ctl.hm = true) (f : FaultRec) (epc : Word) :
    ∃ y, (s.trapEntry c f epc).ctxs.get? c = some y ∧ (x.doubleFaulted f epc).KeepsFault y := by
  simp only [State.trapEntry, State.doubleFault, hx, hm, if_true]
  have hdiscard := (s.updCtx c fun x => x.doubleFaulted f epc).discardCtx_keepsFault (c := c) c
  exact ((hdiscard.trans (State.emptyEngines_keepsFault _ c)).trans (State.kernFault_keepsFault _ x.kern 2 f.tcode)) _ (State.updCtx_ctx hx _)

/-! ### A fault at a boundary -/

/-- TRAP_ENTRY takes the fault of the oldest block of a thread (03 R92, 13 R295). -/
theorem execTrapEntry_fault {f : FrameKey} {b : Blk} {r : FaultRec} {rs : List FaultRec} (hsite : s.site = .ctx c) (hx : s.ctxs.get? c = some x)
    (hlive : x.live = true) (hold : s.oldest c .thread = some (f, b)) (hr : b.faults = r :: rs) :
    execTrapEntry s = .next (s.trapEntry c r b.addr) := by
  cases b
  obtain rfl : _ = r :: rs := hr
  simp [execTrapEntry, hsite, hx, hlive, hold]

/-! ### Events at a boundary (13 R297, R298) -/

/-- TRAP_ENTRY delivers the events that are due where no fault is held. -/
theorem execTrapEntry_events (hsite : s.site = .ctx c) (hx : s.ctxs.get? c = some x) (hlive : x.live = true)
    (hclean : ∀ e, s.oldest c .thread = some e → e.2.faults = []) (hfetch : x.thr.fetchFault = none) (hdue : x.eventsDue = true) :
    execTrapEntry s = .next (s.deliverEvents c) := by
  cases hold : s.oldest c .thread with
  | none => simp [execTrapEntry, hsite, hx, hlive, hold, hfetch, hdue]
  | some e =>
    obtain ⟨f, b⟩ := e
    have hb := hclean _ hold
    cases b
    obtain rfl : _ = [] := hb
    simp [execTrapEntry, hsite, hx, hlive, hold, hdue]

/-- A context whose thread is about to take its pending events. -/
def Ctx.delivering (x : Ctx) : Ctx := { x.suspend with ctl := { x.ctl with evpend := 0 } }

theorem State.deliverEvents_eq (hx : s.ctxs.get? c = some x) :
    s.deliverEvents c = (s.updCtx c Ctx.delivering).trapEntry c { code := 0x28, evset := x.ctl.evpend } (s.nextAddr c .thread x) := by
  simp only [State.deliverEvents, hx]
  rfl

theorem Ctx.suspend_regs_wait (x : Ctx) : x.suspend.regs = x.regs ∧ x.suspend.thr.wait = none := by
  unfold Ctx.suspend
  split
  · next hw => exact ⟨rfl, hw⟩
  · split <;> exact ⟨rfl, rfl⟩

theorem Ctx.suspend_sig {w : Wait} {tok thr : Word} (hw : x.thr.wait = some w) (hk : w.kind = .sig tok thr) : x.suspend.susp = some w := by
  simp [Ctx.suspend, hw, hk]

/-- The events that a trap entry delivers stand in `cr.finfo` from bit 56 up (13 R301). -/
theorem eventRec_finfo (code : Nat) (e : BitVec 8) : ({ code := code, evset := e } : FaultRec).finfo = e.setWidth 64 <<< 56 := by
  apply BitVec.eq_of_toNat_eq
  change (e ++ 0#8 ++ 0#6 ++ 0#10 ++ 0#3 ++ 0#1 ++ 0#3 ++ 0#9 ++ 0#8 ++ 0#1 ++ 0#7 : BitVec (8 + 8 + 6 + 10 + 3 + 1 + 3 + 9 + 8 + 1 + 7)).toNat = _
  have he : e.toNat < 2 ^ 8 := e.isLt
  simp only [BitVec.toNat_append, BitVec.toNat_shiftLeft, BitVec.toNat_setWidth, Nat.shiftLeft_eq, BitVec.toNat_ofNat, Nat.zero_mod, Nat.or_zero]
  omega

/-! ### Streams (13 R296) -/

/-- The stream of a context stops with the record of a fault, and its thread sees event 4. -/
def Ctx.stopped (x : Ctx) (f : FaultRec) (epc : Word) : Ctx :=
  { x with
    dec := { x.dec with hold := x.dec.hold.filter fun h => h ≠ .stream }
    str := x.str.refetch
    recs := { x.recs with
      xvalid := true, xhact := false, xtag := 0, xact := none, xcode := BitVec.ofNat 8 f.code, xepc := align16 epc, xinfo := f.finfo }
    ctl := { x.ctl with evpend := x.ctl.evpend ||| 0x10 } }

theorem State.streamStop_stream (hx : s.ctxs.get? c = some x) (f : FaultRec) (epc : Word) :
    (s.streamStop c .stream f epc).ctxs.get? c = some (x.stopped f epc)
      ∧ (∀ u, (s.streamStop c .stream f epc).flight c u = (s.discardLane c .stream).flight c u)
      ∧ (s.streamStop c .stream f epc).mem = s.mem ∧ (s.streamStop c .stream f epc).bufs = s.bufs := by
  simp only [State.streamStop, hx]
  exact ⟨State.updCtx_ctx (State.updCtx_ctx (State.updCtx_ctx (s := s.discard _) hx _) _) _, fun _ => rfl, rfl, rfl⟩

/-- STREAM_FAULT stops the stream whose oldest block holds a fault. -/
theorem execStreamFault_block {f : FrameKey} {b : Blk} {r : FaultRec} {rs : List FaultRec} (hsite : s.site = .frame f) (hb : s.blks.get? f = some b)
    (hx : s.ctxs.get? b.ctx = some x) (hlive : x.live = true) (hfree : x.recs.xvalid = false) (hu : b.u = .stream) (hold : s.isOldest b = true)
    (hr : b.faults = r :: rs) : execStreamFault s = .next (s.streamStop b.ctx .stream r b.addr) := by
  simp [execStreamFault, hsite, hb, hx, hlive, hfree, hu, hold, hr, fetchExec]

/-- The context of a stopped stream, not of an activation, that resumes. -/
def Ctx.resumed (x : Ctx) : Ctx :=
  { x with recs := { x.recs with xvalid := false }, str := { x.str.refetch with next := x.recs.xepc, succ := false, fresh := true } }

theorem State.streamResume_ctx (hx : s.ctxs.get? c = some x) (hstop : x.recs.xvalid = true) (hact : x.recs.xact = none) :
    (s.streamResume c).ctxs.get? c = some x.resumed := by
  refine (State.updCtx_ctx hx _).trans ?_
  rw [if_pos hstop]
  split
  · next n hn => simp [hact] at hn
  · rfl

/-! ### Waits (02 R58, 18 R398, R401, R402) -/

theorem Tab.upd_eq_put {κ α : Type} [DecidableEq κ] {t : Tab κ α} {k : κ} {v : α} (h : t.get? k = some v) (f : α → α) :
    t.upd k f = t.put k (f v) := by
  induction t with
  | nil => cases h
  | cons e t ih =>
    obtain ⟨j, w⟩ := e
    by_cases hj : j = k
    · obtain rfl : w = v := by simpa [Tab.get?, hj] using h
      simp [Tab.upd, Tab.put, hj]
    · simp [Tab.upd, Tab.put, hj, ih (by simpa [Tab.get?, hj] using h)]

theorem State.updCtx_eq_setCtx (hx : s.ctxs.get? c = some x) (f : Ctx → Ctx) : s.updCtx c f = s.setCtx c (f x) := by
  rw [State.updCtx, Tab.upd_eq_put hx]
  rfl

/-- The wait of a thread or of a stream ends where its condition holds. -/
theorem execWaitEnd_ends {u : Fetcher} {w : Wait} {r : Bool} (hsite : s.site = .ctxU c u) (hx : s.ctxs.get? c = some x) (hlive : x.live = true)
    (hw : (x.lane u).wait = some w) (hr : s.waitStatus c x u w = some r) (hu : ∀ n, u ≠ .act n) :
    execWaitEnd s = .next (s.setCtx c (x.setLane u { (x.lane u) with wait := none, succ := true, next := w.succ r })) := by
  have hends : x.endsAct u (w.succ r) = false := by
    cases u with
    | thread | stream => rfl
    | act n => exact absurd rfl (hu n)
  simp [execWaitEnd, hsite, hx, hlive, hw, hr, hends]

/-! ### The statement -/

/-- Settles O39: outside a handler a trap entry and a stop each end in one change of their context, a double fault is kept through the end of its kernel, and
the waits end as their events name them. -/
theorem trapsStopsAndWaits : Obligations.TrapsStopsAndWaits := by
  unfold Obligations.TrapsStopsAndWaits
  refine ⟨fun s c x f b r rs hsite hx hlive hold hr => ⟨fun hm => ?trap, fun hm => ?double⟩,
    fun s c x hsite hx hlive hclean hfetch hpend hm hdone => ?events,
    fun s f b x r rs hsite hb hx hlive hfree hu hold hr => ?stop,
    fun s c x hsite hx hstop hact => ?resume,
    fun s c x u w r hsite hx hlive hw hr hu => (exec_waitEnd s).trans (execWaitEnd_ends hsite hx hlive hw hr hu),
    fun s c x hsite hx => ?cancel⟩
  case trap =>
    obtain ⟨hy, hflight, hmem, hbufs⟩ := State.trapEntry_outside hx hm r b.addr
    exact ⟨_, _, (exec_trapEntry s).trans (execTrapEntry_fault hsite hx hlive hold hr), hy, rfl, rfl, rfl, rfl, rfl, rfl, rfl,
      Ctx.entered_st hlive r b.addr, rfl, rfl, (hflight _).trans (s.discardLane_flight_self c .thread),
      fun u hu => (hflight u).trans (State.discardLane_flight_ne hu s c), hmem, hbufs⟩
  case double =>
    obtain ⟨y, hy, hrecs, hst⟩ := State.trapEntry_inside hx hm r b.addr
    exact ⟨_, y, (exec_trapEntry s).trans (execTrapEntry_fault hsite hx hlive hold hr), hy, hst rfl, congrArg Recs.code hrecs, congrArg Recs.dcode hrecs,
      congrArg Recs.epc hrecs⟩
  case events =>
    have hdue : x.eventsDue = true := by simpa [Ctx.eventsDue, hm, hdone] using hpend
    obtain ⟨hregs, hwait⟩ := x.suspend_regs_wait
    obtain ⟨hy, -, hmem, hbufs⟩ :=
      State.trapEntry_outside (State.updCtx_ctx hx Ctx.delivering) hm { code := 0x28, evset := x.ctl.evpend } (s.nextAddr c .thread x)
    rw [← State.deliverEvents_eq hx] at hy hmem hbufs
    exact ⟨_, _, (exec_trapEntry s).trans (execTrapEntry_events hsite hx hlive hclean hfetch hdue), hy, rfl, rfl, eventRec_finfo _ _, rfl, rfl, hwait,
      hregs, hmem, hbufs, fun w tok thr hw hk => Ctx.suspend_sig hw hk⟩
  case stop =>
    obtain ⟨hy, hflight, hmem, hbufs⟩ := State.streamStop_stream hx r b.addr
    exact ⟨_, _, (exec_streamFault s).trans (execStreamFault_block hsite hb hx hlive hfree hu hold hr), hy, rfl, rfl, rfl, rfl, rfl, rfl, rfl,
      (hflight _).trans (s.discardLane_flight_self b.ctx .stream), hmem, hbufs⟩
  case resume =>
    have hexec : exec .xcauseResume s = .next (s.streamResume c) := by rw [exec_xcauseResume, execXcauseResume, hsite]
    exact ⟨_, _, hexec, State.streamResume_ctx hx hstop hact, rfl, rfl, rfl, rfl, rfl, rfl, rfl, rfl⟩
  case cancel =>
    rw [exec_wstCancel, execWstCancel, hsite]
    exact congrArg _ (State.updCtx_eq_setCtx hx _)

end Sys2Proof.Machine
end

section
/-!
SUPPORT. The queue instructions as they issue (14 R331 to R338): what sends a token and takes, what raises a queue fault, what an outlet lets pass.
-/
namespace Sys2Proof.Machine

variable {s : State} {cu : Cur} {b : Blk} {sl : Slot} {x : Ctx} {i : Instr} {id : Nat} {q : QRef} {k : PKey}

/-! ### Tokens, takes and faults -/

/-- An object fault stands in the block with its subcode (03 R92, 13 R300). -/
theorem subFault_eq (code sub : Nat) :
    subFault s cu b code sub = .next (s.raised cu b { code := code, sub := BitVec.ofNat 8 sub, slot := BitVec.ofNat 7 cu.slot }) := rfl

/-- What was read goes to the targets, and its takes stand in the block (03 R88). -/
theorem readDone_tok (t : Tok) (qs : List QRef) : readDone s cu b sl (info i) (.tok t qs) = .next (s.sentTaking cu b sl i t qs) := rfl

theorem State.sentTaking_nil (t : Tok) : s.sentTaking cu b sl i t [] = s.sentOne cu b sl i t := by
  rw [State.sentTaking, List.map_nil, List.append_nil]
  rfl

/-! ### Access pops (R333) -/

/-- A pop that is not to perform yet finds nothing (03 R84, 08 R185). -/
theorem State.popOpen_of_popFind (h : s.popFind b x q id ≠ .wait) : s.popOpen b x q id = false := by
  refine Bool.eq_false_iff.2 fun hopen => h ?_
  simp only [State.popFind, State.popPos, hopen, Bool.or_true, Bool.true_or, if_true]

theorem popNow_elem {e : QElem} (h : s.popFind b x q id = .elem e) :
    popNow s cu b sl x (info i) q id = .next (s.sentTaking cu b sl i (elemTok false e) [q]) := by
  have hopen : s.popOpen b x q id = false := State.popOpen_of_popFind (by simp [h])
  simp only [popNow, hopen, h, Bool.false_eq_true, if_false]
  rfl

theorem popNow_ended (h : s.popFind b x q id = .ended) : popNow s cu b sl x (info i) q id = .next (s.sentOne cu b sl i .null) := by
  have hopen : s.popOpen b x q id = false := State.popOpen_of_popFind (by simp [h])
  simp only [popNow, hopen, h, Bool.false_eq_true, if_false]
  exact congrArg _ (State.sentTaking_nil .null)

/-! ### Appends (R331, R335) -/

/-- A queue is one of the queues that its own traffic reaches (R338). -/
theorem State.reachesSealed_of_sealed (h : (s.queue k).state = .sealed) : s.reachesSealed k = true :=
  List.any_eq_true.2 ⟨k, List.mem_cons_self, decide_eq_true h⟩

/-- A bound outlet whose queue raises no fault lets an append pass (R335). -/
theorem outIssue_passes {o : Nat} {bd : Bind} {marker : Bool} (ho : x.outlet o = some bd)
    (hf : s.outFault (objKey x.pk bd.queue) (sl.plane = .dat) marker = 0) (c : Out State) : outIssue s cu b sl x o marker c = c := by
  simp only [outIssue, ho, hf, ne_eq, not_true_eq_false, if_false]

end Sys2Proof.Machine
end

section
/-!
The statements of the queue instructions as they issue (14 R325 to R327, R331 to R338, 03 R88).
-/
namespace Sys2Proof.Machine

variable {s : State} {cu : Cur} {b : Blk} {sl : Slot} {l r : Tok} {x : Ctx} {p : Pred} {id : Ident} {inl : BitVec 5} {t1 : Tgt}

/-! ### Pops and peeks -/

/-- A ready `qpop` that raises no queue fault and that no earlier store keeps waiting makes its pop (14 R333). -/
theorem execQpop_pops (h : Ready (.qpop p id t1) s cu b sl l r) (hx : s.ctxs.get? b.ctx = some x) (hf : s.qpopFault x l.val = 0)
    (hst : b.storesBelow id.toNat = true) :
    exec (.qpop p id t1) s = popNow s cu b sl x (info (.qpop p id t1)) (.part (objKey x.pk (l.val.toNat % 4096))) id.toNat := by
  rw [exec_qpop, execQpop, loadOp_ready h, withCtx_some hx]
  simp only [hf, hst, ne_eq, not_true_eq_false, Bool.not_true, Bool.false_eq_true, if_false]
  rfl

/-- A ready `qpop` of `bq` in a pair context that no earlier store keeps waiting makes its pop (14 R326, R333). -/
theorem execQpopBq_pops (h : Ready (.qpopBq p id t1) s cu b sl l r) (hx : s.ctxs.get? b.ctx = some x) (ha : x.ctl.aonly = false)
    (hst : b.storesBelow id.toNat = true) : exec (.qpopBq p id t1) s = popNow s cu b sl x (info (.qpopBq p id t1)) .bq id.toNat := by
  rw [exec_qpopBq, execQpopBq, loadOp_ready h, withCtx_some hx]
  simp only [ha, hst, Bool.not_true, Bool.false_eq_true, if_false]

/-- `pop` and `pop.v` take what they read of their inlet (14 R334). -/
theorem inletPop_takes {i : Instr} {t : Tok} {q : List QRef} (h : Ready i s cu b sl l r) (hx : s.ctxs.get? b.ctx = some x)
    (hst : b.storesBelow id.toNat = true) (hread : s.readInlet x b inl.toNat cu.slot id.toNat false sl.plane = .tok t q) :
    inletPop (info i) id inl s = .next (s.sentTaking cu b sl i t q) := by
  rw [inletPop, loadOp_ready h, withCtx_some hx]
  simp only [hst, hread, Bool.not_true, Bool.false_eq_true, if_false]
  exact readDone_tok t q

/-- `peek.v` sends what it reads of its inlet and takes nothing (14 R334). -/
theorem execPeekV_sends {t : Tok} {q : List QRef} (h : Ready (.peekV p id inl t1) s cu b sl l r) (hx : s.ctxs.get? b.ctx = some x)
    (hst : b.storesBelow id.toNat = true) (hread : s.readInlet x b inl.toNat cu.slot id.toNat false sl.plane = .tok t q) :
    exec (.peekV p id inl t1) s = .next (s.sentOne cu b sl (.peekV p id inl t1) t) := by
  rw [exec_peekV, execPeekV, loadOp_ready h, withCtx_some hx]
  simp only [hst, hread, Bool.not_true, Bool.false_eq_true, if_false]
  exact (readDone_tok t []).trans (congrArg _ (State.sentTaking_nil t))

/-- The tag word of an element: its marker bit and its round (14 R334). -/
theorem tagWord_elem (s : State) (e : QElem) :
    tagWord s (.elem e) = (if e.marker then BitVec.ofNat 64 (2 ^ 63) else 0) ||| e.round.setWidth 64 := by
  have hbit : bitAt e.marker 63 = if e.marker then BitVec.ofNat 64 (2 ^ 63) else 0 := by cases e.marker <;> rfl
  exact congrArg (· ||| e.round.setWidth 64) hbit

/-- `peek` sends the tag word of the element at its place (14 R334). -/
theorem execPeek_sends {bd : Bind} {n : Nat} {e : QElem} (h : Ready (.peek p id inl t1) s cu b sl l r) (hx : s.ctxs.get? b.ctx = some x)
    (hst : b.storesBelow id.toNat = true) (hbd : x.inlet inl.toNat = some bd)
    (hpos : s.inletPos b inl.toNat (objKey x.pk bd.queue) cu.slot id.toNat false = some n)
    (hel : (s.queue (objKey x.pk bd.queue)).availAt n = .elem e) :
    exec (.peek p id inl t1) s = .next (({ s with free := s.free + 1 } : State).sent cu b sl (.peek p id inl t1) (Tok.ofWord (tagWord s (.elem e))) .null) := by
  rw [exec_peek, execPeek, loadOp_ready h, withCtx_some hx]
  simp only [hst, hbd, hpos, hel, Bool.not_true, Bool.false_eq_true, if_false]
  rfl

/-- `collect` merges the elements of its two inlets under the mask that its block reads, and takes both (14 R337). -/
theorem execCollect_takes {t u : Tok} {q q' : List QRef} (h : Ready (.collect p id inl t1) s cu b sl l r) (hx : s.ctxs.get? b.ctx = some x)
    (hst : b.storesBelow id.toNat = true) (hw : s.vecWaits x b cu.slot true false = false)
    (ht : s.readInlet x b inl.toNat cu.slot id.toNat false .dat = .tok t q)
    (hu : s.readInlet x b (inl.toNat + 1) cu.slot id.toNat false .dat = .tok u q') :
    exec (.collect p id inl t1) s
      = .next (s.sentTaking cu b sl (.collect p id inl t1) (collectTok (s.seenRegs b x).m[0] x.vctx.a t u) (q ++ q')) := by
  rw [exec_collect, execCollect, loadOp_ready h, withCtx_some hx]
  simp only [hst, hw, ht, hu, Bool.not_true, Bool.or_self, Bool.false_eq_true, if_false]
  exact readDone_tok _ _

/-- Settles O23: each form reaches the read or the pop of its queue, and sends what that finds at its place. -/
theorem queueTakesDeliver : Obligations.QueueTakesDeliver := by
  unfold Obligations.QueueTakesDeliver
  refine ⟨fun s cu b sl l r x p id t1 h hx hf hst => ⟨fun e hfind => ?qpop, fun hfind => ?ended⟩,
    fun s cu b sl l r x p id t1 e h hx ha hst hfind => ?qpopBq,
    fun s cu b sl l r x p id inl t1 bd n e hx hst hbd hplane hpos hel => ?inlets,
    fun s cu b sl l r x p id inl t1 t u q q' h hx hst hw ht hu => execCollect_takes h hx hst hw ht hu⟩
  case qpop => exact (execQpop_pops h hx hf hst).trans (popNow_elem hfind)
  case ended => exact (execQpop_pops h hx hf hst).trans (popNow_ended hfind)
  case qpopBq => exact (execQpopBq_pops h hx ha hst).trans (popNow_elem hfind)
  case inlets =>
    have hread := State.readInlet_elem hbd hplane hpos hel
    simp only [List.forall_mem_cons]
    refine ⟨⟨fun h => (exec_pop s).trans (inletPop_takes h hx hst hread), fun h => (exec_popV s).trans (inletPop_takes h hx hst hread),
      fun _ hi => absurd hi List.not_mem_nil⟩, fun h => execPeekV_sends h hx hst hread, fun h => ?peek⟩
    case peek => rw [execPeek_sends h hx hst hbd hpos hel, tagWord_elem]

/-! ### Appends -/

/-- A ready `qpush` whose queue raises no fault and has room completes (14 R332). -/
theorem execQpush_completes (p : Pred) (id : Ident) (q : BitVec 12) :
    Completes (.qpush p id q) id (fun s _ x _ _ => s.qpushFault (objKey x.pk q.toNat) = 0 ∧ s.roomOf x (objKey x.pk q.toNat) ≠ 0)
      fun _ l _ => .qpush q.toNat l.val := by
  rintro s cu b sl l r x h hx hid ⟨hf, hroom⟩
  rw [exec_qpush, execQpush, storeOp_ready h, withCtx_some hx]
  simp only [hf, ne_eq, not_true_eq_false, if_false, if_neg hroom]
  exact completeWith_eq hid s cu _

/-- A ready `qpush` of a command that keeps R327 reserves an entry of `cmdq` and completes (14 R327, R332). -/
theorem execQpushCmdq_reserves (h : Ready (.qpushCmdq p id) s cu b sl l r) (hx : s.ctxs.get? b.ctx = some x) (hid : b.idDone.getLsbD id.toNat = false)
    (ha : x.ctl.aonly = false) (hok : bindOk l.val = true) (hroom : s.cmdqRoom b.ctx x ≠ 0) :
    exec (.qpushCmdq p id) s = .next (s.completed cu { b with cmdqRes := b.cmdqRes + 1 } id (.cmdq l.val)) := by
  rw [exec_qpushCmdq, execQpushCmdq, storeOp_ready h, withCtx_some hx]
  simp only [ha, hok, Bool.not_true, Bool.or_self, Bool.false_eq_true, if_false, if_neg hroom]
  exact completeWith_eq (b := { b with cmdqRes := b.cmdqRes + 1 }) hid s cu _

/-- The common form of `push`, `push.v` and `pushm`: one append through an outlet, an element or a marker, with the effect `e` of its operand (14 R335). -/
def outForm (i : Info) (id : Ident) (o : Nat) (marker : Bool) (e : Tok → Eff) (s : State) : Out State :=
  storeOp i id (fun cu b sl l _ => withCtx s b fun x => outIssue s cu b sl x o marker (completeWith s cu b id (e l))) s

/-- A form that appends through its outlet completes with its effect where the outlet lets it pass (14 R335). -/
theorem outForm_completes {i : Instr} {o : Nat} {bd : Bind} {marker : Bool} {e : Tok → Eff} (hi : ∀ s, exec i s = outForm (info i) id o marker e s)
    (h : Ready i s cu b sl l r) (hx : s.ctxs.get? b.ctx = some x) (hid : b.idDone.getLsbD id.toNat = false) (ho : x.outlet o = some bd)
    (hf : s.outFault (objKey x.pk bd.queue) (sl.plane = .dat) marker = 0) : exec i s = .next (s.completed cu b id (e l)) := by
  rw [hi, outForm, storeOp_ready h, withCtx_some hx, outIssue_passes ho hf, completeWith_eq hid]

/-- The lanes that `steer` sends to one of its outlets, under the mask register that its block reads (14 R336). -/
def State.steered (s : State) (b : Blk) (x : Ctx) (m : BitVec 3) (want : Bool) (l : Tok) : Tok :=
  .vec (steerLanes (vecGet (s.seen b x).regs.m m.toNat 0) want x.vctx.a l.bits)

/-- A ready `steer` whose mask waits for no older block and whose outlets let both tokens pass completes with the two (14 R336). -/
theorem execSteer_completes {m : BitVec 3} {f t : BitVec 5} {bt bf : Bind} (h : Ready (.steer p id m f t) s cu b sl l r)
    (hx : s.ctxs.get? b.ctx = some x) (hid : b.idDone.getLsbD id.toNat = false)
    (hm : s.regPending b (fun h => h.pwmask.getLsbD m.toNat) (32 + m.toNat) = false) (hw : s.vecWaits x b cu.slot false false = false)
    (ht : x.outlet t.toNat = some bt) (hf : x.outlet f.toNat = some bf) (htf : s.outFault (objKey x.pk bt.queue) (sl.plane = .dat) false = 0)
    (hff : s.outFault (objKey x.pk bf.queue) (sl.plane = .dat) false = 0) :
    exec (.steer p id m f t) s = .next (s.setBlk cu.frame { b.fin cu.slot with
      idDone := b.idDone ||| (1#32 <<< id.toNat)
      effs := b.effs ++ [(id.toNat, .out t.toNat (s.steered b x m true l)), (id.toNat, .out f.toNat (s.steered b x m false l))] }) := by
  rw [exec_steer, execSteer, storeOp_ready h, withCtx_some hx]
  simp only [hm, hw, Bool.or_self, Bool.false_eq_true, if_false, outIssue_passes ht htf, outIssue_passes hf hff, hid, Blk.complete,
    List.append_assoc, List.cons_append, List.nil_append]
  rfl

/-- A ready `rtcfg` of an allocated queue that is empty, with a parameter fit for its stage, completes (14 R338). -/
theorem execRtcfg_completes (p : Pred) (id : Ident) (stg : RtStage) (q : BitVec 12) :
    Completes (.rtcfg p id stg q) id
      (fun s _ x l _ => (s.queue (objKey x.pk q.toNat)).state ≠ .unallocated ∧ s.stageOk (objKey x.pk q.toNat) stg l.val = true
        ∧ (s.queue (objKey x.pk q.toNat)).all = [] ∧ (s.queue (objKey x.pk q.toNat)).stageToks = [] ∧ s.reserved (objKey x.pk q.toNat) = 0)
      fun _ l _ => .rtcfg stg q.toNat l.val := by
  rintro s cu b sl l r x h hx hid ⟨hst, hok, hall, htoks, hres⟩
  rw [exec_rtcfg, execRtcfg, storeOp_ready h, withCtx_some hx]
  simp only [if_neg hst, hok, hall, htoks, hres, ne_eq, not_true_eq_false, decide_false, Bool.not_true, Bool.or_self, Bool.false_eq_true, if_false]
  exact completeWith_eq hid s cu _

/-- Settles O24: a form whose checks pass completes its identifier with its effect; the three appends through one outlet have one argument. -/
theorem queueAppendsComplete : Obligations.QueueAppendsComplete := by
  unfold Obligations.QueueAppendsComplete
  refine ⟨execQpush_completes, fun p id s cu b sl l r x h hx hid ha hok hroom => execQpushCmdq_reserves h hx hid ha hok hroom,
    fun p id s cu b sl l r x h _ hid _ => ?bq, fun s cu b sl l r x p id o bd hx hid ho => ⟨?push, fun h hf => ?marker⟩,
    fun s cu b sl l r x p id m f t bt bf h hx hid hm hw ht hf htf hff => execSteer_completes h hx hid hm hw ht hf htf hff, execRtcfg_completes⟩
  case bq => rw [exec_pushBq, execPushBq, storeOp_ready h, completeWith_eq hid]
  case push =>
    simp only [List.forall_mem_cons]
    exact ⟨fun h hf => outForm_completes (e := .out o.toNat) exec_push h hx hid ho hf,
      fun h hf => outForm_completes (e := .out o.toNat) exec_pushV h hx hid ho hf, fun _ hi => absurd hi List.not_mem_nil⟩
  case marker => exact outForm_completes (e := fun _ => .outMark o.toNat) exec_pushm h hx hid ho hf

/-! ### Queue faults -/

theorem State.qpopFault_beyond {v : Word} (h : 4096 ≤ v.toNat) : s.qpopFault x v = 9 := by
  simp only [State.qpopFault, if_pos h]

theorem State.qpopFault_unallocated {v : Word} (h : v.toNat < 4096) (hq : (s.queue (objKey x.pk v.toNat)).state = .unallocated) :
    s.qpopFault x v = 2 := by
  have hfld : fld v 0 12 = v.toNat := Nat.mod_eq_of_lt h
  simp only [State.qpopFault, hfld, if_neg (Nat.not_le.2 h), hq, if_true]

/-- A ready `qpop` raises the queue fault of its number (14 R333). -/
theorem qpop_raises {ok : State → Blk → Ctx → Tok → Tok → Prop} {n : Nat} (p : Pred) (id : Ident) (t1 : Tgt) (hn : n ≠ 0)
    (hf : ∀ {s b x l r}, ok s b x l r → s.qpopFault x l.val = n) : Raises (.qpop p id t1) ok 0x30 (BitVec.ofNat 8 n) 0 := by
  intro s cu b sl l r x h hx hok
  rw [exec_qpop, execQpop, loadOp_ready h, withCtx_some hx]
  simp only [hf hok, ne_eq, hn, not_false_eq_true, if_true]
  exact subFault_eq 0x30 n

/-- A ready `qpush` raises the queue fault of its queue (14 R332). -/
theorem qpush_raises {ok : State → Blk → Ctx → Tok → Tok → Prop} {n : Nat} (p : Pred) (id : Ident) (q : BitVec 12) (hn : n ≠ 0)
    (hf : ∀ {s b x l r}, ok s b x l r → s.qpushFault (objKey x.pk q.toNat) = n) : Raises (.qpush p id q) ok 0x30 (BitVec.ofNat 8 n) 0 := by
  intro s cu b sl l r x h hx hok
  rw [exec_qpush, execQpush, storeOp_ready h, withCtx_some hx]
  simp only [hf hok, ne_eq, hn, not_false_eq_true, if_true]
  exact subFault_eq 0x30 n

/-- Settles O25: a form raises the subcode of the first rule of R331 that its queue breaks. -/
theorem queueFaultSubcodes : Obligations.QueueFaultSubcodes := by
  unfold Obligations.QueueFaultSubcodes
  refine ⟨fun p id t1 => qpop_raises p id t1 (by decide) State.qpopFault_beyond,
    fun p id t1 => qpop_raises p id t1 (by decide) fun ⟨hlt, hq⟩ => State.qpopFault_unallocated hlt hq,
    fun p id q => qpush_raises p id q (by decide) fun hst => ?unallocated,
    fun p id q => qpush_raises p id q (by decide) fun ⟨hst, hplane⟩ => ?plane,
    fun p id q => qpush_raises p id q (by decide) fun ⟨hst, hplane, hprod⟩ => ?kind,
    fun p id q => qpush_raises p id q (by decide) fun ⟨hst, hplane, hprod⟩ => ?sealed,
    fun p id stg q s cu b sl l r x h hx hst => ?rtcfg⟩
  case unallocated => simp only [State.qpushFault, hst, if_true]
  case plane => simp only [State.qpushFault, if_neg hst, hplane, if_true]
  case kind => simp only [State.qpushFault, if_neg hst, hplane, hprod, Bool.not_false, Bool.false_eq_true, if_false, if_true]
  case sealed => simp [State.qpushFault, hst, hplane, hprod, State.reachesSealed_of_sealed hst]
  case rtcfg =>
    rw [exec_rtcfg, execRtcfg, storeOp_ready h, withCtx_some hx]
    simp only [hst, if_true]
    exact subFault_eq 0x30 2

end Sys2Proof.Machine
end

section
/-!
The statement of the events of queues and registers (14 R317, R319, R320, 18 R401): a write of `cr.sgval` acts on the waits of contexts.
-/
namespace Sys2Proof.Machine

/-- A running context of slot 0 whose thread waits until its signal 0 has reached 1 (18 R400). -/
def sigWaiter : Ctx :=
  { pk := ⟨0, 0⟩, kern := ⟨⟨0, 0⟩, 0, 0⟩, index := 0, pos := some (0, 0), thr := { wait := some { kind := .sig 0 1, next := 0 } } }

/-- That context, at a write of `cr.sgval` that sets its signal to 1. -/
def sigWrittenState : State := { State.reset with site := .objV ⟨⟨0, 0⟩, 0⟩ 1, ctxs := [(1, sigWaiter)] }

/-- The write releases the thread's wait. -/
theorem exec_sgvalWrite_sigWrittenState :
    ∃ t, exec .sgvalWrite sigWrittenState = .next t
      ∧ (t.ctxs.get? 1).map (fun x => x.thr.wait) = some (some { kind := .sig 0 1, next := 0, met := some true }) :=
  ⟨_, rfl, rfl⟩

/-- Refutes O44: its clause on a write of `cr.sgval` leaves every context as it was. Such a write is an update of the signal at its home (18 R401), and an
update acts on the waits that it meets (18 R400): in the state shown the signal goes from 0 to 1, and the thread that waits for 1 is released. -/
theorem not_queueAndRegisterEvents : ¬ Obligations.QueueAndRegisterEvents := by
  unfold Obligations.QueueAndRegisterEvents
  rintro ⟨-, -, -, hobj, -⟩
  obtain ⟨⟨t, hexec, -, -, -, hctxs⟩, -⟩ := hobj sigWrittenState ⟨⟨0, 0⟩, 0⟩ 1 rfl
  obtain ⟨u, hstep, hwait⟩ := exec_sgvalWrite_sigWrittenState
  obtain rfl : u = t := Host.Outcome.next.inj (hstep.symm.trans hexec)
  rw [hctxs] at hwait
  exact absurd hwait (by decide)

end Sys2Proof.Machine
end

section
/-!
The statement of the state after reset (23 R478): what each table answers where it lists nothing.
-/
namespace Sys2Proof.Machine

/-- A die of a package whose dies were never changed is the die that reset leaves. -/
theorem Pkg.die_default (d : Nat) : (({} : Pkg).die d).cycle = 0 := by
  have hget : ((({} : Pkg).dies[d]?).getD ({} : Die)) = {} := by
    by_cases hd : d < 4 <;> simp [hd]
  simp only [Pkg.die, hget]
  split <;> rfl

/-- The counters of the dies are 0 after reset (01 R39). -/
theorem reset_cycle (d : Nat) : State.reset.cycle 0 d = 0 := Pkg.die_default d

/-- Settles O51: every table of the state after reset lists nothing, and its defaults are the values of the statement. -/
theorem resetLeaves : Obligations.ResetLeaves := by
  unfold Obligations.ResetLeaves
  refine ⟨fun _ => ⟨rfl, ?mode, ?sizes, rfl, rfl, rfl⟩, fun _ => ⟨rfl, rfl, rfl, rfl, rfl⟩, fun _ => rfl, fun _ _ => ⟨rfl, rfl, rfl, rfl, rfl⟩,
    fun _ d => ⟨rfl, rfl, rfl, rfl, reset_cycle d⟩, rfl, rfl, rfl, rfl, rfl, ?counters⟩
  case mode => exact (by decide : fld ({} : Part).ptcfg 63 1 = 1)
  case sizes => exact (by decide : fld ({} : Part).ptcfg 54 3 = 1)
  case counters => exact fun e he => absurd he List.not_mem_nil

end Sys2Proof.Machine
end

section
/-!
The statements of Moantiard chains (22 R475): what a step of a stream does with semaphores, queues and its place.
-/
namespace Sys2Proof.Machine

/-! ### The streams -/

@[simp] theorem MoSt.pos_setPos (s : MoSt) (e : MoEng) (p : MoPos) : (s.setPos e p).pos e = p := by cases e <;> rfl
@[simp] theorem MoSt.setPos_sems (s : MoSt) (e : MoEng) (p : MoPos) : (s.setPos e p).sems = s.sems := by cases e <;> rfl
@[simp] theorem MoSt.setPos_mem (s : MoSt) (e : MoEng) (p : MoPos) : (s.setPos e p).mem = s.mem := by cases e <;> rfl
@[simp] theorem MoSt.setPos_queues (s : MoSt) (e : MoEng) (p : MoPos) : (s.setPos e p).queues = s.queues := by cases e <;> rfl

variable {c : MoChain} {depth : Nat → Nat} {e : MoEng} {s t u : MoSt} {k : MoCmd} {n : Nat}

/-! ### What a step does -/

/-- A command that has not begun takes from the semaphore that it waits for, or cannot proceed. -/
theorem MoSt.step_waits (hk : (c.stream e)[(s.pos e).at']? = some k) (hb : (s.pos e).begun = false) (hw : k.waits = some n) :
    s.step c depth e = if (s.sems[n]?).getD 0 = 0 then none
      else some ({ s with sems := s.sems.set n ((s.sems[n]?).getD 0 - 1) }.setPos e { s.pos e with begun := true }) := by
  simp only [MoSt.step, hk, hb, hw, Bool.not_false, if_true]

/-- A command whose effect ends posts, and its stream moves on. -/
theorem MoSt.step_posts (hk : (c.stream e)[(s.pos e).at']? = some k) (hb : (s.pos e).begun = true) (hp : k.posts = some n)
    (hu : s.effect c depth (s.pos e).moved k.op = .done u) :
    s.step c depth e = some ({ u with sems := u.sems.set n ((u.sems[n]?).getD 0 + 1) }.setPos e ⟨(s.pos e).at' + 1, false, 0⟩) := by
  simp [MoSt.step, hk, hb, hu, hp]

/-- A step leaves the queues as they are, or as an effect of a command leaves them. -/
theorem MoSt.step_queues (h : s.step c depth e = some t) :
    t.queues = s.queues ∨ ∃ op u, t.queues = u.queues ∧ (s.effect c depth (s.pos e).moved op = .more u ∨ s.effect c depth (s.pos e).moved op = .done u) := by
  simp only [MoSt.step] at h
  split at h
  next => cases h
  next k hk =>
    split at h
    next =>
      split at h
      next => cases h; exact .inl (s.setPos_queues e _)
      next n hw =>
        split at h
        next => cases h
        next => cases h; exact .inl (MoSt.setPos_queues _ e _)
    next =>
      split at h
      next => cases h
      next u hu => cases h; exact .inr ⟨k.op, u, u.setPos_queues e _, .inl hu⟩
      next u hu =>
        cases h
        exact .inr ⟨k.op, u, by rw [MoSt.setPos_queues]; split <;> rfl, .inr hu⟩

/-- Settles O59: the two branches of a step, a command that waits and one whose effect ends. -/
theorem chainCommandsWaitAndPost : Obligations.ChainCommandsWaitAndPost := by
  unfold Obligations.ChainCommandsWaitAndPost
  refine ⟨fun c depth e s k n hk hb hw => ⟨fun h0 => ?stays, fun hv => ?begins⟩, fun c depth e s u k n hk hb hp hu => ?posts⟩
  case stays => rw [MoSt.step_waits hk hb hw, if_pos h0]
  case begins =>
    refine ⟨_, by rw [MoSt.step_waits hk hb hw, if_neg (by omega)], ?_⟩
    simp
  case posts =>
    refine ⟨_, MoSt.step_posts hk hb hp hu, ?_⟩
    simp

/-! ### Queues and their depths -/

/-- Each queue holds at most its depth. -/
def MoSt.Fits (depth : Nat → Nat) (s : MoSt) : Prop := ∀ q, (s.els q).length ≤ depth q

theorem MoSt.els_setEls (s : MoSt) (q p : Nat) (l : List Nat) : (s.setEls q l).els p = if p = q ∧ q < s.queues.length then l else s.els p := by
  simp only [MoSt.els, MoSt.setEls, List.getElem?_set]
  by_cases hp : q = p
  · subst hp
    by_cases hq : q < s.queues.length <;> simp [hq]
  · simp [hp, Ne.symm hp]

/-- A queue may be given any list within its depth. -/
theorem MoSt.Fits.setEls (h : s.Fits depth) {q : Nat} {l : List Nat} (hl : l.length ≤ depth q) : (s.setEls q l).Fits depth := by
  intro p
  rw [MoSt.els_setEls]
  split
  next hp => exact hp.1 ▸ hl
  next => exact h p

/-- A push into a queue with room keeps the depths. -/
theorem MoSt.Fits.push (h : s.Fits depth) {q v : Nat} (hq : (s.els q).length < depth q) : (s.setEls q (s.els q ++ [v])).Fits depth :=
  h.setEls (by rw [List.length_append]; exact hq)

/-- A pop keeps the depths. -/
theorem MoSt.Fits.pop (h : s.Fits depth) {q v : Nat} {r : List Nat} (hq : s.els q = v :: r) : (s.setEls q r).Fits depth :=
  h.setEls (by have := h q; rw [hq, List.length_cons] at this; omega)

theorem MoSt.Fits.of_queues_eq (h : s.Fits depth) (ht : t.queues = s.queues) : t.Fits depth := fun q => by
  rw [MoSt.els, ht]
  exact h q

/-- After a pop from one queue, another holds what it held, and the queue itself its rest. -/
theorem MoSt.els_pop {i o v : Nat} {r : List Nat} (hi : s.els i = v :: r) : (s.setEls i r).els o = if i = o then r else s.els o := by
  have hlt : i < s.queues.length := by
    by_contra hge
    simp [MoSt.els, List.getElem?_eq_none (Nat.le_of_not_lt hge)] at hi
  rw [MoSt.els_setEls]
  by_cases ho : i = o
  · rw [if_pos ⟨ho.symm, hlt⟩, if_pos ho]
  · rw [if_neg fun hq => ho hq.1.symm, if_neg ho]

/-- An effect that goes on or ends keeps the depths: an `ldq` and a `vmap` append only where there is room. -/
theorem MoSt.Fits.effect (h : s.Fits depth) {m : Nat} {op : MoOp} (hu : s.effect c depth m op = .more u ∨ s.effect c depth m op = .done u) :
    u.Fits depth := by
  cases op with
  | nop => rcases hu with hu | hu <;> cases hu; exact h
  | ldt => rcases hu with hu | hu <;> cases hu; exact h.of_queues_eq rfl
  | mmt => rcases hu with hu | hu <;> cases hu; exact h.of_queues_eq rfl
  | aclr => rcases hu with hu | hu <;> cases hu; exact h.of_queues_eq rfl
  | stt => rcases hu with hu | hu <;> cases hu; exact h.of_queues_eq rfl
  | ldq t =>
    simp only [MoSt.effect] at hu
    split at hu
    next => rcases hu with hu | hu <;> cases hu; exact h
    next =>
      split at hu
      next => rcases hu with hu | hu <;> cases hu
      next hroom => rcases hu with hu | hu <;> cases hu; exact h.push (by omega)
  | vmap i o f sc =>
    simp only [MoSt.effect] at hu
    split at hu
    next => rcases hu with hu | hu <;> cases hu
    next v r hi =>
      rw [← MoSt.els_pop hi] at hu
      split at hu
      next => rcases hu with hu | hu <;> cases hu
      next hroom => rcases hu with hu | hu <;> cases hu; exact (h.pop hi).push (by omega)
  | stq t =>
    simp only [MoSt.effect] at hu
    split at hu
    next => rcases hu with hu | hu <;> cases hu; exact h
    next =>
      split at hu
      next => rcases hu with hu | hu <;> cases hu
      next v r hq => rcases hu with hu | hu <;> cases hu; exact (h.pop hq).of_queues_eq rfl

/-- Settles O60: a step changes the queues only by an effect. -/
theorem chainQueuesStayWithinDepth : Obligations.ChainQueuesStayWithinDepth := by
  unfold Obligations.ChainQueuesStayWithinDepth
  intro c depth e s t h hstep
  have hs : s.Fits depth := h
  obtain ht | ⟨op, u, ht, hu⟩ := MoSt.step_queues hstep
  · exact hs.of_queues_eq ht
  · exact (hs.effect hu).of_queues_eq ht

end Sys2Proof.Machine
end

section
/-!
SUPPORT. The receive contexts of a state (20 R433): what keeps their table, and the sum of its counters. A function of the model that changes no receive context
has one lemma, the equation `(f s).rxs = s.rxs`; the few that do change one have a lemma about `RxsAddUp`. What holds by unfolding is proved by `(rfl)` in
parentheses: `simp` then takes it as any other equation.
-/
namespace Sys2Proof.Machine

@[simp] theorem rxs_ite (c : Prop) [Decidable c] (s t : State) : (if c then s else t).rxs = if c then s.rxs else t.rxs := apply_ite State.rxs c s t

@[simp] theorem rxs_snd_ite {α : Type} (c : Prop) [Decidable c] (s t : α × State) :
    (if c then s else t).2.rxs = if c then s.2.rxs else t.2.rxs := apply_ite (fun r : α × State => r.2.rxs) c s t

@[simp] theorem rxs_fst_ite {α : Type} (c : Prop) [Decidable c] (s t : State × α) :
    (if c then s else t).1.rxs = if c then s.1.rxs else t.1.rxs := apply_ite (fun r : State × α => r.1.rxs) c s t

@[simp] theorem rxs_foldl {α : Type} {f : State → α → State} (hf : ∀ s a, (f s a).rxs = s.rxs) (l : List α) (s : State) : (l.foldl f s).rxs = s.rxs := by
  induction l generalizing s with
  | nil => rfl
  | cons a l ih => rw [List.foldl_cons, ih, hf]

theorem rxs_of_snd_eq {α : Type} {r : α × State} {a : α} {t : State} (h : r = (a, t)) : t.rxs = r.2.rxs := by rw [h]

/-- The counters of a receive context add up. -/
def RxCnt.AddsUp (c : RxCnt) : Prop := c.recv = c.dlv + c.full + c.int + c.key + c.ovr

/-- The counters of each receive context of a table add up. -/
def RxsAddUp (l : Tab PKey Rx) : Prop := ∀ e ∈ l, e.2.cnt.AddsUp

@[simp] theorem rxsAddUp_ite (c : Prop) [Decidable c] (l m : Tab PKey Rx) : RxsAddUp (if c then l else m) ↔ if c then RxsAddUp l else RxsAddUp m := by
  split <;> rfl

theorem countersAddUp_iff (s : State) : countersAddUp s ↔ RxsAddUp s.rxs := Iff.rfl

theorem RxsAddUp.foldl {α : Type} {f : State → α → State} (hf : ∀ s a, RxsAddUp s.rxs → RxsAddUp (f s a).rxs) (l : List α) :
    ∀ s, RxsAddUp s.rxs → RxsAddUp (l.foldl f s).rxs := by
  induction l with
  | nil => exact fun s h => h
  | cons a l ih => exact fun s h => ih _ (hf _ _ h)

/-- Whether the counters add up in the state that an outcome gives: a fault and a refusal give none. -/
def OutAddUp : Out State → Prop
  | .next t => RxsAddUp t.rxs
  | .fault _ => True
  | .refused _ => True

@[simp] theorem outAddUp_next (t : State) : OutAddUp (.next t) ↔ RxsAddUp t.rxs := Iff.rfl
@[simp] theorem outAddUp_fault (f : Fault) : OutAddUp (.fault f) := trivial

@[simp] theorem outAddUp_ite (c : Prop) [Decidable c] (o p : Out State) : OutAddUp (if c then o else p) ↔ if c then OutAddUp o else OutAddUp p := by
  split <;> rfl

end Sys2Proof.Machine
end

section
/-!
SUPPORT. The receive contexts through a write, a walk, a store to a table, a change of page and an access (07, 08). The files are taken in the model's order.
-/
namespace Sys2Proof.Machine
variable {s : State}

/-! ### Machine/Base -/

@[simp] theorem rxs_drawBool : s.drawBool.2.rxs = s.rxs := (rfl)
@[simp] theorem rxs_drawNat : s.drawNat.2.rxs = s.rxs := (rfl)
@[simp] theorem rxs_drawBits : s.drawBits.2.rxs = s.rxs := (rfl)
@[simp] theorem rxs_stamp : s.stamp.2.rxs = s.rxs := (rfl)
@[simp] theorem rxs_discardLane {c u} : (s.discardLane c u).rxs = s.rxs := (rfl)
@[simp] theorem rxs_discardCtx {c} : (s.discardCtx c).rxs = s.rxs := (rfl)

/-! ### Machine/Phys -/

@[simp] theorem rxs_freeBytes {n} : (s.freeBytes n).2.rxs = s.rxs := by
  induction n generalizing s with
  | zero => rfl
  | succ n ih => exact ih

@[simp] theorem rxs_poke {k pa l} : (s.poke k pa l).rxs = s.rxs := by
  unfold State.poke
  split <;> rfl

@[simp] theorem rxs_pokeW {k pa v} : (s.pokeW k pa v).rxs = s.rxs := by simp [State.pokeW]
@[simp] theorem rxs_freshen {k pa len} : (s.freshen k pa len).rxs = s.rxs := (rfl)

@[simp] theorem rxs_carry {a src b dst len} : (s.carry a src b dst len).rxs = s.rxs := (rfl)

@[simp] theorem rxs_pokeKey {k pa l key} : (s.pokeKey k pa l key).rxs = s.rxs := by simp [State.pokeKey]
@[simp] theorem rxs_regStore {k off l} : (s.regStore k off l).rxs = s.rxs := (rfl)

/-! ### Machine/Walk -/

@[simp] theorem rxs_lookup {pk core asn va} : (s.lookup pk core asn va).2.rxs = s.rxs := by
  unfold State.lookup
  (repeat' split) <;> simp

@[simp] theorem rxs_poke128 {k pa v} : (s.poke128 k pa v).rxs = s.rxs := by simp [State.poke128]

@[simp] theorem rxs_setPte {k l e} : (s.setPte k l e).rxs = s.rxs := by
  unfold State.setPte
  split <;> simp

@[simp] theorem rxs_setAnchor {k pa n} : (s.setAnchor k pa n).rxs = s.rxs := by simp [State.setAnchor]

@[simp] theorem rxs_relink {k old new at' n} : (s.relink k old new at' n).rxs = s.rxs := by
  induction n generalizing at' with
  | zero => cases at' <;> rfl
  | succ n ih =>
    cases at' with
    | none => rfl
    | some p =>
      simp only [State.relink]
      split
      · exact rxs_poke128
      · exact ih

@[simp] theorem rxs_unchain {pk e old new} : (s.unchain pk e old new).rxs = s.rxs := by
  unfold State.unchain
  split <;> simp

@[simp] theorem rxs_refetchUses {pk page} : (s.refetchUses pk page).rxs = s.rxs := by
  refine rxs_foldl (fun s b => ?_) _ _
  rfl
@[simp] theorem rxs_shoot {pk page thr key} : (s.shoot pk page thr key).rxs = s.rxs := by simp [State.shoot]
@[simp] theorem rxs_shootPte {pk l e} : (s.shootPte pk l e).rxs = s.rxs := by simp [State.shootPte]

@[simp] theorem rxs_setPageState {pk l e st sidx} : (s.setPageState pk l e st sidx).rxs = s.rxs := by
  simp [State.setPageState]

theorem rxs_atTwin {pk pa len} {f : State → Nat × Nat → State} (hf : ∀ t, (f s t).rxs = s.rxs) : (s.atTwin pk pa len f).rxs = s.rxs := by
  unfold State.atTwin
  split <;> simp [hf]

@[simp] theorem rxs_twin {pk pa l} : (s.twin pk pa l).rxs = s.rxs := rxs_atTwin fun _ => rxs_poke

@[simp] theorem rxs_setPool {pk n used frame} : (s.setPool pk n used frame).rxs = s.rxs := by
  simp [State.setPool]

@[simp] theorem rxs_copyShadow {pk src dst len} : (s.copyShadow pk src dst len).rxs = s.rxs :=
  (rxs_atTwin fun _ => rxs_carry).trans rxs_carry

theorem rxs_takeShadow {pk l e} : ∀ t ∈ s.takeShadow pk l e, t.rxs = s.rxs := by
  unfold State.takeShadow
  split
  · simp
  · rintro _ ⟨⟩
    simp

@[simp] theorem rxs_dropShadow {pk l e st} : (s.dropShadow pk l e st).rxs = s.rxs := by
  simp [State.dropShadow]

@[simp] theorem rxs_promote {pk l e st} : (s.promote pk l e st).rxs = s.rxs := by
  unfold State.promote
  split
  · simp
  · split <;> simp

/-! ### Machine/Access -/

@[simp] theorem rxs_grade {pk va asn rd wr shadow e} : (s.grade pk va asn rd wr shadow e).2.rxs = s.rxs := by
  unfold State.grade
  (repeat' split) <;> first | rfl | exact rxs_takeShadow _ ‹_›

@[simp] theorem rxs_translate {w va len rd wr shadow hd} : (s.translate w va len rd wr shadow hd).2.rxs = s.rxs := by
  unfold State.translate
  (repeat' split) <;> simp

@[simp] theorem rxs_checkParts {w rd wr whole plain hd l} : (s.checkParts w rd wr whole plain hd l).2.rxs = s.rxs := by
  induction l generalizing s with
  | nil => rfl
  | cons a r ih =>
    simp only [State.checkParts]
    split <;> have ht := (rxs_of_snd_eq ‹_›).trans rxs_translate
    · exact ht
    · split
      · exact ht
      · split <;> exact ((rxs_of_snd_eq ‹_›).trans ih).trans ht

@[simp] theorem rxs_access {w va len ew rd wr plain hd} : (s.access w va len ew rd wr plain hd).2.rxs = s.rxs := by
  simp only [State.access]
  split <;> have ht := (rxs_of_snd_eq ‹_›).trans rxs_checkParts <;> simp [ht]

@[simp] theorem rxs_repoint {k num t f} : (s.repoint k num t f).rxs = s.rxs := (rfl)

@[simp] theorem rxs_redirected {k pa} : (s.redirected k pa).rxs = s.rxs := by
  unfold State.redirected
  (repeat' split) <;> simp

@[simp] theorem rxs_unitWrite {pk pa l} : (s.unitWrite pk pa l).rxs = s.rxs := by simp [State.unitWrite]
@[simp] theorem rxs_hitCasks {k pa len} : (s.hitCasks k pa len).rxs = s.rxs := (rfl)

theorem rxs_writeEv {pk pa key l} : ∀ t ∈ s.writeEv pk pa key l, t.rxs = s.rxs := by
  unfold State.writeEv
  split <;> simp

end Sys2Proof.Machine
end


section
/-!
SUPPORT. The receive contexts through barriers, the ends of contexts and kernels, faults and traps (13, 16, 18).
-/
namespace Sys2Proof.Machine
variable {s : State}

/-! ### Machine/Sync -/

@[simp] theorem rxs_resolve {f} : (s.resolve f).rxs = s.rxs := (rfl)
@[simp] theorem rxs_resolveBar {k b} : (s.resolveBar k b).rxs = s.rxs := (rfl)
@[simp] theorem rxs_resolveFreed {k p} : (s.resolveFreed k p).rxs = s.rxs := (rfl)
@[simp] theorem rxs_poison {k} : (s.poison k).rxs = s.rxs := by simp [State.poison]

@[simp] theorem rxs_arrive {k r n} : (s.arrive k r n).rxs = s.rxs := by
  simp only [State.arrive]
  (repeat' split) <;> simp

@[simp] theorem rxs_drop {k r n} : (s.drop k r n).rxs = s.rxs := by
  simp only [State.drop]
  (repeat' split) <;> simp

@[simp] theorem rxs_advance {k} : (s.advance k).rxs = s.rxs := by simp [State.advance]
@[simp] theorem rxs_settle {k} : (s.settle k).rxs = s.rxs := by simp [State.settle]
@[simp] theorem rxs_arriveNow {k r n} : (s.arriveNow k r n).rxs = s.rxs := by simp [State.arriveNow]
@[simp] theorem rxs_barInit {pk k sc unit tok r} : (s.barInit pk k sc unit tok r).2.rxs = s.rxs := by simp [State.barInit]
@[simp] theorem rxs_sigAdd {k v} : (s.sigAdd k v).rxs = s.rxs := (rfl)
@[simp] theorem rxs_sigPut {k v} : (s.sigPut k v).rxs = s.rxs := (rfl)

@[simp] theorem rxs_bindEnds {ok b} : (s.bindEnds ok b).rxs = s.rxs := by
  unfold State.bindEnds
  split <;> simp

@[simp] theorem rxs_bindsArrive {l} : (s.bindsArrive l).rxs = s.rxs := by simp [State.bindsArrive]
@[simp] theorem rxs_bindsFail {l} : (s.bindsFail l).rxs = s.rxs := by simp [State.bindsFail]
@[simp] theorem rxs_freeGroupBars {k} : (s.freeGroupBars k).rxs = s.rxs := by simp [State.freeGroupBars]
@[simp] theorem rxs_freeBars {pk} : (s.freeBars pk).rxs = s.rxs := by simp [State.freeBars]

/-! ### Machine/Life -/

@[simp] theorem rxs_unpin {m} : (s.unpin m).rxs = s.rxs := by
  refine rxs_foldl (fun _ _ => ?_) _ _
  rfl
@[simp] theorem rxs_dropRoles {c q} : (s.dropRoles c q).rxs = s.rxs := (rfl)

@[simp] theorem rxs_emptyEngines {c} : (s.emptyEngines c).rxs = s.rxs := by
  unfold State.emptyEngines
  split
  · rfl
  · simp [rxs_bindsFail]

@[simp] theorem rxs_consider {pk} : (s.consider pk).rxs = s.rxs := by simp [State.consider]

@[simp] theorem rxs_endCtx {c} : (s.endCtx c).rxs = s.rxs := by
  unfold State.endCtx
  split <;> simp

theorem rxs_changeFenced {pk va l e} {f : State → Pte → State} (hf : ∀ t u, (f t u).rxs = t.rxs) :
    (s.changeFenced pk va l e f).rxs = s.rxs := by
  simp only [State.changeFenced]
  (repeat' split) <;> simp [hf]

@[simp] theorem rxs_dropShadows {k kn} : (s.dropShadows k kn).rxs = s.rxs := by
  refine rxs_foldl (fun s va => ?_) _ _
  split
  · exact rxs_changeFenced fun _ _ => rxs_dropShadow
  · rfl

@[simp] theorem rxs_promoteAll {k kn} : (s.promoteAll k kn).rxs = s.rxs := by
  refine rxs_foldl (fun s va => ?_) _ _
  split
  · exact rxs_changeFenced fun _ _ => rxs_promote
  · rfl

@[simp] theorem rxs_unpinCode {k kn} : (s.unpinCode k kn).rxs = s.rxs := by
  refine rxs_foldl (fun s va => ?_) _ _
  (repeat' split) <;> simp

@[simp] theorem rxs_dropGroups {k} : (s.dropGroups k).rxs = s.rxs := by simp [State.dropGroups]
@[simp] theorem rxs_endKern {k} : (s.endKern k).rxs = s.rxs := by simp [State.endKern]
@[simp] theorem rxs_reqFence {pk} : (s.reqFence pk).rxs = s.rxs := (rfl)

@[simp] theorem rxs_kernFault {k status tcode} : (s.kernFault k status tcode).rxs = s.rxs := by
  unfold State.kernFault
  split <;> simp

@[simp] theorem rxs_report {k r} : (s.report k r).rxs = s.rxs := (rfl)
@[simp] theorem rxs_wipePart {pk} : (s.wipePart pk).rxs = s.rxs := by simp [State.wipePart]
@[simp] theorem rxs_failPart {pk} : (s.failPart pk).rxs = s.rxs := by simp [State.failPart]
@[simp] theorem rxs_vdresPut {c st} : (s.vdresPut c st).rxs = s.rxs := (rfl)

@[simp] theorem rxs_vdEnd {pk st} : (s.vdEnd pk st).rxs = s.rxs := by
  unfold State.vdEnd
  split <;> simp

@[simp] theorem rxs_dropVd {pk} : (s.dropVd pk).rxs = s.rxs := by simp [State.dropVd]
@[simp] theorem rxs_kernsReplay {pk} : (s.kernsReplay pk).rxs = s.rxs := (rfl)

@[simp] theorem rxs_partReset {pk} : (s.partReset pk).rxs = s.rxs := by
  simp only [State.partReset]
  (repeat' split) <;> simp

@[simp] theorem rxs_detected {pk} : (s.detected pk).rxs = s.rxs := by simp [State.detected]

/-! ### Machine/Ops -/

@[simp] theorem rxs_raise {c bit} : (s.raise c bit).rxs = s.rxs := (rfl)

@[simp] theorem rxs_doubleFault {c f epc} : (s.doubleFault c f epc).rxs = s.rxs := by
  unfold State.doubleFault
  split <;> simp

@[simp] theorem rxs_trapEntry {c f epc} : (s.trapEntry c f epc).rxs = s.rxs := by
  unfold State.trapEntry
  split <;> simp

@[simp] theorem rxs_deliverEvents {c} : (s.deliverEvents c).rxs = s.rxs := by
  unfold State.deliverEvents
  split <;> simp

@[simp] theorem rxs_streamStop {c u f epc} : (s.streamStop c u f epc).rxs = s.rxs := by
  unfold State.streamStop
  split <;> simp

@[simp] theorem rxs_streamResume {c} : (s.streamResume c).rxs = s.rxs := (rfl)
@[simp] theorem rxs_returnFrom {c} : (s.returnFrom c).rxs = s.rxs := (rfl)

@[simp] theorem rxs_takeFault {c u f epc} : (s.takeFault c u f epc).rxs = s.rxs := by
  unfold State.takeFault
  split <;> simp

@[simp] theorem rxs_tick : (s.tick).rxs = s.rxs := (rfl)

end Sys2Proof.Machine
end


section
/-!
SUPPORT. The receive contexts through the operations that instructions share when they issue (09 to 11, 14).
-/
namespace Sys2Proof.Machine
variable {s : State}

/-! ### Machine/Operands -/

theorem outAddUp_withSlot {k : Cur → Blk → Slot → Out State} (h : RxsAddUp s.rxs) (hk : ∀ cu b sl, OutAddUp (k cu b sl)) :
    OutAddUp (withSlot s k) := by
  unfold withSlot
  (repeat' split) <;> simp [h, hk]

theorem outAddUp_withCtx {b} {k : Ctx → Out State} (hk : ∀ x, OutAddUp (k x)) : OutAddUp (withCtx s b k) := by
  unfold withCtx
  split <;> simp [hk]

theorem outAddUp_tokOp {i f} (h : RxsAddUp s.rxs) : OutAddUp (tokOp i f s) :=
  outAddUp_withSlot h fun _ _ _ => by split <;> simp [h]

theorem outAddUp_valOp {i f} (h : RxsAddUp s.rxs) : OutAddUp (valOp i f s) := by simp [valOp, h, outAddUp_tokOp]
theorem outAddUp_testOp {i f} (h : RxsAddUp s.rxs) : OutAddUp (testOp i f s) := by simp [testOp, h, outAddUp_valOp]
theorem outAddUp_addrOp {i f} (h : RxsAddUp s.rxs) : OutAddUp (addrOp i f s) := by simp [addrOp, h, outAddUp_tokOp]

theorem outAddUp_actOp {i onNull} {k : Cur → Blk → Slot → Tok → Tok → Out State} (h : RxsAddUp s.rxs)
    (hk : ∀ cu b sl l r, OutAddUp (k cu b sl l r)) : OutAddUp (actOp i onNull k s) :=
  outAddUp_withSlot h fun _ _ _ => by split <;> simp [h, hk]

theorem outAddUp_storeOp {i id} {k : Cur → Blk → Slot → Tok → Tok → Out State} (h : RxsAddUp s.rxs)
    (hk : ∀ cu b sl l r, OutAddUp (k cu b sl l r)) : OutAddUp (storeOp i id k s) := outAddUp_actOp h hk

theorem outAddUp_loadOp {i} {k : Cur → Blk → Slot → Tok → Tok → Out State} (h : RxsAddUp s.rxs)
    (hk : ∀ cu b sl l r, OutAddUp (k cu b sl l r)) : OutAddUp (loadOp i k s) := outAddUp_actOp h hk

@[simp] theorem outAddUp_completeWith {cu b id e} : OutAddUp (completeWith s cu b id e) ↔ RxsAddUp s.rxs := Iff.rfl
@[simp] theorem outAddUp_failWith {cu b f} : OutAddUp (failWith s cu b f) ↔ RxsAddUp s.rxs := Iff.rfl
@[simp] theorem outAddUp_subFault {cu b code sub} : OutAddUp (subFault s cu b code sub) ↔ RxsAddUp s.rxs := Iff.rfl
@[simp] theorem outAddUp_holdFor {cu b w} : OutAddUp (holdFor s cu b w) ↔ RxsAddUp s.rxs := Iff.rfl

/-! ### Machine/Flags -/

theorem outAddUp_vecOp {i governed rs two f} (h : RxsAddUp s.rxs) : OutAddUp (vecOp i governed rs two f s) :=
  outAddUp_withSlot h fun _ _ _ => by split <;> simp [h, outAddUp_withCtx]

theorem outAddUp_plainVec {i f} (h : RxsAddUp s.rxs) : OutAddUp (plainVec i f s) := by simp [plainVec, h, outAddUp_vecOp]

/-! ### Machine/Flow -/

@[simp] theorem rxs_journal {k p el} : (s.journal k p el).2.rxs = s.rxs := by simp [State.journal]
@[simp] theorem rxs_land {k p el} : (s.land k p el).rxs = s.rxs := by simp [State.land]

@[simp] theorem rxs_stageRun {k max fuel} : (s.stageRun k max fuel).rxs = s.rxs := by
  induction fuel generalizing s with
  | zero => rfl
  | succ fuel ih =>
    simp only [State.stageRun]
    (repeat' split) <;> simp [ih]

@[simp] theorem rxs_stageGo {k} : (s.stageGo k).rxs = s.rxs := by
  unfold State.stageGo
  split <;> simp

@[simp] theorem rxs_append {k prodId p el} : (s.append k prodId p el).rxs = s.rxs := by
  simp only [State.append]
  (repeat' split) <;> simp

@[simp] theorem rxs_takeHead {k} : (s.takeHead k).rxs = s.rxs := by
  simp only [State.takeHead]
  (repeat' split) <;> simp

@[simp] theorem rxs_noteTake {kk k} : (s.noteTake kk k).rxs = s.rxs := by simp [State.noteTake]

@[simp] theorem rxs_outAppend {c n v} : (s.outAppend c n v).rxs = s.rxs := by
  unfold State.outAppend
  (repeat' split) <;> simp

@[simp] theorem rxs_qAppend {x k v} : (s.qAppend x k v).rxs = s.rxs := by simp [State.qAppend]

@[simp] theorem rxs_dlRelease {c k fuel} : (s.dlRelease c k fuel).rxs = s.rxs := by
  induction fuel generalizing s with
  | zero => rfl
  | succ fuel ih =>
    unfold State.dlRelease
    (repeat' split) <;> simp [ih]

@[simp] theorem rxs_dlReleases {c} : (s.dlReleases c).rxs = s.rxs := by simp [State.dlReleases]

@[simp] theorem rxs_countHold {c kind} : (s.countHold c kind).rxs = s.rxs := by
  unfold State.countHold
  split <;> simp

/-! ### Machine/Token -/

@[simp] theorem outAddUp_readDone {cu b sl i r} : OutAddUp (readDone s cu b sl i r) ↔ RxsAddUp s.rxs := by
  unfold readDone
  split <;> simp

theorem outAddUp_branchOp {i exit k} (h : RxsAddUp s.rxs) : OutAddUp (branchOp i exit k s) := by simp [branchOp, h, outAddUp_actOp]

@[simp] theorem rxs_stackCheck {c u} : (s.stackCheck c u).rxs = s.rxs := by
  unfold State.stackCheck
  (repeat' split) <;> simp

theorem outAddUp_stackOp {i exit k} (h : RxsAddUp s.rxs) : OutAddUp (stackOp i exit k s) := by simp [stackOp, h, outAddUp_actOp]

/-! ### Machine/Memory -/

@[simp] theorem rxs_discardFrom {b} : (s.discardFrom b).rxs = s.rxs := (rfl)
@[simp] theorem rxs_askPage {pk pg} : (s.askPage pk pg).rxs = s.rxs := by simp [State.askPage]

@[simp] theorem outAddUp_memFail {cu b x va f} : OutAddUp (memFail s cu b x va f) ↔ RxsAddUp s.rxs := by
  unfold memFail
  split <;> simp

theorem outAddUp_checked {cu b x va len ew rd wr plain hd} {k : State → Blk → List Part' → Out State} (h : RxsAddUp s.rxs)
    (hk : ∀ t b ps, RxsAddUp t.rxs → OutAddUp (k t b ps)) : OutAddUp (checked s cu b x va len ew rd wr plain hd k) := by
  unfold checked
  split <;> have ht := (rxs_of_snd_eq ‹_›).trans rxs_access
  · simp [ht, h]
  · split
    · exact hk _ _ _ (ht ▸ h)
    · rwa [outAddUp_next, ht]

theorem outAddUp_loadIssue {i l} (h : RxsAddUp s.rxs) : OutAddUp (loadIssue i l s) :=
  outAddUp_loadOp h fun _ _ _ _ _ => outAddUp_withCtx fun _ => outAddUp_checked h fun _ _ _ ht => by simp [ht]

@[simp] theorem rxs_arriveAt {a line} : (s.arriveAt a line).rxs = s.rxs := by simp [State.arriveAt]

theorem rxs_waitAt {a c lines} : ∀ t ∈ s.waitAt a c lines, t.rxs = s.rxs := by
  simp only [State.waitAt]
  split
  · simp
  · rintro _ ⟨⟩
    simp

@[simp] theorem rxs_waitAt_getD {a c lines} : ((s.waitAt a c lines).getD s).rxs = s.rxs := by
  cases hw : s.waitAt a c lines with
  | none => rfl
  | some t => exact rxs_waitAt t hw

theorem outAddUp_loadNow {cu b sl x i l a} (h : RxsAddUp s.rxs) : OutAddUp (loadNow s cu b sl x i l a) := by
  simp only [loadNow]
  refine outAddUp_checked h fun _ _ _ h => ?_
  (repeat' split) <;> first
    | next hw => simp [rxs_waitAt _ hw, h]
    | simp [h]

@[simp] theorem rxs_probeAddr {w va wr hd} : (s.probeAddr w va wr hd).2.rxs = s.rxs := by
  unfold State.probeAddr
  split <;> have ht := (rxs_of_snd_eq ‹_›).trans rxs_translate <;> simp [ht]

@[simp] theorem rxs_prefSent {w va hd} : (s.prefSent w va hd).2.rxs = s.rxs := by
  unfold State.prefSent
  split <;> exact (rxs_of_snd_eq ‹_›).trans rxs_probeAddr

theorem outAddUp_storeIssue {i id disp size} (h : RxsAddUp s.rxs) : OutAddUp (storeIssue i id disp size s) :=
  outAddUp_storeOp h fun _ _ _ _ _ => outAddUp_withCtx fun _ => outAddUp_checked h fun _ _ _ ht => by simp [ht]

theorem outAddUp_amoIssue {i id op wide sc ord} (h : RxsAddUp s.rxs) : OutAddUp (amoIssue i id op wide sc ord s) :=
  outAddUp_storeOp h fun _ _ _ _ _ => outAddUp_withCtx fun _ => by
    split
    · simp [h]
    · exact outAddUp_checked h fun _ _ _ ht => by (repeat' split) <;> simp [ht]

/-! ### Machine/Atomic -/

@[simp] theorem rxs_joinAmo {r may l} : (joinAmo r may l s).2.rxs = s.rxs := by
  induction l generalizing s with
  | nil => rfl
  | cons o l ih => simp [joinAmo, ih]

@[simp] theorem rxs_sendAmo {r} : (s.sendAmo r).rxs = s.rxs := by
  unfold State.sendAmo
  split <;> simp [rxs_of_snd_eq ‹_›]

theorem rxs_amoApply {r v} : ∀ t ∈ s.amoApply r v, t.rxs = s.rxs := by
  simp only [State.amoApply]
  split
  · split
    · simp
    · rintro _ ⟨⟩
      exact rxs_pokeKey
  · exact rxs_writeEv

@[simp] theorem rxs_amoDone {r} : (s.amoDone r).rxs = s.rxs := by
  refine rxs_foldl (fun _ _ => ?_) _ _
  rfl

@[simp] theorem rxs_mergeAmos {r near may k l v} : (mergeAmos r near may k l v s).s.rxs = s.rxs := by
  induction l generalizing s k v with
  | nil => rfl
  | cons o l ih =>
    simp only [mergeAmos]
    split <;> simp [ih]

@[simp] theorem rxs_amoNow {r rest} : (s.amoNow r rest).rxs = s.rxs := by
  simp only [State.amoNow]
  split
  · simp
  · next heq =>
    simp [rxs_amoApply _ heq]

/-! ### Machine/QueueOps -/

@[simp] theorem outAddUp_popHold {cu b x q} : OutAddUp (popHold s cu b x q) ↔ RxsAddUp s.rxs := by simp [popHold]

@[simp] theorem outAddUp_popNow {cu b sl x i q id} : OutAddUp (popNow s cu b sl x i q id) ↔ RxsAddUp s.rxs := by
  unfold popNow
  (repeat' split) <;> simp

@[simp] theorem outAddUp_pushHold {cu b w} : OutAddUp (pushHold s cu b w) ↔ RxsAddUp s.rxs := by simp [pushHold]

theorem outAddUp_inletPop {i id inl} (h : RxsAddUp s.rxs) : OutAddUp (inletPop i id inl s) :=
  outAddUp_loadOp h fun _ _ _ _ _ => outAddUp_withCtx fun _ => by simp [h]

theorem outAddUp_outIssue {cu b sl x o marker k} (h : RxsAddUp s.rxs) (hk : OutAddUp k) : OutAddUp (outIssue s cu b sl x o marker k) := by
  unfold outIssue
  split <;> simp [h, hk]

end Sys2Proof.Machine
end


section
/-!
SUPPORT. The receive contexts through the engines and the matrix unit (12, 15).
-/
namespace Sys2Proof.Machine
variable {s : State}

/-! ### Machine/Streams -/

@[simp] theorem rxs_bufWrite {pkg core b off l} : (s.bufWrite pkg core b off l).rxs = s.rxs := (rfl)

@[simp] theorem outAddUp_strmFault {cu b sub} : OutAddUp (strmFault s cu b sub) ↔ RxsAddUp s.rxs := Iff.rfl
theorem outAddUp_strmIssue {i id c} (h : RxsAddUp s.rxs) : OutAddUp (strmIssue i id c s) := by simp [strmIssue, h, outAddUp_storeOp]
@[simp] theorem outAddUp_goReserve {cu b x id l r} : OutAddUp (goReserve s cu b x id l r) ↔ RxsAddUp s.rxs := by simp [goReserve]

theorem outAddUp_sphIssue {i id isOr tree q} (h : RxsAddUp s.rxs) : OutAddUp (sphIssue i id isOr tree q s) :=
  outAddUp_storeOp h fun _ _ _ _ _ => outAddUp_withCtx fun _ => by simp [h]

@[simp] theorem rxs_putHead {c q op} : (s.putHead c q op).rxs = s.rxs := (rfl)
@[simp] theorem rxs_endOp {c q op failed} : (s.endOp c q op failed).rxs = s.rxs := by simp [State.endOp]
@[simp] theorem rxs_enqueueOp {c q stamp kind noticed pm} : (s.enqueueOp c q stamp kind noticed pm).rxs = s.rxs := (rfl)
@[simp] theorem rxs_issueOp {c q kind noticed pm} : (s.issueOp c q kind noticed pm).rxs = s.rxs := (rfl)

@[simp] theorem rxs_halt {c q behind} : (s.halt c q behind).rxs = s.rxs := by
  simp only [State.halt]
  (repeat' split) <;> simp

@[simp] theorem rxs_strmCommit {c pm cmd l r} : (s.strmCommit c pm cmd l r).rxs = s.rxs := by
  unfold State.strmCommit
  (repeat' split) <;> simp

@[simp] theorem rxs_takeRole {c q k feeds} : (s.takeRole c q k feeds).rxs = s.rxs := (rfl)

@[simp] theorem rxs_startOp {c q x op} : (s.startOp c q x op).rxs = s.rxs := by
  simp only [State.startOp]
  (repeat' split) <;> simp

@[simp] theorem rxs_parkOp {c q op why felem addr keep} : (s.parkOp c q op why felem addr keep).rxs = s.rxs := (rfl)

theorem rxs_engTry {c q x op va len rd wr} {fail : State → Nat → State} {k : State → List Part' → State}
    (hf : ∀ t why, (fail t why).rxs = t.rxs) (hk : ∀ t ps, (k t ps).rxs = t.rxs) : (engTry s c q x op va len rd wr fail k).rxs = s.rxs := by
  unfold engTry
  split <;> have ht := (rxs_of_snd_eq ‹_›).trans rxs_access
  · (repeat' split) <;> simp [ht, hf]
  · split
    · exact ht
    · rcases hw : State.waitAt _ _ _ _ with _ | t
      · exact (hk _ _).trans (by simp [ht])
      · exact (rxs_waitAt t hw).trans ht

theorem rxs_engAccess {c q x op va len felem rd wr keep} {k : State → List Part' → State}
    (hk : ∀ t ps, (k t ps).rxs = t.rxs) : (engAccess s c q x op va len felem rd wr keep k).rxs = s.rxs := rxs_engTry (fun _ _ => by simp) hk

theorem rxs_engRead {pk ps} {k : State → List Byte → State} (hk : ∀ bs, (k s bs).rxs = s.rxs) : (engRead s pk ps k).rxs = s.rxs := by
  unfold engRead
  split <;> simp [hk]

@[simp] theorem rxs_engWrite {pk ps bs} : (engWrite s pk ps bs).rxs = s.rxs := by
  induction ps generalizing s bs with
  | nil => rfl
  | cons p r ih =>
    unfold engWrite
    split
    · exact ih.trans (rxs_writeEv _ ‹_›)
    · simp

@[simp] theorem rxs_rowStep {c q x op g i a keep} : (rowStep s c q x op g i a keep).rxs = s.rxs :=
  rxs_engAccess fun _ _ => rxs_engAccess fun _ _ => rxs_engRead fun _ => rxs_engRead fun _ => by
    split <;> simp

@[simp] theorem rxs_activate {c inl x t} : (s.activate c inl x t).rxs = s.rxs := by
  simp only [State.activate]
  (repeat' split) <;> simp

theorem rxs_strmAppend {x w g k el} : ∀ t ∈ s.strmAppend x w g k el, t.rxs = s.rxs := by
  simp only [State.strmAppend]
  (repeat' split) <;> simp

@[simp] theorem rxs_readStep {c q x op w base g} : (readStep s c q x op w base g).rxs = s.rxs := by
  simp only [readStep]
  (repeat' split) <;> first
    | next ha => simp [rxs_strmAppend _ ha]
    | (simp; done)
    | exact rxs_engAccess fun _ _ => rxs_engRead fun _ => by simp

@[simp] theorem rxs_drainItem {c q x op w base g a} : (drainItem s c q x op w base g a).rxs = s.rxs := by
  simp only [drainItem]
  split
  · (repeat' split) <;> simp
  · refine rxs_engAccess fun _ _ => ?_
    (repeat' split) <;> simp

@[simp] theorem rxs_drainStep {c q x op w base g} : (drainStep s c q x op w base g).rxs = s.rxs := by
  simp only [drainStep]
  (repeat' split) <;> simp

theorem rxs_copyBank {x b off} {lost go : State → State} (hl : (lost s).rxs = s.rxs) (hg : (go s).rxs = s.rxs) :
    (copyBank s x b off lost go).rxs = s.rxs := by
  simp [copyBank, hl, hg]

@[simp] theorem rxs_copyEmpty {c q x op w sw a n} : (copyEmpty s c q x op w sw a n).rxs = s.rxs :=
  rxs_copyBank (by simp) (by simp)

@[simp] theorem rxs_copyIn {c q x op w base g sw total} : (copyIn s c q x op w base g sw total).rxs = s.rxs := by
  simp only [copyIn]
  split
  · exact rxs_copyEmpty
  · split
    · rfl
    · exact rxs_engTry (fun _ _ => by split <;> simp) fun _ _ => rxs_engRead fun _ => by simp

@[simp] theorem rxs_copyWrite {c q x op e sw as} : (copyWrite s c q x op e sw as).rxs = s.rxs := by
  cases as with
  | nil => rfl
  | cons a as => exact rxs_engAccess fun _ _ => by simp

@[simp] theorem rxs_copyOut {c q x op w base g sw total} : (copyOut s c q x op w base g sw total).rxs = s.rxs := by
  simp only [copyOut]
  (repeat' split) <;> simp [rxs_copyBank]

@[simp] theorem rxs_copyStep {c q x op w base g} : (copyStep s c q x op w base g).rxs = s.rxs := by
  unfold copyStep
  split <;> simp

theorem rxs_maskRead {c q x op a as} {k : State → List Word → State}
    (hk : ∀ t vs, (k t vs).rxs = t.rxs) : (maskRead s c q x op a as k).rxs = s.rxs := rxs_engAccess fun _ _ => rxs_engRead fun _ => hk _ _

@[simp] theorem rxs_maskRead_putHead {c q x op a as} {f : List Word → StrmOp} :
    (maskRead s c q x op a as fun s vs => s.putHead c q (f vs)).rxs = s.rxs := rxs_maskRead fun _ _ => by simp

@[simp] theorem rxs_maskFetch {c q x op tree base n j m put} : (maskFetch s c q x op tree base n j m put).rxs = s.rxs := by
  simp only [maskFetch]
  (repeat' split) <;> simp

@[simp] theorem rxs_sphHeaders {c q x op l r} : (sphHeaders s c q x op l r).rxs = s.rxs :=
  rxs_maskRead fun _ _ => rxs_maskRead fun _ _ => rxs_maskRead fun _ _ => rxs_maskRead fun _ _ => by simp

@[simp] theorem rxs_sphStep {c q x op isOr tree qn l r} : (sphStep s c q x op isOr tree qn l r).rxs = s.rxs := by
  simp only [sphStep]
  (repeat' split) <;> first
    | next ha => simp [rxs_strmAppend _ ha]
    | simp

@[simp] theorem rxs_opStep {c q x op} : (opStep s c q x op).rxs = s.rxs := by
  unfold opStep
  split <;> simp

@[simp] theorem rxs_touch {pk} : (s.touch pk).rxs = s.rxs := (rfl)

@[simp] theorem rxs_sstatAct {c q resume} : (s.sstatAct c q resume).rxs = s.rxs := by
  unfold State.sstatAct
  (repeat' split) <;> simp

/-! ### Machine/Matrix -/

@[simp] theorem rxs_shapeCommit {c tile k v} : (s.shapeCommit c tile k v).rxs = s.rxs := (rfl)

theorem outAddUp_shapeIssue {i id tile sh} (h : RxsAddUp s.rxs) : OutAddUp (shapeIssue i id tile sh s) :=
  outAddUp_storeOp h fun _ _ _ _ _ => outAddUp_withCtx fun _ => by simp [h]

theorem outAddUp_stepIssue {i id k dat} (h : RxsAddUp s.rxs) : OutAddUp (stepIssue i id k dat s) :=
  outAddUp_actOp h fun _ _ _ _ _ => outAddUp_withCtx fun _ => by simp [h]

theorem outAddUp_mxIssue {i id f} (h : RxsAddUp s.rxs) : OutAddUp (mxIssue i id f s) :=
  outAddUp_storeOp h fun _ _ _ _ _ => outAddUp_withCtx fun _ => by (repeat' split) <;> simp [h]

@[simp] theorem rxs_mxCommit {c x act m} : (s.mxCommit c x act m).rxs = s.rxs := by
  simp only [State.mxCommit]
  split
  · rfl
  · rw [State.updCtx_rxs]
    refine (rxs_foldl (fun _ _ => ?_) _ _).trans rxs_stamp
    rfl

@[simp] theorem rxs_putMx {c op} : (s.putMx c op).rxs = s.rxs := (rfl)
@[simp] theorem rxs_mxEnd {c op failed} : (s.mxEnd c op failed).rxs = s.rxs := by simp [State.mxEnd]
@[simp] theorem rxs_mxFlags {c f} : (s.mxFlags c f).rxs = s.rxs := (rfl)

@[simp] theorem rxs_mmaGroup {c x op ty sat acc as ws} : (s.mmaGroup c x op ty sat acc as ws).rxs = s.rxs := by
  simp [State.mmaGroup]

@[simp] theorem rxs_mmaStep {c x op ty sat acc a w} : (mmaStep s c x op ty sat acc a w).rxs = s.rxs := by
  simp only [mmaStep]
  (repeat' split) <;> simp

@[simp] theorem rxs_mmaGStep {c x op ty sat acc idx w} : (mmaGStep s c x op ty sat acc idx w).rxs = s.rxs := by
  simp only [mmaGStep]
  (repeat' split) <;> simp

theorem outAddUp_withMx {f : Nat → Ctx → MxOp → State} (h : RxsAddUp s.rxs) (hf : ∀ c x op, (f c x op).rxs = s.rxs) : OutAddUp (withMx s f) := by
  unfold withMx
  (repeat' split) <;> simp [h, hf]

@[simp] theorem rxs_tmovStep {c x op tr src dst sd dd} : (tmovStep s c x op tr src dst sd dd).rxs = s.rxs := by
  unfold tmovStep
  split <;> simp

@[simp] theorem rxs_accstStep {c x op acc st} : (accstStep s c x op acc st).rxs = s.rxs := by
  unfold accstStep
  (repeat' split) <;> simp

@[simp] theorem rxs_mxprogAct {c resume} : (s.mxprogAct c resume).rxs = s.rxs := by
  unfold State.mxprogAct
  (repeat' split) <;> simp

@[simp] theorem rxs_arriveRd {cu b} : (s.arriveRd cu b).2.rxs = s.rxs := by simp [State.arriveRd]

end Sys2Proof.Machine
end


section
/-!
SUPPORT. The receive contexts through control registers, kernels, fetch, dispatch and commit (02, 03, 13, 16). A write of `cr.rxcfg` changes one (20 R437).
-/
namespace Sys2Proof.Machine
variable {s : State}

/-! ### Machine/Barrier -/

theorem outAddUp_barIssue {i id cmd sc} (h : RxsAddUp s.rxs) : OutAddUp (barIssue i id cmd sc s) :=
  outAddUp_storeOp h fun _ _ _ _ _ => outAddUp_withCtx fun _ => by simp [h]

@[simp] theorem rxs_bindNow {c tok r entry} : (s.bindNow c tok r entry).rxs = s.rxs := by
  unfold State.bindNow
  (repeat' split) <;> simp

@[simp] theorem rxs_barDo {c acc cmd sc unit tok r} : (s.barDo c acc cmd sc unit tok r).rxs = s.rxs := by
  unfold State.barDo
  (repeat' split) <;> simp

@[simp] theorem rxs_barSettle {c tok} : (s.barSettle c tok).rxs = s.rxs := by
  unfold State.barSettle
  (repeat' split) <;> simp

@[simp] theorem rxs_sigDo {c tok v} : (s.sigDo c tok v).rxs = s.rxs := by
  unfold State.sigDo
  (repeat' split) <;> simp

@[simp] theorem outAddUp_waitIssue {cu b f w} : OutAddUp (waitIssue s cu b f w) ↔ RxsAddUp s.rxs := Iff.rfl
@[simp] theorem rxs_wstCancel {c} : (s.wstCancel c).rxs = s.rxs := (rfl)

/-! ### Machine/Creg -/

@[simp] theorem rxs_asnWrite {c v} : (s.asnWrite c v).rxs = s.rxs := (rfl)
@[simp] theorem rxs_winWrite {k w} : (s.winWrite k w).rxs = s.rxs := by simp [State.winWrite]
@[simp] theorem rxs_qErr {k e} : (s.qErr k e).rxs = s.rxs := (rfl)
@[simp] theorem rxs_qOpen {k} : (s.qOpen k).rxs = s.rxs := by simp [State.qOpen]

@[simp] theorem rxs_qSeal {k} : (s.qSeal k).rxs = s.rxs := by
  simp only [State.qSeal]
  (repeat' split) <;> simp

@[simp] theorem rxs_qClose {k} : (s.qClose k).rxs = s.rxs := by simp [State.qClose]

@[simp] theorem rxs_qctlWrite {k v} : (s.qctlWrite k v).rxs = s.rxs := by
  unfold State.qctlWrite
  split <;> simp

@[simp] theorem rxs_qrndWrite {k v} : (s.qrndWrite k v).rxs = s.rxs := by simp [State.qrndWrite]
@[simp] theorem rxs_qcaskWrite {k v} : (s.qcaskWrite k v).rxs = s.rxs := by simp [State.qcaskWrite]
@[simp] theorem rxs_kDone {c} : (s.kDone c).rxs = s.rxs := (rfl)

@[simp] theorem rxs_kFence {c} : (s.kFence c).rxs = s.rxs := by
  unfold State.kFence
  split <;> simp

@[simp] theorem rxs_kFault {c code} : (s.kFault c code).rxs = s.rxs := by
  unfold State.kFault
  split <;> simp

@[simp] theorem rxs_kctlWrite {c v} : (s.kctlWrite c v).rxs = s.rxs := by
  unfold State.kctlWrite
  split <;> simp

@[simp] theorem rxs_ptcfgWrite {pk v} : (s.ptcfgWrite pk v).rxs = s.rxs := by simp [State.ptcfgWrite]

theorem Tab.mem_of_get?_eq_some {κ α : Type} [DecidableEq κ] {t : Tab κ α} {k : κ} {v : α} (h : t.get? k = some v) : (k, v) ∈ t := by
  induction t with
  | nil => cases h
  | cons e t ih =>
    simp only [Tab.get?] at h
    split at h
    next he => exact List.mem_cons.2 (.inl (Prod.ext he.symm (Option.some.inj h).symm))
    next => exact List.mem_cons_of_mem _ (ih h)

/-- A table read at a key: an entry, or no frame counted. -/
theorem RxsAddUp.getD {l : Tab PKey Rx} (h : RxsAddUp l) (k : PKey) : (l.getD k {}).cnt.AddsUp := by
  simp only [Tab.getD]
  cases hk : l.get? k with
  | none => rfl
  | some r => exact h _ (Tab.mem_of_get?_eq_some hk)

theorem RxsAddUp.rx (h : RxsAddUp s.rxs) (k : PKey) : (s.rx k).cnt.AddsUp := h.getD k

theorem RxsAddUp.put {l : Tab PKey Rx} (h : RxsAddUp l) (k : PKey) {r : Rx} (hr : r.cnt.AddsUp) : RxsAddUp (l.put k r) := by
  induction l with
  | nil => exact List.forall_mem_singleton.2 hr
  | cons e l ih =>
    obtain ⟨he, hl⟩ := List.forall_mem_cons.1 h
    simp only [Tab.put]
    split
    · exact List.forall_mem_cons.2 ⟨hr, hl⟩
    · exact List.forall_mem_cons.2 ⟨he, ih hl⟩

/-- A write of `cr.rxcfg` keeps the counters, or clears them all. -/
theorem RxsAddUp.rxWrite {k v} (h : RxsAddUp s.rxs) : RxsAddUp (s.rxWrite k v).rxs := by
  simp only [State.rxWrite]
  split
  · exact h
  · split
    · exact h.put k (h.rx k)
    · refine h.put k ?_
      dsimp only
      split
      · rfl
      · exact h.rx k

@[simp] theorem rxs_rxselWrite {c v} : (s.rxselWrite c v).rxs = s.rxs := by
  unfold State.rxselWrite
  split <;> simp

theorem RxsAddUp.crObjPut {c x n v} (h : RxsAddUp s.rxs) : RxsAddUp (s.crObjPut c x n v).rxs := by simp [State.crObjPut, h, h.rxWrite]
@[simp] theorem rxs_cregApply {c n v} : (s.cregApply c n v).rxs = s.rxs := by simp [State.cregApply]

theorem RxsAddUp.crWrite {c n v} (h : RxsAddUp s.rxs) : RxsAddUp (s.crWrite c n v).rxs := by
  unfold State.crWrite
  split <;> simp [h, h.crObjPut]

/-! ### Machine/Place -/

@[simp] theorem rxs_vput {w va v} : (s.vput w va v).rxs = s.rxs := by
  unfold State.vput
  split <;> have ht := (rxs_of_snd_eq ‹_›).trans rxs_access
  · exact ht
  · exact rxs_engWrite.trans ht

@[simp] theorem rxs_seatCtxs {kk k grp g3 g4 l idx mem} : (s.seatCtxs kk k grp g3 g4 l idx mem).1.rxs = s.rxs := by
  induction l generalizing s idx mem with
  | nil => rfl
  | cons e r ih =>
    unfold State.seatCtxs
    refine ih.trans ?_
    split <;> simp

@[simp] theorem rxs_addGroup {kk k gnum lvl die t idx g3 g4} : (s.addGroup kk k gnum lvl die t idx g3 g4).rxs = s.rxs := by
  simp [State.addGroup]

/-! ### Machine/Kernel -/

@[simp] theorem rxs_tailOn {pk n fuel} : (s.tailOn pk n fuel).rxs = s.rxs := by
  induction fuel generalizing s with
  | zero => rfl
  | succ fuel ih =>
    simp only [State.tailOn]
    split <;> simp [ih]

@[simp] theorem rxs_accept {pk n k} : (s.accept pk n k).rxs = s.rxs := by simp [State.accept]

@[simp] theorem rxs_launchDo {c pm n va pa} : (s.launchDo c pm n va pa).rxs = s.rxs := by
  unfold State.launchDo
  split <;> simp

theorem rxs_placeGroups {kk k l gi idx} : ∀ t ∈ s.placeGroups kk k l gi idx, t.rxs = s.rxs := by
  induction l generalizing s gi idx with
  | nil => rintro _ ⟨⟩; rfl
  | cons e r ih =>
    unfold State.placeGroups
    split
    · simp
    · split
      · simp
      · exact fun t ht => (ih t ht).trans rxs_addGroup

theorem rxs_openQueues {pk die l} : ∀ t ∈ s.openQueues pk die l, t.rxs = s.rxs := by
  induction l generalizing s with
  | nil => rintro _ ⟨⟩; rfl
  | cons e r ih =>
    unfold State.openQueues
    split
    · simp
    · intro t ht
      simp [ih t ht]

@[simp] theorem rxs_fencePages {pk asn l} : (s.fencePages pk asn l).rxs = s.rxs := by
  refine rxs_foldl (fun s va => ?_) _ _
  split <;> simp

@[simp] theorem rxs_pinPages {pk asn l} : (s.pinPages pk asn l).rxs = s.rxs := by
  refine rxs_foldl (fun s va => ?_) _ _
  split <;> simp

@[simp] theorem rxs_headOn {kk} : (s.headOn kk).rxs = s.rxs := (rfl)

@[simp] theorem rxs_place {kk k p} : (s.place kk k p).rxs = s.rxs := by
  simp only [State.place]
  split
  · simp
  · next hg =>
    have ht := rxs_placeGroups _ hg
    split
    · simp
    · next hq => simp [rxs_openQueues _ hq, ht]

/-- What a device unit reads leaves a state that differs, where the placement waits, in a page asked for alone. -/
theorem rxs_placed_of {α β : Type} {pk} {r : Except Fail α} {f : α → Placed β} (hf : ∀ a t, f a = .wait t → t.rxs = s.rxs) :
    ∀ t, Placed.of s pk r f = .wait t → t.rxs = s.rxs := by
  intro t
  unfold Placed.of
  split
  · exact hf _ _
  · split
    · split
      · simp
      · rintro ⟨⟩
        simp
    · split <;> simp

theorem rxs_planOf {pk k qt ep ft} : ∀ t, s.planOf pk k qt ep ft = .wait t → t.rxs = s.rxs := by
  simp only [State.planOf]
  split
  · split
    · simp
    · refine rxs_placed_of fun _ => ?_
      split
      · simp
      · exact rxs_placed_of (by simp)
  · simp

theorem rxs_plan {pk k} : ∀ t, s.plan pk k = .wait t → t.rxs = s.rxs := by
  simp only [State.plan]
  split
  · simp
  split
  · simp
  · exact rxs_placed_of fun _ => rxs_placed_of fun _ => rxs_placed_of fun _ => rxs_planOf

@[simp] theorem rxs_placeHead {pk n} : (s.placeHead pk n).rxs = s.rxs := by
  simp only [State.placeHead]
  (repeat' split) <;> first
    | next hp => simp [rxs_plan _ hp]
    | simp

@[simp] theorem rxs_putDone {kk k status} : (s.putDone kk k status).rxs = s.rxs := by simp [State.putDone]

@[simp] theorem rxs_finish {kk} : (s.finish kk).rxs = s.rxs := by
  simp only [State.finish]
  split
  · rfl
  · split
    · simp
    · split <;> simp

@[simp] theorem rxs_finishOr {kk} : (s.finishOr kk).2.rxs = s.rxs := by
  simp only [State.finishOr]
  (repeat' split) <;> simp

@[simp] theorem rxs_keepOn {pk n fuel} : (s.keepOn pk n fuel).rxs = s.rxs := by
  induction fuel generalizing s with
  | zero => rfl
  | succ fuel ih =>
    simp only [State.keepOn]
    split <;> simp [ih]

@[simp] theorem rxs_trimJournals {pk r} : (s.trimJournals pk r).rxs = s.rxs := by
  refine rxs_foldl (fun _ _ => ?_) _ _
  rfl
@[simp] theorem rxs_recordBytes {pk r} : (s.recordBytes pk r).2.rxs = s.rxs := by simp [State.recordBytes]
@[simp] theorem rxs_writeRecord {pk r} : (s.writeRecord pk r).rxs = s.rxs := by simp [State.writeRecord]

@[simp] theorem rxs_finishAll {pk l} : (s.finishAll pk l).2.rxs = s.rxs := by
  induction l generalizing s with
  | nil => rfl
  | cons e r ih => exact ih.trans rxs_finishOr

@[simp] theorem rxs_fenceEnd {pk l} : (s.fenceEnd pk l).rxs = s.rxs := by simp [State.fenceEnd]

@[simp] theorem rxs_fenceDone {pk} : (s.fenceDone pk).rxs = s.rxs := by
  simp only [State.fenceDone]
  (repeat' split) <;> simp

@[simp] theorem rxs_fenceBegin {pk} : (s.fenceBegin pk).rxs = s.rxs := by
  simp [State.fenceBegin]

/-! ### Machine/Fetch -/

@[simp] theorem rxs_code {w u va} : (s.code w u va).2.rxs = s.rxs := by simp [State.code]

@[simp] theorem rxs_codeBytes {w u va len fuel} : (s.codeBytes w u va len fuel).2.rxs = s.rxs := by
  induction fuel generalizing s va len with
  | zero => rfl
  | succ fuel ih =>
    simp only [State.codeBytes]
    split
    · rfl
    split
    · next hc => exact (rxs_of_snd_eq hc).trans rxs_code
    · next hc =>
      have ht := (rxs_of_snd_eq hc).trans rxs_code
      split <;> next hr => exact ((rxs_of_snd_eq hr).trans ih).trans ht

@[simp] theorem rxs_fetchAt {w u va} : (s.fetchAt w u va).2.rxs = s.rxs := by
  simp only [State.fetchAt]
  split
  · rfl
  split
  · next hh => exact (rxs_of_snd_eq hh).trans rxs_codeBytes
  · next hh =>
    have ht := (rxs_of_snd_eq hh).trans rxs_codeBytes
    split
    · exact ht
    split
    · exact ht
    split
    · exact ht
    split
    · next hb => exact ((rxs_of_snd_eq hb).trans rxs_codeBytes).trans ht
    · next hb =>
      have hu := ((rxs_of_snd_eq hb).trans rxs_codeBytes).trans ht
      split
      · exact hu
      split
      · exact hu
      split <;> exact hu

@[simp] theorem rxs_fetchFails {c u x a e} : (s.fetchFails c u x a e).rxs = s.rxs := by
  unfold State.fetchFails
  split <;> simp

@[simp] theorem rxs_fetchSettled {c u x a} : (fetchSettled s c u x a).rxs = s.rxs := by
  unfold fetchSettled
  split <;> simp [rxs_of_snd_eq ‹_›]

@[simp] theorem rxs_fetchAhead {c u x a firing} : (fetchAhead s c u x a firing).rxs = s.rxs := by
  simp only [fetchAhead]
  split
  · next hf => simp [rxs_of_snd_eq hf]
  · next hf => simp [rxs_of_snd_eq hf]
  · rfl
  · next hf => simp [rxs_of_snd_eq hf]

/-! ### Machine/Fire -/

@[simp] theorem rxs_beginHold {c u sh} : (s.beginHold c u sh).rxs = s.rxs := by
  unfold State.beginHold
  split <;> simp

@[simp] theorem rxs_episode {k} : (s.episode k).rxs = s.rxs := by
  unfold State.episode
  (repeat' split) <;> simp

@[simp] theorem rxs_decided {d} : (s.decided d).rxs = s.rxs := (rfl)

@[simp] theorem rxs_dispatch {f c u} : (s.dispatch f c u).rxs = s.rxs := by
  simp only [State.dispatch]
  (repeat' split) <;> simp

@[simp] theorem rxs_decideIn {f l} : (s.decideIn f l).rxs = s.rxs := by
  simp only [State.decideIn]
  (repeat' split) <;> simp

@[simp] theorem rxs_reclaim {d} : (s.reclaim d).rxs = s.rxs := by
  simp only [State.reclaim]
  (repeat' split) <;> simp

/-! ### Machine/Commit -/

@[simp] theorem rxs_pushPath {c e} : (s.pushPath c e).rxs = s.rxs := (rfl)

theorem RxsAddUp.commitEff {b e} {t : State × List Late} (h : RxsAddUp t.1.rxs) : RxsAddUp (State.commitEff b t e).1.rxs := by
  simp only [State.commitEff]
  split <;> (repeat' split) <;> simp [h, h.crWrite]

@[simp] theorem rxs_commitTake {x c t} : (s.commitTake x c t).rxs = s.rxs := by
  unfold State.commitTake
  split <;> simp

theorem RxsAddUp.commitLate {b x l} (h : RxsAddUp s.rxs) : RxsAddUp (s.commitLate b x l).rxs := by
  unfold State.commitLate
  split <;> simp [h, h.crWrite]

@[simp] theorem rxs_commitFence {b x below e} : (s.commitFence b x below e).rxs = s.rxs := by
  unfold State.commitFence
  split <;> simp

@[simp] theorem rxs_commitInit {b e} : (s.commitInit b e).rxs = s.rxs := by
  unfold State.commitInit
  split <;> simp

@[simp] theorem rxs_commitSettle {b e} : (s.commitSettle b e).rxs = s.rxs := by
  unfold State.commitSettle
  split <;> simp

/-- The effects of a block in order, those that are set aside beside the state. -/
theorem RxsAddUp.foldl_commitEff {b} {es : List Eff} {t : State × List Late} (h : RxsAddUp t.1.rxs) :
    RxsAddUp (es.foldl (State.commitEff b) t).1.rxs := by
  induction es generalizing t with
  | nil => exact h
  | cons e es ih => exact ih h.commitEff

theorem RxsAddUp.commitAll {b x} (h : RxsAddUp s.rxs) : RxsAddUp (s.commitAll b x).rxs := by
  simp only [State.commitAll, rxs_touch, rxs_ite, rxs_dlReleases, ite_self, State.updCtx_rxs, rxs_foldl fun _ _ => rxs_commitSettle, rxs_foldl fun _ _ => rxs_commitInit,
    rxs_foldl fun _ _ => rxs_commitFence]
  refine RxsAddUp.foldl (fun _ _ => RxsAddUp.commitLate) _ _ ?_
  rw [rxs_foldl fun _ _ => rxs_commitTake]
  exact RxsAddUp.foldl_commitEff h

@[simp] theorem rxs_pushRet {l a} : (s.pushRet l a).2.rxs = s.rxs := by simp [State.pushRet]

@[simp] theorem rxs_popRet {l} : (s.popRet l).2.2.rxs = s.rxs := by
  unfold State.popRet
  split <;> simp

@[simp] theorem rxs_follow {c u a} : (s.follow c u a).rxs = s.rxs := by
  unfold State.follow
  (repeat' split) <;> simp

@[simp] theorem rxs_succeed {b l exit a} : (s.succeed b l exit a).rxs = s.rxs := by
  unfold State.succeed
  split <;> simp

@[simp] theorem rxs_await {b l exit w a} : (s.await b l exit w a).rxs = s.rxs := by
  unfold State.await
  split <;> simp

@[simp] theorem rxs_branchTo {b br} : (s.branchTo b br).rxs = s.rxs := by
  unfold State.branchTo
  (repeat' split) <;> simp

@[simp] theorem rxs_nextRpt {c u} : (s.nextRpt c u).rxs = s.rxs := by
  unfold State.nextRpt
  split <;> simp

theorem RxsAddUp.commit {f b x br} (h : RxsAddUp s.rxs) : RxsAddUp (s.commit f b x br).rxs := by
  simp only [State.commit, rxs_nextRpt, rxs_stackCheck, rxs_branchTo, State.updCtx_rxs, rxs_ite, ite_self]
  exact RxsAddUp.commitAll h

end Sys2Proof.Machine
end


section
/-!
SUPPORT. The receive contexts through saves, groups, pages, losses, links, virtual devices, store paths and the package (13, 17, 19 to 23). A frame counts in one
(20 R433), an eviction moves a count (R435), a slot that moves takes its own along (21 R455), and what is vacated or reset loses them.
-/
namespace Sys2Proof.Machine
variable {s : State}

/-! ### Machine/Save -/

@[simp] theorem rxs_writeImage {x kiln} : (s.writeImage x kiln).rxs = s.rxs := by simp [State.writeImage]
@[simp] theorem rxs_preempt {c} : (s.preempt c).rxs = s.rxs := (rfl)

@[simp] theorem rxs_groupSaved {k} : (s.groupSaved k).rxs = s.rxs := by
  simp only [State.groupSaved]
  split
  · rfl
  · split
    · rw [rxs_consider, State.updGroup_rxs]
      refine (rxs_foldl (fun _ _ => ?_) _ _).trans rxs_stamp
      rfl
    · rfl

@[simp] theorem rxs_saveCtx {c x kiln} : (s.saveCtx c x kiln).rxs = s.rxs := by simp [State.saveCtx]

@[simp] theorem rxs_restoreCtx {c x pos base} : (s.restoreCtx c x pos base).rxs = s.rxs := by
  simp [State.restoreCtx]

@[simp] theorem rxs_groupBack {k} : (s.groupBack k).rxs = s.rxs := by
  unfold State.groupBack
  split <;> simp

/-! ### Machine/Groups -/

theorem outAddUp_grpIssue {i id c} (h : RxsAddUp s.rxs) : OutAddUp (grpIssue i id c s) :=
  outAddUp_storeOp h fun _ _ _ _ _ => outAddUp_withCtx fun _ => by simp [h]
@[simp] theorem rxs_gresPut {c st gnum} : (s.gresPut c st gnum).rxs = s.rxs := (rfl)

@[simp] theorem rxs_grpMake {c x l r} : (s.grpMake c x l r).rxs = s.rxs := by
  simp only [State.grpMake]
  (repeat' split) <;> simp

@[simp] theorem rxs_endCollection {k st} : (s.endCollection k st).rxs = s.rxs := by
  unfold State.endCollection
  split
  · rfl
  · simp

@[simp] theorem rxs_endJoins {k} : (s.endJoins k).rxs = s.rxs := by simp [State.endJoins]
@[simp] theorem rxs_bindCount {k n} : (s.bindCount k n).rxs = s.rxs := (rfl)

@[simp] theorem rxs_numberMembers {n l i} : (s.numberMembers n l i).rxs = s.rxs := by
  induction l generalizing s i with
  | nil => rfl
  | cons c r ih => simp [State.numberMembers, ih]

@[simp] theorem rxs_formGroup {k g ms} : (s.formGroup k g ms).rxs = s.rxs := by simp [State.formGroup]
@[simp] theorem rxs_formSplit {k g} : (s.formSplit k g).rxs = s.rxs := by simp [State.formSplit]
@[simp] theorem rxs_dropGroup {k} : (s.dropGroup k).rxs = s.rxs := by simp [State.dropGroup]
@[simp] theorem rxs_formJoin {k o g h} : (s.formJoin k o g h).rxs = s.rxs := by simp [State.formJoin]
@[simp] theorem rxs_collect {k kind partner e} : (s.collect k kind partner e).rxs = s.rxs := (rfl)

@[simp] theorem rxs_grpSplit {c x l r} : (s.grpSplit c x l r).rxs = s.rxs := by
  simp only [State.grpSplit]
  (repeat' split) <;> simp

@[simp] theorem rxs_grpJoin {c x l r} : (s.grpJoin c x l r).rxs = s.rxs := by
  simp only [State.grpJoin]
  (repeat' split) <;> simp

@[simp] theorem rxs_groupFreed {k} : (s.groupFreed k).rxs = s.rxs := by
  unfold State.groupFreed
  split <;> simp

@[simp] theorem rxs_grpFree {c x l r} : (s.grpFree c x l r).rxs = s.rxs := by
  simp only [State.grpFree]
  (repeat' split) <;> simp

@[simp] theorem rxs_grpDo {c cmd l r} : (s.grpDo c cmd l r).rxs = s.rxs := by
  unfold State.grpDo
  (repeat' split) <;> simp

@[simp] theorem rxs_cleared {kk} : (s.cleared kk).rxs = s.rxs := by
  refine rxs_foldl (fun _ _ => rxs_foldl (fun _ _ => ?_) _ _) _ _
  rfl

@[simp] theorem rxs_saveGroup {k hold for'} : (s.saveGroup k hold for').rxs = s.rxs := by simp [State.saveGroup]

@[simp] theorem rxs_seatMembers {l ps ts} : (s.seatMembers l ps ts).rxs = s.rxs := by
  induction l generalizing s ps ts with
  | nil => rfl
  | cons e r ih =>
    unfold State.seatMembers
    (repeat' split) <;> first | rfl | exact ih.trans rxs_restoreCtx

@[simp] theorem rxs_restoreGroup {k g} : (s.restoreGroup k g).rxs = s.rxs := by
  unfold State.restoreGroup
  (repeat' split) <;> simp

@[simp] theorem rxs_takeGroup {k g} : (s.takeGroup k g).rxs = s.rxs := by simp [State.takeGroup]

/-! ### Machine/Pages -/

theorem outAddUp_pgIssue {i id c z} (h : RxsAddUp s.rxs) : OutAddUp (pgIssue i id c z s) :=
  outAddUp_storeOp h fun _ _ _ _ _ => outAddUp_withCtx fun _ => by simp [h]


@[simp] theorem rxs_mapHashed {pk asn va z r} : (s.mapHashed pk asn va z r).2.rxs = s.rxs := by
  unfold State.mapHashed
  (repeat' split) <;> simp

@[simp] theorem rxs_mapInverted {pk asn va r} : (s.mapInverted pk asn va r).2.rxs = s.rxs := by
  unfold State.mapInverted
  split <;> simp

@[simp] theorem rxs_deleteEntry {pk l e} : (s.deleteEntry pk l e).rxs = s.rxs := by
  unfold State.deleteEntry
  split <;> simp

@[simp] theorem rxs_pgPromote {pk asn va z} : (s.pgPromote pk asn va z).2.rxs = s.rxs := by
  simp only [State.pgPromote]
  (repeat' split) <;> first | rfl | exact (rxs_foldl (fun _ _ => rxs_deleteEntry) _ _).trans rxs_setPte

@[simp] theorem rxs_pgOn {pk c va l e} : (s.pgOn pk c va l e).2.rxs = s.rxs := by
  unfold State.pgOn
  split <;> simp

@[simp] theorem rxs_pgRun {pk c z l r} : (s.pgRun pk c z l r).2.rxs = s.rxs := by
  simp only [State.pgRun]
  (repeat' split) <;> simp

@[simp] theorem rxs_pgDo {c cmd z l r} : (s.pgDo c cmd z l r).rxs = s.rxs := by
  unfold State.pgDo
  split <;> simp

@[simp] theorem rxs_xshootDo {c z l r} : (s.xshootDo c z l r).rxs = s.rxs := by
  unfold State.xshootDo
  split <;> simp

@[simp] theorem rxs_mbEnd {k why} : (s.mbEnd k why).rxs = s.rxs := (rfl)
@[simp] theorem rxs_endKey {k i} : (s.endKey k i).rxs = s.rxs := (rfl)

/-! ### Machine/Loss -/

@[simp] theorem rxs_poisonPages {pk f} : (s.poisonPages pk f).rxs = s.rxs :=
  rxs_foldl (fun _ _ => by split <;> simp) _ _

@[simp] theorem rxs_poisonMoving {pk f} : (s.poisonMoving pk f).rxs = s.rxs := by simp [State.poisonMoving]
@[simp] theorem rxs_releaseBanks {pk} : (s.releaseBanks pk).rxs = s.rxs := (rfl)

theorem RxsAddUp.filter {l : Tab PKey Rx} (h : RxsAddUp l) (p : PKey × Rx → Bool) : RxsAddUp (l.filter p) := fun e he => h e (List.mem_of_mem_filter he)

@[simp] theorem rxs_vacate {pk} : (s.vacate pk).rxs = s.rxs.filter fun e => e.1.pk ≠ pk := by simp [State.vacate]

@[simp] theorem rxs_strike {pk covered} : (s.strike pk covered).rxs = s.rxs := by simp [State.strike]

@[simp] theorem rxs_loseRange {k die lo len} : (s.loseRange k die lo len).rxs = s.rxs :=
  rxs_foldl (fun _ _ => by simp) _ _

@[simp] theorem rxs_loseMoving {k lo len} : (s.loseMoving k lo len).rxs = s.rxs :=
  rxs_foldl (fun _ _ => rxs_poisonMoving) _ _

@[simp] theorem rxs_loseDie {k d} : (s.loseDie k d).rxs = s.rxs := by simp [State.loseDie]
@[simp] theorem rxs_loseStack {k t} : (s.loseStack k t).rxs = s.rxs := by simp [State.loseStack]

theorem RxsAddUp.loseSlot {pk other} (h : RxsAddUp s.rxs) : RxsAddUp (s.loseSlot pk other).rxs := by simp [State.loseSlot, h, h.filter]

@[simp] theorem rxs_loseSource {pk} : (s.loseSource pk).rxs = s.rxs := by simp [State.loseSource]

theorem RxsAddUp.losePackage {k} (h : RxsAddUp s.rxs) : RxsAddUp (s.losePackage k).rxs := by
  simp only [State.losePackage]
  split
  · exact h
  · rw [rxs_foldl fun _ _ => rxs_loseSource]
    exact RxsAddUp.foldl (fun _ _ => RxsAddUp.loseSlot) _ _ h

/-! ### Machine/Links -/

theorem outAddUp_lnkIssue {i id c cls} (h : RxsAddUp s.rxs) : OutAddUp (lnkIssue i id c cls s) :=
  outAddUp_storeOp h fun _ _ _ _ _ => outAddUp_withCtx fun _ => by simp [h]


@[simp] theorem rxs_chooseLink {k} : (s.chooseLink k).rxs = s.rxs := by
  simp only [State.chooseLink]
  (repeat' split) <;> simp

@[simp] theorem rxs_reroute {k} : (s.reroute k).rxs = s.rxs := by simp [State.reroute]

theorem RxsAddUp.goDown {k why} (h : RxsAddUp s.rxs) : RxsAddUp (s.goDown k why).rxs := by
  simp only [State.goDown]
  split
  · exact RxsAddUp.losePackage (by simpa using h)
  · simpa using h

@[simp] theorem rxs_train {k st} : (s.train k st).rxs = s.rxs := (rfl)
@[simp] theorem rxs_lnresPut {c st} : (s.lnresPut c st).rxs = s.rxs := (rfl)

theorem RxsAddUp.lnkState {c x cmd k} (h : RxsAddUp s.rxs) : RxsAddUp (s.lnkState c x cmd k).rxs := by
  simp only [State.lnkState]
  (repeat' split) <;> simp [h, h.goDown]

@[simp] theorem rxs_lnkChain {c x cls v} : (s.lnkChain c x cls v).rxs = s.rxs := by simp [State.lnkChain]

@[simp] theorem rxs_endChain {k} : (s.endChain k).rxs = s.rxs := by
  simp only [State.endChain]
  (repeat' split) <;> simp

@[simp] theorem rxs_lnkUnchain {c x v} : (s.lnkUnchain c x v).rxs = s.rxs := by
  simp only [State.lnkUnchain]
  (repeat' split) <;> simp

theorem RxsAddUp.lnkDo {c cmd cls v} (h : RxsAddUp s.rxs) : RxsAddUp (s.lnkDo c cmd cls v).rxs := by
  unfold State.lnkDo
  (repeat' split) <;> simp [h, h.lnkState]

@[simp] theorem rxs_chainLand {k c e} : (s.chainLand k c e).1.rxs = s.rxs := by
  unfold State.chainLand
  split <;> simp

@[simp] theorem rxs_chainFill {k c n} : (s.chainFill k c n).1.rxs = s.rxs := by
  induction n generalizing s c with
  | zero => rfl
  | succ n ih =>
    unfold State.chainFill
    split <;> simp [ih]

/-- An eviction takes a frame from those delivered and counts it full. -/
theorem RxCnt.AddsUp.evict {c : RxCnt} (h : c.AddsUp) : { c with dlv := c.dlv - 1, full := c.full + 1 }.AddsUp := by
  simp only [RxCnt.AddsUp] at h ⊢
  rw [h]
  ring

/-- A frame counts as received, and in one of five. -/
theorem RxCnt.AddsUp.count {c : RxCnt} (h : c.AddsUp) (w : Landed) : (c.count w).AddsUp := by
  simp only [RxCnt.AddsUp] at h ⊢
  cases w <;> simp only [RxCnt.count, h] <;> ring

theorem RxsAddUp.evict {k rk} (h : RxsAddUp s.rxs) : ∀ t ∈ s.evict k rk, RxsAddUp t.rxs := by
  simp only [State.evict]
  split
  · simp
  split
  · simp
  · rintro _ ⟨⟩
    refine RxsAddUp.put ?_ rk (RxCnt.AddsUp.evict (RxsAddUp.rx ?_ rk)) <;> simpa using h

theorem RxsAddUp.evictFor {k rk n fuel} (h : RxsAddUp s.rxs) : RxsAddUp (s.evictFor k rk n fuel).rxs := by
  induction fuel generalizing s with
  | zero => exact h
  | succ fuel ih =>
    unfold State.evictFor
    split
    · exact h
    · split
      · exact ih (h.evict _ ‹_›)
      · exact h

/-- A frame counted in a receive context. -/
theorem RxsAddUp.landed (h : RxsAddUp s.rxs) (rk : PKey) (w : Landed) :
    RxsAddUp (s.setRx rk { s.rx rk with cnt := (s.rx rk).cnt.count w }).rxs := h.put rk ((h.rx rk).count w)

theorem RxsAddUp.classify {rk fr} (h : RxsAddUp s.rxs) : RxsAddUp (s.classify rk fr).rxs := by
  simp only [State.classify]
  split
  · exact h.landed rk _
  split
  · exact h.landed rk _
  split
  · exact h.landed rk _
  split
  · exact h.landed rk _
  · rw [rxs_ite, rxsAddUp_ite]
    generalize hs' : @ite State (_ = true) (instDecidableEqBool _ _) _ _ = s'
    have h' : RxsAddUp s'.rxs := by
      rw [← hs']
      split
      · exact h.evictFor
      · exact h
    split
    · exact h'.landed rk _
    · simpa using h'.landed rk .delivered

/-! ### Machine/Vd -/

theorem outAddUp_vdIssue {i id c} (h : RxsAddUp s.rxs) : OutAddUp (vdIssue i id c s) :=
  outAddUp_storeOp h fun _ _ _ _ _ => outAddUp_withCtx fun _ => by simp [h]

@[simp] theorem rxs_giveBanks {pk a} : (s.giveBanks pk a).rxs = s.rxs := by
  refine rxs_foldl (fun _ _ => ?_) _ _
  rfl

/-- The receive contexts of a slot that moves. -/
theorem RxsAddUp.moveTab {l : Tab PKey Rx} (h : RxsAddUp l) (a b : PartKey) : RxsAddUp (moveTab a b id l) := by
  intro e he
  obtain ⟨o, ho, rfl⟩ := List.mem_map.1 he
  have hadd := h.filter _ o ho
  dsimp only
  split <;> exact hadd

@[simp] theorem rxs_rekey {a b} : (s.rekey a b).rxs = moveTab a b id s.rxs := (rfl)
@[simp] theorem rxs_carryFrames {a b l} : (s.carryFrames a b l).rxs = s.rxs := by simp [State.carryFrames]

@[simp] theorem rxs_carryInv {a b} : (s.carryInv a b).rxs = s.rxs := by
  have hstep : ∀ (s : State) (e : PteLoc × Pte),
      (match e.1 with | .inverted t i => s.poke128 b (invAddr t i) (s.peek128 a.pkg (invAddr t i)) | .hashed _ => s).rxs = s.rxs := by
    intro s e
    split
    · exact rxs_poke128
    · rfl
  exact rxs_foldl hstep (s.invEntries a) s

@[simp] theorem rxs_carryBanks {a b} : (s.carryBanks a b).rxs = s.rxs :=
  rxs_foldl (fun _ _ => rxs_bufWrite) _ _

@[simp] theorem rxs_carryDevice {a b sent ms} : (s.carryDevice a b sent ms).rxs = s.rxs := by
  refine ((rxs_foldl (fun _ _ => rxs_setPte) _ _).trans rxs_carryBanks).trans ?_
  simp

@[simp] theorem rxs_unfreeze {pk} : (s.unfreeze pk).rxs = s.rxs := (rfl)

theorem RxsAddUp.transfer {a b} (h : RxsAddUp s.rxs) : RxsAddUp (s.transfer a b).rxs := by simp [State.transfer, h.moveTab]

@[simp] theorem rxs_vdOut {c st} : (s.vdOut c st).rxs = s.rxs := (rfl)
@[simp] theorem rxs_vdQuiesce {c pk} : (s.vdQuiesce c pk).rxs = s.rxs := by simp [State.vdQuiesce]
@[simp] theorem rxs_vdSend {c pk v} : (s.vdSend c pk v).rxs = s.rxs := by simp [State.vdSend]
@[simp] theorem rxs_vdResume {c pk} : (s.vdResume c pk).rxs = s.rxs := by simp [State.vdResume]

theorem RxsAddUp.vdRelease {c pk} (h : RxsAddUp s.rxs) : RxsAddUp (s.vdRelease c pk).rxs := by simp [State.vdRelease, h, h.filter]

theorem RxsAddUp.rebuild {c a b} (h : RxsAddUp s.rxs) : RxsAddUp (s.rebuild c a b).rxs := by simp [State.rebuild, (h.moveTab a b).filter]

theorem RxsAddUp.vdReplay {c pk v} (h : RxsAddUp s.rxs) : RxsAddUp (s.vdReplay c pk v).rxs := by
  simp only [State.vdReplay]
  (repeat' split) <;> simp [h, h.rebuild]

theorem RxsAddUp.vdDo {c cmd v} (h : RxsAddUp s.rxs) : RxsAddUp (s.vdDo c cmd v).rxs := by
  unfold State.vdDo
  (repeat' split) <;> simp [h, h.vdRelease, h.vdReplay]

@[simp] theorem rxs_arrivePage {b src m} : (s.arrivePage b src m).rxs = s.rxs := by
  simp only [State.arrivePage]
  split <;> simp

@[simp] theorem rxs_returnKern {kk} : (s.returnKern kk).rxs = s.rxs := by
  unfold State.returnKern
  split <;> simp

@[simp] theorem rxs_restoreLq {pk r n} : (s.restoreLq pk r n).rxs = s.rxs := by
  simp [State.restoreLq]

@[simp] theorem rxs_reopen {pk f ks r} : (s.reopen pk f ks r).rxs = s.rxs := (rfl)

@[simp] theorem rxs_replayEnd {pk r} : (s.replayEnd pk r).rxs = s.rxs := by
  simp [State.replayEnd]

@[simp] theorem rxs_asRecorded {pk r} : (s.asRecorded pk r).rxs = s.rxs := by
  refine rxs_foldl (fun _ _ => ?_) _ _
  rfl

/-! ### Machine/Path -/

@[simp] theorem rxs_leaseHold {c line tr cycles} : (s.leaseHold c line tr cycles).rxs = s.rxs := (rfl)

@[simp] theorem rxs_leaseTick {c} : (s.leaseTick c).rxs = s.rxs := by
  unfold State.leaseTick
  (repeat' split) <;> simp

@[simp] theorem rxs_leaseDo {c x line tr va cycles} : (s.leaseDo c x line tr va cycles).rxs = s.rxs := by
  simp only [State.leaseDo]
  (repeat' split) <;> simp

@[simp] theorem rxs_unleaseDo {c line} : (s.unleaseDo c line).rxs = s.rxs := by simp [State.unleaseDo]
@[simp] theorem rxs_dropEnt {c stamp} : (s.dropEnt c stamp).rxs = s.rxs := (rfl)
@[simp] theorem rxs_setEnt {c stamp f} : (s.setEnt c stamp f).rxs = s.rxs := (rfl)

@[simp] theorem rxs_storeStep {c x e evs} : (s.storeStep c x e evs).rxs = s.rxs := by
  simp only [State.storeStep]
  split
  · simp
  split
  · rfl
  split
  · next hw => exact rxs_waitAt _ hw
  split
  · simp
  split
  · simp
  · next hw =>
    simp [rxs_writeEv _ hw]

theorem RxsAddUp.cmdDo {c f} (h : RxsAddUp s.rxs) : RxsAddUp (s.cmdDo c f).rxs := by
  unfold State.cmdDo
  split <;> simp [h, h.lnkDo, h.vdDo]

theorem RxsAddUp.pathStep {c x e} (h : RxsAddUp s.rxs) : RxsAddUp (s.pathStep c x e).rxs := by
  unfold State.pathStep
  (repeat' split) <;> simp [h, RxsAddUp.cmdDo]

@[simp] theorem rxs_adoptBind {c x v} : (s.adoptBind c x v).rxs = s.rxs := by simp [State.adoptBind]

/-! ### Machine/Package -/

@[simp] theorem rxs_trainDie : s.trainDie.2.rxs = s.rxs := (rfl)
@[simp] theorem rxs_bringUp {p} : (s.bringUp p).2.rxs = s.rxs := by simp [State.bringUp]

theorem RxsAddUp.clearPkg {k} (h : RxsAddUp s.rxs) : RxsAddUp (s.clearPkg k).rxs := h.filter _

@[simp] theorem rxs_hostPut {k own pa l} : (s.hostPut k own pa l).rxs = s.rxs := by
  unfold State.hostPut
  split <;> simp

@[simp] theorem rxs_hostStore {w k own pa l} : (s.hostStore w k own pa l).rxs = s.rxs := by simp [State.hostStore]

@[simp] theorem rxs_vfStore {k n off l} : (s.vfStore k n off l).rxs = s.rxs := by
  simp only [State.vfStore]
  (repeat' split) <;> simp

@[simp] theorem rxs_pfStore {k off v} : (s.pfStore k off v).rxs = s.rxs := by
  unfold State.pfStore
  split <;> simp

theorem outAddUp_mbDo {code} {f : Nat → MbCmd → State} (h : RxsAddUp s.rxs) (hf : ∀ k c, RxsAddUp (f k c).rxs) : OutAddUp (mbDo s code f) := by
  unfold mbDo
  split <;> simp [h, hf]

@[simp] theorem rxs_mbAssign {k c} : (s.mbAssign k c).rxs = s.rxs := by simp [State.mbAssign]

theorem RxsAddUp.mbClear {k c} (h : RxsAddUp s.rxs) : RxsAddUp (s.mbClear k c).rxs := by
  unfold State.mbClear
  split <;> simp [h, h.filter]

@[simp] theorem rxs_mbPreempt {k c} : (s.mbPreempt k c).rxs = s.rxs := by
  simp only [State.mbPreempt]
  (repeat' split) <;> simp

@[simp] theorem rxs_mbPodmap {k c} : (s.mbPodmap k c).rxs = s.rxs := by simp [State.mbPodmap]
@[simp] theorem rxs_mbPortmap {k c} : (s.mbPortmap k c).rxs = s.rxs := by simp [State.mbPortmap]
@[simp] theorem rxs_mbPeer {k c} : (s.mbPeer k c).rxs = s.rxs := by simp [State.mbPeer]
@[simp] theorem rxs_mbLinkadm {k c} : (s.mbLinkadm k c).rxs = s.rxs := by simp [State.mbLinkadm]
@[simp] theorem rxs_mbKeyset {k c} : (s.mbKeyset k c).rxs = s.rxs := by simp [State.mbKeyset]
@[simp] theorem rxs_mbKeyinv {k c} : (s.mbKeyinv k c).rxs = s.rxs := by simp [State.mbKeyinv]
@[simp] theorem rxs_mbAttest {k c} : (s.mbAttest k c).rxs = s.rxs := by simp [State.mbAttest]

/-! ### Machine/Vector -/

theorem outAddUp_govVec {i f} (h : RxsAddUp s.rxs) : OutAddUp (govVec i f s) := by simp [govVec, h, outAddUp_vecOp]
theorem outAddUp_binVec {op i v} (h : RxsAddUp s.rxs) : OutAddUp (binVec op i v s) := by simp [binVec, h, outAddUp_govVec]
theorem outAddUp_map2Vec {i v f} (h : RxsAddUp s.rxs) : OutAddUp (map2Vec i v f s) := by simp [map2Vec, h, outAddUp_govVec]
theorem outAddUp_freeVec {i f} (h : RxsAddUp s.rxs) : OutAddUp (freeVec i f s) := by simp [freeVec, h, outAddUp_vecOp]
theorem outAddUp_maskVec {i f} (h : RxsAddUp s.rxs) : OutAddUp (maskVec i f s) := by simp [maskVec, h, outAddUp_plainVec]
theorem outAddUp_transVec {f i ftz} (h : RxsAddUp s.rxs) : OutAddUp (transVec f i ftz s) := by simp [transVec, h, outAddUp_govVec]

end Sys2Proof.Machine
end


section
/-!
SUPPORT. The receive contexts through the instructions: the arms that no shared operation covers, the events (02 to 23), and `exec` over all of them.
-/
namespace Sys2Proof.Machine
variable {s : State}

/-! ### Instructions -/

theorem outAddUp_execRead {reg t2 t1} (h : RxsAddUp s.rxs) : OutAddUp (execRead reg t2 t1 s) := by simp [execRead, h, outAddUp_withSlot, outAddUp_withCtx]

theorem outAddUp_execXlate {p id wr th t1} (h : RxsAddUp s.rxs) : OutAddUp (execXlate p id wr th t1 s) :=
  outAddUp_withSlot h fun _ _ _ => by (repeat' split) <;> simp [h, outAddUp_withCtx]

theorem outAddUp_execXprobe {p id wr th t1} (h : RxsAddUp s.rxs) : OutAddUp (execXprobe p id wr th t1 s) :=
  outAddUp_withSlot h fun _ _ _ => by (repeat' split) <;> simp [h, outAddUp_withCtx]

theorem outAddUp_execPref {l} (h : RxsAddUp s.rxs) : OutAddUp (execPref l s) :=
  outAddUp_withSlot h fun _ _ _ => by (repeat' split) <;> simp [h, outAddUp_withCtx]

theorem outAddUp_execLease {p id cyc} (h : RxsAddUp s.rxs) : OutAddUp (execLease p id cyc s) :=
  outAddUp_storeOp h fun _ _ _ _ _ => outAddUp_withCtx fun _ => outAddUp_checked h fun _ _ _ h => by
    split <;> next ht => simp [rxs_of_snd_eq ht, h]

theorem outAddUp_execUnlease {p id} (h : RxsAddUp s.rxs) : OutAddUp (execUnlease p id s) :=
  outAddUp_storeOp h fun _ _ _ _ _ => outAddUp_withCtx fun _ => outAddUp_checked h fun _ _ _ h => by split <;> simp [h]

theorem outAddUp_execPeek {p id inl t1} (h : RxsAddUp s.rxs) : OutAddUp (execPeek p id inl t1 s) :=
  outAddUp_loadOp h fun _ _ _ _ _ => outAddUp_withCtx fun _ => by
    simp only
    (repeat' split) <;> simp [h]

theorem outAddUp_execPeekV {p id inl t1} (h : RxsAddUp s.rxs) : OutAddUp (execPeekV p id inl t1 s) :=
  outAddUp_loadOp h fun _ _ _ _ _ => outAddUp_withCtx fun _ => by (repeat' split) <;> simp [h]

theorem outAddUp_execCollect {p id inl t1} (h : RxsAddUp s.rxs) : OutAddUp (execCollect p id inl t1 s) :=
  outAddUp_loadOp h fun _ _ _ _ _ => outAddUp_withCtx fun _ => by (repeat' split) <;> simp [h]

theorem outAddUp_execAccrd {p id acc t1} (h : RxsAddUp s.rxs) : OutAddUp (execAccrd p id acc t1 s) :=
  outAddUp_loadOp h fun _ _ _ _ _ => outAddUp_withCtx fun _ => by
    simp only
    (repeat' split) <;> simp [h]

theorem outAddUp_execCrwr {p id num} (h : RxsAddUp s.rxs) : OutAddUp (execCrwr p id num s) :=
  outAddUp_storeOp h fun _ _ _ _ _ => outAddUp_withCtx fun _ => by
    simp only
    (repeat' split) <;> simp [h]

theorem outAddUp_execLaunch {p id lq} (h : RxsAddUp s.rxs) : OutAddUp (execLaunch p id lq s) :=
  outAddUp_storeOp h fun _ _ _ _ _ => outAddUp_withCtx fun _ => outAddUp_checked h fun _ _ _ h => by
    simp only
    (repeat' split) <;> simp [h]

theorem outAddUp_execMsel {p ty m t1} (h : RxsAddUp s.rxs) : OutAddUp (execMsel p ty m t1 s) :=
  outAddUp_withSlot h fun _ _ _ => by
    split
    · exact h
    · exact outAddUp_vecOp h

theorem outAddUp_execSteer {p id m f g} (h : RxsAddUp s.rxs) : OutAddUp (execSteer p id m f g s) :=
  outAddUp_storeOp h fun _ _ _ _ _ => outAddUp_withCtx fun _ => by
    split
    · exact h
    · exact outAddUp_outIssue h (outAddUp_outIssue h (by dsimp only; split <;> exact h))

/-! ### The events that change a receive context, and those that need a lemma of their own -/

theorem outAddUp_execLoadPerform (h : RxsAddUp s.rxs) : OutAddUp (execLoadPerform s) := by
  unfold execLoadPerform
  (repeat' split) <;> simp [h, outAddUp_loadNow]

theorem outAddUp_execMmaKGroup (h : RxsAddUp s.rxs) : OutAddUp (execMmaKGroup s) := outAddUp_withMx h fun _ _ _ => by split <;> simp

theorem outAddUp_execTmovPerform (h : RxsAddUp s.rxs) : OutAddUp (execTmovPerform s) := outAddUp_withMx h fun _ _ _ => by split <;> simp

theorem outAddUp_execAcclrPerform (h : RxsAddUp s.rxs) : OutAddUp (execAcclrPerform s) := outAddUp_withMx h fun _ _ _ => by split <;> simp

theorem outAddUp_execAccstRowAppend (h : RxsAddUp s.rxs) : OutAddUp (execAccstRowAppend s) := outAddUp_withMx h fun _ _ _ => by split <;> simp

theorem outAddUp_execRxcfgWrite (h : RxsAddUp s.rxs) : OutAddUp (execRxcfgWrite s) := by
  unfold execRxcfgWrite
  split <;> simp [h.rxWrite]

theorem outAddUp_execBlockCommit (h : RxsAddUp s.rxs) : OutAddUp (execBlockCommit s) := by
  unfold execBlockCommit
  (repeat' split) <;> simp [h, h.commit]

theorem outAddUp_execLinkBudgetExpiry (h : RxsAddUp s.rxs) : OutAddUp (execLinkBudgetExpiry s) := by
  simp only [execLinkBudgetExpiry]
  (repeat' split) <;> simp [h, h.goDown]

theorem outAddUp_execFarEndLoss (h : RxsAddUp s.rxs) : OutAddUp (execFarEndLoss s) := by
  unfold execFarEndLoss
  split <;> simp [h, h.goDown]

theorem outAddUp_execPartLoss (h : RxsAddUp s.rxs) : OutAddUp (execPartLoss s) := by
  unfold execPartLoss
  (repeat' split) <;> simp [h, h.goDown, h.losePackage]

theorem outAddUp_execFrameReceive (h : RxsAddUp s.rxs) : OutAddUp (execFrameReceive s) := by
  simp only [execFrameReceive]
  (repeat' split) <;> simp [h, h.classify]

theorem outAddUp_execTransferComplete (h : RxsAddUp s.rxs) : OutAddUp (execTransferComplete s) := by
  simp only [execTransferComplete]
  (repeat' split) <;> simp [h, h.transfer]

theorem outAddUp_execStorePathPerform (h : RxsAddUp s.rxs) : OutAddUp (execStorePathPerform s) := by
  unfold execStorePathPerform
  (repeat' split) <;> simp [h, h.pathStep]

/-- The targets that a reset package was the end of are vacated, and its own receive contexts are gone (21 R459, 23 R478). -/
theorem outAddUp_execDeviceReset (h : RxsAddUp s.rxs) : OutAddUp (execDeviceReset s) := by
  simp only [execDeviceReset]
  split
  · split
    · exact h
    · simp only [outAddUp_next, State.setPkg_rxs, rxs_bringUp]
      refine RxsAddUp.clearPkg (RxsAddUp.foldl (fun s pk h => ?_) _ _ h.losePackage)
      split <;> simp [h, h.filter]
  · simp

/-! ### Every arm -/

theorem outAddUp_exec (i : Instr) (h : RxsAddUp s.rxs) : OutAddUp (exec i s) := by
  unfold exec
  cases i with
  | const | constx | mul | mulhS64 | mulhN64 | divS64 | divN64 | remS64 | remN64 | neg | abs | minS64 | maxS64 | minN64 | maxN64 | and | or
  | xor | andn | not | shl | shr | sar | rol | ror | popc | clz | ctz | bswap | sextS8 | sextS16 | sextS32 | zextN8 | zextN16 | zextN32
  | andi | ori | xori | shli | shri | sari => exact outAddUp_valOp h
  | mov | null | movV | nullV | wsplitB8 | wsplitB16 | wsplitB32 | wjoinB8 | wjoinB16 | wjoinB32 => exact outAddUp_tokOp h
  | add | sub | leaX1 | leaX2 | leaX4 | leaX8 | addi => exact outAddUp_addrOp h
  | teq | tne | tltS64 | tleS64 | tgtS64 | tgeS64 | tltN64 | tleN64 | tgtN64 | tgeN64 | tbit | tz | tnz | teqi | tnei | tlti | tgei | tltui
  | tgeui => exact outAddUp_testOp h
  | br | brr | yield | idle | trap | svc | rfe => exact outAddUp_branchOp h
  | call | callr | ret => exact outAddUp_stackOp h
  | ldN8 | ldS8 | ldN16 | ldS16 | ldN32 | ldS32 | ldB64 | ldN82t | ldS82t | ldN162t | ldS162t | ldN322t | ldS322t | ldB642t => exact outAddUp_loadIssue h
  | stB8 | stB16 | stB32 | stB64 => exact outAddUp_storeIssue h
  | amoAdd | amoAddF32 | amoMinS | amoMaxS | amoMinN | amoMaxN | amoAnd | amoOr | amoXor => exact outAddUp_amoIssue h
  | pop | popV => exact outAddUp_inletPop h
  | strmStage | strmRows | strmTag | strmHalt => exact outAddUp_strmIssue h
  | sphAnd | sphOr => exact outAddUp_sphIssue h
  | shapeV | shapeT => exact outAddUp_shapeIssue h
  | shstep | shstepV => exact outAddUp_stepIssue h
  | mma | mmaG | tmov | tmovT | acclr | accst => exact outAddUp_mxIssue h
  | barInit | barArrive | barBind | barDrop => exact outAddUp_barIssue h
  | grpMake | grpSplit | grpJoin | grpFree => exact outAddUp_grpIssue h
  | pgMap | pgUnmap | pgPin | pgUnpin | pgPoison | pgPromote => exact outAddUp_pgIssue h
  | lnkUp | lnkDown | lnkRetrain | lnkChain | lnkUnchain => exact outAddUp_lnkIssue h
  | vdQuiesce | vdSend | vdResume | vdRelease | vdReplay => exact outAddUp_vdIssue h
  | vadd | vsub | vmul | vmin | vmax | vand | vor | vxor => exact outAddUp_binVec h
  | vmulh | vabs | vneg | cmp | red | scan => exact outAddUp_govVec h
  | vnot | vshl | vshr | vsar | vclz | vpopc => exact outAddUp_map2Vec h
  | wadd | wmul | narrow | cvt => exact outAddUp_vecOp h
  | vrcp | vrsq | vsqrt | vexp2 | vlog2 => exact outAddUp_transVec h
  | perm | slideUp | slideDn | bcast => exact outAddUp_freeVec h
  | mand | mor | mxor | mnot => exact outAddUp_maskVec h
  | mcnt | iota => exact outAddUp_plainVec h
  | write | brk => exact outAddUp_actOp h fun _ _ _ _ _ => by simp [h]
  | fenceAcq | fenceRel | qfence | pushBq | xshoot => exact outAddUp_storeOp h fun _ _ _ _ _ => by simp [h]
  | fenceAr | qpush | qpushCmdq | rtcfg | strmGo | sigInc => exact outAddUp_storeOp h fun _ _ _ _ _ => by simp [h, outAddUp_withCtx]
  | qpop | qpopBq | crrd => exact outAddUp_loadOp h fun _ _ _ _ _ => by simp [h, outAddUp_withCtx]
  | push | pushV | pushm => exact outAddUp_storeOp h fun _ _ _ _ _ => by simp [h, outAddUp_withCtx, outAddUp_outIssue]
  | steer => exact outAddUp_execSteer h
  | barWait | sigWait => exact outAddUp_actOp h fun _ _ _ _ _ => by simp [h, outAddUp_withCtx]
  | mbAssign | mbPreempt | mbPodmap | mbPortmap | mbPeer | mbLinkadm | mbKeyset | mbKeyinv | mbAttest => exact outAddUp_mbDo h fun _ _ => by simp [h]
  | mbClear => exact outAddUp_mbDo h fun _ _ => h.mbClear
  | read => exact outAddUp_execRead h
  | xlate => exact outAddUp_execXlate h
  | xprobe => exact outAddUp_execXprobe h
  | pref => exact outAddUp_execPref h
  | lease => exact outAddUp_execLease h
  | unlease => exact outAddUp_execUnlease h
  | peek => exact outAddUp_execPeek h
  | peekV => exact outAddUp_execPeekV h
  | collect => exact outAddUp_execCollect h
  | accrd => exact outAddUp_execAccrd h
  | crwr => exact outAddUp_execCrwr h
  | launch => exact outAddUp_execLaunch h
  | msel => exact outAddUp_execMsel h
  | amoHomeUpdate | leaseHold | leaseExpiry | cmdqAdopt | waitEnd | wstCancel | heldSlotResume | incompleteBlockFault | blockFetch | dispatchDecision
  | trapEntry | streamFault | asnWrite | xcauseResume =>
    simp only [execAmoHomeUpdate, execLeaseHold, execLeaseExpiry, execCmdqAdopt, execWaitEnd, execWstCancel, execHeldSlotResume, execIncompleteBlockFault,
      execBlockFetch, execDispatchDecision, execTrapEntry, execStreamFault, execAsnWrite, execXcauseResume]
    (repeat' split) <;> simp [h]
  | streamStart | streamItem | sstatResume | sstatAbandon | mxprogResume | mxprogAbandon | accrdDeliver =>
    simp only [execStreamStart, execStreamItem, execSstatResume, execSstatAbandon, execMxprogResume, execMxprogAbandon, execAccrdDeliver]
    (repeat' split) <;> simp [h]
  | qwinDescriptorWrite | qctlOpen | qctlSeal | qctlClose | kctlDone | kctlFence | kctlFault | sgvalWrite | ptcfgWrite | rxselSnapshot | caskMove |
  bankDrainDone | bankScrubDone =>
    simp only [execQwinDescriptorWrite, execQctlOpen, execQctlSeal, execQctlClose, execKctlDone, execKctlFence, execKctlFault, execSgvalWrite,
      execPtcfgWrite, execRxselSnapshot, execCaskMove, execBankDrainDone, execBankScrubDone]
    (repeat' split) <;> simp [h]
  | launchAccept | kernelPlacement | partitionFence | kernelQuiet | preemptBegin | drainComplete | kilnStart | kilnScanComplete | groupMemberEnd |
  groupPreempt | groupRestore | contextRestore =>
    simp only [execLaunchAccept, execKernelPlacement, execPartitionFence, execKernelQuiet, execPreemptBegin, execDrainComplete, execKilnStart,
      execKilnScanComplete, execGroupMemberEnd, execGroupPreempt, execGroupRestore, execContextRestore]
    (repeat' split) <;> simp [h]
  | shootDownComplete | linkTrainingComplete | flitReplay | chainConfirm | chainElementSend | granuleReceive | granuleAck =>
    simp only [execShootDownComplete, execLinkTrainingComplete, execFlitReplay, execChainConfirm, execChainElementSend, execGranuleReceive, execGranuleAck]
    (repeat' split) <;> simp [h]
  | quiesceComplete | sweepSend | pageArrival | redirect | hangDetect | detectedError | replayComplete =>
    simp only [execQuiesceComplete, execSweepSend, execPageArrival, execRedirect, execHangDetect, execDetectedError, execReplayComplete]
    (repeat' split) <;> simp [h]
  | hostWrite | currentLimitTrip | currentLimitRelease | powerIdleAdjust =>
    simp only [execHostWrite, execCurrentLimitTrip, execCurrentLimitRelease, execPowerIdleAdjust]
    (repeat' split) <;> simp [h]
  | loadPerform => exact outAddUp_execLoadPerform h
  | rxcfgWrite => exact outAddUp_execRxcfgWrite h
  | blockCommit => exact outAddUp_execBlockCommit h
  | linkBudgetExpiry => exact outAddUp_execLinkBudgetExpiry h
  | farEndLoss => exact outAddUp_execFarEndLoss h
  | partLoss => exact outAddUp_execPartLoss h
  | frameReceive => exact outAddUp_execFrameReceive h
  | transferComplete => exact outAddUp_execTransferComplete h
  | storePathPerform => exact outAddUp_execStorePathPerform h
  | deviceReset => exact outAddUp_execDeviceReset h
  | mmaKGroup => exact outAddUp_execMmaKGroup h
  | tmovPerform => exact outAddUp_execTmovPerform h
  | acclrPerform => exact outAddUp_execAcclrPerform h
  | accstRowAppend => exact outAddUp_execAccstRowAppend h

end Sys2Proof.Machine
end


section
/-!
SUPPORT. The receive contexts through a step (00 R7): the acts of an agenda, and what the machine does by itself.
-/
namespace Sys2Proof.Machine
variable {s : State}

/-- A meaning of the instructions under which the counters of the receive contexts go on adding up. -/
def KeepsRxsAddUp (ex : Instr → State → Out State) : Prop := ∀ i s, RxsAddUp s.rxs → OutAddUp (ex i s)

theorem keepsRxsAddUp_exec : KeepsRxsAddUp exec := fun i _ h => outAddUp_exec i h

theorem outAddUp_performAct {ex a} (hex : KeepsRxsAddUp ex) (h : RxsAddUp s.rxs) : OutAddUp (performAct ex a s) := by
  unfold performAct
  split
  · exact hex _ _ h
  · split
    · trivial
    · split
      · trivial
      · exact hex _ _ h

theorem RxsAddUp.firstAct {ex l} (hex : KeepsRxsAddUp ex) (h : RxsAddUp s.rxs) : ∀ t ∈ firstAct ex s l, RxsAddUp t.rxs := by
  induction l with
  | nil => simp [Machine.firstAct]
  | cons a r ih =>
    have ha := outAddUp_performAct (a := a) hex h
    unfold Machine.firstAct
    split
    · next hp =>
      rw [hp] at ha
      split
      · rintro _ ⟨⟩
        exact ha
      · exact ih
    · exact ih
    · exact ih

theorem RxsAddUp.byItself {ex} (hex : KeepsRxsAddUp ex) (h : RxsAddUp s.rxs) : RxsAddUp (s.byItself ex).rxs := by
  simp only [State.byItself]
  split
  · next hi => exact h.firstAct hex _ hi
  · split
    · next he => exact RxsAddUp.firstAct hex (by simpa using h) _ he
    · simpa using h

theorem outAddUp_stepWith {ex} (hex : KeepsRxsAddUp ex) (h : RxsAddUp s.rxs) : OutAddUp (stepWith ex s) := by
  unfold stepWith
  split
  · exact h.byItself hex
  · exact outAddUp_performAct hex h
  · exact outAddUp_performAct hex h

/-- Settles O57: a frame counts as received and in one of five (20 R433), an eviction moves a count (R435), a write of `cr.rxcfg` keeps or clears the
counters (R437); a slot that moves takes its receive contexts along (21 R455), and nothing else touches them. -/
theorem receiveCountersAlwaysAddUp : Obligations.ReceiveCountersAlwaysAddUp := by
  unfold Obligations.ReceiveCountersAlwaysAddUp
  intro s t h hstep
  have hout : OutAddUp (step s) := outAddUp_stepWith keepsRxsAddUp_exec ((countersAddUp_iff s).1 h)
  rw [hstep] at hout
  exact (countersAddUp_iff t).2 hout

end Sys2Proof.Machine
end

section
/-!
SUPPORT. The store-class commands that pass one check of their chapter as they issue (15 R341, 17 R381, 18 R388, 19 R413, 20 R438, 21 R462): each completes
its identifier with its command.
-/
namespace Sys2Proof.Machine

variable {i : Instr} {id : Ident}

/-- The common form of these commands: a subcode that is not 0 raises the fault of the chapter, else the command stands in the block. -/
def checkedForm (i : Info) (id : Ident) (code : Nat) (sub : State → Blk → Ctx → Tok → Tok → Nat) (e : State → Blk → Ctx → Tok → Tok → Eff) (s : State) :
    Out State :=
  storeOp i id
    (fun cu b _ l r => withCtx s b fun x =>
      if sub s b x l r ≠ 0 then subFault s cu b code (sub s b x l r) else completeWith s cu b id (e s b x l r)) s

/-- A ready command that breaks no rule of its chapter completes its identifier. -/
theorem checkedForm_completes {code : Nat} {sub : State → Blk → Ctx → Tok → Tok → Nat} {e : State → Blk → Ctx → Tok → Tok → Eff} {s : State} {cu : Cur}
    {b : Blk} {sl : Slot} {l r : Tok} {x : Ctx} (h : Ready i s cu b sl l r) (hx : s.ctxs.get? b.ctx = some x) (hid : b.idDone.getLsbD id.toNat = false)
    (hsub : sub s b x l r = 0) : checkedForm (info i) id code sub e s = .next (s.completed cu b id (e s b x l r)) := by
  rw [checkedForm, storeOp_ready h, withCtx_some hx, if_neg (not_not.2 hsub), completeWith_eq hid]

/-- A command in the common form, whose effect is its own, completes. -/
theorem completes_of_checkedForm {code : Nat} {sub : State → Blk → Ctx → Tok → Tok → Nat} {e : Tok → Tok → Eff}
    (hi : ∀ s, exec i s = checkedForm (info i) id code sub (fun _ _ _ => e) s) :
    Completes i id (fun s b x l r => sub s b x l r = 0) fun _ => e := by
  intro s cu b sl l r x h hx hid hsub
  rw [hi, checkedForm_completes h hx hid hsub]

end Sys2Proof.Machine
end

section
/-!
The statement of stream commands (15 R341 to R347) and of the headers of sparse loops (R359).
-/
namespace Sys2Proof.Machine

variable {i : Instr} {s : State} {cu : Cur} {b : Blk} {sl : Slot} {l r : Tok} {x : Ctx} {p : Pred} {id : Ident}

/-! ### `strm` -/

/-- A ready staging command, or `strm.halt`, without a stream fault completes (15 R341, R343). -/
theorem strmIssue_completes {c : StrmCmd} (hi : ∀ s, exec i s = strmIssue (info i) id c s) :
    Completes i id (fun _ _ _ l r => strmSub c l.val r.val = 0) fun _ l r => .strm c l.val r.val := by
  intro s cu b sl l r x h _ hid hsub
  rw [hi, strmIssue, storeOp_ready h, if_neg (not_not.2 hsub), completeWith_eq hid]

/-- The checks of a `strm.go` of the oldest block (15 R342, R343, R345). -/
structure GoPasses (s : State) (b : Blk) (x : Ctx) (id : Ident) (l r : Tok) : Prop where
  sub : s.goSub x.pk l.val r.val = 0
  oldest : s.isOldest b = true
  stores : b.storesBelow id.toNat = true
  staging : stagingSub (b.stagingFor x (fld r.val 60 4) id.toNat) r.val = 0
  buf : goCopy r.val = true → s.bufOk x.pk x.core (bufOf (fld r.val 44 2)) (fld r.val 12 20)
    (goEsz r.val * (b.stagingFor x (fld r.val 60 4) id.toNat).total (goNst r.val)) = true

/-- A ready `strm.go` that passes its checks reserves its places. -/
theorem execStrmGo_reserves (h : Ready (.strmGo p id) s cu b sl l r) (hx : s.ctxs.get? b.ctx = some x) (hgo : GoPasses s b x id l r) :
    exec (.strmGo p id) s = goReserve s cu b x id l.val r.val := by
  have hbuf : (goCopy r.val && !s.bufOk x.pk x.core (bufOf (fld r.val 44 2)) (fld r.val 12 20)
      (goEsz r.val * (b.stagingFor x (fld r.val 60 4) id.toNat).total (goNst r.val))) = false := by
    cases hc : goCopy r.val with
    | false => rfl
    | true => rw [hgo.buf hc]; rfl
  rw [exec_strmGo, execStrmGo, storeOp_ready h, withCtx_some hx]
  simp only [hgo.sub, hgo.oldest, hgo.stores, hgo.staging, hbuf, ne_eq, not_true_eq_false, Bool.not_true, Bool.or_self, Bool.false_eq_true, if_false]

/-- With room in its engine queue, and outside a pair context, it completes. -/
theorem goReserve_access (ha : x.ctl.aonly = true) (hroom : s.engRoom b.ctx x (fld r.val 60 4) ≠ 0) (hid : b.idDone.getLsbD id.toNat = false) :
    goReserve s cu b x id l.val r.val = .next (s.completed cu b id (.strm .go l.val r.val)) := by
  rw [goReserve, if_neg hroom, if_pos ha, completeWith_eq hid]

/-- In a pair context it also reserves an entry of `cmdq`. -/
theorem goReserve_pair (ha : x.ctl.aonly = false) (hroom : s.engRoom b.ctx x (fld r.val 60 4) ≠ 0) (hcmdq : s.cmdqRoom b.ctx x ≠ 0)
    (hid : b.idDone.getLsbD id.toNat = false) :
    goReserve s cu b x id l.val r.val = .next (s.completed cu { b with cmdqRes := b.cmdqRes + 1 } id (.strm .go l.val r.val)) := by
  rw [goReserve, if_neg hroom, if_neg (Bool.eq_false_iff.1 ha), if_neg hcmdq]
  exact completeWith_eq (b := { b with cmdqRes := b.cmdqRes + 1 }) hid s cu _

/-! ### Sparse loop headers -/

/-- The low three bits of a word are its remainder by 8. -/
theorem fld_zero_three (v : Word) : fld v 0 3 = v.toNat % 8 := rfl

/-- A ready header whose queue may be fed and whose addresses are aligned completes (15 R359). -/
theorem sphIssue_completes {isOr tree : Bool} {q : BitVec 12} (hi : ∀ s, exec i s = sphIssue (info i) id isOr tree q s) :
    Completes i id
      (fun s b x l r => (s.queue (objKey x.pk q.toNat)).plane = false ∧ s.feedable (objKey x.pk q.toNat) = true ∧ l.val.toNat % 8 = 0
        ∧ r.val.toNat % 8 = 0 ∧ s.engRoom b.ctx x 15 ≠ 0)
      fun _ l r => .sph isOr tree q.toNat l.val r.val := by
  rintro s cu b sl l r x h hx hid ⟨hplane, hfeed, hl, hr, hroom⟩
  rw [hi, sphIssue, storeOp_ready h, withCtx_some hx]
  simp only [hplane, hfeed, fld_zero_three, hl, hr, hroom, ne_eq, not_true_eq_false, decide_false, Bool.not_true, Bool.or_self, Bool.false_eq_true,
    if_false]
  exact completeWith_eq hid s cu _

/-- Settles O26: the staging commands and `strm.halt` make one check; `strm.go` makes the checks of `GoPasses` and then reserves its places. -/
theorem streamCommandsComplete : Obligations.StreamCommandsComplete := by
  unfold Obligations.StreamCommandsComplete
  refine ⟨fun p id stg => strmIssue_completes (exec_strmStage (p := p)),
    fun p id => ⟨strmIssue_completes (exec_strmRows (p := p)), strmIssue_completes (exec_strmTag (p := p)), strmIssue_completes (exec_strmHalt (p := p)),
      ?access, ?pair⟩, fun p id tree q => ?headers⟩
  case access =>
    rintro s cu b sl l r x h hx hid ⟨ha, hsub, hold, hst, hstag, hbuf, hroom⟩
    exact (execStrmGo_reserves h hx ⟨hsub, hold, hst, hstag, hbuf⟩).trans (goReserve_access ha hroom hid)
  case pair =>
    intro s cu b sl l r x h hx hid ha hsub hold hst hstag hbuf hroom hcmdq
    exact (execStrmGo_reserves h hx ⟨hsub, hold, hst, hstag, hbuf⟩).trans (goReserve_pair ha hroom hcmdq hid)
  case headers =>
    simp only [List.forall_mem_cons]
    exact ⟨sphIssue_completes exec_sphAnd, sphIssue_completes exec_sphOr, fun _ h => absurd h List.not_mem_nil⟩

end Sys2Proof.Machine
end

section
/-!
The statement of barrier and signal commands (18 R388 to R394, R400) and of `shape` and `shstep` (12 R271, R272).
-/
namespace Sys2Proof.Machine

variable {i : Instr} {s : State} {cu : Cur} {b : Blk} {sl : Slot} {l r : Tok} {x : Ctx} {p : Pred} {id : Ident}

/-- A ready `bar` command that breaks no rule completes with the scope as it acts (18 R388, R393). -/
theorem barIssue_completes {c : BarCmd} {sc : Scope} (hi : ∀ s, exec i s = barIssue (info i) id c sc s) :
    ∀ s cu b sl l r x, Ready i s cu b sl l r → s.ctxs.get? b.ctx = some x → b.idDone.getLsbD id.toNat = false →
      s.barCmdSub x b.ctx (decide (b.hdr.kind = 1)) c sc l.val r.val = 0 →
      exec i s = .next (s.completed cu b id (.bar c (s.effScope x.pk sc) (s.unitAt x b.ctx (s.effScope x.pk sc)) l.val r.val)) := by
  intro s cu b sl l r x h hx hid hsub
  rw [hi]
  exact checkedForm_completes (code := 0x34) (sub := fun s b x l r => s.barCmdSub x b.ctx (decide (b.hdr.kind = 1)) c sc l.val r.val)
    (e := fun s b x l r => .bar c (s.effScope x.pk sc) (s.unitAt x b.ctx (s.effScope x.pk sc)) l.val r.val) h hx hid hsub

/-! ### `shape` -/

/-- A ready `shape` with a legal request outside a pair context completes (12 R271). -/
theorem shapeIssue_completes {tile : Bool} {sh : BitVec 3} (hi : ∀ s, exec i s = shapeIssue (info i) id tile sh s) :
    Completes i id (fun _ _ x l _ => x.ctl.aonly = true ∧ shapeOk tile l.val = true) fun _ l _ => .shape tile sh.toNat l.val := by
  rintro s cu b sl l r x h hx hid ⟨ha, hok⟩
  rw [hi, shapeIssue, storeOp_ready h, withCtx_some hx, hok, if_neg (by decide), if_pos ha, completeWith_eq hid]

/-- In a pair context it reserves an entry of `cmdq` (12 R271). -/
theorem shapeIssue_reserves {tile : Bool} {sh : BitVec 3} (hi : ∀ s, exec i s = shapeIssue (info i) id tile sh s) (h : Ready i s cu b sl l r)
    (hx : s.ctxs.get? b.ctx = some x) (hid : b.idDone.getLsbD id.toNat = false) (ha : x.ctl.aonly = false) (hok : shapeOk tile l.val = true)
    (hroom : s.cmdqRoom b.ctx x ≠ 0) :
    exec i s = .next (s.completed cu { b with cmdqRes := b.cmdqRes + 1 } id (.shape tile sh.toNat l.val)) := by
  rw [hi, shapeIssue, storeOp_ready h, withCtx_some hx, hok, if_neg (by decide), if_neg (Bool.eq_false_iff.1 ha), if_neg hroom]
  exact completeWith_eq (b := { b with cmdqRes := b.cmdqRes + 1 }) hid s cu _

/-! ### `shstep` -/

theorem Blk.complete_of_not_done {b : Blk} {id : Ident} (hid : b.idDone.getLsbD id.toNat = false) (n : Nat) (e : Eff) :
    b.complete n id (some e) = { b.fin n with idDone := b.idDone ||| (1#32 <<< id.toNat), effs := b.effs ++ [(id.toNat, e)] } := by
  rw [Blk.complete, if_neg (Bool.eq_false_iff.1 hid)]

/-- A ready `shstep` of a loaded register that waits for no other completes with the remainder it leaves and sends its token (12 R272). -/
theorem stepIssue_completes {sh : BitVec 3} {dat : Bool} {t1 : Tgt} (hi : ∀ s, exec i s = stepIssue (info i) id sh.toNat dat s) (ht : (info i).t1 = t1)
    (h : Ready i s cu b sl l r) (hx : s.ctxs.get? b.ctx = some x) (hid : b.idDone.getLsbD id.toNat = false)
    (hw : s.stepWaits b sh.toNat id.toNat = false) {v : Word} {n a : Nat} (hv : v = vecGet (if b.hdr.kind = 1 then x.regs.shA else x.regs.shE) sh.toNat 0)
    (hkind : fld v 62 2 ≠ 0) (hn : n = b.stepRem sh.toNat id.toNat v) (ha : a = min n (stepGrant v)) :
    exec i s = .next (s.setBlk cu.frame
      (({ b.fin cu.slot with idDone := b.idDone ||| (1#32 <<< id.toNat), effs := b.effs ++ [(id.toNat, .shstep sh.toNat (n - a))] } : Blk).send sl
        (stepTok dat a (n - a)) t1)) := by
  have hview : x.regs.sideView (decide (b.hdr.kind = 1)) sh.toNat = v := by
    rw [hv, Regs.sideView]
    simp only [decide_eq_true_eq]
  subst hn ha
  rw [hi, stepIssue, actOp_ready h, withCtx_some hx, if_neg (Bool.eq_false_iff.1 hw)]
  simp only [hview, viewKind, if_neg hkind, Blk.complete_of_not_done hid, ht]

/-- The control-plane token of an `shstep`: the grant above the remainder (12 R272). -/
theorem stepTok_control (a m : Nat) :
    stepTok false a m = .ctl (BitVec.ofNat 64 (a % 2 ^ 20) <<< 20 ||| BitVec.ofNat 64 (m % 2 ^ 20)) none 8 := by
  simp [stepTok, at', Tok.ofWord]

/-- Settles O27: a `bar` command and `sig.inc` make one check, a `shape` checks its request, and an `shstep` that waits for nothing sends its token. -/
theorem synchronisationAndShapeCommandsComplete : Obligations.SynchronisationAndShapeCommandsComplete := by
  unfold Obligations.SynchronisationAndShapeCommandsComplete
  refine ⟨fun p id sc => ?bar, fun p id sc => completes_of_checkedForm (code := 0x34) (exec_sigInc (p := p)), fun p id sh => ?shape,
    fun p id sh t1 => ?step⟩
  case bar =>
    simp only [List.forall_mem_cons]
    exact ⟨barIssue_completes exec_barInit, barIssue_completes exec_barArrive, barIssue_completes exec_barBind, barIssue_completes exec_barDrop,
      fun _ h => absurd h List.not_mem_nil⟩
  case shape =>
    simp only [List.forall_mem_cons]
    exact ⟨⟨shapeIssue_completes exec_shapeV, fun _ _ _ _ _ _ _ => shapeIssue_reserves exec_shapeV⟩,
      ⟨shapeIssue_completes exec_shapeT, fun _ _ _ _ _ _ _ => shapeIssue_reserves exec_shapeT⟩, fun _ h => absurd h List.not_mem_nil⟩
  case step =>
    simp only [List.forall_mem_cons]
    refine ⟨fun s cu b sl l r x v n a h hx hid hw hv hkind hn ha => ?control, fun s cu b sl l r x v n a h hx hid hw hv hkind hn ha => ?data,
      fun _ h => absurd h List.not_mem_nil⟩
    case control =>
      rw [stepIssue_completes exec_shstep rfl h hx hid hw hv hkind hn ha, stepTok_control]
      rfl
    case data => exact stepIssue_completes exec_shstepV rfl h hx hid hw hv hkind hn ha

end Sys2Proof.Machine
end

section
/-!
The statement of `launch` (16 R362) and of the commands of groups, pages, links and virtual devices (17 R381, 19 R413, R420, 20 R438, 21 R462).
-/
namespace Sys2Proof.Machine

variable {s s' : State} {cu : Cur} {b : Blk} {sl : Slot} {l r : Tok} {x : Ctx} {p : Pred} {id : Ident}

/-- Bits 63 to 16 of a word are clear where its value is below 2^16. -/
theorem fld_high_eq_zero {v : Word} (h : v.toNat < 2 ^ 16) : fld v 16 48 = 0 := by
  rw [fld, Nat.shiftRight_eq_div_pow, Nat.div_eq_of_lt h, Nat.zero_mod]

/-- A ready `xshoot` of a canonical address and an address-space number completes (19 R420). -/
theorem execXshoot_completes (p : Pred) (id : Ident) (z : PgSize) :
    Completes (.xshoot p id z) id (fun _ b _ l r => canonical l.val b.pm = true ∧ r.val.toNat < 2 ^ 16) fun _ l r => .xshoot z l.val r.val := by
  rintro s cu b sl l r x h _ hid ⟨hcan, hasn⟩
  rw [exec_xshoot, execXshoot, storeOp_ready h, hcan, if_neg (by decide), fld_high_eq_zero hasn, if_neg (by decide), completeWith_eq hid]

/-- A ready `launch` of a mapped and aligned descriptor, at a queue that its context may use and that has room for it, completes (16 R362). -/
theorem execLaunch_completes {lq : BitVec 2} {q : Part'} {ps : List Part'} (h : Ready (.launch p id lq) s cu b sl l r)
    (hx : s.ctxs.get? b.ctx = some x) (hid : b.idDone.getLsbD id.toNat = false)
    (hacc : s.access (b.who x) l.val 8 8 true false false (b.handleOf x l) = (.ok (q :: ps), s')) (hblk : (s'.blks.get? cu.frame).isSome = true)
    (halign : l.val.toNat % 128 = 0) (hcap : (s'.part x.pk).lqCap lq.toNat ≠ 0) (hprio : b.pm = true ∨ x.ctl.prio.toNat ≤ lq.toNat)
    (hroom : s'.lqRoom x.pk lq.toNat ≠ 0) (hfirst : s'.lqBefore x.pk lq.toNat (sl.launchTime s') = false) :
    exec (.launch p id lq) s = .next (s'.completed cu (b.sawPages (q :: ps)) id (.launch lq.toNat l.val q.pa)) := by
  have hpriv : (!(b.sawPages (q :: ps)).pm && decide (lq.toNat < x.ctl.prio.toNat)) = false := by
    rcases hprio with hpm | hle
    · rw [show (b.sawPages (q :: ps)).pm = true from hpm]
      rfl
    · simp [Nat.not_lt.2 hle]
  rw [exec_launch, execLaunch, storeOp_ready h, withCtx_some hx, checked_ok hacc hblk]
  simp only [halign, hcap, hroom, hfirst, hpriv, ne_eq, not_true_eq_false, decide_false, Bool.or_self, Bool.false_eq_true, if_false]
  exact completeWith_sawPages hid s' cu _ _

/-- Settles O30: each command makes the one check of its chapter; `launch` makes those of its descriptor, its queue and its privilege. -/
theorem systemCommandsComplete : Obligations.SystemCommandsComplete := by
  unfold Obligations.SystemCommandsComplete
  refine ⟨fun p id => ?grp, fun p id z => ?pg, execXshoot_completes, fun p id cls => ?lnk, fun p id => ?vd,
    fun s cu b sl l r x p id lq s' q ps h hx hid hacc hblk halign hcap hprio hroom hfirst =>
      execLaunch_completes h hx hid hacc hblk halign hcap hprio hroom hfirst⟩
  all_goals simp only [List.forall_mem_cons]
  case grp =>
    exact ⟨completes_of_checkedForm exec_grpMake, completes_of_checkedForm exec_grpSplit, completes_of_checkedForm exec_grpJoin,
      completes_of_checkedForm exec_grpFree, fun _ h => absurd h List.not_mem_nil⟩
  case pg =>
    exact ⟨completes_of_checkedForm exec_pgMap, completes_of_checkedForm exec_pgUnmap, completes_of_checkedForm exec_pgPin,
      completes_of_checkedForm exec_pgUnpin, completes_of_checkedForm exec_pgPoison, completes_of_checkedForm exec_pgPromote,
      fun _ h => absurd h List.not_mem_nil⟩
  case lnk =>
    exact ⟨completes_of_checkedForm exec_lnkUp, completes_of_checkedForm exec_lnkDown, completes_of_checkedForm exec_lnkRetrain,
      completes_of_checkedForm exec_lnkChain, completes_of_checkedForm exec_lnkUnchain, fun _ h => absurd h List.not_mem_nil⟩
  case vd =>
    exact ⟨completes_of_checkedForm exec_vdQuiesce, completes_of_checkedForm exec_vdSend, completes_of_checkedForm exec_vdResume,
      completes_of_checkedForm exec_vdRelease, completes_of_checkedForm exec_vdReplay, fun _ h => absurd h List.not_mem_nil⟩

end Sys2Proof.Machine
end

section
/-!
SUPPORT. An object of the state as it reads after it is written, and another object of its kind.
-/
namespace Sys2Proof.Machine

@[simp] theorem State.pkg_setPkg_self (s : State) (k : Nat) (p : Pkg) : (s.setPkg k p).pkg k = p := Tab.getD_put_self _ _ _ _
@[simp] theorem State.part_setPart_self (s : State) (k : PartKey) (p : Part) : (s.setPart k p).part k = p := Tab.getD_put_self _ _ _ _
@[simp] theorem State.queue_setQueue_self (s : State) (k : PKey) (q : Queue) : (s.setQueue k q).queue k = q := Tab.getD_put_self _ _ _ _
@[simp] theorem State.jrnl_setJrnl_self (s : State) (k : PKey) (j : Jrnl) : (s.setJrnl k j).jrnl k = j := Tab.getD_put_self _ _ _ _
@[simp] theorem State.rx_setRx_self (s : State) (k : PKey) (r : Rx) : (s.setRx k r).rx k = r := Tab.getD_put_self _ _ _ _
@[simp] theorem State.link_setLink_self (s : State) (k : LinkKey) (l : Link) : (s.setLink k l).link k = l := Tab.getD_put_self _ _ _ _
@[simp] theorem State.bank_setBank_self (s : State) (k : BankKey) (b : BankSt) : (s.setBank k b).bank k = b := Tab.getD_put_self _ _ _ _

theorem State.pkg_setPkg_ne (s : State) {k j : Nat} (h : j ≠ k) (p : Pkg) : (s.setPkg k p).pkg j = s.pkg j := Tab.getD_put_ne _ _ _ _ _ h
theorem State.part_setPart_ne (s : State) {k j : PartKey} (h : j ≠ k) (p : Part) : (s.setPart k p).part j = s.part j := Tab.getD_put_ne _ _ _ _ _ h
theorem State.queue_setQueue_ne (s : State) {k j : PKey} (h : j ≠ k) (q : Queue) : (s.setQueue k q).queue j = s.queue j := Tab.getD_put_ne _ _ _ _ _ h

end Sys2Proof.Machine
end

section
/-!
SUPPORT. Elements appended to a queue without a stage or a journal (14 R314, R323).
-/
namespace Sys2Proof.Machine

variable {s : State} {k : PKey} {el : QElem}

/-- What enters a queue stands behind everything that it holds, in the window or in the cask. -/
theorem Queue.enter_all (q : Queue) (el : QElem) : (q.enter el).all = q.all ++ [el] := by
  unfold Queue.enter
  split
  · simp [Queue.all]
  next hwin =>
    have hcask : q.cask = [] := by
      simp only [Bool.or_eq_true, not_or, decide_eq_true_eq, not_not] at hwin
      exact hwin.1.2
    simp [Queue.all, hcask]

theorem Queue.enter_stage (q : Queue) (el : QElem) : (q.enter el).stage = q.stage := by
  unfold Queue.enter
  split <;> rfl

theorem Queue.enter_journal (q : Queue) (el : QElem) : (q.enter el).journal = q.journal := by
  unfold Queue.enter
  split <;> rfl

theorem Queue.enter_size (q : Queue) (el : QElem) : (q.enter el).size = q.size := by
  unfold Queue.enter
  split <;> rfl

/-- A queue that passes its elements on to itself and keeps no journal. -/
structure Queue.Plain (q : Queue) : Prop where
  stage : q.stage = .pass
  journal : q.journal = false

theorem Queue.Plain.enter {q : Queue} (h : q.Plain) (el : QElem) : (q.enter el).Plain :=
  ⟨(q.enter_stage el).trans h.stage, (q.enter_journal el).trans h.journal⟩

/-- An element that is no marker, appended to such a queue. -/
theorem State.append_plain (h : (s.queue k).Plain) (hm : el.marker = false) (i : Nat) (p : Producer) :
    s.append k i p el = s.setQueue k ((s.queue k).enter { el with bits := trimTo (s.queue k).size el.bits }) := by
  simp only [State.append, State.land, h.stage, h.journal, hm, Bool.false_and, Bool.false_eq_true, if_false, if_true]

/-- A list of elements appended to such a queue: they stand behind what it holds, and nothing else changes but the queue. -/
theorem State.foldl_append_plain {l : List QElem} (hm : ∀ e ∈ l, e.marker = false) (i : Nat) (p : Producer) :
    ∀ {s : State}, (s.queue k).Plain →
      let t := l.foldl (fun s e => s.append k i p e) s
      (t.queue k).all = (s.queue k).all ++ l.map (fun e => { e with bits := trimTo (s.queue k).size e.bits }) ∧ (t.queue k).Plain
        ∧ t.rxs = s.rxs ∧ t.mem = s.mem := by
  induction l with
  | nil => exact fun h => ⟨(List.append_nil _).symm, h, rfl, rfl⟩
  | cons e l ih =>
    intro s h
    obtain ⟨he, hl⟩ := List.forall_mem_cons.1 hm
    have hstep := State.append_plain h he i p
    have hplain : ((s.append k i p e).queue k).Plain := by
      rw [hstep, State.queue_setQueue_self]
      exact h.enter _
    obtain ⟨hall, hp, hrxs, hmem⟩ := ih hl hplain
    refine ⟨?_, hp, hrxs.trans ?_, hmem.trans ?_⟩
    · rw [List.foldl_cons, hall, hstep, State.queue_setQueue_self, Queue.enter_all, Queue.enter_size]
      simp
    · rw [hstep, State.setQueue_rxs]
    · rw [hstep, State.setQueue_mem]

/-- A number of `n` bits is what is left of it at a greater width when the bits from `n` up are cut. -/
theorem ofNat_toNat_mod {w n m : Nat} (hn : n ≤ w) (hm : m < 2 ^ n) : BitVec.ofNat w ((BitVec.ofNat w m).toNat % 2 ^ n) = BitVec.ofNat w m := by
  rw [BitVec.toNat_ofNat, Nat.mod_eq_of_lt (lt_of_lt_of_le hm (Nat.pow_le_pow_right (by decide) hn)), Nat.mod_eq_of_lt hm]

/-- Bytes that fit an element are what is left of them when they are trimmed to it. -/
theorem trimTo_leNat {size : Nat} {l : List Byte} (hsize : 8 * size ≤ 4096) (hl : l.length ≤ size) :
    trimTo size (BitVec.ofNat 4096 (leNat l)) = BitVec.ofNat 4096 (leNat l) :=
  ofNat_toNat_mod hsize (lt_of_lt_of_le (leNat_lt l) (Nat.pow_le_pow_right (by decide) (Nat.mul_le_mul_left 8 hl)))

theorem Queue.size_le (q : Queue) : 8 * q.size ≤ 4096 := by
  unfold Queue.size
  split <;> decide

end Sys2Proof.Machine
end

section
/-!
The statement of FRAME_RECEIVE (20 R432 to R435).
-/
namespace Sys2Proof.Machine

variable {s : State} {k port : Nat} {fr : Frame} {e : Word} {rk : PKey} {q : Queue}

/-! ### Which context a frame maps to -/

/-- A frame that matches no entry counts as unmatched at its port (20 R432). -/
theorem execFrameReceive_unmatched (hs : s.site = .frameIn k port fr) (hform : (s.pkg k).form ≠ .bare) (he : (s.pkg k).portEntry port fr.dst = none) :
    execFrameReceive s
      = .next (s.setPkg k { s.pkg k with unmatched := vecSet (s.pkg k).unmatched port (vecGet (s.pkg k).unmatched port 0 + 1) }) := by
  simp [execFrameReceive, hs, Pkg.bare, hform, he]

/-- A frame that maps to an enabled context of its port is classified there (20 R432). -/
theorem execFrameReceive_mapped (hs : s.site = .frameIn k port fr) (hform : (s.pkg k).form ≠ .bare) (he : (s.pkg k).portEntry port fr.dst = some e)
    (hrk : rk = ⟨⟨k, fld e 8 5⟩, fld e 0 8⟩) (hen : (s.rx rk).cfg.getLsbD 63 = true) (hport : fld (s.rx rk).cfg 56 3 = port) :
    execFrameReceive s = .next (s.classify rk fr) := by
  subst hrk
  simp [execFrameReceive, hs, Pkg.bare, hform, he, hen, hport]

/-! ### How it is counted (20 R433) -/

/-- A frame counted in a receive context, which changes in nothing else. -/
def State.counted (s : State) (rk : PKey) (w : Landed) : State := s.setRx rk { s.rx rk with cnt := (s.rx rk).cnt.count w }

/-- The elements that a frame takes in a queue (20 R434). -/
def landCount (fr : Frame) (q : Queue) : Nat := (fr.payload.length + 16 + q.size - 1) / q.size

/-- The landing queue that a receive context names. -/
def State.landQueue (s : State) (rk : PKey) : PKey := objKey rk.pk (fld (s.rx rk).cfg 30 12)

/-- The producer that a receive context's port is to its landing queue. -/
def State.landPort (s : State) (rk : PKey) : Producer := .port (fld (s.rx rk).cfg 56 3) rk.n

/-- A receive context that drops old frames makes room (20 R435). -/
def State.roomMade (s : State) (rk : PKey) (n : Nat) : State :=
  let q := s.queue (s.landQueue rk)
  if fld (s.rx rk).cfg 59 2 = 2 && (q.state = .open || q.state = .spilling) then s.evictFor (s.landQueue rk) rk n (q.landFrames.length + 1) else s

/-- A frame counted as delivered, whose elements enter a queue of elements of some size (20 R434). -/
def State.delivered (s : State) (k rk : PKey) (p : Producer) (fr : Frame) (size n : Nat) (journal : Bool) : State :=
  let s := s.counted rk .delivered
  let j0 := (s.jrnl k).ents.length
  let s := (landElems fr n size (s.rx rk).cnt.recv.toNat (s.queue k).prnd).foldl (fun s e => s.append k 0 p e) s
  let s := if journal then s.setJrnl k { s.jrnl k with ents := (s.jrnl k).ents.modify j0 fun e => { e with fr := n } } else s
  let q := s.queue k
  s.setQueue k { q with landFrames := q.landFrames ++ [(n, n)] }

/-- Whether a frame is too long for an allocated landing queue (20 R433, row 3). -/
def oversized (fr : Frame) (q : Queue) : Bool := q.state ≠ .unallocated && (64 < landCount fr q || q.capacity < landCount fr q)

/-- The rows of R433 in their order. -/
theorem State.classify_eq (s : State) (rk : PKey) (fr : Frame) :
    s.classify rk fr =
      let q := s.queue (s.landQueue rk)
      let t := s.roomMade rk (landCount fr q)
      if s.keyFails rk (s.rx rk).cfg fr then s.counted rk .key
      else if !fr.tagOk || !fr.headerOk || !fr.seqOk then s.counted rk .integrity
      else if oversized fr q then s.counted rk .oversize
      else if !(s.part rk.pk).st.runs then s.counted rk .full
      else if !t.landFits (s.landQueue rk) (s.landPort rk) (landCount fr q) then t.counted rk .full
      else t.delivered (s.landQueue rk) rk (s.landPort rk) fr q.size (landCount fr q) q.journal := rfl

theorem State.classify_key (h : s.keyFails rk (s.rx rk).cfg fr = true) : s.classify rk fr = s.counted rk .key := by
  rw [State.classify_eq]
  exact if_pos h

section
variable (hkey : s.keyFails rk (s.rx rk).cfg fr = false)
include hkey

theorem State.classify_integrity (h : fr.tagOk = false ∨ fr.headerOk = false ∨ fr.seqOk = false) : s.classify rk fr = s.counted rk .integrity := by
  have hbad : (!fr.tagOk || !fr.headerOk || !fr.seqOk) = true := by rcases h with h | h | h <;> simp [h]
  rw [State.classify_eq]
  simp only [hkey, hbad, Bool.false_eq_true, if_true, if_false]

variable (htag : fr.tagOk = true) (hheader : fr.headerOk = true) (hseq : fr.seqOk = true)
include htag hheader hseq

theorem State.classify_oversize (h : oversized fr (s.queue (s.landQueue rk)) = true) : s.classify rk fr = s.counted rk .oversize := by
  rw [State.classify_eq]
  simp only [hkey, htag, hheader, hseq, h, Bool.not_true, Bool.or_self, Bool.false_eq_true, if_true, if_false]

variable (hfits : oversized fr (s.queue (s.landQueue rk)) = false)
include hfits

theorem State.classify_notRunning (hrun : (s.part rk.pk).st.runs = false) : s.classify rk fr = s.counted rk .full := by
  rw [State.classify_eq]
  simp only [hkey, htag, hheader, hseq, hfits, hrun, Bool.not_true, Bool.not_false, Bool.or_self, Bool.false_eq_true, if_true, if_false]

variable (hrun : (s.part rk.pk).st.runs = true)
include hrun

/-- Where it is not dropped for a newer one, a frame that finds no room is counted full (20 R433, row 4). -/
theorem State.classify_full (hdrop : fld (s.rx rk).cfg 59 2 ≠ 2)
    (hroom : s.landFits (s.landQueue rk) (s.landPort rk) (landCount fr (s.queue (s.landQueue rk))) = false) : s.classify rk fr = s.counted rk .full := by
  have hmade (n : Nat) : s.roomMade rk n = s := if_neg (by simp [hdrop])
  rw [State.classify_eq]
  simp only [hkey, htag, hheader, hseq, hfits, hrun, hmade, hroom, Bool.not_true, Bool.not_false, Bool.or_self, Bool.false_eq_true, if_true, if_false]

/-- A frame that finds room is delivered, and nothing is evicted for it (20 R433, row 5, R435). -/
theorem State.classify_delivered (hroom : landCount fr (s.queue (s.landQueue rk)) ≤ s.room (s.landQueue rk))
    (hlands : s.landFits (s.landQueue rk) (s.landPort rk) (landCount fr (s.queue (s.landQueue rk))) = true) :
    s.classify rk fr = s.delivered (s.landQueue rk) rk (s.landPort rk) fr (s.queue (s.landQueue rk)).size (landCount fr (s.queue (s.landQueue rk)))
      (s.queue (s.landQueue rk)).journal := by
  have hmade : s.roomMade rk (landCount fr (s.queue (s.landQueue rk))) = s := by
    simp only [State.roomMade, State.evictFor, if_pos hroom, ite_self]
  rw [State.classify_eq]
  simp only [hkey, htag, hheader, hseq, hfits, hrun, hmade, hlands, Bool.not_true, Bool.or_self, Bool.false_eq_true, if_false]

end

/-- A frame is not oversized where its queue is not allocated, or where it fits one element list and the window. -/
theorem oversized_eq_false (h : q.state = .unallocated ∨ landCount fr q ≤ 64 ∧ landCount fr q ≤ q.capacity) : oversized fr q = false := by
  rcases h with hst | ⟨h64, hcap⟩
  · simp [oversized, hst]
  · simp [oversized, Nat.not_lt.2 h64, Nat.not_lt.2 hcap]

/-! ### What a delivered frame leaves (20 R434) -/

/-- The bytes of a delivered frame: its header of 16 bytes, and its payload. -/
def landBytes (fr : Frame) (n recv : Nat) : List Byte :=
  leBytes 2 fr.payload.length ++ leBytes 2 n ++ leBytes 4 recv ++ leBytes 4 fr.source.toNat ++ leBytes 4 0 ++ fr.payload

/-- An element of a delivered frame. -/
def landElem (fr : Frame) (n size recv : Nat) (round : BitVec 16) (i : Nat) : QElem :=
  { bits := BitVec.ofNat 4096 (leNat (((landBytes fr n recv).drop (i * size)).take size)), round := round }

theorem landElems_eq (fr : Frame) (n size recv : Nat) (round : BitVec 16) :
    landElems fr n size recv round = (List.range n).map (landElem fr n size recv round) := rfl

theorem landElems_marker {n size recv : Nat} {round : BitVec 16} : ∀ el ∈ landElems fr n size recv round, el.marker = false := by
  rw [landElems_eq]
  exact List.forall_mem_map.2 fun _ _ => rfl

/-- The elements of a frame fit the elements of the queue. -/
theorem landElems_trimmed (q : Queue) (n recv : Nat) (round : BitVec 16) :
    ((landElems fr n q.size recv round).map fun e => { e with bits := trimTo q.size e.bits }) = landElems fr n q.size recv round := by
  rw [landElems_eq, List.map_map]
  refine List.map_congr_left fun i _ => ?_
  simp only [Function.comp, landElem, trimTo_leNat q.size_le (List.length_take_le _ _)]

/-- A delivered frame in a queue that keeps no journal: its count, the elements behind those that the queue held, and memory. -/
theorem State.delivered_spec {k : PKey} (p : Producer) (hplain : (s.queue k).Plain) (n : Nat) :
    let t := s.delivered k rk p fr (s.queue k).size n false
    (t.rx rk).cnt = (s.rx rk).cnt.count .delivered
      ∧ (t.queue k).all = (s.queue k).all ++ landElems fr n (s.queue k).size ((s.rx rk).cnt.recv + 1).toNat (s.queue k).prnd ∧ t.mem = s.mem := by
  have hcnt : ((s.counted rk .delivered).rx rk).cnt = (s.rx rk).cnt.count .delivered := by rw [State.counted, State.rx_setRx_self]
  have hrecv : ((s.counted rk .delivered).rx rk).cnt.recv = (s.rx rk).cnt.recv + 1 := by rw [hcnt]; rfl
  obtain ⟨hall, -, hrxs, hmem⟩ := State.foldl_append_plain (s := s.counted rk .delivered) (k := k)
    (landElems_marker (fr := fr) (n := n) (size := (s.queue k).size) (recv := ((s.rx rk).cnt.recv + 1).toNat) (round := (s.queue k).prnd)) 0 p hplain
  simp only [State.delivered, hrecv, Bool.false_eq_true, if_false]
  refine ⟨?count, ?elements, hmem⟩
  case count =>
    refine Eq.trans ?_ hcnt
    exact congrArg (fun l => (Tab.getD l rk {}).cnt) hrxs
  case elements =>
    rw [State.queue_setQueue_self]
    refine hall.trans ?_
    exact congrArg ((s.queue k).all ++ ·) (landElems_trimmed (s.queue k) n _ _)

/-- Settles O48: a frame maps to a context or counts as unmatched, and a mapped one is counted in the first row of R433 that matches. -/
theorem frameReceiveClassifies : Obligations.FrameReceiveClassifies := by
  unfold Obligations.FrameReceiveClassifies
  intro s k port fr hs hform
  refine ⟨fun he hport => ?unmatched, ?mapped⟩
  case unmatched =>
    refine ⟨_, (exec_frameReceive s).trans (execFrameReceive_unmatched hs hform he), ?_, rfl, rfl, rfl⟩
    rw [State.pkg_setPkg_self]
    exact vecGet_vecSet_self hport _ _ _
  case mapped =>
    rintro e rk x kq q n he hrk rfl hen hport hkq hq hn
    have hkq' : kq = s.landQueue rk := hkq
    have hport' : s.landPort rk = .port port rk.n := by rw [State.landPort, hport]
    subst hkq' hq
    have hn' : n = landCount fr (s.queue (s.landQueue rk)) := hn
    subst hn'
    have hexec : exec .frameReceive s = .next (s.classify rk fr) := (exec_frameReceive s).trans (execFrameReceive_mapped hs hform he hrk hen hport)
    rw [hexec]
    refine ⟨fun hkey => by rw [State.classify_key hkey]; rfl, fun hkey hbad => by rw [State.classify_integrity hkey hbad]; rfl,
      fun hkey htag hheader hseq => ⟨fun hst hsize => ?oversize, fun hfits hrun => ?notRunning, fun hfits hrun hdrop hfull => ?full,
        fun hrun h64 hcap hst hkind hroom hstage _ hjournal => ?delivered⟩⟩
    case oversize =>
      rw [State.classify_oversize hkey htag hheader hseq (by simp [oversized, hst, hsize])]
      rfl
    case notRunning =>
      rw [State.classify_notRunning hkey htag hheader hseq (oversized_eq_false hfits) hrun]
      rfl
    case full =>
      have hno : s.landFits (s.landQueue rk) (s.landPort rk) (landCount fr (s.queue (s.landQueue rk))) = false := by
        rw [hport']
        rcases hfull with ⟨hopen, hspill⟩ | hkind | hroom
        · simp [State.landFits, hopen, hspill]
        · simp [State.landFits, hkind]
        · simp [State.landFits, Nat.not_le.2 hroom]
      rw [State.classify_full hkey htag hheader hseq (oversized_eq_false hfits) hrun hdrop hno]
      rfl
    case delivered =>
      have hlands : s.landFits (s.landQueue rk) (s.landPort rk) (landCount fr (s.queue (s.landQueue rk))) = true := by
        simp [State.landFits, State.roomFor, hst, hkind, hjournal, hroom]
      obtain ⟨hcnt, hall, hmem⟩ := State.delivered_spec (rk := rk) (fr := fr) (s.landPort rk) ⟨hstage, hjournal⟩ (landCount fr (s.queue (s.landQueue rk)))
      rw [State.classify_delivered hkey htag hheader hseq (oversized_eq_false (.inr ⟨h64, hcap⟩)) hrun hroom hlands, hjournal]
      refine ⟨_, _, rfl, hcnt, hall, by simp [landElems_eq], hmem, fun i hi => ⟨landElem fr _ _ _ _ i, ?_, rfl, rfl, rfl⟩⟩
      rw [landElems_eq, List.getElem?_map, List.getElem?_range hi]
      rfl

end Sys2Proof.Machine
end

section
/-!
THEOREMS. Link and chain events (07 R172, 20 R425 to R431): a refutation. The statement takes every state, also one whose typed buffers are not in the
canonical form that `Memory.wf` names. `Memory.read` stops at the first cell above its address, so that a cell which stands behind a higher one does
not show; a scrub that takes the higher cell away uncovers it.
-/
namespace Sys2Proof.Machine

/-- Bank 1 of buffer W of core 0. -/
def scrubbedBank : BankKey := ⟨0, 0, .w, 1⟩

/-- A bank that is being scrubbed, its first byte in front of byte 0 of bank 0 in the table of the buffers. -/
def unsortedBufState : State := { State.reset with site := .bank scrubbedBank, banks := [(scrubbedBank, .scrubbing none)], bufs := [(32768, 1), (0, 2)] }

/-- Byte 0 lies outside the bank and reads 0 before the scrub, and 2 after it. -/
theorem exec_bankScrubDone_unsortedBufState :
    ∃ t, exec .bankScrubDone unsortedBufState = .next t ∧ t.bufs.read 0 = 2 := ⟨_, rfl, rfl⟩

/-- Refutes O45: a scrub of bank 1 changes what byte 0 of bank 0 reads as, in a state whose cells of the typed buffers do not rise. -/
theorem not_linkAndChainEvents : ¬ Obligations.LinkAndChainEvents := by
  unfold Obligations.LinkAndChainEvents
  rintro ⟨-, -, -, -, -, -, hbank, -⟩
  obtain ⟨-, hscrub⟩ := hbank unsortedBufState scrubbedBank 0 none rfl
  obtain ⟨t, hexec, -, -, -, hread⟩ := hscrub rfl
  obtain ⟨u, hstep, hbyte⟩ := exec_bankScrubDone_unsortedBufState
  obtain rfl : u = t := Host.Outcome.next.inj (hstep.symm.trans hexec)
  exact absurd ((hread 0).symm.trans hbyte) (by decide)

end Sys2Proof.Machine
end

section
/-!
THEOREMS. Virtual device events (21 R446 to R459): a refutation. The statement takes every state, also one whose table of kernels lists a key twice. A replay
changes the first entry of a key that its record returns; where the record's own tail lies at that key, the entry counts as accepted after the record,
and one that no host entry made is forgotten: what the key then finds is the second entry, which the replay has not changed.
-/
namespace Sys2Proof.Machine

/-- The slot of the counterexample. -/
def twiceSlot : PartKey := ⟨0, 0⟩

/-- The kernel that the table lists twice. -/
def twiceKern : KernKey := ⟨twiceSlot, 0, 0⟩

/-- A record with one kernel that runs, at the tail of its launch queue. -/
def tailRecord : FenceRec := { kerns := [{ lq := 0, seq := 0, st := .running, cuts := [] }] }

/-- A replaying slot whose kernel stands twice in the table: replaying, and running. -/
def twiceKernState : State :=
  { State.reset with
    site := .part twiceSlot
    parts := [(twiceSlot, { st := .replaying, recd := some tailRecord })]
    kerns := [(twiceKern, { st := .replaying, pa := 0, va := 0, srcPriv := false, host := false }),
      (twiceKern, { st := .running, pa := 0, va := 0, srcPriv := false, host := true })] }

/-- The replay of that slot leaves the second entry, which runs. -/
theorem exec_replayComplete_twiceKernState :
    ∃ t, exec .replayComplete twiceKernState = .next t ∧ (t.kerns.get? twiceKern).map Kern.st = some .running := ⟨_, rfl, rfl⟩

/-- Refutes O46: a kernel that the record returns is not accepted after the replay, in a state whose table of kernels lists its key twice. -/
theorem not_virtualDeviceEvents : ¬ Obligations.VirtualDeviceEvents := by
  unfold Obligations.VirtualDeviceEvents
  rintro ⟨hpart, -⟩
  obtain ⟨-, -, -, hreplay, -⟩ := hpart twiceKernState twiceSlot rfl
  obtain ⟨t, hexec, -, hkerns⟩ := hreplay tailRecord _ rfl rfl rfl rfl rfl Iff.rfl
  obtain ⟨u, hstep, hst⟩ := exec_replayComplete_twiceKernState
  obtain rfl : u = t := Host.Outcome.next.inj (hstep.symm.trans hexec)
  obtain ⟨k, hk, hrun⟩ := Option.map_eq_some_iff.mp hst
  have hacc : k.st = .accepted := hkerns ⟨0, 0, .running, []⟩ (List.mem_singleton.mpr rfl) rfl k hk
  rw [hacc] at hrun
  exact absurd hrun (by decide)

end Sys2Proof.Machine
end

section
/-!
SUPPORT. What leaves memory as it is (07 R154): a function of the model that writes no byte of it has one lemma, the equation `(f s).mem = s.mem`. What
holds by unfolding is proved by `(rfl)` in parentheses: `simp` then takes it as any other equation. The files are taken in the model's order.
-/
namespace Sys2Proof.Machine
variable {s : State}

@[simp] theorem mem_ite (c : Prop) [Decidable c] (s t : State) : (if c then s else t).mem = if c then s.mem else t.mem := apply_ite State.mem c s t

theorem mem_foldl {α : Type} {f : State → α → State} (hf : ∀ s a, (f s a).mem = s.mem) (l : List α) (s : State) : (l.foldl f s).mem = s.mem := by
  induction l generalizing s with
  | nil => rfl
  | cons a l ih => rw [List.foldl_cons, ih, hf]

/-! ### Machine/Walk -/

@[simp] theorem mem_refetchUses {pk page} : (s.refetchUses pk page).mem = s.mem := by
  refine mem_foldl (fun _ _ => ?_) _ _
  rfl
@[simp] theorem mem_shoot {pk page thr key} : (s.shoot pk page thr key).mem = s.mem := by simp [State.shoot]

/-! ### Machine/Sync -/

@[simp] theorem mem_resolve {f} : (s.resolve f).mem = s.mem := (rfl)
@[simp] theorem mem_resolveBar {k b} : (s.resolveBar k b).mem = s.mem := (rfl)
@[simp] theorem mem_poison {k} : (s.poison k).mem = s.mem := by simp [State.poison]

@[simp] theorem mem_bindFails {b} : (s.bindEnds false b).mem = s.mem := by
  unfold State.bindEnds
  split <;> simp

@[simp] theorem mem_bindsFail {l} : (s.bindsFail l).mem = s.mem := mem_foldl (fun _ _ => mem_bindFails) _ _

@[simp] theorem mem_freeGroupBars {k} : (s.freeGroupBars k).mem = s.mem := mem_foldl (fun _ _ => by simp) _ _
@[simp] theorem mem_freeBars {pk} : (s.freeBars pk).mem = s.mem := mem_foldl (fun _ _ => by simp) _ _

/-! ### Machine/Life -/

@[simp] theorem mem_unpin {m} : (s.unpin m).mem = s.mem := by
  refine mem_foldl (fun _ _ => ?_) _ _
  rfl
@[simp] theorem mem_dropRoles {c q} : (s.dropRoles c q).mem = s.mem := (rfl)

@[simp] theorem mem_emptyEngines {c} : (s.emptyEngines c).mem = s.mem := by
  unfold State.emptyEngines
  split
  · rfl
  · simp [mem_foldl]

@[simp] theorem mem_consider {pk} : (s.consider pk).mem = s.mem := by simp [State.consider]

@[simp] theorem mem_endCtx {c} : (s.endCtx c).mem = s.mem := by
  unfold State.endCtx
  split <;> simp

@[simp] theorem mem_dropGroups {k} : (s.dropGroups k).mem = s.mem := mem_foldl (fun _ _ => mem_freeGroupBars) _ _
@[simp] theorem mem_endKern {k} : (s.endKern k).mem = s.mem := by simp [State.endKern, mem_foldl]
@[simp] theorem mem_report {k r} : (s.report k r).mem = s.mem := (rfl)

@[simp] theorem mem_wipePart {pk} : (s.wipePart pk).mem = s.mem := by simp [State.wipePart, mem_foldl]

@[simp] theorem mem_vdEnd {pk st} : (s.vdEnd pk st).mem = s.mem := by
  unfold State.vdEnd
  split <;> rfl
@[simp] theorem mem_dropVd {pk} : (s.dropVd pk).mem = s.mem := mem_vdEnd

/-! ### Machine/Ops to Machine/Package -/

@[simp] theorem mem_askPage {pk pg} : (s.askPage pk pg).mem = s.mem := by simp [State.askPage]
@[simp] theorem mem_arriveAt {a line} : (s.arriveAt a line).mem = s.mem := by simp [State.arriveAt]
@[simp] theorem mem_touch {pk} : (s.touch pk).mem = s.mem := (rfl)

@[simp] theorem mem_tailOn {pk n fuel} : (s.tailOn pk n fuel).mem = s.mem := by
  induction fuel generalizing s with
  | zero => rfl
  | succ fuel ih =>
    simp only [State.tailOn]
    split <;> simp [ih]

@[simp] theorem mem_keepOn {pk n fuel} : (s.keepOn pk n fuel).mem = s.mem := by
  induction fuel generalizing s with
  | zero => rfl
  | succ fuel ih =>
    simp only [State.keepOn]
    split <;> simp [ih]

@[simp] theorem mem_groupSaved {k} : (s.groupSaved k).mem = s.mem := by
  unfold State.groupSaved
  split
  · rfl
  · split
    · rw [mem_consider, State.updGroup_mem]
      refine mem_foldl (fun _ _ => ?_) _ _
      rfl
    · rfl

@[simp] theorem mem_saveGroup {k hold for'} : (s.saveGroup k hold for').mem = s.mem := by simp [State.saveGroup]
@[simp] theorem mem_mbEnd {k why} : (s.mbEnd k why).mem = s.mem := (rfl)
@[simp] theorem mem_releaseBanks {pk} : (s.releaseBanks pk).mem = s.mem := (rfl)
@[simp] theorem mem_vacate {pk} : (s.vacate pk).mem = s.mem := by simp [State.vacate]
@[simp] theorem mem_giveBanks {pk a} : (s.giveBanks pk a).mem = s.mem := by
  refine mem_foldl (fun _ _ => ?_) _ _
  rfl

end Sys2Proof.Machine
end

section
/-!
SUPPORT. What leaves the books of the launch queues as they are (16 R362, R366, R372): the table of kernels, and of a slot the heads and tails of its launch
queues and what a fence goes by. A function of the model that changes none of them has one lemma, the equation `(f s).books pk = s.books pk`. The files are
taken in the model's order.
-/
namespace Sys2Proof.Machine

/-- What the launch queues and the fences of a slot go by (16 R362, R371, R372). -/
structure Marks where
  head : Vector (BitVec 32) 4
  tail : Vector (BitVec 32) 4
  fseq : BitVec 32
  fenceReq : Bool
  fencing : Bool
  ending : List (Nat × Nat)

/-- The marks of a slot. -/
def Part.marks (p : Part) : Marks := ⟨p.head, p.tail, p.fseq, p.fenceReq, p.fencing, p.ending⟩

/-- The kernels, and the marks of a slot. -/
def State.books (s : State) (pk : PartKey) : Tab KernKey Kern × Marks := (s.kerns, (s.part pk).marks)

variable {s t : State} {pk : PartKey}

theorem kerns_of_books (h : t.books pk = s.books pk) : t.kerns = s.kerns := congrArg Prod.fst h
theorem marks_of_books (h : t.books pk = s.books pk) : (t.part pk).marks = (s.part pk).marks := congrArg Prod.snd h

@[simp] theorem books_ite (c : Prop) [Decidable c] (s t : State) : (if c then s else t).books pk = if c then s.books pk else t.books pk :=
  apply_ite (State.books · pk) c s t

theorem books_foldl {α : Type} {f : State → α → State} (hf : ∀ s a, (f s a).books pk = s.books pk) (l : List α) (s : State) :
    (l.foldl f s).books pk = s.books pk := by
  induction l generalizing s with
  | nil => rfl
  | cons a l ih => rw [List.foldl_cons, ih, hf]

theorem books_setPart {k : PartKey} {p : Part} (h : p.marks = (s.part k).marks) : (s.setPart k p).books pk = s.books pk := by
  by_cases hk : pk = k
  · subst hk
    simp [State.books, h]
  · rw [State.books, State.part_setPart_ne s hk]
    rfl

/-! ### Machine/Base, Machine/Phys, Machine/Walk -/

@[simp] theorem books_setPkg {k p} : (s.setPkg k p).books pk = s.books pk := (rfl)
@[simp] theorem books_setQueue {k q} : (s.setQueue k q).books pk = s.books pk := (rfl)
@[simp] theorem books_setJrnl {k j} : (s.setJrnl k j).books pk = s.books pk := (rfl)
@[simp] theorem books_setBar {k b} : (s.setBar k b).books pk = s.books pk := (rfl)
@[simp] theorem books_setCtx {c x} : (s.setCtx c x).books pk = s.books pk := (rfl)
@[simp] theorem books_updCtx {c f} : (s.updCtx c f).books pk = s.books pk := (rfl)
@[simp] theorem books_discard {p} : (s.discard p).books pk = s.books pk := (rfl)
@[simp] theorem books_drawBits : s.drawBits.2.books pk = s.books pk := (rfl)

@[simp] theorem books_freeBytes {n} : (s.freeBytes n).2.books pk = s.books pk := by
  induction n generalizing s with
  | zero => rfl
  | succ n ih => exact ih

@[simp] theorem books_poke {k pa l} : (s.poke k pa l).books pk = s.books pk := by
  unfold State.poke
  split <;> rfl

@[simp] theorem books_pokeW {k pa v} : (s.pokeW k pa v).books pk = s.books pk := books_poke
@[simp] theorem books_freshen {k pa len} : (s.freshen k pa len).books pk = s.books pk := (rfl)
@[simp] theorem books_poke128 {k pa v} : (s.poke128 k pa v).books pk = s.books pk := books_poke

@[simp] theorem books_setPte {k l e} : (s.setPte k l e).books pk = s.books pk := by cases l <;> exact books_poke
@[simp] theorem part_setPte {k l e j} : (s.setPte k l e).part j = s.part j := by
  cases l <;> simp only [State.setPte, State.poke128, State.poke] <;> split <;> rfl

@[simp] theorem books_setAnchor {k pa n} : (s.setAnchor k pa n).books pk = s.books pk := books_poke

@[simp] theorem books_relink {k old new at' n} : (s.relink k old new at' n).books pk = s.books pk := by
  induction n generalizing at' with
  | zero => cases at' <;> rfl
  | succ n ih =>
    cases at' with
    | none => rfl
    | some p =>
      simp only [State.relink]
      split
      · exact books_poke128
      · exact ih

@[simp] theorem books_unchain {k e old new} : (s.unchain k e old new).books pk = s.books pk := by
  unfold State.unchain
  split <;> simp

@[simp] theorem books_refetchUses {k page} : (s.refetchUses k page).books pk = s.books pk := by
  refine books_foldl (fun _ _ => ?_) _ _
  rfl
@[simp] theorem books_shoot {k page thr key} : (s.shoot k page thr key).books pk = s.books pk := books_refetchUses (s := s)
@[simp] theorem books_shootPte {k l e} : (s.shootPte k l e).books pk = s.books pk := books_foldl (fun _ _ => books_shoot) _ _
@[simp] theorem books_setPageState {k l e st sidx} : (s.setPageState k l e st sidx).books pk = s.books pk := books_shootPte.trans books_setPte

@[simp] theorem books_twin {k pa l} : (s.twin k pa l).books pk = s.books pk := by
  unfold State.twin State.atTwin
  split
  · rfl
  · exact books_poke
  · exact books_setPart rfl

@[simp] theorem books_setPool {k n used frame} : (s.setPool k n used frame).books pk = s.books pk := books_twin.trans books_pokeW

@[simp] theorem books_dropShadow {k l e st} : (s.dropShadow k l e st).books pk = s.books pk := by simp [State.dropShadow]

@[simp] theorem books_promote {k l e st} : (s.promote k l e st).books pk = s.books pk := by
  unfold State.promote
  cases l <;> simp

@[simp] theorem books_unitWrite {k pa l} : (s.unitWrite k pa l).books pk = s.books pk := books_twin.trans books_poke

/-! ### Machine/Sync -/

@[simp] theorem books_resolve {f} : (s.resolve f).books pk = s.books pk := (rfl)
@[simp] theorem books_resolveBar {k b} : (s.resolveBar k b).books pk = s.books pk := (rfl)
@[simp] theorem books_poison {k} : (s.poison k).books pk = s.books pk := by simp [State.poison]

@[simp] theorem books_bindFails {b} : (s.bindEnds false b).books pk = s.books pk := by
  unfold State.bindEnds
  split <;> simp

@[simp] theorem books_bindsFail {l} : (s.bindsFail l).books pk = s.books pk := books_foldl (fun _ _ => books_bindFails) _ _
@[simp] theorem books_freeGroupBars {k} : (s.freeGroupBars k).books pk = s.books pk := books_foldl (fun _ _ => by simp) _ _

/-! ### Machine/Life -/

@[simp] theorem books_unpin {m} : (s.unpin m).books pk = s.books pk := by
  refine books_foldl (fun _ _ => ?_) _ _
  rfl
@[simp] theorem books_dropRoles {c q} : (s.dropRoles c q).books pk = s.books pk := (rfl)

@[simp] theorem books_emptyEngines {c} : (s.emptyEngines c).books pk = s.books pk := by
  unfold State.emptyEngines
  split
  · rfl
  · simp [books_foldl]

@[simp] theorem books_consider {k} : (s.consider k).books pk = s.books pk := by
  simp only [State.consider]
  split
  · rfl
  · exact books_setPart rfl

@[simp] theorem books_endCtx {c} : (s.endCtx c).books pk = s.books pk := by
  unfold State.endCtx
  split <;> simp

@[simp] theorem books_dropGroups {k} : (s.dropGroups k).books pk = s.books pk := books_foldl (fun _ _ => books_freeGroupBars) _ _
@[simp] theorem books_endKern {k} : (s.endKern k).books pk = s.books pk := by simp [State.endKern, books_foldl]

theorem books_changeFenced {k va l e} {f : State → Pte → State} (hf : ∀ t u, (f t u).books pk = t.books pk) :
    (s.changeFenced k va l e f).books pk = s.books pk := by
  simp only [State.changeFenced]
  split
  · exact hf s e
  · split
    · rfl
    · split
      · rw [hf, books_setPte]
      · rw [books_setPart (by rw [part_setPte]; rfl), books_setPte, hf, books_setPte]

@[simp] theorem books_dropShadows {k kn} : (s.dropShadows k kn).books pk = s.books pk := by
  refine books_foldl (fun s va => ?_) _ _
  split
  · exact books_changeFenced fun _ _ => books_dropShadow
  · rfl

@[simp] theorem books_promoteAll {k kn} : (s.promoteAll k kn).books pk = s.books pk := by
  refine books_foldl (fun s va => ?_) _ _
  split
  · exact books_changeFenced fun _ _ => books_promote
  · rfl

@[simp] theorem books_unpinCode {k kn} : (s.unpinCode k kn).books pk = s.books pk := by
  refine books_foldl (fun s va => ?_) _ _
  split <;> simp

/-! ### Machine/Ops to Machine/Kernel -/

@[simp] theorem books_askPage {k pg} : (s.askPage k pg).books pk = s.books pk := by
  simp only [State.askPage]
  split
  · rfl
  · exact books_setPart rfl

@[simp] theorem books_touch {k} : (s.touch k).books pk = s.books pk := books_setPart rfl

@[simp] theorem books_qOpen {k} : (s.qOpen k).books pk = s.books pk := by simp [State.qOpen, State.qErr]

theorem books_openQueues {k die l} (h : s.openQueues k die l = some t) : t.books pk = s.books pk := by
  induction l generalizing s with
  | nil => exact congrArg (State.books · pk) (Option.some.inj h).symm
  | cons e l ih =>
    obtain ⟨n, q⟩ := e
    simp only [State.openQueues] at h
    split at h
    · cases h
    · exact (ih h).trans (books_qOpen.trans books_setQueue)

@[simp] theorem books_fencePages {k asn l} : (s.fencePages k asn l).books pk = s.books pk := by
  refine books_foldl (fun s va => ?_) _ _
  split <;> simp

@[simp] theorem books_pinPages {k asn l} : (s.pinPages k asn l).books pk = s.books pk := by
  refine books_foldl (fun s va => ?_) _ _
  split <;> simp

@[simp] theorem books_recordBytes {k r} : (s.recordBytes k r).2.books pk = s.books pk := books_freeBytes

@[simp] theorem books_trimJournals {k r} : (s.trimJournals k r).books pk = s.books pk := by
  refine books_foldl (fun _ _ => ?_) _ _
  rfl

@[simp] theorem books_keepOn {k n fuel} : (s.keepOn k n fuel).books pk = s.books pk := by
  induction fuel generalizing s with
  | zero => rfl
  | succ fuel ih =>
    simp only [State.keepOn]
    split
    · split
      · exact ih.trans (books_setPart rfl)
      · rfl
    · rfl

end Sys2Proof.Machine
end

section
/-!
SUPPORT. What the end of a kernel makes of the state of its contexts (13 R290, 16 R366): none of them is live. A function of the model that changes no
context's state has one lemma, the equation `(f s).stOf c = s.stOf c`. The files are taken in the model's order.
-/
namespace Sys2Proof.Machine
variable {s t : State} {c : Nat}

/-- The state of a context, where there is one. -/
def State.stOf (s : State) (c : Nat) : Option CtxState := (s.ctxs.get? c).map Ctx.st

/-- A context is not live, where there is one. -/
def State.Over (s : State) (c : Nat) : Prop := ∀ x, s.ctxs.get? c = some x → x.live = false

theorem State.Over.of_stOf (h : t.stOf c = s.stOf c) (ho : s.Over c) : t.Over c := by
  intro y hy
  rw [State.stOf, State.stOf, hy, Option.map_some] at h
  obtain ⟨x, hx, hst⟩ := Option.map_eq_some_iff.mp h.symm
  simpa only [Ctx.live, hst] using ho x hx

theorem stOf_of_ctxs (h : t.ctxs = s.ctxs) : t.stOf c = s.stOf c := by rw [State.stOf, State.stOf, h]

theorem stOf_foldl {α : Type} {f : State → α → State} (hf : ∀ s a, (f s a).stOf c = s.stOf c) (l : List α) (s : State) :
    (l.foldl f s).stOf c = s.stOf c := by
  induction l generalizing s with
  | nil => rfl
  | cons a l ih => rw [List.foldl_cons, ih, hf]

theorem stOf_map {f : Ctx → Ctx} (ht : t.ctxs = s.ctxs.map fun e => (e.1, f e.2)) (hf : ∀ x, (f x).st = x.st) : t.stOf c = s.stOf c := by
  rw [State.stOf, State.stOf, ht, Tab.get?_map s.ctxs f, Option.map_map]
  exact congrArg (Option.map · _) (funext hf)

theorem stOf_updCtx {d : Nat} {f : Ctx → Ctx} (hf : ∀ x, (f x).st = x.st) : (s.updCtx d f).stOf c = s.stOf c := by
  by_cases hd : c = d
  · subst hd
    rw [State.stOf, State.updCtx_ctxs, Tab.get?_upd_self, Option.map_map]
    exact congrArg (Option.map · _) (funext hf)
  · rw [State.stOf, State.updCtx_ctxs, Tab.get?_upd_ne _ _ _ _ hd, State.stOf]

theorem Ctx.setLane_st (x : Ctx) (v : Fetcher) (l : Lane) : (x.setLane v l).st = x.st := by cases v <;> rfl

/-! ### Machine/Walk -/

theorem stOf_refetchUses {pk page} : (s.refetchUses pk page).stOf c = s.stOf c :=
  stOf_foldl (fun s _ => (stOf_updCtx (s := s.discard _) fun x => x.setLane_st _ _).trans (stOf_of_ctxs rfl)) _ _

theorem stOf_shoot {pk page thr key} : (s.shoot pk page thr key).stOf c = s.stOf c := by
  refine (stOf_map (f := fun x => x.shot pk page) (List.map_congr_left fun e _ => ?_) fun x => ?_).trans stOf_refetchUses
  · unfold Ctx.shot
    split <;> rfl
  · unfold Ctx.shot
    split <;> rfl

theorem stOf_setPte {k l e} : (s.setPte k l e).stOf c = s.stOf c := stOf_of_ctxs (s.setPte_ctxs k l e)

theorem stOf_setPageState {pk l e st sidx} : (s.setPageState pk l e st sidx).stOf c = s.stOf c :=
  (stOf_foldl (fun _ _ => stOf_shoot) _ _).trans stOf_setPte

theorem stOf_dropShadow {pk l e st} : (s.dropShadow pk l e st).stOf c = s.stOf c := by
  unfold State.dropShadow
  split
  · exact stOf_setPageState.trans (stOf_of_ctxs (State.setPool_ctxs _ _ _ _ _))
  · exact stOf_setPageState

/-! ### Machine/Sync -/

theorem stOf_resolve {f} : (s.resolve f).stOf c = s.stOf c :=
  stOf_map (f := fun x => { x with
    susp := resolveSusp (f x) x.susp
    thr := x.thr.resolve (f x), str := x.str.resolve (f x)
    acts := x.acts.map fun a => (a.1, { a.2 with lane := a.2.lane.resolve (f x) }) }) rfl fun _ => rfl

theorem stOf_resolveBar {k b} : ((s.setBar k b).resolveBar k b).stOf c = s.stOf c := stOf_resolve (s := s.setBar k b)

theorem stOf_poison {k} : (s.poison k).stOf c = s.stOf c := by
  simp only [State.poison]
  split
  · exact stOf_resolveBar
  · rfl

theorem stOf_bindFails {b} : (s.bindEnds false b).stOf c = s.stOf c := by
  unfold State.bindEnds
  split
  · refine iteInduction (motive := fun t : State => t.stOf c = s.stOf c) (fun _ => ?_) fun _ => stOf_poison
    refine stOf_updCtx fun x => ?_
    rfl
  · exact stOf_poison

theorem stOf_freeGroupBars {k} : (s.freeGroupBars k).stOf c = s.stOf c := stOf_foldl (fun _ _ => stOf_resolveBar) _ _

/-! ### Machine/Life -/

theorem stOf_unpin {m} : (s.unpin m).stOf c = s.stOf c := by
  refine stOf_foldl (fun _ _ => ?_) _ _
  rfl

theorem stOf_emptyEngines {d} : (s.emptyEngines d).stOf c = s.stOf c := by
  unfold State.emptyEngines
  split
  · rfl
  · next x _ =>
    have hbinds : (s.bindsFail x.allBinds).stOf c = s.stOf c := stOf_foldl (fun _ _ => stOf_bindFails) _ _
    have hpins := (stOf_foldl (f := State.unpin) (fun _ _ => stOf_unpin) x.fx.q14 _).trans hbinds
    have hroles := (stOf_foldl (f := fun s q => s.dropRoles d q) (fun _ _ => stOf_of_ctxs rfl) (List.range 16) _).trans hpins
    refine (stOf_updCtx fun x => ?_).trans hroles
    rfl

theorem stOf_consider {pk} : (s.consider pk).stOf c = s.stOf c := stOf_of_ctxs (s.consider_ctxs pk)

/-- A context that ends is not live. -/
theorem over_endCtx_self : (s.endCtx c).Over c := by
  unfold State.endCtx
  split
  · next h => exact fun x hx => absurd (h.symm.trans hx) nofun
  · next x h =>
    split
    · next hst =>
      intro y hy
      obtain rfl : x = y := Option.some.inj (h.symm.trans hy)
      simp [Ctx.live, hst]
    · refine .of_stOf stOf_consider fun y hy => ?_
      rw [State.updCtx_ctxs, Tab.get?_upd_self] at hy
      obtain ⟨z, -, rfl⟩ := Option.map_eq_some_iff.mp hy
      by_cases hf : z.st = .faulted <;> simp [Ctx.live, hf]

theorem stOf_endCtx_ne {d : Nat} (hd : c ≠ d) : (s.endCtx d).stOf c = s.stOf c := by
  unfold State.endCtx
  split
  · rfl
  · split
    · rfl
    · rw [stOf_consider, State.stOf, State.updCtx_ctxs, Tab.get?_upd_ne _ _ _ _ hd]
      exact stOf_emptyEngines (s := s.discard _)

theorem over_endCtx {d : Nat} (h : s.Over c) : (s.endCtx d).Over c := by
  by_cases hd : c = d
  · exact hd ▸ over_endCtx_self
  · exact .of_stOf (stOf_endCtx_ne hd) h

theorem over_foldl_endCtx (l : List Nat) (h : s.Over c ∨ c ∈ l) : (l.foldl State.endCtx s).Over c := by
  induction l generalizing s with
  | nil => exact h.resolve_right (List.not_mem_nil)
  | cons d l ih =>
    refine ih (h.elim (fun h => .inl (over_endCtx h)) fun hm => ?_)
    rcases List.mem_cons.mp hm with rfl | hm
    · exact .inl over_endCtx_self
    · exact .inr hm

theorem stOf_dropGroups {k} : (s.dropGroups k).stOf c = s.stOf c := stOf_foldl (f := State.freeGroupBars) (fun _ _ => stOf_freeGroupBars) _ s

theorem over_endKern {x : Ctx} (h : s.ctxs.get? c = some x) : (s.endKern x.kern).Over c := by
  have hmem : c ∈ s.kernCtxs x.kern := List.mem_map.mpr ⟨(c, x), List.mem_filter.mpr ⟨Tab.mem_of_get?_eq_some h, by simp⟩, rfl⟩
  exact .of_stOf (stOf_consider.trans stOf_dropGroups) (over_foldl_endCtx _ (.inr hmem))

theorem stOf_changeFenced {pk va l e} {f : State → Pte → State} (hf : ∀ t u, (f t u).stOf c = t.stOf c) :
    (s.changeFenced pk va l e f).stOf c = s.stOf c := by
  simp only [State.changeFenced]
  split
  · exact hf s e
  · split
    · rfl
    · split
      · exact (hf _ _).trans stOf_setPte
      · exact (stOf_of_ctxs (State.setPte_ctxs _ _ _ _)).trans ((hf _ _).trans stOf_setPte)

theorem stOf_dropShadows {k kn} : (s.dropShadows k kn).stOf c = s.stOf c := by
  refine stOf_foldl (fun s va => ?_) _ _
  split
  · exact stOf_changeFenced fun _ _ => stOf_dropShadow
  · rfl

theorem stOf_unpinCode {k kn} : (s.unpinCode k kn).stOf c = s.stOf c := by
  refine stOf_foldl (fun s va => ?_) _ _
  split
  · split
    · exact stOf_setPte
    · rfl
  · rfl

end Sys2Proof.Machine
end

section
/-!
SUPPORT. What the operations on launch queues make of the table of kernels and of the marks of a slot (16 R360 to R372): acceptance, the end and the fault
of a kernel, placement, and the end of a fence.
-/
namespace Sys2Proof.Machine
variable {s t : State} {pk : PartKey} {kk : KernKey} {k : Kern}

/-! ### Acceptance -/

theorem kerns_tailOn {n fuel : Nat} : (s.tailOn pk n fuel).kerns = s.kerns ∧ (s.tailOn pk n fuel).ctxs = s.ctxs := by
  induction fuel generalizing s with
  | zero => exact ⟨rfl, rfl⟩
  | succ fuel ih =>
    simp only [State.tailOn]
    split
    · split
      · exact ih
      · exact ⟨rfl, rfl⟩
    · exact ⟨rfl, rfl⟩

/-- An acceptance enters the kernel at the tail of its queue, and changes neither memory nor a context (16 R360). -/
theorem accept_spec (s : State) (pk : PartKey) (n : Nat) (k : Kern) :
    (s.accept pk n k).kerns.get? ⟨pk, n, (vecGet (s.part pk).tail n 0).toNat⟩ = some k ∧ (s.accept pk n k).mem = s.mem
      ∧ (s.accept pk n k).ctxs = s.ctxs := by
  simp only [State.accept]
  exact ⟨by rw [kerns_tailOn.1]; exact Tab.get?_put_self _ _ _, by rw [mem_tailOn]; rfl, by rw [kerns_tailOn.2]; rfl⟩

/-- The words of a legal host entry (16 R361): its sequence, its zero fields, and the address of its descriptor. -/
theorem hostWords {w0 w1 : Word} {q : BitVec 32} (h1 : w1.toNat = q.toNat * 2 ^ 32) (hhigh : w0.toNat / 2 ^ 52 = 0) (hlow : w0.toNat % 128 = 0) :
    w1.extractLsb' 32 32 = q ∧ w1.extractLsb' 0 32 = 0 ∧ fld w0 52 12 = 0 ∧ fld w0 0 7 = 0 ∧ fld w0 7 45 * 128 = w0.toNat := by
  refine ⟨BitVec.eq_of_toNat_eq ?_, BitVec.eq_of_toNat_eq ?_, ?_, ?_, ?_⟩
  · simp only [BitVec.extractLsb'_toNat, Nat.shiftRight_eq_div_pow, h1]
    have := q.isLt
    omega
  · rw [BitVec.extractLsb'_toNat, Nat.shiftRight_eq_div_pow, h1]
    rw [Nat.pow_zero, Nat.div_one]
    exact Nat.mod_eq_zero_of_dvd (Nat.dvd_mul_left _ _)
  all_goals simp only [fld, Nat.shiftRight_eq_div_pow]; omega

/-! ### The end and the fault of a kernel -/

/-- What a kernel is once it is faulted (16 R366). -/
def Kern.faultedWith (k : Kern) (status : Nat) (tcode : BitVec 9) : Kern := { k with st := .faulted, status := status, tcode := tcode }

theorem kernFault_eq {status : Nat} {tcode : BitVec 9} (hk : s.kerns.get? kk = some k) (hc : k.st ≠ .complete) (hf : k.st ≠ .faulted) :
    s.kernFault kk status tcode
      = ((((s.updKern kk fun k => k.faultedWith status tcode).endKern kk).dropShadows kk k).unpinCode kk k).reqFence kk.pk := by
  simp only [State.kernFault, hk, hc, hf, decide_false, Bool.or_self, Bool.false_eq_true, if_false]
  rfl

/-- A fault of a kernel enters it as faulted, keeps the heads of its slot and requests a fence (16 R366). -/
theorem kernFault_spec {status : Nat} {tcode : BitVec 9} (hk : s.kerns.get? kk = some k) (hc : k.st ≠ .complete) (hf : k.st ≠ .faulted) :
    (s.kernFault kk status tcode).kerns.get? kk = some (k.faultedWith status tcode)
      ∧ ((s.kernFault kk status tcode).part kk.pk).head = (s.part kk.pk).head ∧ ((s.kernFault kk status tcode).part kk.pk).fenceReq = true := by
  rw [kernFault_eq hk hc hf, State.reqFence]
  have hbooks : ((((s.updKern kk fun k => k.faultedWith status tcode).endKern kk).dropShadows kk k).unpinCode kk k).books kk.pk
      = (s.updKern kk fun k => k.faultedWith status tcode).books kk.pk := by simp
  refine ⟨?_, ?_, ?_⟩
  · rw [State.setPart_kerns, kerns_of_books hbooks, State.updKern_kerns, Tab.get?_upd_self, hk]
    rfl
  · rw [State.part_setPart_self]
    exact congrArg Marks.head (marks_of_books hbooks)
  · rw [State.part_setPart_self]

/-- No context of a kernel that is faulted is live (13 R290, 16 R366). -/
theorem over_kernFault {c : Nat} {x : Ctx} {status : Nat} {tcode : BitVec 9} (hx : s.ctxs.get? c = some x) (hk : s.kerns.get? x.kern = some k)
    (hc : k.st ≠ .complete) (hf : k.st ≠ .faulted) : (s.kernFault x.kern status tcode).Over c := by
  rw [kernFault_eq hk hc hf]
  have hend : ((s.updKern x.kern fun k => k.faultedWith status tcode).endKern x.kern).Over c := over_endKern hx
  exact .of_stOf ((stOf_of_ctxs rfl).trans (stOf_unpinCode.trans stOf_dropShadows)) hend

/-- The head of a launch queue advances (16 R362), and nothing else of its slot changes. -/
theorem headOn_spec (h : kk.lq < 4) :
    (s.headOn kk).kerns = s.kerns ∧ vecGet ((s.headOn kk).part kk.pk).head kk.lq 0 = vecGet (s.part kk.pk).head kk.lq 0 + 1
      ∧ ((s.headOn kk).part kk.pk).fenceReq = (s.part kk.pk).fenceReq := by
  simp only [State.headOn, State.part_setPart_self]
  exact ⟨rfl, vecGet_vecSet_self h _ _ _, trivial⟩

/-! ### Placement -/

theorem kerns_seatCtxs {grp g3 : Nat} {g4 : Word} {l : List ((Nat × Nat) × Bool × Nat)} {idx mem : Nat} :
    (s.seatCtxs kk k grp g3 g4 l idx mem).1.kerns = s.kerns := by
  induction l generalizing s idx mem with
  | nil => rfl
  | cons e l ih =>
    obtain ⟨pos, aonly, base⟩ := e
    simp only [State.seatCtxs]
    refine ih.trans ?_
    split <;> rfl

theorem addGroup_kern {j : Kern} {gnum die idx g3 : Nat} {lvl : BitVec 2} {st : Seats} {g4 : Word} (hj : s.kerns.get? kk = some j) :
    ∃ m, (s.addGroup kk k gnum lvl die st idx g3 g4).kerns.get? kk = some { j with nctx := m } := by
  simp only [State.addGroup, State.updKern_kerns, Tab.get?_upd_self, State.stamp, kerns_seatCtxs, hj]
  exact ⟨_, rfl⟩

/-- Placed groups leave of their kernel all but the number of its next context (16 R369). -/
theorem placeGroups_kern {j : Kern} {l : List Ephem} {gi idx : Nat} (h : s.placeGroups kk k l gi idx = some t) (hj : s.kerns.get? kk = some j) :
    ∃ m, t.kerns.get? kk = some { j with nctx := m } := by
  induction l generalizing s j gi idx with
  | nil => exact ⟨j.nctx, Option.some.inj h ▸ hj⟩
  | cons e l ih =>
    simp only [State.placeGroups] at h
    split at h
    · cases h
    · split at h
      · cases h
      · obtain ⟨m, hm⟩ := addGroup_kern hj
        obtain ⟨m', hm'⟩ := ih h hm
        exact ⟨m', hm'⟩

/-- A kernel whose groups find seats and whose queues open runs, with the pages of its plan (16 R366 to R369, 19 R419). -/
theorem place_kern {u v : State} {p : Plan} {j : Kern} (hk : j = { k with st := .placing })
    (hg : ({ s with kerns := s.kerns.put kk j } : State).placeGroups kk j p.groups 0 0 = some u)
    (hq : u.openQueues kk.pk (((u.groups.filter fun e => e.2.kern = kk).map fun e => e.2.die).headD 0) p.queues = some v) :
    ∃ k', (s.place kk k p).kerns.get? kk = some k' ∧ k'.st = .running ∧ k'.fenced = p.fenced ∧ k'.pinned = p.code := by
  subst hk
  obtain ⟨m, hm⟩ := placeGroups_kern hg (Tab.get?_put_self _ _ _)
  have hpages : ∀ asn, ((v.fencePages kk.pk asn p.fenced).pinPages kk.pk asn p.code).kerns = u.kerns := fun asn =>
    kerns_of_books (pk := kk.pk) (books_pinPages.trans (books_fencePages.trans (books_openQueues hq)))
  have hkerns : ∀ w : State, ((w.headOn kk).touch kk.pk).kerns = w.kerns := fun _ => rfl
  simp only [State.place, hg]
  generalize ((u.groups.filter fun e => e.2.kern = kk).map fun e => e.2.die) = dies at hq
  cases dies
  all_goals
    simp only [List.headD_nil, List.headD_cons] at hq
    simp only [hq]
    rw [hkerns, State.updKern_kerns, Tab.get?_upd_self, hpages, hm]
    exact ⟨_, rfl, rfl, rfl, rfl⟩

/-- A kernel at the head of a launch queue whose descriptor can be read and is not held back (16 R364, R366). -/
structure HeadReady (s : State) (pk : PartKey) (n : Nat) (k : Kern) : Prop where
  found : s.kerns.get? ⟨pk, n, (vecGet (s.part pk).head n 0).toNat⟩ = some k
  runs : (s.part pk).st.runs = true
  waits : vecGet (s.part pk).head n 0 ≠ vecGet (s.part pk).tail n 0
  st : k.st = .accepted ∨ k.st = .placing
  there : ((s.pkg pk.pkg).inLocal k.pa 128 && ((s.part pk).movingAt k.pa).isSome) = false
  target : s.targetOk (unitWho pk 0 false) k.pa 128 false false false = true
  sound : s.evFails pk k.pa 0 = false
  alone : (({ k with desc := s.descOf pk k.pa }.dw 0).getLsbD 9 && s.earlierRuns ⟨pk, n, (vecGet (s.part pk).head n 0).toNat⟩) = false

theorem HeadReady.not_ended {n : Nat} (h : HeadReady s pk n k) : k.st ≠ .complete ∧ k.st ≠ .faulted := by
  rcases h.st with h | h <;> rw [h] <;> exact ⟨nofun, nofun⟩

theorem HeadReady.not_skipped {n : Nat} (h : HeadReady s pk n k) : (decide (k.st ≠ .accepted) && decide (k.st ≠ .placing)) = false := by
  rcases h.st with h | h <;> rw [h] <;> rfl

/-- Such a kernel is refused with the status that its checks find (16 R366, R367). -/
theorem placeHead_refused {n st : Nat} (h : HeadReady s pk n k) (hp : s.plan pk { k with desc := s.descOf pk k.pa } = .refused st) :
    s.placeHead pk n
      = (({ s with kerns := s.kerns.put ⟨pk, n, (vecGet (s.part pk).head n 0).toNat⟩ { k with desc := s.descOf pk k.pa, st := .placing } } : State).kernFault
        ⟨pk, n, (vecGet (s.part pk).head n 0).toNat⟩ st 0).headOn ⟨pk, n, (vecGet (s.part pk).head n 0).toNat⟩ := by
  unfold State.placeHead
  simp only [h.found, h.runs, h.waits, h.not_ended, h.not_skipped, h.there, h.target, h.sound, h.alone, hp, Bool.not_true, decide_false, Bool.or_self,
    Bool.false_and, Bool.false_eq_true, if_false]

/-- Such a kernel is placed by the plan that its checks find (16 R366). -/
theorem placeHead_ok {n : Nat} {pl : Plan} (h : HeadReady s pk n k) (hp : s.plan pk { k with desc := s.descOf pk k.pa } = .ok pl) :
    s.placeHead pk n = s.place ⟨pk, n, (vecGet (s.part pk).head n 0).toNat⟩ { k with desc := s.descOf pk k.pa } pl := by
  unfold State.placeHead
  simp only [h.found, h.runs, h.waits, h.not_ended, h.not_skipped, h.there, h.target, h.sound, h.alone, hp, Bool.not_true, decide_false, Bool.or_self,
    Bool.false_and, Bool.false_eq_true, if_false]

end Sys2Proof.Machine
end

section
/-!
SUPPORT. The end of a fence that ends one kernel (16 R371, R372).
-/
namespace Sys2Proof.Machine
variable {u : State} {kk : KernKey} {k : Kern}

theorem books_keepAll {s : State} {pk j : PartKey} {l : List Nat} : (l.foldl (fun s n => s.keepOn j n 65536) s).books pk = s.books pk :=
  books_foldl (fun _ _ => books_keepOn) _ _

theorem mem_keepAll {s : State} {j : PartKey} {l : List Nat} : (l.foldl (fun s n => s.keepOn j n 65536) s).mem = s.mem :=
  mem_foldl (fun _ _ => mem_keepOn) _ _

/-- A fence whose kernels have ended (16 R372 step 4): none is left to end, and the other marks of its slot stay. -/
theorem fenceEnd_done {l : List (Nat × Nat)} {t : State} {pk : PartKey} (h : u.finishAll pk l = ([], t)) :
    (u.fenceEnd pk l).kerns = t.kerns ∧ (u.fenceEnd pk l).mem = t.mem ∧ ((u.fenceEnd pk l).part pk).marks = { (t.part pk).marks with ending := [] } := by
  simp only [State.fenceEnd, h, ne_eq, not_true_eq_false, if_false, State.part_setPart_self]
  refine ⟨?_, mem_keepAll, ?_⟩
  · exact (kerns_of_books (pk := pk) books_keepAll).trans rfl
  · rw [marks_of_books books_keepAll, State.part_setPart_self]
    rfl

theorem finishAll_waits (hk : u.kerns.get? kk = some k) (hst : k.st = .completing) (hw : (u.doneWaits kk k).1 = true) :
    ∃ t, u.finishAll kk.pk [(kk.lq, kk.seq)] = ([(kk.lq, kk.seq)], t) ∧ t.kerns = u.kerns ∧ t.mem = u.mem := by
  simp only [State.finishAll, State.finishOr, hk, hst, hw]
  refine ⟨_, rfl, ?_⟩
  cases (u.doneWaits kk k).2 with
  | none => exact ⟨rfl, rfl⟩
  | some pg => exact ⟨kerns_of_books (pk := kk.pk) books_askPage, mem_askPage⟩

/-- A kernel once it has ended (16 R372). -/
def Kern.completed (k : Kern) : Kern := { k with st := .complete, status := 1, ended := true }

theorem finishAll_done (hk : u.kerns.get? kk = some k) (hst : k.st = .completing) (hw : (u.doneWaits kk k).1 = false) :
    u.finishAll kk.pk [(kk.lq, kk.seq)]
      = ([], (((((u.updKern kk Kern.completed).promoteAll kk k).unpinCode kk k).putDone kk k 1).endKern kk)) := by
  have hor : u.finishOr ⟨kk.pk, kk.lq, kk.seq⟩
      = (true, ((((u.updKern kk Kern.completed).promoteAll kk k).unpinCode kk k).putDone kk k 1).endKern kk) := by
    simp only [State.finishOr, State.finish, hk, hst, hw, Bool.and_false, Bool.false_eq_true, if_false, if_true]
    rfl
  simp only [State.finishAll, hor, if_true]

/-- A step of a fence that ends one completing kernel: it waits with it, or completes it (16 R371, R372). -/
theorem fenceEnds_fenceEnd (hk : u.kerns.get? kk = some k) (hst : k.st = .completing) :
    FenceEnds u kk k (.next (u.fenceEnd kk.pk [(kk.lq, kk.seq)])) := by
  refine ⟨fun hw => ?_, fun v hw hv hkerns hparts => ?_⟩
  · obtain ⟨t, ht, htk, htm⟩ := finishAll_waits hk hst hw
    refine ⟨_, rfl, ?_⟩
    simp only [State.fenceEnd, ht, ne_eq, List.cons_ne_nil, not_false_eq_true, if_true, State.part_setPart_self]
    exact ⟨trivial, htk, htm⟩
  · obtain ⟨hkern, hmem, hmarks⟩ := fenceEnd_done (finishAll_done hk hst hw)
    have hv' : v = ((u.updKern kk Kern.completed).promoteAll kk k).unpinCode kk k := hv
    rw [← hv'] at hkern hmem hmarks
    have hput : (v.putDone kk k 1).books kk.pk = v.books kk.pk := by simp only [State.books, State.part, hkerns, hparts]
    have hbooks : ((v.putDone kk k 1).endKern kk).books kk.pk = (u.updKern kk Kern.completed).books kk.pk := by
      rw [books_endKern, hput, hv', books_unpinCode, books_promoteAll]
    have hends : ((u.fenceEnd kk.pk [(kk.lq, kk.seq)]).part kk.pk).marks = { (u.part kk.pk).marks with ending := [] } := by
      rw [hmarks, marks_of_books hbooks]
      rfl
    refine ⟨_, k.completed, rfl, ?_, rfl, rfl, rfl, congrArg Marks.ending hends, congrArg Marks.fseq hends, congrArg Marks.fenceReq hends,
      congrArg Marks.fencing hends, hmem.trans mem_endKern⟩
    rw [hkern, kerns_of_books hbooks, State.updKern_kerns, Tab.get?_upd_self, hk]
    rfl

end Sys2Proof.Machine
end

section
/-!
The statement of kernels and fences (16 R360 to R373): one lemma for each clause, in the statement's order.
-/
namespace Sys2Proof.Machine
variable {s : State} {pk : PartKey} {kk : KernKey} {k : Kern}

/-- A complete host entry with the sequence of the tail is the queue's next one (16 R361). -/
theorem hostEntry_eq {n : Nat} {w0 w1 : Word} {q : BitVec 32} {got : RingSlot} (hn : n < 4) (hcap : (s.part pk).lqCap n ≠ 0)
    (hq : q = vecGet (s.part pk).tail n 0) (hgot : (s.part pk).rings.getD (n, q.toNat % (s.part pk).lqCap n) {} = got) (hbytes : got.bytes = 0xFFFF)
    (h0 : s.peekW pk.pkg ((s.part pk).ringAddr n (q.toNat % (s.part pk).lqCap n)) = w0)
    (h1 : s.peekW pk.pkg ((s.part pk).ringAddr n (q.toNat % (s.part pk).lqCap n) + 8) = w1)
    (hw1 : w1.toNat = q.toNat * 2 ^ 32) (hhigh : w0.toNat / 2 ^ 52 = 0) (hlow : w0.toNat % 128 = 0) : s.hostEntry pk n = some got := by
  subst hq
  obtain ⟨hseq, hzero, hf, hl, -⟩ := hostWords hw1 hhigh hlow
  simp only [State.hostEntry, hcap, if_false, hgot, h0, h1, hbytes, hseq, hzero, hf, hl, Nat.not_le.mpr hn]
  simp

theorem launchAccept_accepts {n : Nat} {w0 w1 : Word} {q : BitVec 32} {got : RingSlot} (hsite : s.site = .partLq pk n) (hn : n < 4)
    (hruns : (s.part pk).st.runs = true) (hcap : (s.part pk).lqCap n ≠ 0) (hroom : s.lqRoom pk n ≠ 0) (hq : q = vecGet (s.part pk).tail n 0)
    (hgot : (s.part pk).rings.getD (n, q.toNat % (s.part pk).lqCap n) {} = got) (hbytes : got.bytes = 0xFFFF) (hbefore : s.lqBefore pk n got.at' = false)
    (h0 : s.peekW pk.pkg ((s.part pk).ringAddr n (q.toNat % (s.part pk).lqCap n)) = w0)
    (h1 : s.peekW pk.pkg ((s.part pk).ringAddr n (q.toNat % (s.part pk).lqCap n) + 8) = w1)
    (hw1 : w1.toNat = q.toNat * 2 ^ 32) (hhigh : w0.toNat / 2 ^ 52 = 0) (hlow : w0.toNat % 128 = 0) :
    ∃ t k, exec .launchAccept s = .next t ∧ t.kerns.get? ⟨pk, n, q.toNat⟩ = some k
      ∧ k.st = .accepted ∧ k.pa = w0.toNat ∧ k.srcPriv = got.pf ∧ k.host = true ∧ t.mem = s.mem ∧ t.ctxs = s.ctxs := by
  subst hq
  have hentry := hostEntry_eq hn hcap rfl hgot hbytes h0 h1 hw1 hhigh hlow
  obtain ⟨-, -, -, -, hpa⟩ := hostWords hw1 hhigh hlow
  have hexec : exec .launchAccept s
      = .next ((s.drawBits.2.setPart pk { s.part pk with rings := (s.part pk).rings.del (n, (vecGet (s.part pk).tail n 0).toNat % (s.part pk).lqCap n) }).accept
          pk n { pa := fld w0 7 45 * 128, va := s.drawBits.1.extractLsb' 0 64, srcPriv := got.pf, host := true }) := by
    simp only [exec_launchAccept, execLaunchAccept, hsite, hentry, hroom, hruns, hbefore, decide_false, Bool.not_true, Bool.or_self, Bool.false_eq_true,
      if_false, ← h0]
    rfl
  obtain ⟨hkern, hmem, hctxs⟩ := accept_spec
    (s.drawBits.2.setPart pk { s.part pk with rings := (s.part pk).rings.del (n, (vecGet (s.part pk).tail n 0).toNat % (s.part pk).lqCap n) }) pk n
    { pa := fld w0 7 45 * 128, va := s.drawBits.1.extractLsb' 0 64, srcPriv := got.pf, host := true }
  rw [State.part_setPart_self] at hkern
  exact ⟨_, _, hexec, hkern, rfl, hpa, rfl, rfl, hmem, hctxs⟩

theorem exec_kernelPlacement_head {n : Nat} (hsite : s.site = .partLq pk n) (hfirst : ((List.range (min n 4)).any (s.headMoves pk)) = false) :
    exec .kernelPlacement s = .next (s.placeHead pk n) := by
  simp only [exec_kernelPlacement, execKernelPlacement, hsite, hfirst, Bool.false_eq_true, if_false]

/-- A head with a malformed descriptor is faulted with status 3, and passed (16 R364, R366). -/
theorem kernelPlacement_bad {n : Nat} {k1 : Kern} (hsite : s.site = .partLq pk n) (hkk : kk = ⟨pk, n, (vecGet (s.part pk).head n 0).toNat⟩)
    (hfirst : ((List.range (min n 4)).any (s.headMoves pk)) = false) (hready : HeadReady s pk n k) (hn : n < 4)
    (hk1 : k1 = { k with desc := s.descOf pk k.pa, st := .placing }) (hbad : k1.bad = true) :
    ∃ t k', exec .kernelPlacement s = .next t ∧ t.kerns.get? kk = some k' ∧ k'.st = .faulted ∧ k'.status = 3
      ∧ vecGet (t.part pk).head n 0 = vecGet (s.part pk).head n 0 + 1 ∧ (t.part pk).fenceReq = true := by
  have hplan : s.plan pk { k with desc := s.descOf pk k.pa } = .refused 3 := by
    have hbad' : ({ k with desc := s.descOf pk k.pa } : Kern).bad = true := by
      rw [← hbad, hk1]
      rfl
    simp only [State.plan, hbad', if_true]
  obtain ⟨hkern, hhead, hreq⟩ := kernFault_spec (s := ({ s with kerns := s.kerns.put kk k1 } : State)) (status := 3) (tcode := 0)
    (Tab.get?_put_self s.kerns kk k1) (by rw [hk1]; exact nofun) (by rw [hk1]; exact nofun)
  have hlq : kk.lq < 4 := by rw [hkk]; exact hn
  have hpk : kk.pk = pk := by rw [hkk]
  have hlqn : kk.lq = n := by rw [hkk]
  obtain ⟨hk', hh', hf'⟩ := headOn_spec (s := ({ s with kerns := s.kerns.put kk k1 } : State).kernFault kk 3 0) hlq
  rw [hpk, hlqn] at hh'
  rw [hpk] at hf' hhead hreq
  refine ⟨_, k1.faultedWith 3 0, exec_kernelPlacement_head hsite hfirst, ?_, rfl, rfl, ?_⟩
  · rw [placeHead_refused hready hplan, ← hkk, ← hk1, hk']
    exact hkern
  · rw [placeHead_refused hready hplan, ← hkk, ← hk1, hh', hf', hhead]
    exact ⟨rfl, hreq⟩

/-- A head whose groups find seats and whose queues open runs (16 R366 to R369). -/
theorem kernelPlacement_runs {n : Nat} {k1 : Kern} {pl : Plan} {s1 s2 : State} (hsite : s.site = .partLq pk n)
    (hkk : kk = ⟨pk, n, (vecGet (s.part pk).head n 0).toNat⟩) (hfirst : ((List.range (min n 4)).any (s.headMoves pk)) = false)
    (hready : HeadReady s pk n k) (hk1 : k1 = { k with desc := s.descOf pk k.pa, st := .placing })
    (hplan : s.plan pk { k with desc := s.descOf pk k.pa } = .ok pl)
    (hg : ({ s with kerns := s.kerns.put kk k1 } : State).placeGroups kk k1 pl.groups 0 0 = some s1)
    (hq : s1.openQueues pk (((s1.groups.filter fun e => e.2.kern = kk).map fun e => e.2.die).headD 0) pl.queues = some s2) :
    ∃ t k', exec .kernelPlacement s = .next t ∧ t.kerns.get? kk = some k' ∧ k'.st = .running ∧ k'.fenced = pl.fenced ∧ k'.pinned = pl.code := by
  subst hkk
  obtain ⟨k', hk'⟩ := place_kern (k := { k with desc := s.descOf pk k.pa }) hk1 hg hq
  refine ⟨_, k', exec_kernelPlacement_head hsite hfirst, ?_⟩
  rw [placeHead_ok hready hplan]
  exact hk'

theorem kernelQuiet_completes (hsite : s.site = .kern kk) (hk : s.kerns.get? kk = some k) (hst : k.st = .running)
    (hquiet : ∀ e ∈ s.ctxs, e.2.kern = kk → e.2.st = .ended ∨ s.quiet e.1 e.2 = true) :
    ∃ t, exec .kernelQuiet s = .next t ∧ t.kerns.get? kk = some { k with st := .completing } ∧ (t.part kk.pk).fenceReq = true
      ∧ t.ctxs = s.ctxs ∧ t.mem = s.mem := by
  have hall : (s.ctxs.all fun e => e.2.kern ≠ kk || e.2.st = .ended || s.quiet e.1 e.2) = true := by
    rw [List.all_eq_true]
    intro e he
    by_cases hkern : e.2.kern = kk
    · rcases hquiet e he hkern with h | h <;> simp [h]
    · simp [hkern]
  refine ⟨(s.updKern kk fun k => { k with st := .completing }).reqFence kk.pk, ?_, ?_, ?_, rfl, rfl⟩
  · simp only [exec_kernelQuiet, execKernelQuiet, hsite, hk, hst, hall, decide_true, Bool.and_self, if_true]
  · rw [State.reqFence, State.setPart_kerns, State.updKern_kerns, Tab.get?_upd_self, hk]
    rfl
  · rw [State.reqFence, State.part_setPart_self]

/-- A fence without a record area goes on to its end (16 R372). -/
theorem fenceBegin_bare {p : Part} (hp : s.part pk = p) (hrec : fld p.kfrec 52 12 = 0) :
    s.fenceBegin pk = ((s.setPart pk { p with fenceReq := false }).setPart pk { p with fenceReq := false, fseq := p.fseq + 1 }).fenceEnd pk
      (s.recordOf pk (p.fseq + 1)).ends := by
  simp only [State.fenceBegin, hp, hrec, if_true, State.part_setPart_self]

theorem exec_partitionFence_begin {p : Part} (hsite : s.site = .part pk) (hp : s.part pk = p) (hst : p.st = .resident) (hf : p.fencing = false)
    (he : p.ending = []) (hreq : p.fenceReq = true) : exec .partitionFence s = .next (s.fenceBegin pk) := by
  simp only [exec_partitionFence, execPartitionFence, hsite, hp, hst, hf, he, hreq, ne_eq, not_true_eq_false, Bool.false_eq_true, if_false, if_true]

/-- A fence that ends no kernel only advances the sequence (16 R372). -/
theorem partitionFence_empty {p : Part} {u : State} (hp : s.part pk = p) (hrec : fld p.kfrec 52 12 = 0)
    (hexec : exec .partitionFence s = .next (s.fenceBegin pk))
    (hu : u = ((s.setPart pk { p with fenceReq := false }).setPart pk { p with fenceReq := false, fseq := p.fseq + 1 }))
    (hends : (s.recordOf pk (p.fseq + 1)).ends = []) :
    ∃ t, exec .partitionFence s = .next t ∧ (t.part pk).fseq = p.fseq + 1 ∧ (t.part pk).fenceReq = false ∧ t.kerns = s.kerns ∧ t.mem = s.mem := by
  rw [fenceBegin_bare hp hrec, hends, ← hu] at hexec
  obtain ⟨hkern, hmem, hmarks⟩ := fenceEnd_done (u := u) (pk := pk) (l := []) rfl
  have hpart : u.part pk = { p with fenceReq := false, fseq := p.fseq + 1 } := by rw [hu, State.part_setPart_self]
  rw [hpart] at hmarks
  exact ⟨_, hexec, congrArg Marks.fseq hmarks, congrArg Marks.fenceReq hmarks, hkern.trans (by rw [hu]; rfl), hmem.trans (by rw [hu]; rfl)⟩

theorem part_foldl {α : Type} {j : PartKey} {f : State → α → State} (hf : ∀ s a, (f s a).part j = s.part j) (l : List α) (s : State) :
    (l.foldl f s).part j = s.part j := by
  induction l generalizing s with
  | nil => rfl
  | cons a l ih => rw [List.foldl_cons, ih, hf]

theorem part_trimJournals {j : PartKey} {r : FenceRec} : (s.trimJournals pk r).part j = s.part j := by
  refine part_foldl (fun _ _ => ?_) _ _
  rfl

theorem books_recordPut (u : State) (pk : PartKey) (r : FenceRec) (a : Nat) :
    ((u.setPart pk { u.part pk with recd := some r, recAt := a }).trimJournals pk r).books pk = u.books pk := books_trimJournals.trans (books_setPart rfl)

/-- The record that is written becomes the newest of its slot, and the books of the launch queues stay (16 R373). -/
theorem writeRecord_spec (s : State) (pk : PartKey) (r : FenceRec) :
    (s.writeRecord pk r).books pk = s.books pk ∧ ∃ j, ((s.writeRecord pk r).part pk).recd = some { r with journ := j } := by
  refine ⟨?_, ?_⟩
  · unfold State.writeRecord
    rw [books_recordPut, books_freshen, books_unitWrite, books_recordBytes, books_drawBits]
  · simp only [State.writeRecord, part_trimJournals, State.part_setPart_self]
    exact ⟨_, rfl⟩

/-- A fence whose slot holds its record writes it and is in progress (16 R372, R373). -/
theorem partitionFence_records {p : Part} (hp : s.part pk = p) (hexec : exec .partitionFence s = .next (s.fenceBegin pk)) (hrec : fld p.kfrec 52 12 ≠ 0)
    (hsize : (s.recordOf pk (p.fseq + 1)).size ≤ fld p.kfrec 52 12 * 65536) :
    ∃ t j, exec .partitionFence s = .next t ∧ (t.part pk).fseq = p.fseq + 1 ∧ (t.part pk).fenceReq = false ∧ (t.part pk).fencing = true
      ∧ (t.part pk).recd = some { s.recordOf pk (p.fseq + 1) with journ := j } ∧ t.kerns = s.kerns := by
  have hbegin : s.fenceBegin pk = ((s.setPart pk { p with fenceReq := false }).setPart pk
      { p with fenceReq := false, fseq := p.fseq + 1, fencing := true }).writeRecord pk (s.recordOf pk (p.fseq + 1)) := by
    simp only [State.fenceBegin, hp, hrec, if_false, Nat.not_lt.mpr hsize, State.part_setPart_self]
  rw [hbegin] at hexec
  obtain ⟨hbooks, j, hj⟩ := writeRecord_spec ((s.setPart pk { p with fenceReq := false }).setPart pk
      { p with fenceReq := false, fseq := p.fseq + 1, fencing := true }) pk (s.recordOf pk (p.fseq + 1))
  have hmarks := marks_of_books hbooks
  rw [State.part_setPart_self] at hmarks
  exact ⟨_, j, hexec, congrArg Marks.fseq hmarks, congrArg Marks.fenceReq hmarks, congrArg Marks.fencing hmarks, hj,
    (kerns_of_books hbooks).trans rfl⟩

theorem kctlFault_faults {c : Nat} {v : BitVec 64} {x : Ctx} (hsite : s.site = .ctxV c v) (hx : s.ctxs.get? c = some x)
    (hk : s.kerns.get? x.kern = some k) (hc : k.st ≠ .complete) (hf : k.st ≠ .faulted) :
    ∃ t k', exec .kctlFault s = .next t ∧ t.kerns.get? x.kern = some k' ∧ k'.st = .faulted ∧ k'.status = 2 ∧ k'.tcode = v.extractLsb' 0 9
      ∧ (t.part x.kern.pk).fenceReq = true ∧ ∀ y, t.ctxs.get? c = some y → y.live = false := by
  obtain ⟨hkern, -, hreq⟩ := kernFault_spec (status := 2) (tcode := v.extractLsb' 0 9) hk hc hf
  refine ⟨_, k.faultedWith 2 (v.extractLsb' 0 9), ?_, hkern, rfl, rfl, rfl, hreq, over_kernFault hx hk hc hf⟩
  simp only [exec_kctlFault, execKctlFault, hsite, State.kFault, hx]

/-- Settles O43: each event of a kernel and of a fence, clause by clause. -/
theorem kernelEvents : Obligations.KernelEvents := by
  unfold Obligations.KernelEvents
  refine ⟨?_, ?_, ?_, ?_, ?_, ?_, ?_, ?_⟩
  · exact fun s pk n w0 w1 q got hsite hn hruns hcap hroom hq hgot hbytes hbefore h0 h1 hw1 hhigh hlow =>
      launchAccept_accepts hsite hn hruns hcap hroom hq hgot hbytes hbefore h0 h1 hw1 hhigh hlow
  · intro s pk n kk k k1 hsite hkk hk hruns hne hst hfirst hmov hto hev hk1 halone
    have hready : HeadReady s pk n k := {
      found := hkk ▸ hk
      runs := hruns
      waits := hne
      st := hst
      there := by
        cases hl : (s.pkg pk.pkg).inLocal k.pa 128
        · rfl
        · rw [hmov hl]
          rfl
      target := hto
      sound := hev
      alone := by
        rw [hk1, hkk] at halone
        rcases halone with h | h
        · exact Bool.and_eq_false_imp.mpr fun h' => absurd (h.symm.trans h') nofun
        · rw [h, Bool.and_false] }
    have hn : n < 4 := by
      by_contra hn
      refine hne ?_
      simp [vecGet, Vector.getElem?_eq_none (Nat.le_of_not_lt hn)]
    exact ⟨kernelPlacement_bad hsite hkk hfirst hready hn hk1, fun pl s1 s2 => kernelPlacement_runs hsite hkk hfirst hready hk1⟩
  · exact fun s kk k => kernelQuiet_completes
  · intro s pk p u hsite hp hst hf he hreq hrec hu
    have hexec := exec_partitionFence_begin hsite hp hst hf he hreq
    refine ⟨partitionFence_empty hp hrec hexec hu, fun kk k hpk hk hkst hends => ?_⟩
    subst hpk
    rw [hexec, fenceBegin_bare hp hrec, hends, ← hu]
    exact fenceEnds_fenceEnd (by rw [hu]; exact hk) hkst
  · intro s pk p hsite hp hst hf he hreq hrec hsize
    exact partitionFence_records hp (exec_partitionFence_begin hsite hp hst hf he hreq) hrec hsize
  · intro s pk p r kk k hsite hp hst hpk hk hkst
    subst hpk
    refine ⟨fun hf hr hends => ?_, fun hf hends => ?_⟩
    · have hexec : exec .partitionFence s = .next ((s.setPart kk.pk { p with fencing := false }).fenceEnd kk.pk [(kk.lq, kk.seq)]) := by
        simp only [exec_partitionFence, execPartitionFence, hsite, hp, hst, hf, if_true, State.fenceDone, hr, hends]
      rw [hexec]
      exact fenceEnds_fenceEnd hk hkst
    · have hexec : exec .partitionFence s = .next (s.fenceEnd kk.pk [(kk.lq, kk.seq)]) := by
        simp only [exec_partitionFence, execPartitionFence, hsite, hp, hst, hf, hends, ne_eq, List.cons_ne_nil, not_false_eq_true, Bool.false_eq_true,
          if_false, if_true]
      rw [hexec]
      exact fenceEnds_fenceEnd hk hkst
  · intro s c x hsite hx
    refine ⟨?_, s.reqFence x.pk, ?_, ?_, rfl, rfl, rfl⟩
    · simp only [exec_kctlDone, execKctlDone, hsite, State.kDone, State.updCtx, State.setCtx, Tab.upd_eq_put hx]
    · simp only [exec_kctlFence, execKctlFence, hsite, State.kFence, hx]
    · rw [State.reqFence, State.part_setPart_self]
  · exact fun s c v x k => kctlFault_faults

end Sys2Proof.Machine
end

section
/-!
SUPPORT. What a package is once it has been reset (23 R478): what bring-up leaves free, and what is no longer there.
-/
namespace Sys2Proof.Machine

/-- A key that a filter takes no entry of finds nothing. -/
theorem Tab.get?_filter_none {κ α : Type} [DecidableEq κ] {t : Tab κ α} {k : κ} {p : κ × α → Bool} (h : ∀ v, p (k, v) = false) :
    Tab.get? (t.filter p) k = none :=
  Tab.get?_eq_none.mpr fun ⟨j, v⟩ he hj => by
    have hj' : j = k := hj
    subst hj'
    exact absurd ((List.mem_filter.mp he).2.symm.trans (h v)) nofun

theorem Tab.getD_filter_none {κ α : Type} [DecidableEq κ] {t : Tab κ α} {k : κ} {p : κ × α → Bool} {d : α} (h : ∀ v, p (k, v) = false) :
    Tab.getD (t.filter p) k d = d := by rw [Tab.getD, Tab.get?_filter_none h, Option.getD_none]

/-- A byte that no cell holds reads as zero. -/
theorem Memory.read_eq_zero {a : Nat} : ∀ {m : Memory}, (∀ c ∈ m, c.1 ≠ a) → m.read a = 0#8
  | [], _ => rfl
  | (b, v) :: m, h => by
    have hb : ¬ b = a := h (b, v) List.mem_cons_self
    have hm : Memory.read m a = 0#8 := Memory.read_eq_zero fun c hc => h c (List.mem_cons_of_mem _ hc)
    simp [Memory.read, hb, hm]

theorem Memory.read_clear_in {m : Memory} {lo hi a : Nat} (hlo : lo ≤ a) (hhi : a < hi) : (m.clear lo hi).read a = 0#8 :=
  Memory.read_eq_zero fun c hc hca => by
    have hkeep := (List.mem_filter.mp hc).2
    simp only [hca, Bool.or_eq_true, decide_eq_true_eq] at hkeep
    omega

/-- A package after bring-up, as far as it is not free (23 R478, R481, R489). -/
structure Pkg.Fresh (p : Pkg) : Prop where
  lost : p.lost = false
  mbState : p.mbState = 0
  mbLost : p.mbLost = false
  keys : p.keys = []
  pwrlim : p.pwrlim = 2000
  curlim : p.curlim = 4000
  dies : ∀ i : Nat, ((p.dies[i]?).getD {}).cycle = 0 ∧ ((p.dies[i]?).getD {}).idle = 0

theorem Pkg.Fresh.die {p : Pkg} (h : p.Fresh) (d : Nat) : (p.die d).cycle = 0 ∧ (p.die d).idle = 0 := by
  unfold Pkg.die
  split <;> exact h.dies d

/-- A step that draws free values, and no more. -/
def State.Draws (s t : State) : Prop := ∃ n, t = { s with free := n }

theorem State.Draws.trans {s t u : State} (h : s.Draws t) (h' : t.Draws u) : s.Draws u := by
  obtain ⟨n, rfl⟩ := h
  obtain ⟨m, rfl⟩ := h'
  exact ⟨m, rfl⟩

theorem drawBool_draws (s : State) : s.Draws s.drawBool.2 := ⟨_, rfl⟩
theorem drawNat_draws (s : State) : s.Draws s.drawNat.2 := ⟨_, rfl⟩
theorem drawBits_draws (s : State) : s.Draws s.drawBits.2 := ⟨_, rfl⟩

theorem trainDie_draws (s : State) : s.Draws s.trainDie.2 :=
  (drawBool_draws s).trans ((drawBool_draws _).trans ((drawBool_draws _).trans (drawBits_draws _)))

/-- Bring-up changes no more of the state than the values drawn. -/
theorem bringUp_draws (s : State) (p : Pkg) : s.Draws (s.bringUp p).2 := by
  have hrom : s.Draws s.drawBool.2.drawBool.2 := (drawBool_draws s).trans (drawBool_draws _)
  have hpart : s.Draws s.drawBool.2.drawBool.2.drawNat.2 := hrom.trans (drawNat_draws _)
  unfold State.bringUp
  simp only
  split
  · exact hrom
  · split
    · exact hpart.trans ((trainDie_draws _).trans ((trainDie_draws _).trans ((trainDie_draws _).trans (trainDie_draws _))))
    · exact hpart

theorem bringUp_fresh (s : State) (p : Pkg) : (s.bringUp p).1.Fresh := by
  have hdefault (i : Nat) : (((Vector.replicate 4 ({} : Die))[i]?).getD {}).cycle = 0 ∧ (((Vector.replicate 4 ({} : Die))[i]?).getD {}).idle = 0 := by
    rw [Vector.getElem?_replicate]
    split <;> exact ⟨rfl, rfl⟩
  have htrained (a b c d : State) (i : Nat) : ((#v[a.trainDie.1, b.trainDie.1, c.trainDie.1, d.trainDie.1][i]?).getD {}).cycle = 0
      ∧ ((#v[a.trainDie.1, b.trainDie.1, c.trainDie.1, d.trainDie.1][i]?).getD {}).idle = 0 := by
    match i with
    | 0 | 1 | 2 | 3 => exact ⟨rfl, rfl⟩
    | i + 4 => exact ⟨rfl, rfl⟩
  unfold State.bringUp
  simp only
  split
  · exact ⟨rfl, rfl, rfl, rfl, rfl, rfl, hdefault⟩
  · split
    · exact ⟨rfl, rfl, rfl, rfl, rfl, rfl, htrained _ _ _ _⟩
    · exact ⟨rfl, rfl, rfl, rfl, rfl, rfl, hdefault⟩

/-- A package of which the state holds nothing (23 R478). -/
structure State.Vacated (s : State) (k : Nat) : Prop where
  parts : ∀ n, s.part ⟨k, n⟩ = {}
  ctxs : ∀ e ∈ s.ctxs, e.2.pk.pkg ≠ k
  queues : ∀ m n, s.queue ⟨⟨k, m⟩, n⟩ = {}
  rxs : ∀ m n, s.rx ⟨⟨k, m⟩, n⟩ = {}
  links : ∀ c n, s.link ⟨k, c, n⟩ = Link.reset c
  mem : ∀ a, memKey k 0 ≤ a → a < memKey (k + 1) 0 → s.mem.read a = 0

theorem clearPkg_vacated (s : State) (k : Nat) : (s.clearPkg k).Vacated k where
  parts _ := Tab.getD_filter_none fun _ => by simp
  ctxs e he := by simpa using (List.mem_filter.mp he).2
  queues _ _ := Tab.getD_filter_none fun _ => by simp
  rxs _ _ := Tab.getD_filter_none fun _ => by simp
  links _ _ := Tab.getD_filter_none fun _ => by simp
  mem _ := Memory.read_clear_in

end Sys2Proof.Machine
end

section
/-!
The clauses of device reset and of the power limits (23 R478, R489).
-/
namespace Sys2Proof.Machine
variable {s : State} {k : Nat} {p : Pkg}

theorem pkg_of_get? (h : s.pkgs.get? k = some p) : s.pkg k = p := by rw [State.pkg, Tab.getD, h, Option.getD_some]

theorem deviceReset_resets (hsite : s.site = .pkg k) (hp : s.pkgs.get? k = some p) :
    ∃ t, exec .deviceReset s = .next t ∧ (∀ n, t.part ⟨k, n⟩ = {}) ∧ (∀ e ∈ t.ctxs, e.2.pk.pkg ≠ k) ∧ (∀ m n, t.queue ⟨⟨k, m⟩, n⟩ = {} ∧ t.rx ⟨⟨k, m⟩, n⟩ = {})
      ∧ (t.pkg k).lost = false ∧ (t.pkg k).mbState = 0 ∧ (t.pkg k).mbLost = false ∧ (t.pkg k).keys = [] ∧ (t.pkg k).pwrlim = 2000 ∧ (t.pkg k).curlim = 4000
      ∧ (∀ d, d < 4 → ((t.pkg k).die d).cycle = 0 ∧ ((t.pkg k).die d).idle = 0)
      ∧ (∀ c n, t.link ⟨k, c, n⟩ = Link.reset c) ∧ (s.mem.wf = true → ∀ a, memKey k 0 ≤ a → a < memKey (k + 1) 0 → t.mem.read a = 0) := by
  have hexec : ∃ u : State, exec .deviceReset s = .next (((u.clearPkg k).bringUp (s.pkg k)).2.setPkg k ((u.clearPkg k).bringUp (s.pkg k)).1) := by
    refine ⟨((s.losePackage k).slotsOf k).foldl (fun s pk => if (s.part pk).movedIn then s.vacate (s.otherSlot (s.part pk)) else s) (s.losePackage k), ?_⟩
    simp only [exec_deviceReset, execDeviceReset, hsite, hp, Option.isNone_some, Bool.false_eq_true, if_false]
  obtain ⟨u, hexec⟩ := hexec
  obtain ⟨n, hn⟩ := bringUp_draws (u.clearPkg k) (s.pkg k)
  have hgone := clearPkg_vacated u k
  have hfresh := bringUp_fresh (u.clearPkg k) (s.pkg k)
  rw [hn] at hexec
  refine ⟨_, hexec, hgone.parts, hgone.ctxs, fun m n => ⟨hgone.queues m n, hgone.rxs m n⟩, ?_⟩
  rw [State.pkg_setPkg_self]
  exact ⟨hfresh.lost, hfresh.mbState, hfresh.mbLost, hfresh.keys, hfresh.pwrlim, hfresh.curlim, fun d _ => hfresh.die d, hgone.links, fun _ => hgone.mem⟩

theorem currentLimitTrip_raises (hsite : s.site = .pkg k) (hp : s.pkgs.get? k = some p) :
    ∃ t, exec .currentLimitTrip s = .next t ∧ 4 ≤ (t.pkg k).idleLevel ∧ t.mem = s.mem ∧ t.ctxs = s.ctxs := by
  refine ⟨s.setPkg k { s.pkg k with tripped := true }, ?_, ?_, rfl, rfl⟩
  · simp only [exec_currentLimitTrip, execCurrentLimitTrip, hsite, hp, Option.isSome_some, if_true]
  · rw [State.pkg_setPkg_self]
    exact le_max_left 4 _

theorem currentLimitRelease_ends (hsite : s.site = .pkg k) (hp : s.pkgs.get? k = some p) :
    ∃ t, exec .currentLimitRelease s = .next t ∧ (t.pkg k).idleLevel = p.idleStep ∧ t.mem = s.mem ∧ t.ctxs = s.ctxs := by
  refine ⟨s.setPkg k { s.pkg k with tripped := false }, ?_, ?_, rfl, rfl⟩
  · simp only [exec_currentLimitRelease, execCurrentLimitRelease, hsite, hp, Option.isSome_some, if_true]
  · rw [State.pkg_setPkg_self, pkg_of_get? hp]
    rfl

theorem Pkg.die_setDie_idle {d n : Nat} (hd : d < 4) :
    ((p.setDie d fun t => { t with idle := t.idle + BitVec.ofNat 64 n }).die d).idle = (p.die d).idle + BitVec.ofNat 64 n := by
  have hget : (p.setDie d fun t => { t with idle := t.idle + BitVec.ofNat 64 n }).dies[d]?.getD {} = { p.die d with idle := (p.die d).idle + BitVec.ofNat 64 n } := by
    simp [Pkg.setDie, hd]
  rw [Pkg.die]
  simp only [hget]
  split <;> rfl

theorem Pkg.die_idleStep (q : Pkg) (n d : Nat) : ({ q with idleStep := n } : Pkg).die d = q.die d := rfl

theorem powerIdleAdjust_steps {d n : Nat} (hsite : s.site = .dieN k d n) (hp : s.pkgs.get? k = some p) (hd : d < 4) :
    ∃ t, exec .powerIdleAdjust s = .next t ∧ (t.pkg k).idleStep ≤ p.idleStep + 1 ∧ p.idleStep ≤ (t.pkg k).idleStep + 1
      ∧ ((t.pkg k).die d).idle = (p.die d).idle + (if p.idleLevel = 0 then 0 else BitVec.ofNat 64 n) ∧ t.mem = s.mem ∧ t.ctxs = s.ctxs := by
  have hpk : s.drawNat.2.pkg k = p := pkg_of_get? hp
  have hstep (w : Nat) : (if w % 3 = 0 then p.idleStep - 1 else if w % 3 = 1 then p.idleStep else if p.idleStep < 7 then p.idleStep + 1 else p.idleStep)
      ≤ p.idleStep + 1 ∧ p.idleStep
      ≤ (if w % 3 = 0 then p.idleStep - 1 else if w % 3 = 1 then p.idleStep else if p.idleStep < 7 then p.idleStep + 1 else p.idleStep) + 1 := by
    (repeat' split) <;> omega
  obtain ⟨hle, hge⟩ := hstep s.drawNat.1
  simp only [exec_powerIdleAdjust, execPowerIdleAdjust, hsite, hp, Option.isNone_some, Bool.false_eq_true, if_false, hpk]
  refine ⟨_, rfl, ?_⟩
  generalize (if s.drawNat.1 % 3 = 0 then p.idleStep - 1 else if s.drawNat.1 % 3 = 1 then p.idleStep
    else if p.idleStep < 7 then p.idleStep + 1 else p.idleStep) = step at hle hge ⊢
  rw [State.pkg_setPkg_self]
  refine ⟨hle, hge, ?_, rfl, rfl⟩
  rw [Pkg.die_idleStep]
  split
  · exact (BitVec.add_zero _).symm
  · exact Pkg.die_setDie_idle hd

end Sys2Proof.Machine
end

section
/-!
The clauses of host writes (10 R235, 18 R400, 23 R479 to R482, R487, R489).
-/
namespace Sys2Proof.Machine
variable {s : State} {k : Nat} {p : Pkg}

/-! ### Writes to memory -/

/-- What a write to a memory that is in canonical form leaves: the bytes written, and the others as they were. -/
theorem Memory.read_writeBytes {m : Memory} (hm : m.wf = true) (l : List Byte) (lo a : Nat) :
    (m.writeBytes lo l).read a = if lo ≤ a ∧ a < lo + l.length then l.getD (a - lo) 0 else m.read a := by
  split
  · next h =>
    obtain ⟨n, rfl⟩ := Nat.exists_eq_add_of_le h.1
    have hn : n < l.length := by omega
    rw [Memory.read_writeBytes_in l m lo n hn hm, Nat.add_sub_cancel_left]
    simp [hn]
  · next h => exact Memory.read_writeBytes_out l m lo a hm (by omega)

/-- The space of a package in which a host write stands for memory. -/
def Pkg.holdsHost (p : Pkg) (pa : Nat) : Prop := (∃ d o, p.space pa = .hbm d o) ∨ p.space pa = .lpddr

section
variable {w : Nat × HostWr} {own : Option PartKey} {pa : Nat} {l : List Byte} (hp : s.pkg k = p) (hlost : p.lost = false) (hspace : p.holdsHost pa)
include hp hlost hspace

theorem hostStore_eq : s.hostStore w k own pa l =
    if p.inLocal pa l.length = false then { s with late := s.late.erase w }
    else if s.hostDiscards k own pa l.length = true then ({ s with late := s.late.erase w } : State).report k .discarded
    else if (match s.late with | [] => false | v :: _ => decide (v ≠ w)) = true ∨ (hostLines k pa l.length).filter (s.lineShut .host none) ≠ [] then
      ((hostLines k pa l.length).filter (s.lineShut .host none)).foldl (fun s n => s.arriveAt .host n)
        (if s.late.contains w then s else { s with late := s.late ++ [w] })
    else ({ s with late := s.late.erase w } : State).hostPut k own pa l := by
  unfold State.hostStore
  rcases hspace with ⟨d, o, h⟩ | h <;> simp [hp, hlost, h] <;> rfl

end

theorem late_arriveAll (l : List Nat) (s : State) : (l.foldl (fun s n => s.arriveAt .host n) s).late = s.late := by
  induction l generalizing s with
  | nil => rfl
  | cons n l ih =>
    rw [List.foldl_cons, ih, State.arriveAt]
    split <;> rfl

theorem mem_hostPut (hcap : inCap pa = false) {l : List Byte} : (s.hostPut k none pa l).mem = s.mem.writeBytes (memKey k pa) l := by
  simp [State.hostPut, State.freshen, State.hitCasks, State.poke, State.stamp, hcap]

section
variable {w : HostWr} {pa : Nat} {l : List Byte} (hp : s.pkg k = p) (hlost : p.lost = false) (hw : w = .mem pa l) (hsite : s.site = .host k w)
  (hspace : p.holdsHost pa)
include hp hlost hw hsite hspace

theorem exec_hostWrite_mem : exec .hostWrite s =
    if p.inLocal pa l.length = false then .next { s with late := s.late.erase (k, w) }
    else if s.hostDiscards k none pa l.length = true then .next (({ s with late := s.late.erase (k, w) } : State).report k .discarded)
    else if (match s.late with | [] => false | v :: _ => decide (v ≠ (k, w))) = true ∨ (hostLines k pa l.length).filter (s.lineShut .host none) ≠ [] then
      .next (((hostLines k pa l.length).filter (s.lineShut .host none)).foldl (fun s n => s.arriveAt .host n)
        (if s.late.contains (k, w) then s else { s with late := s.late ++ [(k, w)] }))
    else .next (({ s with late := s.late.erase (k, w) } : State).hostPut k none pa l) := by
  have hexec : exec .hostWrite s = .next (s.hostStore (k, w) k none pa l) := by
    rw [exec_hostWrite, execHostWrite, hsite, hw]
  rw [hexec, hostStore_eq hp hlost hspace]
  simp only [apply_ite Host.Outcome.next]

theorem hostWrite_hole (hlocal : p.inLocal pa l.length = false) : exec .hostWrite s = .next { s with late := s.late.erase (k, w) } := by
  rw [exec_hostWrite_mem hp hlost hw hsite hspace, if_pos hlocal]

variable (hlocal : p.inLocal pa l.length = true)
include hlocal

theorem hostWrite_discarded (hd : s.hostDiscards k none pa l.length = true) :
    exec .hostWrite s = .next (State.report { s with late := s.late.erase (k, w) } k .discarded) := by
  rw [exec_hostWrite_mem hp hlost hw hsite hspace, if_neg (by rw [hlocal]; exact nofun), if_pos hd]

variable (hd : s.hostDiscards k none pa l.length = false)
include hd

theorem hostWrite_waits
    (hwait : (∃ v r, s.late = v :: r ∧ v ≠ (k, w)) ∨ ∃ n ∈ hostLines k pa l.length, s.lineShut .host none n = true) :
    ∃ t, exec .hostWrite s = .next t ∧ (k, w) ∈ t.late ∧ t.mem = s.mem := by
  have hcond : (match s.late with | [] => false | v :: _ => decide (v ≠ (k, w))) = true ∨ (hostLines k pa l.length).filter (s.lineShut .host none) ≠ [] := by
    rcases hwait with ⟨v, r, hlate, hv⟩ | ⟨n, hn, hshut⟩
    · exact .inl (by simp [hlate, hv])
    · exact .inr (List.ne_nil_of_mem (List.mem_filter.mpr ⟨hn, hshut⟩))
  rw [exec_hostWrite_mem hp hlost hw hsite hspace, if_neg (by rw [hlocal]; exact nofun), if_neg (by rw [hd]; exact nofun), if_pos hcond]
  refine ⟨_, rfl, ?_, ?_⟩
  · rw [late_arriveAll]
    split
    · next h => exact List.contains_iff_mem.mp h
    · exact List.mem_append_right _ (List.mem_singleton.mpr rfl)
  · rw [mem_foldl fun _ _ => mem_arriveAt]
    split <;> rfl

theorem hostWrite_written (hfirst : ∀ v r, s.late = v :: r → v = (k, w)) (hopen : ∀ n ∈ hostLines k pa l.length, s.lineShut .host none n = false)
    (hwf : s.mem.wf = true) :
    ∃ t, exec .hostWrite s = .next t
      ∧ ∀ a, t.mem.read a = if memKey k pa ≤ a ∧ a < memKey k pa + l.length then l.getD (a - memKey k pa) 0 else s.mem.read a := by
  have hcap : inCap pa = false := by
    simp only [State.hostDiscards, Bool.or_eq_false_iff] at hd
    exact hd.1.1
  have hcond : ¬ ((match s.late with | [] => false | v :: _ => decide (v ≠ (k, w))) = true
      ∨ (hostLines k pa l.length).filter (s.lineShut .host none) ≠ []) := by
    rintro (h | h)
    · split at h
      · cases h
      · next v r hlate => exact absurd (hfirst v r hlate) (of_decide_eq_true h)
    · exact h (List.filter_eq_nil_iff.mpr fun n hn => by rw [hopen n hn]; exact nofun)
  rw [exec_hostWrite_mem hp hlost hw hsite hspace, if_neg (by rw [hlocal]; exact nofun), if_neg (by rw [hd]; exact nofun), if_neg hcond]
  refine ⟨_, rfl, fun a => ?_⟩
  rw [mem_hostPut hcap]
  exact Memory.read_writeBytes hwf l _ a

end

theorem hostWrite_unbound {n off : Nat} {l : List Byte} {w : HostWr} (hw : w = .vf n off l) (hsite : s.site = .host k w) (hslot : s.vfSlot k n = none) :
    exec .hostWrite s = .next { s with late := s.late.erase (k, w) } := by
  subst hw
  simp only [exec_hostWrite, execHostWrite, hsite, State.vfStore, hslot]

theorem hostWrite_passed {n off : Nat} {l : List Byte} {w : HostWr} {pk : PartKey} (hw : w = .vf n off l) (hsite : s.site = .host k w)
    (hslot : s.vfSlot k n = some pk) (hpast : (areaW (s.part pk).area 30).toNat < off + l.length) :
    exec .hostWrite s = .next { s with late := s.late.erase (k, w) } := by
  subst hw
  simp only [exec_hostWrite, execHostWrite, hsite, State.vfStore, hslot, hpast, decide_true, Bool.or_true, if_true]

/-! ### Writes to registers -/

theorem and_allOnes_64 (v : Word) : v &&& BitVec.allOnes 64 = v := BitVec.and_allOnes

theorem exec_hostWrite_pf {off : Nat} {v : Word} {b : RegBlk} (hp : s.pkg k = p) (hlost : p.lost = false) (hsite : s.site = .host k (.pf off v))
    (hb : regBlk off = some b) (hoff : off % 8 = 0) : exec .hostWrite s =
      .next (if b.writable true = true then s.setPkg k (p.regWrite off v (BitVec.allOnes 64)) else s.report k .discarded) := by
  simp only [exec_hostWrite, execHostWrite, hsite, State.pfStore, hb, hoff, hp, hlost, ne_eq, not_true_eq_false, decide_false, Bool.or_self,
    Bool.false_eq_true, if_false]

theorem hostWrite_readOnly {off : Nat} {v : Word} {b : RegBlk} (hp : s.pkg k = p) (hlost : p.lost = false) (hsite : s.site = .host k (.pf off v))
    (hb : regBlk off = some b) (hro : b.writable true = false) (hoff : off % 8 = 0) : exec .hostWrite s = .next (s.report k .discarded) := by
  rw [exec_hostWrite_pf hp hlost hsite hb hoff, if_neg (by rw [hro]; exact nofun)]

theorem hostWrite_mbcmd {v : Word} (hp : s.pkg k = p) (hlost : p.lost = false) (hsite : s.site = .host k (.pf 0 v)) :
    exec .hostWrite s = .next (s.setPkg k (p.mbStart v)) := by
  rw [(exec_hostWrite_pf hp hlost hsite (b := .mailbox) rfl rfl).trans (congrArg _ (if_pos rfl)), Pkg.regWrite, if_pos rfl, and_allOnes_64]

/-- A write of `mbcmd` to a mailbox that is not busy (23 R481, R482): refused while the package is held, on a bare field die, started, or unknown. -/
theorem mbStart_eq {v : Word} (hidle : p.mbState ≠ 1) : p.mbStart v =
    if p.held = true ∧ fld v 56 8 ≠ 10 then
      { p with mbCmd := v, mbCode := BitVec.ofNat 8 (fld v 56 8), mbState := 3, mbWhy := 5, reports := p.reports ++ [.done] }
    else if p.form = .bare ∧ 4 ≤ fld v 56 8 ∧ fld v 56 8 ≤ 10 then
      { p with mbCmd := v, mbCode := BitVec.ofNat 8 (fld v 56 8), mbState := 3, mbWhy := 4, reports := p.reports ++ [.done] }
    else if 1 ≤ fld v 56 8 ∧ fld v 56 8 ≤ 10 then { p with mbCmd := v, mbCode := BitVec.ofNat 8 (fld v 56 8), mbWhy := 0, mbState := 1 }
    else { p with mbCmd := v, mbCode := BitVec.ofNat 8 (fld v 56 8), mbState := 3, mbWhy := 1, reports := p.reports ++ [.done] } := by
  simp only [Pkg.mbStart, if_neg hidle, Pkg.bare, mbKnown, bne_iff_ne, Bool.and_eq_true, decide_eq_true_eq, and_assoc]

theorem mbStart_idle {v : Word} (hidle : p.mbState ≠ 1) :
    (p.mbStart v).mbCmd = v ∧ (p.mbStart v).mbCode.toNat = fld v 56 8 ∧ (p.mbStart v).mbLost = p.mbLost
      ∧ (if p.held = true ∧ fld v 56 8 ≠ 10 then (p.mbStart v).mbState = 3 ∧ (p.mbStart v).mbWhy = 5
        else if p.form = .bare ∧ 4 ≤ fld v 56 8 ∧ fld v 56 8 ≤ 10 then (p.mbStart v).mbState = 3 ∧ (p.mbStart v).mbWhy = 4
        else if 1 ≤ fld v 56 8 ∧ fld v 56 8 ≤ 10 then (p.mbStart v).mbState = 1 else (p.mbStart v).mbState = 3 ∧ (p.mbStart v).mbWhy = 1) := by
  have hcode : (BitVec.ofNat 8 (fld v 56 8)).toNat = fld v 56 8 := by
    rw [BitVec.toNat_ofNat]
    exact Nat.mod_eq_of_lt (Nat.mod_lt _ (by decide))
  rw [mbStart_eq hidle]
  by_cases hheld : p.held = true ∧ fld v 56 8 ≠ 10
  · simp only [if_pos hheld]
    exact ⟨trivial, hcode, trivial, trivial, trivial⟩
  · by_cases hbare : p.form = .bare ∧ 4 ≤ fld v 56 8 ∧ fld v 56 8 ≤ 10
    · simp only [if_neg hheld, if_pos hbare]
      exact ⟨trivial, hcode, trivial, trivial, trivial⟩
    · by_cases hknown : 1 ≤ fld v 56 8 ∧ fld v 56 8 ≤ 10
      · simp only [if_neg hheld, if_neg hbare, if_pos hknown]
        exact ⟨trivial, hcode, trivial, trivial⟩
      · simp only [if_neg hheld, if_neg hbare, if_neg hknown]
        exact ⟨trivial, hcode, trivial, trivial, trivial⟩

theorem clampN_eq {lo hi : Nat} (h : lo ≤ hi) (n : Nat) : clampN lo hi n = min hi (max lo n) := by
  unfold clampN
  (repeat' split) <;> omega

theorem hostWrite_pwrlim {v : Word} (hp : s.pkg k = p) (hlost : p.lost = false) (hsite : s.site = .host k (.pf 0x10000 v)) :
    ∃ t, exec .hostWrite s = .next t ∧ (t.pkg k).pwrlim.toNat = min 2000 (max 500 (v.toNat % 2048)) ∧ t.mem = s.mem := by
  refine ⟨_, (exec_hostWrite_pf hp hlost hsite (b := .power) rfl rfl).trans (congrArg _ (if_pos rfl)), ?_, rfl⟩
  rw [State.pkg_setPkg_self]
  simp only [Pkg.regWrite, Nat.reduceEqDiff, if_false, if_true, Nat.reduceLeDiff, Nat.reduceLT, and_false, and_allOnes_64, BitVec.not_allOnes,
    BitVec.and_zero, BitVec.zero_or, clampN_eq (show 500 ≤ 2000 by decide), BitVec.toNat_ofNat]
  simp only [fld, Nat.shiftRight_zero]
  omega

theorem hostWrite_curlim {v : Word} (hp : s.pkg k = p) (hlost : p.lost = false) (hsite : s.site = .host k (.pf 0x10008 v)) :
    ∃ t, exec .hostWrite s = .next t ∧ (t.pkg k).curlim.toNat = min 4000 (max 2600 (v.toNat % 8192)) ∧ t.mem = s.mem := by
  refine ⟨_, (exec_hostWrite_pf hp hlost hsite (b := .power) rfl rfl).trans (congrArg _ (if_pos rfl)), ?_, rfl⟩
  rw [State.pkg_setPkg_self]
  simp only [Pkg.regWrite, Nat.reduceEqDiff, if_false, if_true, Nat.reduceLeDiff, Nat.reduceLT, and_false, and_allOnes_64, BitVec.not_allOnes,
    BitVec.and_zero, BitVec.zero_or, clampN_eq (show 2600 ≤ 4000 by decide), BitVec.toNat_ofNat]
  simp only [fld, Nat.shiftRight_zero]
  omega

end Sys2Proof.Machine
end

section
/-!
SUPPORT. What the mailbox commands use (23 R481 to R488): the end of a command, the banks of an area, a slot made vacant, a group to be saved, and the words
that the bytes of a report give.
-/
namespace Sys2Proof.Machine
variable {s : State} {k : Nat} {p : Pkg}

/-! ### The tables -/

/-- The entry of a key in a table whose entries have been changed by their keys. -/
theorem Tab.get?_mapKey {κ α β : Type} [DecidableEq κ] (t : Tab κ α) (f : κ → α → β) (k : κ) :
    Tab.get? (t.map fun e => (e.1, f e.1 e.2)) k = (Tab.get? t k).map (f k) := by
  induction t with
  | nil => rfl
  | cons e t ih =>
    obtain ⟨j, v⟩ := e
    by_cases h : j = k
    · subst h
      simp [Tab.get?]
    · simp [Tab.get?, h, ih]

theorem Tab.get?_append_of_none {κ α : Type} [DecidableEq κ] {t u : Tab κ α} {k : κ} (h : t.get? k = none) : Tab.get? (t ++ u) k = u.get? k := by
  induction t with
  | nil => rfl
  | cons e t ih =>
    obtain ⟨j, v⟩ := e
    by_cases hj : j = k
    · simp [Tab.get?, hj] at h
    · simp only [Tab.get?, hj, if_false] at h
      simp [Tab.get?, hj, ih h]

/-! ### The end of a command -/

theorem mbEnd_pkg {why : Nat} : (s.mbEnd k why).pkg k
    = { s.pkg k with mbState := if why = 0 then 2 else 3, mbWhy := BitVec.ofNat 8 why, reports := (s.pkg k).reports ++ [.done] } := by
  simp only [State.mbEnd, State.report, State.pkg_setPkg_self]

theorem mbEnd_pkg_ne {why j : Nat} (h : j ≠ k) : (s.mbEnd k why).pkg j = s.pkg j := by
  rw [State.mbEnd, State.report, State.pkg_setPkg_ne _ h, State.pkg_setPkg_ne _ h]

@[simp] theorem part_mbEnd {why : Nat} {j : PartKey} : (s.mbEnd k why).part j = s.part j := (rfl)
@[simp] theorem queue_mbEnd {why : Nat} {j : PKey} : (s.mbEnd k why).queue j = s.queue j := (rfl)
@[simp] theorem bank_mbEnd {why : Nat} {j : BankKey} : (s.mbEnd k why).bank j = s.bank j := (rfl)
@[simp] theorem ctxs_mbEnd {why : Nat} : (s.mbEnd k why).ctxs = s.ctxs := (rfl)
@[simp] theorem groups_mbEnd {why : Nat} : (s.mbEnd k why).groups = s.groups := (rfl)
@[simp] theorem shoots_mbEnd {why : Nat} : (s.mbEnd k why).shoots = s.shoots := (rfl)

/-- A command that ends with a reason is refused. -/
theorem mbRefuses_of_exec {i : Instr} {why : Nat} (h : exec i s = .next (s.mbEnd k why)) (hwhy : why ≠ 0) : MbRefuses i s k why := by
  refine ⟨_, h, ?_, fun j hj => mbEnd_pkg_ne hj, rfl, rfl, rfl, rfl, rfl, rfl, rfl⟩
  rw [mbEnd_pkg, if_neg hwhy]

/-- A mailbox with a command under way acts on it (23 R481). -/
theorem mbDo_eq {code : Nat} {f : Nat → MbCmd → State} (hsite : s.site = .pkg k) (hp : s.pkg k = p) (hlost : p.lost = false) (hst : p.mbState = 1)
    (hcode : fld p.mbCmd 56 8 = code) : mbDo s code f = .next (f k ⟨⟨k, fld p.mbCmd 51 5⟩, fld p.mbCmd 0 51⟩) := by
  simp only [mbDo, hsite, hp, hlost, hst, hcode, decide_true, Bool.not_false, Bool.and_self, if_true]

/-! ### Banks -/

theorem BankSt.owner_give (b : BankSt) (n : Nat) : (b.give n).owner = some n := by
  cases b with
  | unowned => rfl
  | owned o =>
    unfold BankSt.give
    by_cases h : o = n <;> simp [h, BankSt.owner]
  | draining o q => rfl
  | scrubbing q => rfl

/-- Each bank that an area names comes to its slot (07 R172, 23 R482). -/
theorem giveBanks_owner {pk : PartKey} {a : Vector Word 32} {b : BankKey} (hb : b ∈ areaBankKeys pk.pkg a) :
    ((s.giveBanks pk a).bank b).owner = some pk.part := by
  have hfold : ∀ (l : List BankKey) (s : State), b ∈ l ∨ (s.bank b).owner = some pk.part →
      ((l.foldl (fun s k => s.setBank k ((s.bank k).give pk.part)) s).bank b).owner = some pk.part := by
    intro l
    induction l with
    | nil => exact fun s h => h.resolve_left (List.not_mem_nil)
    | cons d l ih =>
      intro s h
      refine ih _ ?_
      by_cases hd : b = d
      · subst hd
        exact .inr (by rw [State.bank_setBank_self, BankSt.owner_give])
      · refine h.imp (fun hm => (List.mem_cons.mp hm).resolve_left hd) fun ho => ?_
        exact (congrArg BankSt.owner (Tab.getD_put_ne s.banks _ _ _ _ hd)).trans ho
  exact hfold _ s (.inl hb)

/-! ### A slot made vacant -/

/-- The packages and the banks. -/
def State.ground (s : State) : Tab Nat Pkg × Tab BankKey BankSt := (s.pkgs, s.banks)

theorem pkgs_of_ground {t : State} (h : t.ground = s.ground) : t.pkgs = s.pkgs := congrArg Prod.fst h
theorem banks_of_ground {t : State} (h : t.ground = s.ground) : t.banks = s.banks := congrArg Prod.snd h

theorem ground_foldl {α : Type} {f : State → α → State} (hf : ∀ s a, (f s a).ground = s.ground) (l : List α) (s : State) :
    (l.foldl f s).ground = s.ground := by
  induction l generalizing s with
  | nil => rfl
  | cons a l ih => rw [List.foldl_cons, ih, hf]

theorem ground_poison {j : PKey} : (s.poison j).ground = s.ground := by
  simp only [State.poison]
  split <;> rfl

theorem ground_bindFails {b : BindRec} : (s.bindEnds false b).ground = s.ground := by
  unfold State.bindEnds
  split
  · refine iteInduction (motive := fun t : State => t.ground = s.ground) (fun _ => ?_) fun _ => ground_poison
    rfl
  · exact ground_poison

theorem ground_freeGroupBars {j : PKey} : (s.freeGroupBars j).ground = s.ground := by
  refine ground_foldl (fun _ _ => ?_) _ _
  rfl

theorem ground_freeBars {pk : PartKey} : (s.freeBars pk).ground = s.ground := by
  refine Eq.trans rfl (ground_foldl (f := fun (s : State) (e : PKey × Bar) => (s.setBar e.1 {}).resolveBar e.1 {}) (fun _ _ => ?_) _ s)
  rfl

theorem ground_wipePart {pk : PartKey} : (s.wipePart pk).ground = s.ground := by
  have hbinds (l : List Ctx) (s : State) : (l.foldl (fun s x => s.bindsFail x.allBinds) s).ground = s.ground :=
    ground_foldl (fun _ _ => ground_foldl (fun _ _ => ground_bindFails) _ _) l s
  have hbars (l : List PKey) (s : State) : (l.foldl State.freeGroupBars s).ground = s.ground := ground_foldl (fun _ _ => ground_freeGroupBars) l s
  exact ground_freeBars.trans ((hbars _ _).trans (hbinds _ _))

theorem ground_dropVd {pk : PartKey} : (s.dropVd pk).ground = s.ground := by
  unfold State.dropVd State.vdEnd
  split <;> rfl

theorem pkgs_releaseBanks {pk : PartKey} : (s.releaseBanks pk).pkgs = s.pkgs := rfl

theorem banks_releaseBanks {pk : PartKey} : (s.releaseBanks pk).banks
    = s.banks.map fun e => (e.1, if e.1.pkg = pk.pkg && e.2 = .owned pk.part then BankSt.draining pk.part none else e.2) := by
  refine List.map_congr_left fun e _ => ?_
  split <;> rfl

/-- The packages and the banks that a slot leaves when it becomes vacant. -/
theorem vacate_ground {pk : PartKey} : (s.vacate pk).pkgs = s.pkgs.put pk.pkg ((s.pkg pk.pkg).dropKeys pk.part)
    ∧ (s.vacate pk).banks = (s.releaseBanks pk).banks := by
  have hpkgs : (((s.wipePart pk).releaseBanks pk).dropVd pk).pkgs = s.pkgs := by
    rw [pkgs_of_ground ground_dropVd, pkgs_releaseBanks, pkgs_of_ground ground_wipePart]
  have hbanks : (((s.wipePart pk).releaseBanks pk).dropVd pk).banks = (s.releaseBanks pk).banks := by
    rw [banks_of_ground ground_dropVd, banks_releaseBanks, banks_of_ground ground_wipePart, banks_releaseBanks]
  unfold State.vacate
  simp only [State.setPart_pkgs, State.setPkg_pkgs, State.setPart_banks, State.setPkg_banks, State.pkg, hpkgs, hbanks, and_self]

/-- What a slot leaves when it becomes vacant (21 R446, 23 R482): nothing of it, its keys invalid and its banks draining. -/
structure State.LeftBy (t s : State) (pk : PartKey) : Prop where
  part : (t.part pk).st = .vacant
  pkg : t.pkg pk.pkg = (s.pkg pk.pkg).dropKeys pk.part
  ctxs : ∀ c ∈ t.ctxs, c.2.pk ≠ pk
  queues : ∀ n, t.queue ⟨pk, n⟩ = {}
  banks : ∀ b : BankKey, b.pkg = pk.pkg → s.bank b = .owned pk.part → t.bank b = .draining pk.part none

theorem vacate_leaves (s : State) (pk : PartKey) : (s.vacate pk).LeftBy s pk where
  part := by
    unfold State.vacate
    rw [State.part_setPart_self]
  pkg := by rw [State.pkg, vacate_ground.1, Tab.getD_put_self]
  ctxs c hc := by simpa using (List.mem_filter.mp hc).2
  queues n := Tab.getD_filter_none fun _ => by simp
  banks b hb ho := by
    have hget : s.banks.get? b = some (.owned pk.part) := by
      rw [State.bank, Tab.getD] at ho
      cases h : Tab.get? s.banks b with
      | none => rw [h] at ho; cases ho
      | some x => rw [h] at ho; exact congrArg some ho
    rw [State.bank, Tab.getD, vacate_ground.2, banks_releaseBanks,
      Tab.get?_mapKey s.banks (fun j x => if j.pkg = pk.pkg && x = .owned pk.part then BankSt.draining pk.part none else x), hget]
    simp [hb]

/-- The keys of a slot are invalid once they have been dropped (23 R482, R486). -/
theorem dropKeys_invalid {n i : Nat} (h : ((p.dropKeys n).key i).owner = n) : ((p.dropKeys n).key i).valid = false := by
  have hmap : (p.dropKeys n).keys = p.keys.map fun e => (e.1, if e.2.owner = n then { e.2 with valid := false } else e.2) := by
    refine List.map_congr_left fun e _ => ?_
    split <;> rfl
  rw [Pkg.key, Tab.getD, hmap, Tab.get?_map p.keys (fun x => if x.owner = n then { x with valid := false } else x)] at h ⊢
  cases hk : Tab.get? p.keys i with
  | none => rfl
  | some x =>
    rw [hk] at h
    by_cases hx : x.owner = n
    · simp [hx]
    · simp [hx] at h

/-! ### Groups -/

theorem groups_consider {pk : PartKey} : (s.consider pk).groups = s.groups := by
  simp only [State.consider]
  split <;> rfl

theorem groups_foldl {α : Type} {f : State → α → State} (hf : ∀ s a, (f s a).groups = s.groups) (l : List α) (s : State) :
    (l.foldl f s).groups = s.groups := by
  induction l generalizing s with
  | nil => rfl
  | cons a l ih => rw [List.foldl_cons, ih, hf]

/-- A group that is being saved stays so, or is saved (17 R377). -/
theorem groupSaved_group {gk : PKey} {g : Group} (hg : s.groups.get? gk = some g) (hst : g.st = .saving) :
    ∃ g', (s.groupSaved gk).groups.get? gk = some g' ∧ g'.hold = g.hold ∧ (g'.st = .saving ∨ g'.st = .saved) := by
  simp only [State.groupSaved, hg]
  split
  · rw [groups_consider, State.updGroup_groups, Tab.get?_upd_self, groups_foldl fun _ _ => State.updCtx_groups _ _ _]
    refine ⟨_, congrArg (Option.map _) hg, rfl, .inr rfl⟩
  · exact ⟨g, hg, rfl, .inl hst⟩

/-- A group that is to be saved is saving or saved, and held where that is asked (17 R377, 23 R484). -/
theorem saveGroup_group {gk : PKey} {g : Group} (hg : s.groups.get? gk = some g) :
    ∃ g', (s.saveGroup gk true none).groups.get? gk = some g' ∧ g'.hold = true ∧ (g'.st = .saving ∨ g'.st = .saved) := by
  have hupd : (s.updGroup gk fun g => { g with st := .saving, hold := g.hold || true, preFor := none }).groups.get? gk
      = some { g with st := .saving, hold := g.hold || true, preFor := none } := by
    rw [State.updGroup_groups, Tab.get?_upd_self, hg]
    rfl
  obtain ⟨g', hg', hhold, hst⟩ := groupSaved_group hupd rfl
  exact ⟨g', hg', hhold.trans (Bool.or_true _), hst⟩

/-! ### Words and bytes -/

theorem leBytes_length (n v : Nat) : (leBytes n v).length = n := by
  induction n generalizing v with
  | zero => rfl
  | succ n ih => rw [leBytes, List.length_cons, ih]

theorem leNat_leBytes (n v : Nat) : leNat (leBytes n v) = v % 256 ^ n := by
  induction n generalizing v with
  | zero => rw [leBytes, leNat, Nat.pow_zero, Nat.mod_one]
  | succ n ih =>
    rw [leBytes, leNat, ih, BitVec.toNat_ofNat, pow_succ' 256 n, Nat.mod_mul]

theorem bytesW_leBytes (w : Word) : bytesW (leBytes 8 w.toNat) = w := by
  rw [bytesW, leNat_leBytes]
  exact BitVec.eq_of_toNat_eq (by rw [BitVec.toNat_ofNat]; have := w.isLt; omega)

/-- The words at the head of a list of bytes that begins with theirs. -/
theorem bytesW_dwBytes {ws : List Word} {i : Nat} {w : Word} (h : ws[i]? = some w) (rest : List Byte) :
    bytesW (((dwBytes ws ++ rest).drop (8 * i)).take 8) = w := by
  induction ws generalizing i with
  | nil => cases h
  | cons v ws ih =>
    rw [dwBytes, List.append_assoc]
    cases i with
    | zero =>
      obtain rfl : v = w := Option.some.inj h
      rw [Nat.mul_zero, List.drop_zero, List.take_append_of_le_length (by rw [leBytes_length]),
        List.take_of_length_le (by rw [leBytes_length]), bytesW_leBytes]
    | succ i =>
      rw [Nat.mul_succ, Nat.add_comm, ← List.drop_drop, List.drop_left' (leBytes_length 8 v.toNat)]
      exact ih h

end Sys2Proof.Machine
end

section
/-!
The clauses of the mailbox commands (23 R481 to R488), a section for each command. `hexec` says that the mailbox acts on the command; what it answers is
then a branch of the command's own function.
-/
namespace Sys2Proof.Machine
variable {s : State} {k : Nat} {p : Pkg} {slot : PartKey} {arg : Nat}

/-! ### assign -/

section
variable (hexec : exec .mbAssign s = .next (s.mbAssign k ⟨slot, arg⟩)) (hp : s.pkg k = p)
include hexec

theorem mbAssign_refuses_slot (hst : (s.part slot).st ≠ .vacant) : MbRefuses .mbAssign s k 2 :=
  mbRefuses_of_exec (hexec.trans (congrArg _ (by simp only [State.mbAssign, hst, ne_eq, not_false_eq_true, if_true]))) (by decide)

include hp

theorem mbAssign_refuses_area (hst : (s.part slot).st = .vacant)
    (hbad : p.areaBad p.argArea = true ∨ ∃ i, 32 ≤ i ∧ i < 512 ∧ p.argW i ≠ 0) : MbRefuses .mbAssign s k 1 := by
  refine mbRefuses_of_exec (hexec.trans (congrArg _ ?_)) (by decide)
  have hcond : (p.areaBad p.argArea || (List.range 480).any fun i => p.argW (32 + i) ≠ 0) = true := by
    rcases hbad with h | ⟨i, hlo, hhi, hi⟩
    · rw [h, Bool.true_or]
    · refine Bool.or_eq_true_iff.mpr (.inr (List.any_eq_true.mpr ⟨i - 32, List.mem_range.mpr (by omega), ?_⟩))
      rw [Nat.add_sub_cancel' hlo]
      exact decide_eq_true hi
  simp only [State.mbAssign, hp, hst, ne_eq, not_true_eq_false, if_false]
  exact if_pos hcond

variable (hst : (s.part slot).st = .vacant) (hok : p.areaBad p.argArea = false) (hrest : ∀ i, 32 ≤ i → p.argW i = 0)
include hst hok hrest

theorem mbAssign_eq : exec .mbAssign s = .next (if s.areaTaken slot p.argArea then s.mbEnd k 3 else
    (((s.giveBanks slot p.argArea).setPart slot { st := .resident, area := p.argArea, vdcfg := areaW p.argArea 0, linkadm := (s.part slot).linkadm }).touch
      slot).mbEnd k 0) := by
  have hcond : ¬ (p.areaBad p.argArea || (List.range 480).any fun i => p.argW (32 + i) ≠ 0) = true := by
    simp [hok, hrest]
  rw [hexec]
  simp only [State.mbAssign, hp, hst, ne_eq, not_true_eq_false, if_false]
  exact congrArg _ (if_neg hcond)

theorem mbAssign_refuses_taken (ht : s.areaTaken slot p.argArea = true) : MbRefuses .mbAssign s k 3 :=
  mbRefuses_of_exec ((mbAssign_eq hexec hp hst hok hrest).trans (congrArg _ (if_pos ht))) (by decide)

theorem mbAssign_assigns (hk : slot.pkg = k) (ht : s.areaTaken slot p.argArea = false) :
    ∃ t, exec .mbAssign s = .next t ∧ (t.part slot).st = .resident ∧ (t.part slot).area = p.argArea ∧ (t.part slot).vdcfg = areaW p.argArea 0
      ∧ (∀ b ∈ areaBankKeys k p.argArea, (t.bank b).owner = some slot.part) ∧ (t.pkg k).mbState = 2 ∧ t.mem = s.mem := by
  have hpart (u : State) (q : Part) : ((u.setPart slot q).touch slot).part slot = { q with stamp := (u.setPart slot q).cycle slot.pkg 0 } := by
    rw [State.touch, State.part_setPart_self, State.part_setPart_self]
  refine ⟨_, (mbAssign_eq hexec hp hst hok hrest).trans (congrArg _ (if_neg (by rw [ht]; exact nofun))), ?_, ?_, ?_, fun b hb => ?_, ?_, ?_⟩
  · rw [part_mbEnd, hpart]
  · rw [part_mbEnd, hpart]
  · rw [part_mbEnd, hpart]
  · exact bank_mbEnd.symm ▸ giveBanks_owner (hk ▸ hb)
  · rw [mbEnd_pkg, if_pos rfl]
  · rw [mem_mbEnd, mem_touch, State.setPart_mem, mem_giveBanks]

end

/-! ### clear -/

section
variable (hexec : exec .mbClear s = .next (s.mbClear k ⟨slot, arg⟩))
include hexec

theorem mbClear_refuses (h : ¬ ((s.part slot).st = .failed ∨ (s.part slot).st = .resident ∧ s.hasKern slot = false)) : MbRefuses .mbClear s k 2 := by
  refine mbRefuses_of_exec (hexec.trans (congrArg _ ?_)) (by decide)
  unfold State.mbClear
  cases hst : (s.part slot).st <;> simp_all

theorem mbClear_clears (hk : slot.pkg = k) (h : (s.part slot).st = .failed ∨ (s.part slot).st = .resident ∧ s.hasKern slot = false) :
    ∃ t, exec .mbClear s = .next t ∧ (t.part slot).st = .vacant ∧ (t.pkg k).mbState = 2 ∧ (∀ c ∈ t.ctxs, c.2.pk ≠ slot) ∧ (∀ n, t.queue ⟨slot, n⟩ = {})
      ∧ (∀ i, ((t.pkg k).key i).owner = slot.part → ((t.pkg k).key i).valid = false)
      ∧ (∀ b, b.pkg = k → s.bank b = .owned slot.part → t.bank b = .draining slot.part none) ∧ t.mem = s.mem := by
  subst hk
  have hclear : s.mbClear slot.pkg ⟨slot, arg⟩ = (s.vacate slot).mbEnd slot.pkg 0 := by
    unfold State.mbClear
    rcases h with h | ⟨h, hkern⟩
    · simp only [h]
    · simp only [h, hkern, Bool.false_eq_true, if_false]
  have hleft := vacate_leaves s slot
  refine ⟨_, hexec.trans (congrArg _ hclear), ?_, ?_, ?_, fun n => ?_, fun i => ?_, fun b => ?_, ?_⟩
  · rw [part_mbEnd, hleft.part]
  · rw [mbEnd_pkg, if_pos rfl]
  · rw [ctxs_mbEnd]
    exact hleft.ctxs
  · rw [queue_mbEnd, hleft.queues]
  · rw [mbEnd_pkg, hleft.pkg]
    exact dropKeys_invalid
  · rw [bank_mbEnd]
    exact hleft.banks b
  · rw [mem_mbEnd, mem_vacate]

end

/-! ### preempt -/

section
variable (hexec : exec .mbPreempt s = .next (s.mbPreempt k ⟨slot, arg⟩))
include hexec

theorem mbPreempt_refuses_word (h : argF arg 9 42 ≠ 0) : MbRefuses .mbPreempt s k 1 :=
  mbRefuses_of_exec (hexec.trans (congrArg _ (by simp only [State.mbPreempt, h, ne_eq, not_false_eq_true, if_true]))) (by decide)

variable (h0 : argF arg 9 42 = 0) {gk : PKey} (hgk : gk = objKey slot (argF arg 0 8))
include h0 hgk

theorem mbPreempt_refuses_none (hg : s.groups.get? gk = none) : MbRefuses .mbPreempt s k 2 := by
  subst hgk
  exact mbRefuses_of_exec (hexec.trans (congrArg _ (by simp only [State.mbPreempt, h0, ne_eq, not_true_eq_false, if_false, hg]))) (by decide)

variable {g : Group} (hg : s.groups.get? gk = some g)
include hg

theorem mbPreempt_eq : exec .mbPreempt s = .next (if argF arg 8 1 = 1 then
      (if g.hold = true then ((s.updGroup gk fun q => { q with hold := false }).consider slot).mbEnd k 0 else s.mbEnd k 2)
    else if g.st = .resident ∨ g.st = .collecting then (s.saveGroup gk true none).mbEnd k 0 else s.mbEnd k 2) := by
  subst hgk
  rw [hexec]
  simp only [State.mbPreempt, h0, ne_eq, not_true_eq_false, if_false, hg, Bool.or_eq_true, decide_eq_true_eq]

theorem mbPreempt_refuses_state (hrel : argF arg 8 1 = 0) (hr : g.st ≠ .resident) (hc : g.st ≠ .collecting) : MbRefuses .mbPreempt s k 2 :=
  mbRefuses_of_exec ((mbPreempt_eq hexec h0 hgk hg).trans (by rw [hrel, if_neg (by decide), if_neg (by simp [hr, hc])])) (by decide)

theorem mbPreempt_saves (hrel : argF arg 8 1 = 0) (hst : g.st = .resident ∨ g.st = .collecting) :
    ∃ t g', exec .mbPreempt s = .next t ∧ t.groups.get? gk = some g' ∧ g'.hold = true ∧ (g'.st = .saving ∨ g'.st = .saved) ∧ (t.pkg k).mbState = 2
      ∧ t.mem = s.mem := by
  obtain ⟨g', hg', hhold, hst'⟩ := saveGroup_group hg
  refine ⟨(s.saveGroup gk true none).mbEnd k 0, g', (mbPreempt_eq hexec h0 hgk hg).trans (by rw [hrel, if_neg (by decide), if_pos hst]),
    (by rw [groups_mbEnd, hg']), hhold, hst', ?_, ?_⟩
  · rw [mbEnd_pkg, if_pos rfl]
  · rw [mem_mbEnd, mem_saveGroup]

theorem mbPreempt_refuses_free (hrel : argF arg 8 1 = 1) (hh : g.hold = false) : MbRefuses .mbPreempt s k 2 :=
  mbRefuses_of_exec ((mbPreempt_eq hexec h0 hgk hg).trans (by rw [if_pos hrel, if_neg (by rw [hh]; exact nofun)])) (by decide)

theorem mbPreempt_releases (hrel : argF arg 8 1 = 1) (hh : g.hold = true) :
    ∃ t, exec .mbPreempt s = .next t ∧ t.groups.get? gk = some { g with hold := false } ∧ (t.pkg k).mbState = 2 ∧ t.mem = s.mem := by
  refine ⟨((s.updGroup gk fun q => { q with hold := false }).consider slot).mbEnd k 0,
    (mbPreempt_eq hexec h0 hgk hg).trans (by rw [if_pos hrel, if_pos hh]), ?_, ?_, ?_⟩
  · rw [groups_mbEnd, groups_consider, State.updGroup_groups, Tab.get?_upd_self, hg]
    rfl
  · rw [mbEnd_pkg, if_pos rfl]
  · rw [mem_mbEnd, mem_consider, State.updGroup_mem]

end

end Sys2Proof.Machine
end

section
/-!
The clauses of the commands on the pod's tables, the links, the keys and the report (23 R484, R486, R488), a section for each command.
-/
namespace Sys2Proof.Machine
variable {s : State} {k : Nat} {p : Pkg} {slot : PartKey} {arg : Nat}

/-! ### podmap -/

/-- The words of an argument area that are not zero, entered from a key, give each word at its key. -/
theorem Tab.get?_words (g : Nat → BitVec 32) (c q : Nat) (l : List Nat) :
    (Tab.get? (((l.map fun i => (i, g i)).filter fun w => w.2 ≠ 0).map fun w => (c + w.1, w.2)) (c + q)).getD 0 = if q ∈ l then g q else 0 := by
  induction l with
  | nil => rfl
  | cons i l ih =>
    by_cases hi : i = q
    · subst hi
      by_cases hg : g i = 0
      · simp only [List.map_cons, List.filter_cons, hg, ne_eq, not_true_eq_false, decide_false, Bool.false_eq_true, if_false, List.mem_cons, true_or, if_true]
        rw [ih, hg]
        split <;> rfl
      · simp only [List.map_cons, List.filter_cons, hg, ne_eq, not_false_eq_true, decide_true, if_true, Tab.get?, List.mem_cons, true_or, Option.getD_some]
    · have hq : ¬ q = i := fun h => hi h.symm
      by_cases hg : g i = 0
      · simp only [List.map_cons, List.filter_cons, hg, ne_eq, not_true_eq_false, decide_false, Bool.false_eq_true, if_false, List.mem_cons, hq, false_or]
        exact ih
      · have hne : ¬ c + i = c + q := by omega
        simp only [List.map_cons, List.filter_cons, hg, ne_eq, not_false_eq_true, decide_true, if_true, Tab.get?, hne, if_false, List.mem_cons, hq, false_or]
        exact ih

/-- A package with the pairings of a slot as its argument area gives them (23 R484). -/
def Pkg.withPairings (p : Pkg) (slot : Nat) : Pkg :=
  { p with
    podmap := (p.podmap.filter fun e => e.1 / 1024 ≠ slot)
      ++ (((List.range 1024).map fun q => (q, p.argQ q)).filter fun w => w.2 ≠ 0).map fun w => (1024 * slot + w.1, w.2)
    redirs := p.redirs.filter fun e => e.1 / 1024 ≠ slot }

theorem Pkg.pairing_withPairings {n q : Nat} (hq : q < 1024) : (p.withPairings n).pairing n q = p.argQ q := by
  have hdiv : (1024 * n + q) / 1024 = n := by omega
  rw [Pkg.pairing, Tab.getD, Pkg.withPairings, Tab.get?_append_of_none (Tab.get?_filter_none fun _ => by simp [hdiv]), Tab.get?_words p.argQ,
    if_pos (List.mem_range.mpr hq)]

section
variable (hexec : exec .mbPodmap s = .next (s.mbPodmap k ⟨slot, arg⟩)) (hp : s.pkg k = p)
include hexec

theorem mbPodmap_refuses_number (hnum : argF arg 50 1 = 1) (h : argF arg 10 40 ≠ 0) : MbRefuses .mbPodmap s k 1 :=
  mbRefuses_of_exec (hexec.trans (congrArg _ (by simp only [State.mbPodmap, hnum, if_true, h, ne_eq, not_false_eq_true]))) (by decide)

theorem mbPodmap_numbers (hnum : argF arg 50 1 = 1) (h : argF arg 10 40 = 0) :
    ∃ t, exec .mbPodmap s = .next t ∧ (t.pkg k).num.toNat = argF arg 0 10 ∧ (t.pkg k).mbState = 2 ∧ t.mem = s.mem := by
  refine ⟨(s.setPkg k { s.pkg k with num := BitVec.ofNat 10 arg }).mbEnd k 0,
    hexec.trans (congrArg _ (by simp only [State.mbPodmap, hnum, if_true, h, ne_eq, not_true_eq_false, if_false])), ?_, ?_, rfl⟩
  · rw [mbEnd_pkg, State.pkg_setPkg_self, argF, Nat.pow_zero, Nat.div_one, ← BitVec.toNat_ofNat]
  · rw [mbEnd_pkg, if_pos rfl]

include hp

theorem mbPodmap_refuses_words (hnum : argF arg 50 1 = 0)
    (h : arg ≠ 0 ∨ ∃ q, q < 1024 ∧ ((p.argQ q).extractLsb' 5 26 ≠ 0 ∨ (p.argQ q).getLsbD 31 = true ∧ q = p.num.toNat)) : MbRefuses .mbPodmap s k 1 := by
  have hcond : arg ≠ 0 ∨ (((List.range 1024).map fun q => (q, p.argQ q)).any fun w =>
      decide (w.2.extractLsb' 5 26 ≠ 0) || (w.2.getLsbD 31 && decide (w.1 = p.num.toNat))) = true := by
    refine h.imp_right fun ⟨q, hq, hbad⟩ => List.any_eq_true.mpr ⟨(q, p.argQ q), List.mem_map.mpr ⟨q, List.mem_range.mpr hq, rfl⟩, ?_⟩
    simpa only [Bool.or_eq_true, Bool.and_eq_true, decide_eq_true_eq] using hbad
  refine mbRefuses_of_exec (hexec.trans (congrArg _ ?_)) (by decide)
  simp only [State.mbPodmap, hp, hnum, zero_ne_one, if_false, Bool.or_eq_true, decide_eq_true_eq]
  exact if_pos hcond

theorem mbPodmap_pairs (hzero : arg = 0)
    (hok : ∀ q, q < 1024 → (p.argQ q).extractLsb' 5 26 = 0 ∧ ¬ ((p.argQ q).getLsbD 31 = true ∧ q = p.num.toNat)) :
    ∃ t, exec .mbPodmap s = .next t ∧ (∀ q, q < 1024 → (t.pkg k).pairing slot.part q = p.argQ q) ∧ (t.pkg k).mbState = 2 ∧ t.mem = s.mem := by
  have hcond : ¬ (arg ≠ 0 ∨ (((List.range 1024).map fun q => (q, p.argQ q)).any fun w =>
      decide (w.2.extractLsb' 5 26 ≠ 0) || (w.2.getLsbD 31 && decide (w.1 = p.num.toNat))) = true) := by
    rintro (h | h)
    · exact h hzero
    · obtain ⟨w, hw, hbad⟩ := List.any_eq_true.mp h
      obtain ⟨q, hq, rfl⟩ := List.mem_map.mp hw
      obtain ⟨hlow, hself⟩ := hok q (List.mem_range.mp hq)
      simp only [Bool.or_eq_true, Bool.and_eq_true, decide_eq_true_eq] at hbad
      exact hbad.elim (fun h => h hlow) hself
  have hnum : argF arg 50 1 = 0 := by rw [hzero]; rfl
  refine ⟨(s.setPkg k (p.withPairings slot.part)).mbEnd k 0, hexec.trans (congrArg _ ?_), fun q hq => ?_, ?_, rfl⟩
  · simp only [State.mbPodmap, hp, hnum, zero_ne_one, if_false, Bool.or_eq_true, decide_eq_true_eq]
    exact if_neg hcond
  · rw [mbEnd_pkg, State.pkg_setPkg_self]
    exact Pkg.pairing_withPairings hq
  · rw [mbEnd_pkg, if_pos rfl]

end

/-! ### portmap -/

/-- The word of a port-map entry that an argument gives (23 R484). -/
def portWord (arg slot : Nat) : Word :=
  bitAt (decide (argF arg 13 1 = 1)) 63 ||| at' (argF arg 14 24) 32 ||| at' slot 8 ||| at' (argF arg 0 8) 0

section
variable (hexec : exec .mbPortmap s = .next (s.mbPortmap k ⟨slot, arg⟩)) (hp : s.pkg k = p)

include hexec in
theorem mbPortmap_refuses_word (h : argF arg 8 5 ≠ 0) : MbRefuses .mbPortmap s k 1 :=
  mbRefuses_of_exec (hexec.trans (congrArg _ (by simp only [State.mbPortmap, h, ne_eq, not_false_eq_true, if_true]))) (by decide)

variable {n : Nat} {twice : Prop} (hn : n = 1024 * argF arg 48 3 + argF arg 38 10) (h0 : argF arg 8 5 = 0)
  (htwice : twice = (argF arg 13 1 = 1 ∧ ∃ e ∈ p.portmap, e.1 ≠ n ∧ e.1 / 1024 = argF arg 48 3 ∧ e.2.getLsbD 63 = true ∧ fld e.2 32 24 = argF arg 14 24))
include htwice

theorem portTwice_iff : (decide (argF arg 13 1 = 1) && p.portmap.any fun e =>
    decide (e.1 ≠ n) && decide (e.1 / 1024 = argF arg 48 3) && e.2.getLsbD 63 && decide (fld e.2 32 24 = argF arg 14 24)) = true ↔ twice := by
  rw [htwice, Bool.and_eq_true, decide_eq_true_eq, List.any_eq_true]
  simp only [Bool.and_eq_true, decide_eq_true_eq, and_assoc]

include hexec hp hn h0

theorem mbPortmap_refuses_twice (h : twice) : MbRefuses .mbPortmap s k 3 := by
  refine mbRefuses_of_exec (hexec.trans (congrArg _ ?_)) (by decide)
  simp only [State.mbPortmap, hp, h0, ne_eq, not_true_eq_false, if_false, ← hn]
  exact if_pos ((portTwice_iff htwice).mpr h)

theorem mbPortmap_enters (h : ¬ twice) :
    ∃ t, exec .mbPortmap s = .next t ∧ (t.pkg k).mbState = 2 ∧ (t.pkg k).portmap.get? n
      = some (at' (argF arg 13 1) 63 ||| at' (argF arg 14 24) 32 ||| at' slot.part 8 ||| at' (argF arg 0 8) 0) ∧ t.mem = s.mem := by
  have hvalid : bitAt (decide (argF arg 13 1 = 1)) 63 = at' (argF arg 13 1) 63 := by
    have hlt : argF arg 13 1 < 2 := Nat.mod_lt _ (by decide)
    generalize argF arg 13 1 = v at hlt
    match v with
    | 0 | 1 => rfl
    | v + 2 => omega
  refine ⟨(s.setPkg k { p with portmap := p.portmap.put n (portWord arg slot.part) }).mbEnd k 0, hexec.trans (congrArg _ ?_), ?_, ?_, rfl⟩
  · simp only [State.mbPortmap, hp, h0, ne_eq, not_true_eq_false, if_false, ← hn]
    exact if_neg fun hc => h ((portTwice_iff htwice).mp hc)
  · rw [mbEnd_pkg, if_pos rfl]
  · rw [mbEnd_pkg, State.pkg_setPkg_self, ← hvalid]
    exact Tab.get?_put_self _ _ _

end

/-! ### peer -/

section
variable (hexec : exec .mbPeer s = .next (s.mbPeer k ⟨slot, arg⟩)) (hp : s.pkg k = p)
include hexec

theorem mbPeer_refuses_word (h : argF arg 11 37 ≠ 0) : MbRefuses .mbPeer s k 1 :=
  mbRefuses_of_exec (hexec.trans (congrArg _ (by simp only [State.mbPeer, h, ne_eq, not_false_eq_true, if_true]))) (by decide)

variable (h0 : argF arg 11 37 = 0)
include h0

theorem mbPeer_refuses_used (hv : argF arg 10 1 = 0) (hu : s.peerUsed k (argF arg 48 3) (argF arg 0 10) = true) : MbRefuses .mbPeer s k 3 :=
  mbRefuses_of_exec (hexec.trans (congrArg _ (by simp [State.mbPeer, h0, hv, hu]))) (by decide)

theorem mbPeer_enters (hp : s.pkg k = p) (h : argF arg 10 1 = 1 ∨ s.peerUsed k (argF arg 48 3) (argF arg 0 10) = false) :
    ∃ t, exec .mbPeer s = .next t ∧ (t.pkg k).mbState = 2 ∧ (t.pkg k).peers.get? (1024 * argF arg 48 3 + argF arg 0 10)
      = some { valid := decide (argF arg 10 1 = 1), addrLo := p.argW 0, addrHi := p.argW 1, ident := (p.argW 2).extractLsb' 0 32 } ∧ t.mem = s.mem := by
  have hcond : (!decide (argF arg 10 1 = 1) && s.peerUsed k (argF arg 48 3) (argF arg 0 10)) = false := by
    rcases h with h | h <;> simp [h]
  refine ⟨(s.setPkg k { p with
      peers := p.peers.put (1024 * argF arg 48 3 + argF arg 0 10)
        { valid := decide (argF arg 10 1 = 1), addrLo := p.argW 0, addrHi := p.argW 1, ident := (p.argW 2).extractLsb' 0 32 } }).mbEnd k 0,
    hexec.trans (congrArg _ ?_), ?_, ?_, rfl⟩
  · simp only [State.mbPeer, hp, h0, ne_eq, not_true_eq_false, if_false]
    exact if_neg (by rw [hcond]; exact nofun)
  · rw [mbEnd_pkg, if_pos rfl]
  · rw [mbEnd_pkg, State.pkg_setPkg_self]
    exact Tab.get?_put_self _ _ _

end

/-! ### linkadm -/

section
variable (hexec : exec .mbLinkadm s = .next (s.mbLinkadm k ⟨slot, arg⟩))
include hexec

theorem mbLinkadm_refuses (hlt : arg < 2 ^ 51) (h : 2 ≤ arg) : MbRefuses .mbLinkadm s k 1 := by
  have hne : argF arg 1 50 ≠ 0 := by
    unfold argF
    omega
  exact mbRefuses_of_exec (hexec.trans (congrArg _ (by simp only [State.mbLinkadm, hne, ne_eq, not_false_eq_true, if_true]))) (by decide)

theorem mbLinkadm_sets (h : arg < 2) :
    ∃ t, exec .mbLinkadm s = .next t ∧ (t.part slot).linkadm = decide (arg = 1) ∧ (t.pkg k).mbState = 2 ∧ t.mem = s.mem := by
  have hzero : argF arg 1 50 = 0 := by
    unfold argF
    omega
  have hbit : argF arg 0 1 = arg := by
    unfold argF
    omega
  refine ⟨(s.setPart slot { s.part slot with linkadm := argF arg 0 1 = 1 }).mbEnd k 0,
    hexec.trans (congrArg _ (by simp only [State.mbLinkadm, hzero, ne_eq, not_true_eq_false, if_false])), ?_, ?_, rfl⟩
  · rw [part_mbEnd, State.part_setPart_self, hbit]
  · rw [mbEnd_pkg, if_pos rfl]

end

/-! ### keyset -/

/-- A package with a key in an entry that its argument area gives, whose material leaves the area (23 R484, R486). -/
def Pkg.withKey (p : Pkg) (arg slot : Nat) : Pkg :=
  { p with
    keys := p.keys.put (argF arg 16 13) { valid := true, owner := slot, kind := BitVec.ofNat 2 (argF arg 0 2), mat := Vector.ofFn fun n => p.argW n.val }
    arg := (List.range 8).foldl (fun a n => a.setIfInBounds n 0) p.arg }

theorem zeroed_getElem? (l : List Nat) (a : Vector Word 512) (i : Nat) :
    ((l.foldl (fun a n => a.setIfInBounds n 0) a)[i]?).getD 0 = if i ∈ l then 0 else (a[i]?).getD 0 := by
  induction l generalizing a with
  | nil => rfl
  | cons n l ih =>
    rw [List.foldl_cons, ih, Vector.getElem?_setIfInBounds]
    by_cases hl : i ∈ l
    · simp [hl]
    · by_cases hn : n = i
      · subst hn
        by_cases hi : n < 512 <;> simp [hi]
      · have hn' : ¬ i = n := fun h => hn h.symm
        simp [hl, hn, hn']

section
variable (hexec : exec .mbKeyset s = .next (s.mbKeyset k ⟨slot, arg⟩)) (hp : s.pkg k = p)
include hexec hp

theorem mbKeyset_eq : exec .mbKeyset s = .next (
    if argF arg 2 14 ≠ 0 ∨ argF arg 29 22 ≠ 0 ∨ argF arg 0 2 = 3 then s.mbEnd k 1
    else if (s.part slot).st = .vacant then s.mbEnd k 2
    else if (p.key (argF arg 16 13)).valid = true then s.mbEnd k 3
    else (s.setPkg k (p.withKey arg slot.part)).mbEnd k 0) := by
  rw [hexec]
  simp only [State.mbKeyset, hp, Bool.or_eq_true, decide_eq_true_eq, or_assoc, Pkg.withKey]

variable {bad : Prop} (hb : bad = (argF arg 2 14 ≠ 0 ∨ argF arg 29 22 ≠ 0 ∨ argF arg 0 2 = 3))
include hb

theorem mbKeyset_refuses_word (h : bad) : MbRefuses .mbKeyset s k 1 :=
  mbRefuses_of_exec ((mbKeyset_eq hexec hp).trans (by rw [if_pos (hb ▸ h)])) (by decide)

variable (hok : ¬ bad)
include hok

theorem mbKeyset_refuses_slot (hst : (s.part slot).st = .vacant) : MbRefuses .mbKeyset s k 2 :=
  mbRefuses_of_exec ((mbKeyset_eq hexec hp).trans (by rw [if_neg (hb ▸ hok), if_pos hst])) (by decide)

variable (hst : (s.part slot).st ≠ .vacant)
include hst

theorem mbKeyset_refuses_valid (hv : (p.key (argF arg 16 13)).valid = true) : MbRefuses .mbKeyset s k 3 :=
  mbRefuses_of_exec ((mbKeyset_eq hexec hp).trans (by rw [if_neg (hb ▸ hok), if_neg hst, if_pos hv])) (by decide)

theorem mbKeyset_enters (hv : (p.key (argF arg 16 13)).valid = false) :
    ∃ t n, exec .mbKeyset s = .next t ∧ (t.pkg k).mbState = 2 ∧ n = (t.pkg k).key (argF arg 16 13) ∧ n.valid = true ∧ n.owner = slot.part
      ∧ n.kind.toNat = argF arg 0 2 ∧ (∀ i, i < 8 → n.mat[i]? = some (p.argW i) ∧ (t.pkg k).argW i = 0) ∧ t.mem = s.mem := by
  refine ⟨(s.setPkg k (p.withKey arg slot.part)).mbEnd k 0, { valid := true, owner := slot.part, kind := BitVec.ofNat 2 (argF arg 0 2), mat := Vector.ofFn fun n => p.argW n.val },
    (mbKeyset_eq hexec hp).trans (by rw [if_neg (hb ▸ hok), if_neg hst, if_neg (by rw [hv]; exact nofun)]), ?_, ?_, rfl, rfl, ?_, fun i hi => ⟨?_, ?_⟩, rfl⟩
  · rw [mbEnd_pkg, if_pos rfl]
  · rw [mbEnd_pkg, State.pkg_setPkg_self]
    exact (Tab.getD_put_self _ _ _ _).symm
  · rw [BitVec.toNat_ofNat]
    exact Nat.mod_mod _ _
  · simp [hi]
  · rw [mbEnd_pkg, State.pkg_setPkg_self, Pkg.argW, Pkg.withKey, zeroed_getElem?, if_pos (List.mem_range.mpr hi)]

end

/-! ### keyinv -/

section
variable (hexec : exec .mbKeyinv s = .next (s.mbKeyinv k ⟨slot, arg⟩)) (hp : s.pkg k = p)
include hexec

theorem mbKeyinv_refuses_word (h : argF arg 0 16 ≠ 0 ∨ argF arg 29 22 ≠ 0) : MbRefuses .mbKeyinv s k 1 := by
  refine mbRefuses_of_exec (hexec.trans (congrArg _ ?_)) (by decide)
  simp only [State.mbKeyinv, Bool.or_eq_true, decide_eq_true_eq]
  exact if_pos h

variable {e : KeyEnt} (he : e = p.key (argF arg 16 13)) (h0 : argF arg 0 16 = 0) (h1 : argF arg 29 22 = 0)
include hp he h0 h1

theorem mbKeyinv_refuses_entry (h : e.valid = false ∨ e.owner ≠ slot.part) : MbRefuses .mbKeyinv s k 2 := by
  subst he
  refine mbRefuses_of_exec (hexec.trans (congrArg _ ?_)) (by decide)
  simp only [State.mbKeyinv, hp, h0, h1, ne_eq, not_true_eq_false, decide_false, Bool.or_self, Bool.false_eq_true, if_false]
  exact if_pos (by rcases h with h | h <;> simp [h])

theorem mbKeyinv_begins (hv : e.valid = true) (ho : e.owner = slot.part) (hfree : ∀ h ∈ s.shoots, h.key = none) (hst : p.mbState = 1) :
    ∃ t, exec .mbKeyinv s = .next t ∧ t.shoots.length = s.shoots.length + 1
      ∧ (∃ h ∈ t.shoots, h.key = some (argF arg 16 13) ∧ h.pk = slot ∧ h.page = none) ∧ (t.pkg k).mbState = 1 ∧ t.mem = s.mem := by
  subst he
  have hnone : ¬ (s.shoots.any fun h => decide (h.pk.pkg = k) && h.key.isSome) = true := by
    rintro h
    obtain ⟨x, hx, hkey⟩ := List.any_eq_true.mp h
    rw [hfree x hx] at hkey
    simp at hkey
  have hstays (l : List Blk) (u : State) : (l.foldl (fun s b => (s.discard fun o => o.ctx = b.ctx && o.u = b.u && decide (b.seq ≤ o.seq)).updCtx b.ctx fun x =>
      x.setLane b.u (x.lane b.u).refetch) u).shoots = u.shoots ∧ (l.foldl (fun s b => (s.discard fun o => o.ctx = b.ctx && o.u = b.u
      && decide (b.seq ≤ o.seq)).updCtx b.ctx fun x => x.setLane b.u (x.lane b.u).refetch) u).pkgs = u.pkgs := by
    induction l generalizing u with
    | nil => exact ⟨rfl, rfl⟩
    | cons b l ih => exact ih _
  have hshoots : (s.refetchUses slot none).shoots = s.shoots := (hstays _ s).1
  have hpkgs : (s.refetchUses slot none).pkgs = s.pkgs := (hstays _ s).2
  refine ⟨s.shoot slot none none (some (argF arg 16 13)), hexec.trans (congrArg _ ?_), ?_, ?_, ?_, mem_shoot⟩
  · simp only [State.mbKeyinv, hp, h0, h1, hv, ho, ne_eq, not_true_eq_false, decide_false, Bool.not_true, Bool.or_self, Bool.false_eq_true, if_false]
    exact if_neg hnone
  · simp only [State.shoot, hshoots, List.length_append, List.length_singleton]
  · refine ⟨_, List.mem_append_right _ (List.mem_singleton.mpr rfl), rfl, rfl, rfl⟩
  · simp only [State.shoot, State.pkg, hpkgs]
    exact (congrArg Pkg.mbState hp).trans hst

end

/-! ### attest -/

/-- A report begins with the nonce that the argument area held (23 R488). -/
theorem attested_front (s : State) (k : Nat) (pk : PartKey) : ∃ rest, s.attested k pk = dwBytes ((List.range 4).map (s.pkg k).argW) ++ rest := by
  simp only [State.attested, List.append_assoc]
  exact ⟨_, rfl⟩

section
variable (hexec : exec .mbAttest s = .next (s.mbAttest k ⟨slot, arg⟩)) (hp : s.pkg k = p)
include hexec

theorem mbAttest_refuses (h : arg ≠ 0) : MbRefuses .mbAttest s k 1 :=
  mbRefuses_of_exec (hexec.trans (congrArg _ (by simp only [State.mbAttest, h, ne_eq, not_false_eq_true, if_true]))) (by decide)

include hp

theorem mbAttest_reports (h : arg = 0) :
    ∃ t, exec .mbAttest s = .next t ∧ (t.pkg k).mbState = 2 ∧ (∀ i, i < 4 → (t.pkg k).argW i = p.argW i) ∧ t.mem = s.mem := by
  obtain ⟨rest, hrest⟩ := attested_front s k slot
  refine ⟨(s.setPkg k { s.pkg k with arg := Vector.ofFn fun i => bytesW (((s.attested k slot).drop (8 * i.val)).take 8) }).mbEnd k 0,
    hexec.trans (congrArg _ (by simp only [State.mbAttest, h, ne_eq, not_true_eq_false, if_false])), ?_, fun i hi => ?_, rfl⟩
  · rw [mbEnd_pkg, if_pos rfl]
  · rw [mbEnd_pkg, State.pkg_setPkg_self, Pkg.argW, Vector.getElem?_ofFn, dif_pos (by omega), Option.getD_some, hrest, hp]
    exact bytesW_dwBytes (by simp [hi]) rest

end

end Sys2Proof.Machine
end

section
/-!
The statement of the package (23 R478 to R489), assembled from its clauses.
-/
namespace Sys2Proof.Machine

/-- The clauses of a host write to memory. -/
theorem hostWrite_mem_clauses {s : State} {k : Nat} {p : Pkg} (hp : s.pkg k = p) (hlost : p.lost = false) (pa : Nat) (l : List Byte) (w : HostWr)
    (hw : w = .mem pa l) (hsite : s.site = .host k w) (hspace : (∃ d o, p.space pa = .hbm d o) ∨ p.space pa = .lpddr) :
    (p.inLocal pa l.length = false → exec .hostWrite s = .next { s with late := s.late.erase (k, w) })
    ∧ (p.inLocal pa l.length = true → s.hostDiscards k none pa l.length = true →
      exec .hostWrite s = .next (State.report { s with late := s.late.erase (k, w) } k .discarded))
    ∧ (p.inLocal pa l.length = true → s.hostDiscards k none pa l.length = false →
      ((∃ v r, s.late = v :: r ∧ v ≠ (k, w)) ∨ ∃ n ∈ hostLines k pa l.length, s.lineShut .host none n = true) →
      ∃ t, exec .hostWrite s = .next t ∧ (k, w) ∈ t.late ∧ t.mem = s.mem)
    ∧ (p.inLocal pa l.length = true → s.hostDiscards k none pa l.length = false → (∀ v r, s.late = v :: r → v = (k, w)) →
      (∀ n ∈ hostLines k pa l.length, s.lineShut .host none n = false) → s.mem.wf = true → ∃ t, exec .hostWrite s = .next t
      ∧ ∀ a, t.mem.read a = if memKey k pa ≤ a ∧ a < memKey k pa + l.length then l.getD (a - memKey k pa) 0 else s.mem.read a) :=
  ⟨hostWrite_hole hp hlost hw hsite hspace, hostWrite_discarded hp hlost hw hsite hspace, hostWrite_waits hp hlost hw hsite hspace,
    hostWrite_written hp hlost hw hsite hspace⟩

/-- Settles O47: device reset, host writes, each mailbox command and the power limits, clause by clause. -/
theorem packageEvents : Obligations.PackageEvents := by
  unfold Obligations.PackageEvents
  refine ⟨?_, ?_, ?_, ?_⟩
  · exact fun s k p hsite hp => ⟨deviceReset_resets hsite hp, currentLimitTrip_raises hsite hp, currentLimitRelease_ends hsite hp⟩
  · exact fun s k d n p hsite hp hd => powerIdleAdjust_steps hsite hp hd
  · intro s k p hp hlost
    refine ⟨hostWrite_mem_clauses hp hlost, ?_, ?_, ?_, ?_⟩
    · exact fun n off l w hw hsite => ⟨hostWrite_unbound hw hsite, fun pk => hostWrite_passed hw hsite⟩
    · refine fun v hsite => ⟨fun hbusy => ?_, fun hidle => ?_⟩
      · refine ⟨_, hostWrite_mbcmd hp hlost hsite, ?_, rfl⟩
        rw [State.pkg_setPkg_self, Pkg.mbStart, if_pos hbusy]
      · obtain ⟨hcmd, hcode, hl, hst⟩ := mbStart_idle (v := v) hidle
        exact ⟨_, _, hostWrite_mbcmd hp hlost hsite, State.pkg_setPkg_self _ _ _, rfl, hcmd, hcode, hl, hst⟩
    · exact fun v => ⟨hostWrite_pwrlim hp hlost, hostWrite_curlim hp hlost⟩
    · exact fun off v b hsite hb hro hoff => hostWrite_readOnly hp hlost hsite hb hro hoff
  · intro s k p code slot arg hsite hp hlost hst hcode hslot harg
    have hdo (n : Nat) (f : Nat → MbCmd → State) (hn : code = n) : mbDo s n f = .next (f k ⟨slot, arg⟩) := by
      rw [hslot, harg]
      exact mbDo_eq hsite hp hlost hst (hcode.symm.trans hn)
    have hk : slot.pkg = k := by rw [hslot]
    have hlt : arg < 2 ^ 51 := by
      rw [harg]
      exact Nat.mod_lt _ (by decide)
    refine ⟨fun hn => ?_, fun hn => ?_, fun hn => ?_, fun hn => ?_, fun hn => ?_, fun hn => ?_, fun hn => ?_, fun hn => ?_, fun hn => ?_, fun hn => ?_⟩
    · have hexec : exec .mbAssign s = .next (s.mbAssign k ⟨slot, arg⟩) := hdo 1 _ hn
      exact ⟨mbAssign_refuses_slot hexec, mbAssign_refuses_area hexec hp, fun hv hok hrest =>
        ⟨mbAssign_refuses_taken hexec hp hv hok hrest, mbAssign_assigns hexec hp hv hok hrest hk⟩⟩
    · have hexec : exec .mbClear s = .next (s.mbClear k ⟨slot, arg⟩) := hdo 2 _ hn
      exact ⟨mbClear_refuses hexec, mbClear_clears hexec hk⟩
    · have hexec : exec .mbPreempt s = .next (s.mbPreempt k ⟨slot, arg⟩) := hdo 3 _ hn
      exact ⟨mbPreempt_refuses_word hexec, fun h0 gk hgk => ⟨mbPreempt_refuses_none hexec h0 hgk, fun g hg =>
        ⟨mbPreempt_refuses_state hexec h0 hgk hg, mbPreempt_saves hexec h0 hgk hg, mbPreempt_refuses_free hexec h0 hgk hg,
          mbPreempt_releases hexec h0 hgk hg⟩⟩⟩
    · have hexec : exec .mbPodmap s = .next (s.mbPodmap k ⟨slot, arg⟩) := hdo 4 _ hn
      exact ⟨mbPodmap_refuses_number hexec, mbPodmap_numbers hexec, mbPodmap_refuses_words hexec hp, mbPodmap_pairs hexec hp⟩
    · have hexec : exec .mbPortmap s = .next (s.mbPortmap k ⟨slot, arg⟩) := hdo 5 _ hn
      exact fun n twice hn htwice => ⟨mbPortmap_refuses_word hexec, fun h0 => mbPortmap_refuses_twice hexec hp hn h0 htwice,
        fun h0 => mbPortmap_enters hexec hp hn h0 htwice⟩
    · have hexec : exec .mbPeer s = .next (s.mbPeer k ⟨slot, arg⟩) := hdo 6 _ hn
      exact ⟨mbPeer_refuses_word hexec, mbPeer_refuses_used hexec, fun h0 => mbPeer_enters hexec h0 hp⟩
    · have hexec : exec .mbLinkadm s = .next (s.mbLinkadm k ⟨slot, arg⟩) := hdo 7 _ hn
      exact ⟨mbLinkadm_refuses hexec hlt, mbLinkadm_sets hexec⟩
    · have hexec : exec .mbKeyset s = .next (s.mbKeyset k ⟨slot, arg⟩) := hdo 8 _ hn
      exact fun bad hb => ⟨mbKeyset_refuses_word hexec hp hb, mbKeyset_refuses_slot hexec hp hb, mbKeyset_refuses_valid hexec hp hb,
        mbKeyset_enters hexec hp hb⟩
    · have hexec : exec .mbKeyinv s = .next (s.mbKeyinv k ⟨slot, arg⟩) := hdo 9 _ hn
      exact fun e he => ⟨mbKeyinv_refuses_word hexec, mbKeyinv_refuses_entry hexec hp he,
        fun h0 h1 hv ho hfree => mbKeyinv_begins hexec hp he h0 h1 hv ho hfree hst⟩
    · have hexec : exec .mbAttest s = .next (s.mbAttest k ⟨slot, arg⟩) := hdo 10 _ hn
      exact ⟨mbAttest_refuses hexec, mbAttest_reports hexec hp⟩

end Sys2Proof.Machine
end
